-- ==== Sys2Proof/Word.lean ====
section
/-! DEFINITION. The word types, and the sparse table that numbered things (stations, slices, slots, sessions)
are kept in: an unlisted number reads as the table's default record. -/

namespace Sys2Proof

/-- A character of a line, or a byte of a frame, record or bank. -/
abbrev Byte := BitVec 8

/-- A CRC-16, a check of a line (R95). -/
abbrev W16 := BitVec 16

/-- A status word, a CRC-32, a progress counter, a sequence number. -/
abbrev W32 := BitVec 32

/-- A mask with one bit for each of the 64 stations. -/
abbrev W64 := BitVec 64

/-- Records kept by number. -/
abbrev Tbl (α : Type) := List (Nat × α)

end Sys2Proof
end

