-- ==== Sys2Proof/Syntax.lean ====
section
/-! DEFINITION. The commands: one constructor of `Instr` for each row of spec/opcode_table.json, with the operands that
a Mehroft line or a happening of the world gives. -/

namespace Sys2Proof

/-! ## Names of things -/

/-- The channels of a station, in the order of R90. -/
inductive Chan where
  | ax | fd | la | lb | in0 | in1 | in2 | in3 | out0 | out1
  deriving DecidableEq, Repr

/-- The head objects of R89. -/
inductive HeadObj where
  | tacho1 | tacho2 | mark | zero | rell | relr | loop | key | wakein | wakeout
  deriving DecidableEq, Repr

/-- The timebases of R44; `ax n` is AXnn. -/
inductive TB where
  | ax (n : Nat) | line | time | flash
  deriving DecidableEq, Repr

/-- The engines in the order of R444's codes. -/
inductive Engine where
  | int | net | evt | io | mot | lamp | bud | jrn
  deriving DecidableEq, Repr

/-- The two lanes of Campion (R17). -/
inductive Lane where
  | a | b
  deriving DecidableEq, Repr

/-- The two network paths (R361). -/
inductive Path where
  | a | b
  deriving DecidableEq, Repr

/-- A frame's arrival at a port (R362): the path, the sending node, the path and the sequence number that its PRP trailer names, none without
one, and whether its FCS is wrong. -/
structure Arrival where
  path : Path
  node : Nat
  trailer : Option (Path × Nat)
  fcs : Bool
  deriving DecidableEq, Repr

/-- A frame with a port's arrival data (R362): how it came and its bytes. -/
structure NetFrame where
  via : Arrival
  bytes : List Byte
  deriving DecidableEq, Repr

/-- An IGMP query (R366): how it came, and its group, none for the general query. -/
structure IgmpQuery where
  via : Arrival
  group : Option Nat
  deriving DecidableEq, Repr

/-- The node that a PRP supervision frame names, and the peer unit it is, if any (R363). -/
structure PrpNode where
  node : Nat
  peer : Option (Fin 1024)
  deriving DecidableEq, Repr

/-- The side of a train (R167 SIDE). -/
inductive Side where
  | l | r
  deriving DecidableEq, Repr

/-- The protected switches of a station: feed, load channel LA, load channel LB (R206). -/
inductive Sw where
  | fd | la | lb
  deriving DecidableEq, Repr

/-- The two session modes (R97). -/
inductive Mode where
  | typed | gen
  deriving DecidableEq, Repr

/-- Where a line comes from: a session 0 to 63, or the supervisor line (R108, R112). -/
inductive Port where
  | session (n : Nat)
  | supervisor
  deriving DecidableEq, Repr

/-- The objects a line can name (R89, R504, R505, R507). `nothing` is a well-formed address that names nothing of this
device, such as S70 or S17/LC (R89). -/
inductive Obj where
  | unit | units | peers | safety | twin | net | banks | time | line | session | supervisor
  | st (n : Nat)
  | ch (n : Nat) (c : Chan)
  | sl (n : Nat)
  | bus (n : Nat)
  | cam (n : Nat)
  | camPt (n i : Nat)
  | mark (n : Nat)
  | plat (n : Nat)
  | head (h : HeadObj)
  | tb (t : TB)
  | safeout (n : Nat)
  | safein (n : Nat)
  | unitNo (n : Nat)
  | nothing (text : String)
  deriving DecidableEq, Repr

/-- One member of a station list: Snn or Snn-Smm (R90). -/
structure StRange where
  first : Nat
  last : Nat
  deriving DecidableEq, Repr

/-- `<stations>`: ALL, or a list of stations and ranges (R90). -/
inductive StSel where
  | all
  | items (l : List StRange)
  /-- a list of which ALL is a member; none stands for ALL -/
  | withAll (l : List (Option StRange))
  deriving DecidableEq, Repr

/-- One member of a channel list: one channel over stations, channels within one station, one channel of ALL, an object of another kind, or
an address such as S17/LC that names nothing (R89, R90). -/
inductive ChItem where
  | over (first last : Nat) (c : Chan)
  | within (n : Nat) (c1 c2 : Chan)
  | all (c : Chan)
  | other (o : Obj)
  | nothing (text : String)
  deriving DecidableEq, Repr

/-- `<channels>`: ALL/ch, or a list (R90). -/
inductive ChSel where
  | all (c : Chan)
  | items (l : List ChItem)
  deriving DecidableEq, Repr

/-- A member of a list that names stations and channels (R90). -/
inductive AddrItem where
  | st (r : StRange)
  | ch (i : ChItem)
  | all
  deriving DecidableEq, Repr

/-- The objects of a SET or WATCH line (R495, R497). -/
inductive ObjSel where
  | obj (o : Obj)
  | sts (s : StSel)
  | chs (s : ChSel)
  | mix (l : List AddrItem)
  deriving DecidableEq, Repr

/-! ## Values as written -/

/-- The unit suffixes of R92 and R486. -/
inductive Suf where
  | um | mm | m | umS | mmS | mS | umS2 | mmS2 | mS2 | umS3 | mmS3 | mS3
  | ns | us | ms | s | mA | A | mV | V | vms | mW | W | hz | khz | mJ | J | c | pct
  deriving DecidableEq, Repr

/-- A number as written (R92): the digits as one integer, how many of them stand behind the point, and the suffix. -/
structure Lit where
  mant : Int
  decimals : Nat := 0
  suffix : Option Suf := none
  deriving DecidableEq, Repr

/-- A value of a KEY=value field (R92, R93). -/
inductive Val where
  | num (l : Lit)
  | word (w : String)
  | obj (o : Obj)
  | ip (a b c d : Nat)
  | hexkey (v : Nat)
  /-- a string in quotes, which no key takes (R93) -/
  | str (t : List Byte)
  deriving DecidableEq, Repr

/-- The names of the keys (R504, R505); the same name may serve several kinds of object. -/
inductive Key where
  | SCALE | RATIO | EDIR | SDIR | STEPW | DIRS | PROFILE | SPEED | ACC | DEC | JERK | CREEP | SDEC | FERR | INDEX | REVCNT
  | ITOL | HOME | HOMEDIR | REFPOS | REFMAX | SLMIN | SLMAX | LIMNEG | LIMPOS | LIMSTOP | FACT | FGAP | CAMLAG | IENV
  | ROLE | SIDE | CLOSEDSW | LOCKSW | EDGE | STOWSW | UNLOCK | STEP | STEPCAM | STEPDEP | STEPSTOW | STEPT | STOWT | OPENPOS
  | OSPEED | CSPEED | LOCKZONE | EDGEMUTE | OBSTARM | MARGIN | MARGINMAX | PERSIST | PERSISTMAX | DRIFT | DRIFTMAX | LEARNMAX
  | REOPEN | RECLOSE | RDWELL | UNLOCKT | LOCKT | FINALT | AUTOCLOSE | DOORLAMP | LAMPLOOP | DPOS | DWIDTH | ITYPE | FILTER | TPW
  | WIRE | INRUSH | SLEW | MODE | PWR | UREF | PWMF | PPHASE | ISET | OLDET | OLTHR | OLT | UNOM | BUS
  | PROVED | PWIDTH | ONTHR | PTHR | RESERVE | FAILSAFE | FSPERIOD | FSPHASE | DIMMIN | ULOAD
  | TEST | OWDET | OWT | CNT | GATE | ZFREQ | ZTIME | COUNT | TPULSE
  | PEAK | EWIN | EMAX | GROUP | GPEAK | CAP | ENVK | CRATECAP | TDSTART | TDFULL | DERATEMIN
  | SYSID | SKEY | SMTIMEOUT | TYPE | TO | FROM | IPADDR | MASK | GATEWAY | PTPDOMAIN | PTPROLE | PRIO1 | PRIO2 | ANNINT | ANNTO
  | SYNCINT | DELAYINT | UTCOFF | TLV | RELSRC | RELUNIT | ZEROHOLD | LOOPDELAY | ORIENT | SELMARGIN | PRIOTAG | PEERTO
  | WAKEPULSE | TWIN | N | INTERP | WRAP | X | Y | AUTORETURN | SERVICE | TACHO | DPP | DIR | MARKTOL | MARKWIN | POS
  | START | END | QUOTA | IDLE | HOLD | VALUE
  -- keys of lines that are no configuration keys
  | DIST | FOLLOW | TABLE | MASTER | OFFSET | LEARN | PERIOD | PHASE | DUTY | IFPAST | REPEAT | INTERVAL | HYST | USER | DO
  | RATE | SNAP | WINDOW | SELECT | PT | LEN
  deriving DecidableEq, Repr

/-! ## Lines and their arguments -/

/-- What ended a line when it was framed (R85, R99). -/
inductive Term where
  | crlf | lf | cr
  deriving DecidableEq, Repr

/-- A Mehroft line as it stands in a session's input buffer: the characters before its check (before the terminator when
it has none), the check, the mode under which it was framed (R98) and its terminator. -/
structure Line where
  port : Port
  chars : List Byte
  check : Option W16 := none
  /-- a check that is not four upper-case hex digits, as written (R95, R96) -/
  badCheck : Option (List Byte) := none
  framed : Mode := .gen
  term : Term := .crlf
  /-- the unit part of the line's addresses, when they carry one (R89, R91) -/
  unit : Option Nat := none
  deriving DecidableEq, Repr

/-- The motion keys of a line (16, "Door and motion keys on the line"). -/
structure MotionKeys where
  speed : Option Lit := none
  acc : Option Lit := none
  dec : Option Lit := none
  jerk : Option Lit := none
  profile : Option String := none
  deriving DecidableEq, Repr

/-- The target of a MOVE or JOG line (R489). -/
inductive MoveTgt where
  | pos (l : Lit)
  | dist (l : Lit)
  | speed (l : Lit)
  deriving DecidableEq, Repr

/-- Keys of JOURNAL READ (R457). -/
structure JQuery where
  fromN : Option Nat := none
  toN : Option Nat := none
  since : Option Int := none
  til : Option Int := none
  type : Option Nat := none
  station : Option Nat := none
  count : Nat := 1000
  deriving DecidableEq, Repr

/-- The objects of SHOW that are more than an address (R507, R508). -/
inductive ShowObj where
  | obj (o : Obj)
  | slice (n : Nat)
  | eventTag (t : Nat)
  | eventSlot (n : Nat)
  | sessionN (n : Option Nat)
  | buffer (out : Bool) (offset : Nat)
  | netPeers (first : Nat)
  | camPoint (n : Nat) (i : Option Nat)
  deriving DecidableEq, Repr

/-- Crossing directions (R44, R58). -/
inductive Dir where
  | up | down | any
  deriving DecidableEq, Repr

/-- IFPAST settings (R62). -/
inductive IfPast where
  | fire | wait | miss
  deriving DecidableEq, Repr

/-- A verb form with its arguments: what a pool slot's text holds, what DO embeds (R60), what REPLAY runs again (R431). -/
inductive Verb where
  | opn (sts : StSel) (side : Option Side) (auto : Option Bool)
  | cls (sts : StSel) (side : Option Side)
  | stop (sts : StSel) (hard : Bool)
  | resume (sts : StSel)
  | move (n : Nat) (t : MoveTgt) (k : MotionKeys)
  | follow (n : Nat) (fact : Option Nat)
  | jog (n : Nat) (t : MoveTgt) (k : MotionKeys)
  | ref (n : Nat)
  | refLearn (n : Nat) (times : Nat)
  | cam (n : Nat) (table : Nat) (master : Obj) (offset : Option Lit)
  | lamp (chs : ChSel) (on : Bool)
  | flash (chs : ChSel) (period : Lit) (phase duty : Option Lit)
  | out (chs : ChSel) (on : Bool)
  | proveLearn (o : Obj)
  | proveReturn (o : Obj)
  | proveLoop
  | isolate (sts : StSel) (on : Bool)
  | set (sel : ObjSel) (kvs : List (Key × Val))
  | setLinePos (v : Lit)
  | setTimeValue (v : Lit)
  | setService (n : Nat)
  | setCount (n : Nat) (c : Chan) (v : Lit)
  | get (o : Obj) (ks : List Key)
  | show (o : ShowObj)
  | askUnits
  | askVersion
  | watch (objs : List ObjSel) (rate : Option Lit)
  | budget (o : Obj) (kvs : List (Key × Lit))
  | budgetClear
  | save
  | saveSafety
  | saveBegin
  | saveAbort
  | journalRead (custody : Bool) (q : JQuery)
  | snapshotList
  | snapshotRead (snap start len : Option Nat)
  | snapshotRelease (n : Nat)
  | sleep (system : Bool)
  | wake
  | live
  /-- an AT event: its timebase, trigger and embedded text are in the pool entry and the operation -/
  | event (t : TB)
  | replay (sess : Nat) (snap : Option Nat) (window : Option Lit)
  | pair (n : Nat)
  | pairAttach (source : Option Nat)
  | pairRelease
  | reset
  /-- a verb that DO refuses: AT, CANCEL, RESET, MODE, LOGIN, PAIR (R60) -/
  | banned (name : String)
  deriving DecidableEq, Repr

/-- The arguments of an AT line (16, "AT keys"). -/
structure AtArgs where
  tb : TB
  value : Option Lit := none
  relative : Bool := false
  dir : Option Dir := none
  ifpast : Option IfPast := none
  rep : Bool := false
  interval : Option Lit := none
  period : Option Lit := none
  phase : Option Lit := none
  hyst : Option Lit := none
  count : Option Nat := none
  user : Option Nat := none
  doVerb : Verb
  doText : List Byte
  /-- the unit part of the embedded command's addresses (R494) -/
  doUnit : Option Nat := none
  deriving DecidableEq, Repr

/-! ## What the world supplies with a happening -/

/-- One circuit's samples of the train-line inputs, in mV (R288, R289). -/
structure Circuits where
  zero : Nat := 0
  rell : Nat := 0
  relr : Nat := 0
  key : Nat := 0
  deriving DecidableEq, Repr

/-- The result record a lane sends the other lane (R332): the frame counters it was computed from, the LOOP command, the
enable masks of the eight slices, permission, and the lamp states. -/
structure ResultRec where
  frames : List Nat := []
  loop : Bool := false
  masks : List Byte := []
  permitted : W64 := 0
  /-- dark and known state of the indicators and of LB, each as a proved channel; reserve in use -/
  dark : W64 := 0
  darkB : W64 := 0
  known : W64 := 0
  knownB : W64 := 0
  reserve : W64 := 0
  deriving DecidableEq, Repr

/-- The read-back of a store write (R346, R461): all as written, or the bank, or with SAVE SAFETY a lane's own store, other than written. -/
inductive StoreRead
  | good
  | bank
  | lane (x : Lane)
  deriving DecidableEq, Repr

/-- What a switch's sensors read at one conversion (R215, R216, R223, R226): the current at the amplifier of the low and of the high range in
0.1 mA, the supply and the output voltage in mV (an inductive load draws the output below 0 V), the die in C. -/
structure Conv where
  low : Nat
  high : Nat
  u : Nat
  out : Int
  die : Int
  deriving DecidableEq, Repr

/-- The currents of one conversion at the amplifiers of the low and of the high range, 0.1 mA (R216). -/
structure Amps where
  low : Nat
  high : Nat
  deriving DecidableEq, Repr

/-- What else one conversion reads: the supply and the output voltage in mV, the die in C (R215). -/
structure SwSense where
  u : Nat
  out : Int
  die : Int
  deriving DecidableEq, Repr

/-- The load of a station's sensor supply, or of one of its taps, mA (R277). -/
structure TapLoad where
  tap : Option (Fin 4)
  i : Nat
  deriving DecidableEq, Repr

/-- A reading of a station's field supply, mV (R299). -/
structure FieldSupply where
  n : Fin 64
  u : Nat
  deriving DecidableEq, Repr

/-- The data set a PTP Announce carries (R369, R370). -/
structure PtpSet where
  identity : Nat
  prio1 : Nat
  clockClass : Nat
  accuracy : Nat
  variance : Nat
  prio2 : Nat
  /-- the unit number, when the clock is a unit -/
  unit : Option Nat := none
  domain : Nat := 0
  deriving DecidableEq, Repr

/-- A sample of a digital output (R284, R285): its current in mA, its terminal in mV, its die in C. -/
structure OutSample where
  i : Nat
  u : Nat
  die : Int
  deriving DecidableEq, Repr

/-- A digital output's terminal in mV and its die in C (R285). -/
structure OutSense where
  u : Nat
  die : Int
  deriving DecidableEq, Repr

/-- Kinds of encoder fault (R144). -/
inductive EncFault where
  | illegal | loss
  deriving DecidableEq, Repr

/-- The pulse inputs that -P adds (R288). -/
inductive PulseIn where
  | tacho1 | tacho2 | mark
  deriving DecidableEq, Repr

/-- The frames a PTP master sends (R370). -/
inductive PtpKind where
  | announce | sync | followUp
  deriving DecidableEq, Repr

/-- Where an object is that heat blocks or dimming concerns: a slice, or the whole unit (R309, R317). -/
inductive HeatObj where
  | slice (n : Fin 8)
  | unit
  deriving DecidableEq, Repr

/-- The causes a lane's background tests give (R340). -/
inductive LaneTest where
  | memory | program | config | cpu | clock | supply
  deriving DecidableEq, Repr

/-- The outcome of a closed relay (R379). -/
inductive RelayEnd where
  | resumed | refused
  deriving DecidableEq, Repr

/-- A value of a configuration key in the key's internal unit. -/
inductive KVal where
  | unset
  | i (n : Int)
  | w (s : String)
  | st (n : Nat)
  | u (n : Nat)
  deriving DecidableEq, Repr

/-- Key values by object and key; an unlisted pair has the key table's default. -/
abbrev KMap := List ((Obj × Key) × KVal)

/-- The content of a configuration bank other than its header (R460): the set as its lines that differ from default, the
twin of its PAIR line, the safety image (without SKEY) and the commissioning profiles it carries (R388). -/
structure BankSet where
  text : KMap := []
  twin : Option Nat := none
  safety : Option KMap := none
  profiles : List (Nat × List Int × List Int) := []
  deriving DecidableEq, Repr

/-! ## The commands -/

/-- One constructor per row of spec/opcode_table.json, in the table's order. -/
inductive Instr where
  -- verbs of lines
  | opn (l : Line) (sts : StSel) (side : Option Side) (auto : Option Bool)
  | cls (l : Line) (sts : StSel) (side : Option Side)
  | stop (l : Line) (sts : StSel) (hard : Bool)
  | resume (l : Line) (sts : StSel)
  | move (l : Line) (n : Nat) (t : MoveTgt) (k : MotionKeys)
  | moveFollow (l : Line) (n : Nat) (fact : Option Nat)
  | jog (l : Line) (n : Nat) (t : MoveTgt) (k : MotionKeys)
  | ref (l : Line) (n : Nat)
  | refLearn (l : Line) (n : Nat) (times : Nat)
  | cam (l : Line) (n : Nat) (table : Nat) (master : Obj) (offset : Option Lit)
  | lamp (l : Line) (chs : ChSel) (on : Bool)
  | flash (l : Line) (chs : ChSel) (period : Lit) (phase duty : Option Lit)
  | out (l : Line) (chs : ChSel) (on : Bool)
  | proveLearn (l : Line) (o : Obj)
  | proveReturn (l : Line) (o : Obj)
  | proveLoop (l : Line)
  | isolateOn (l : Line) (sts : StSel)
  | isolateOff (l : Line) (sts : StSel)
  | set (l : Line) (sel : ObjSel) (kvs : List (Key × Val))
  | setLinePos (l : Line) (v : Lit)
  | setTimeValue (l : Line) (v : Lit)
  | setService (l : Line) (n : Nat)
  | setCount (l : Line) (n : Nat) (c : Chan) (v : Lit)
  | get (l : Line) (o : Obj) (ks : List Key)
  | show (l : Line) (o : ShowObj)
  | askUnits (l : Line)
  | askVersion (l : Line)
  | atEvent (l : Line) (a : AtArgs)
  | watch (l : Line) (objs : List ObjSel) (rate : Option Lit)
  | cancel (l : Line) (tag : Option Nat)
  | budget (l : Line) (o : Obj) (kvs : List (Key × Lit))
  | budgetClear (l : Line)
  | save (l : Line)
  | saveSafety (l : Line)
  | saveBegin (l : Line)
  | saveAbort (l : Line)
  | journalRead (l : Line) (q : JQuery)
  | journalReadCustody (l : Line) (q : JQuery)
  | journalSnapshotList (l : Line)
  | journalSnapshot (l : Line) (snap start len : Option Nat)
  | journalSnapshotRelease (l : Line) (n : Nat)
  | pair (l : Line) (n : Nat)
  | pairAttach (l : Line) (source : Option Nat)
  | pairRelease (l : Line)
  | sleep (l : Line) (system : Bool)
  | wake (l : Line)
  | resetSession (l : Line) (n : Option Nat)
  | resetEngine (l : Line) (e : Engine)
  | resetSlice (l : Line) (n : Nat)
  | resetUnit (l : Line)
  | resetPower (l : Line)
  | replay (l : Line) (sess : Nat) (snap : Option Nat) (window : Option Lit)
  | live (l : Line)
  | liveSupervisorLine (l : Line)
  | modeTyped (l : Line)
  | modeGen (l : Line) (rcheck : Option Bool)
  | loginSafety (l : Line)
  | loginOff (l : Line)
  | loginResume (l : Line) (n : Nat) (token : W32)
  | loginEnd (l : Line)
  -- sessions and their transport
  | typedModeEditing (n : Fin 64) (b : Byte)
  | sessionOpen
  | connectionClosed (n : Fin 64)
  | holdExpiry (n : Fin 64)
  | idleTimeout (n : Fin 64)
  | outputBufferDrained (n : Fin 64) (lines : Nat)
  -- events and timebases
  | eventFire
  | eventRearm (slot : Nat)
  | markPulse
  | markMissed (entry : Nat)
  | tachoFault
  | tachoDualMismatch
  | encoderFault (n : Fin 64) (k : EncFault)
  | followingError (n : Fin 64)
  | indexPulse (n : Fin 64)
  | indexMissing (n : Fin 64)
  | limitSwitch (n : Fin 64) (positive : Bool)
  | heldPositionDrift (n : Fin 64)
  | fdOffDuringMotion (n : Fin 64)
  | stepLaneSilence (p : Fin 8)
  | coarseStepEdge (n : Fin 64) (positive : Bool) (sub : Fin 1500)
  | camMasterUpdate (n : Fin 64)
  | camLagExceeded (n : Fin 64)
  | motionComplete (n : Fin 64)
  | axisStandstill (n : Fin 64)
  | stepLate
  -- the door cycle
  | lockswOpens (n : Fin 64)
  | unlocktExpiry (n : Fin 64)
  | lockzonePassedUp (n : Fin 64)
  | openposReached (n : Fin 64)
  | lockZoneEntry (n : Fin 64)
  | closedswMakes (n : Fin 64)
  | lockswMakes (n : Fin 64)
  | locktExpiry (n : Fin 64)
  | finaltExpiry (n : Fin 64)
  | forceObstacle (n : Fin 64) (current : Int)
  | edgeObstacle (n : Fin 64)
  | reopenComplete (n : Fin 64)
  | rdwellExpiry (n : Fin 64)
  | autocloseExpiry (n : Fin 64)
  | forcedOpen (n : Fin 64)
  | stepDeploy (n : Fin 64)
  | stepStow (n : Fin 64)
  | steptExpiry (n : Fin 64)
  | stowswMakes (n : Fin 64)
  | stowtExpiry (n : Fin 64)
  | permissionLost (n : Fin 64)
  -- budgets
  | admissionTick
  | admissionWaitExceeded (n : Fin 64)
  | dimRestore (o : HeatObj)
  | deratingUpdate
  | groupReportSend
  | budgetFrameReceived (f : NetFrame)
  | tentativeStartInstant (n : Fin 64)
  | reservationRenew (n : Fin 64)
  | reservationExpired (source id : Nat)
  -- Campion
  | laneSafetyCycle (x : Lane) (own : Circuits) (peer : Option ResultRec)
  | crossLaneSilence
  | loopdelayExpiry (x : Lane)
  | readbackJudgement (x : Lane) (loopA loopB : Bool)
  | backstopTrip (n : Fin 64) (current : Int)
  | laneVerdictMismatch (x : Lane) (n : Fin 64) (b : Bool)
  | changeoverNotCarriedOut (x : Lane) (n : Fin 64)
  | laneSelfTestFailure (x : Lane) (t : LaneTest)
  | loopTest23h
  | loopTest24h
  | currentSenseTest (n : Fin 64) (w : Sw) (low high : Int)
  | enableMask (x : Lane) (p : Fin 8) (mask : Byte)
  | enableMaskMissing (x : Lane) (p : Fin 8)
  | safetyMessageSend
  | safetyMessageReceived (f : NetFrame)
  | safetyConnectionTimeout (entry : Fin 16)
  | trainLineDisagreement (h : HeadObj)
  | keyInactive
  -- lamps and switches
  | lampDarkLit (n : Fin 64) (b : Bool) (c : Conv)
  | provingPulse (n : Fin 64) (b : Bool) (cs : List Conv)
  | voidPulseRepeat (n : Fin 64) (b : Bool) (cs : List Conv)
  | flashEdge (n : Fin 64) (b : Bool)
  | pwmPeriodStart (n : Fin 64) (b : Bool) (u : Nat)
  | turnOnRampEnd (n : Fin 64) (w : Sw) (c : Conv)
  | inrushWindowClose (n : Fin 64) (w : Sw)
  | toneTrip (n : Fin 64) (w : Sw) (c : Conv)
  | fuseTrip (n : Fin 64) (w : Sw) (c : Conv)
  | shortTrip (n : Fin 64) (w : Sw) (c : Conv)
  | tjTrip (n : Fin 64) (w : Sw) (c : Conv)
  | clampLock (n : Fin 64) (w : Sw) (c : Conv)
  | underVoltageOff (n : Fin 64) (w : Sw) (c : Conv)
  | underVoltageRestart (n : Fin 64) (w : Sw) (c : Conv)
  | openLoad (n : Fin 64) (w : Sw) (c : Conv)
  | compliance (n : Fin 64) (b : Bool) (c : Conv)
  -- field inputs and outputs, slices
  | inputFilteredChange (n : Fin 64) (k : Fin 4) (u : Nat)
  | testPulse (n : Fin 64) (tap : Fin 4) (reading : Fin 16)
  | openWire (n : Fin 64) (k : Fin 4) (u : Nat)
  | inputOverVoltage (n : Fin 64) (k : Fin 4) (u : Nat)
  | sensorSupplyOverload (n : Fin 64) (l : TapLoad)
  | sensorSupplyRetry (n : Fin 64) (tap : Option (Fin 4)) (i : Nat)
  | frequencyGateEnd (n : Fin 64) (second : Bool)
  | outputDiagnostic (n : Fin 64) (second : Bool) (i : Nat) (x : OutSense)
  | overloadRestart (n : Fin 64) (second : Bool)
  | outputTestPulse (n : Fin 64) (second : Bool) (u : Nat)
  | downlinkFrame (p : Fin 8) (bytes : List Byte)
  | uplinkFrame (p : Fin 8) (bytes : List Byte)
  | failSafeApplied (p : Fin 8)
  | sliceLinkLost (p : Fin 8)
  | sliceAbsent (p : Fin 8)
  | linkReturn (p : Fin 8) (bytes : List Byte)
  | sliceSelfTestEnd (p : Fin 8) (passed : Bool)
  | sliceReturn (p : Fin 8)
  -- power and start-up
  | crateInputLow
  | holdUpEnd
  | crateInputReturn
  | powerRestore
  | headStart (plug : Fin 2048)
  | elementTest (p : Fin 8) (readA readB : Byte)
  | headMemoryTestEnd (passed : Bool)
  | startUpComplete
  | engineResetEnd
  -- network and time
  | announceSend
  | announceReceived (f : NetFrame)
  | conflictClear (unit : Fin 1024)
  | phyLinkChange (p : Path) (up : Bool)
  | pathSupervisionTimeout (p : Path) (peer : Option (Fin 1024))
  | peerSilent (unit : Fin 1024)
  | ptpSync (p : Path) (master : Nat) (offset : Int)
  | ptpSyncMissed (p : Path)
  | ptpAnnounceTimeout
  | flashAlignmentLost
  | relayReply (relay : Nat) (tag : Option Nat) (final : Bool) (text : String)
  | relayClosed (relay : Nat) (e : RelayEnd)
  -- twins, sleep, wake
  | heartbeatSend
  | heartbeatReceived (f : NetFrame)
  | partnerSilent
  | offerSend
  | offerReceived (f : NetFrame)
  | pullReceived (f : NetFrame)
  | twinBlockSend
  | configurationBlock (f : NetFrame) (whole : BankSet)
  | journalBlock (f : NetFrame)
  | releaseReceived (f : NetFrame)
  | releaseAcknowledgement (f : NetFrame)
  | proposeReceived (f : NetFrame)
  | voteReceived (f : NetFrame)
  | voteTimeout
  | electorDeadline
  | commitReceived (f : NetFrame)
  | wakeFrameReceived (f : NetFrame)
  | commitInstant
  | supervisorCommitFallback
  | wakein (u : Nat)
  | boot
  -- stores
  | journalFlush
  | bankWriteComplete (read : StoreRead)
  -- the fine edges
  | encoderEdge (n : Fin 64) (up : Bool)
  | tachoEdge (i : PulseIn) (u : Nat) (forward : Bool)
  | countedEdge (n : Fin 64) (second : Bool) (rising : Bool) (sub : Fin 1500)
  | stepEdge (n : Fin 64)
  | rangeChange (n : Fin 64) (w : Sw) (i : Amps) (x : SwSense)
  | lampClear (n : Fin 64) (b : Bool) (c : Conv)
  | sliceSeated (p : Fin 8) (type : Fin 4) (serial : Nat) (insertions : W16)
  | slicePowerRestore (p : Fin 8)
  | sensorSupplyStart (x : FieldSupply)
  | sensorSupplyOvertemp (n : Fin 64) (die : Int)
  | sensorSupplyOvertempRestart (n : Fin 64) (die : Int)
  | laneSelfTestEnd (x : Lane) (passed : Bool) (configEqual : Bool)
  | learnLitPhaseEnd (p k : Fin 8) (b : Bool)
  | watchRateInterval (slot : Nat) (o : Obj)
  | wakepulseEnd
  | pairPendingTimeout
  | attachOfferTimeout
  | releaseFrameRetry
  | wakeBootTimeout
  | replayWindowExpiry
  | prpSupervisionSend
  | prpSupervisionReceived (p : Path) (x : PrpNode)
  | ptpAnnounceReceived (p : Path) (d : PtpSet)
  | ptpMasterSend (k : PtpKind)
  | ptpDelayReqReceived (p : Path)
  | igmpQuery (q : IgmpQuery)
  | igmpMembershipReport
  | arpIcmpRequest (a : Arrival) (icmp : Bool)
  | unknownVerb (l : Line) (formError : Option String)
  | commentLine (l : Line)
  deriving DecidableEq, Repr

end Sys2Proof
end

