-- ==== Sys2Proof/Config.lean ====
section
/-! DEFINITION. What the manual leaves open and an implementation fixes: constants with no body, so that a proof
holds whatever they are. Each is applied to a counter of the state or to the operands it depends on, and is named
in the assumption log. -/

namespace Sys2Proof.Config

/-- The token drawn at random for each session (R108); applied to the state's counter of drawn values. -/
opaque sessionToken : Nat → W32

/-- The first safety sequence number after a unit reset, drawn at random (R350). -/
opaque firstSequence : Nat → W32

/-- The frequency correction, in parts per billion, that the PTP servo applies for an offset in ns (R371 gives its
bound only, and the operation that uses it applies that bound). -/
opaque servoPpb : Int → Int

/-- The CRC-32 over the canonical image of the safety configuration (R345; the image's bytes are not given). The
arguments are the numbers of a list that spells the configuration. -/
opaque safetyImageCrc : List Int → W32
/-- The MAC address that a head's serial number assigns, whose form the manual does not give (11 R362; log entry 140). -/
opaque macAddress : Nat → BitVec 48

/-- The CRC-32 of a configuration bank, set text and safety image (R460; the image's bytes are not given). -/
opaque bankCrc : List Int → W32

/-- The length in bytes of the safety image of a bank (R460). -/
opaque safetyImageLen : List Int → Nat

/-- A byte of a configuration bank's image as twin frames carry it (R386, R460; the canonical script's bytes are not given): a list that
spells the set, then offset. -/
opaque bankByte : List Int → Nat → Byte

/-- A byte of a snapshot outside the layouts that R463 and R464 give: snapshot number, then offset. -/
opaque snapshotByte : Nat → Nat → Byte

/-- A byte of a session's input buffer that the model's lines do not determine (R467, R508): session, then offset. -/
opaque inputBufferByte : Nat → Nat → Byte

/-- The software version reported by ASK VERSION and the announce frame (R507, R359). -/
opaque softwareVersion : W32

/-- The MAC-derived clock identity of a unit by head serial number, compared in the best-master algorithm (R370). -/
opaque clockIdentity : Nat → Nat

/-- A value the manual leaves undefined or does not state; applied to the state's counter of free values. -/
opaque freeInt : Nat → Int

end Sys2Proof.Config
end

