-- ==== Sys2Proof/Machine/State.lean ====
section
/-! DEFINITION. The state of one Grazo unit as plain data, with the crate supervisor, the stores, the field sides of its
slices and the model's own clock, and the state right after reset. A docstring gives the file and rule of spec/ that
names the piece, and its reset value where that is not the one the field shows. A table's unlisted record is its
structure's default. -/

namespace Sys2Proof.Machine

open Sys2Proof

/-! ## Replies -/

/-- The four prefixes of R100. -/
inductive Pre where
  | eq | bang | colon | tilde
  deriving DecidableEq, Repr

/-- One field of a reply: a bare word, a bare number, KEY=number with a unit suffix, KEY=word, a hex word, an address, or
raw bytes in hex (R100, R485). -/
inductive Fld where
  | w (s : String)
  | n (v : Int)
  | kn (k : String) (v : Int) (unit : String)
  | kw (k v : String)
  | hex (k : String) (v : W32)
  | hexb (k : String) (v : List Byte)
  | obj (o : Obj)
  | tb (t : TB)
  | kv (k : Key) (v : KVal)
  deriving DecidableEq, Repr

/-- A reply or report line (R100). -/
structure Reply where
  pre : Pre
  tag : Option Nat := none
  word : String
  fields : List Fld := []
  /-- a check was sent with it (R98 RCHECK) -/
  checked : Bool := false
  /-- a relay or REPLAY number that precedes it (R431) -/
  replay : Option Nat := none
  /-- the `dup` of R118 -/
  dup : Bool := false
  deriving DecidableEq, Repr

/-- The detail of an error (R124). -/
inductive Detail where
  | none
  | obj (o : Obj)
  | key (k : Key)
  | word (s : String)
  | tag (n : Nat)
  deriving DecidableEq, Repr

/-- An error code with its detail (R124). -/
structure Err where
  code : Nat
  detail : Detail := .none
  deriving DecidableEq, Repr

/-! ## Sessions -/

/-- Whether a session number is free, attached or held (R108, R111). -/
inductive SessSt where
  | free | opn | held
  deriving DecidableEq, Repr

/-- A tag memory entry (R117). -/
structure TagEntry where
  tag : Nat
  text : List Byte
  reply : Option Reply := none
  deriving DecidableEq, Repr

/-- A relay this unit holds for a near session (R376). -/
structure Relay where
  id : Nat
  near : Nat
  far : Nat
  /-- lines forwarded and still without a final reply: tag and slot (R377, R379) -/
  waiting : List (Option Nat × Nat) := []
  /-- the far session's number and its token, as its hello gave them: none before it (R376, R379) -/
  hello : Option (String × String) := none
  /-- the near unit's own lines on it that have no reply yet (R376, R379) -/
  own : Nat := 0
  deriving DecidableEq, Repr

/-- First replies held back, in the order of their lines: a relayed line whose first reply has not come (its relay), a later line whose
replies are held, a held reply with its line's tag [03 R98, R103]. -/
inductive HeldItem where
  | far (relay : Nat) (tag : Option Nat)
  | line (tag : Option Nat)
  | reply (tag : Option Nat) (r : Reply)
  deriving DecidableEq, Repr

/-- One session (R97, R98, R107 to R111, R117). -/
structure Session where
  /-- open, held or free [03 R108]; reset free (the console opens at head start) -/
  st : SessSt := .free
  /-- TYPED or GEN [03 R97]; reset GEN, the console TYPED -/
  mode : Mode := .gen
  /-- reply checks [03 R98]; reset OFF -/
  rcheck : Bool := false
  /-- quota in slots, 16 to 16,384 [02 R54, 16 R505]; reset 1,024 -/
  quota : Nat := 1024
  /-- safety authority of session 0 [03 R114]; reset off -/
  auth : Bool := false
  /-- suspect flag [13 R429]; reset clear -/
  suspect : Bool := false
  /-- IDLE in s [03 R110]; reset 30 -/
  idle : Nat := 30
  /-- HOLD in s [03 R111]; reset 10 -/
  hold : Nat := 10
  /-- token, 32 bits [03 R108]; drawn at opening; reset 0 (DESIGN CHOICE: no session is open) -/
  token : W32 := 0
  /-- the instant at which the hold expires [03 R111] -/
  holdUntil : Nat := 0
  /-- the instant of the last line received [03 R110] -/
  lastLine : Nat := 0
  /-- tag memory, newest first, at most 16,384 entries [03 R117]; reset empty -/
  tags : List TagEntry := []
  /-- output buffer, oldest line first, 64 KiB [03 R107]; reset empty -/
  out : List Reply := []
  /-- reports discarded since the buffer passed 48 KiB [03 R107]; reset 0 -/
  lost : Nat := 0
  /-- first replies held back behind a relayed line's [03 R98, R103]; reset none -/
  heldBack : List HeldItem := []
  /-- the line being typed, as edited [03 R99]; reset empty -/
  typed : List Byte := []
  /-- more than 253 characters have come for that line [03 R86]; reset no -/
  typedOver : Bool := false
  /-- characters of that line came while the console's buffer was full [03 R109]; reset no -/
  typedLost : Bool := false
  /-- the last character was a CR that ended a line [03 R99]; reset false -/
  afterCr : Bool := false
  /-- characters echoed in typed mode, oldest first [03 R97, R99]; reset empty -/
  echo : List Byte := []
  /-- the staged lines: set by SAVE BEGIN; each is a key value or an error [15 R476]; reset none -/
  staging : Option (List (Sum ((Obj × Key) × KVal) Err)) := none
  /-- bytes of staged text [15 R476]; reset 0 -/
  stagedBytes : Nat := 0
  /-- staged lines [15 R476]; reset 0 -/
  stagedLines : Nat := 0
  /-- the TWIN of a staged PAIR line [15 R476] -/
  stagedTwin : Option Nat := none
  deriving DecidableEq, Repr

/-! ## The operation pool -/

/-- Entry kinds (R58 bits 3:0). -/
inductive Kind where
  | free | command | event | segment | system
  deriving DecidableEq, Repr

/-- Entry states (R58 bits 7:4). -/
inductive ESt where
  | free | executing | waiting | armed | held | rearm | segPending | segRunning
  deriving DecidableEq, Repr

/-- A 64-byte pool entry (R58, R140). Fields an operation does not write keep their left-over values (R57, R59). -/
structure PoolEntry where
  /-- bits 3:0 of bytes 0-3 [02 R58]; reset 0 -/
  kind : Kind := .free
  /-- bits 7:4 [02 R58]; reset 0 -/
  st : ESt := .free
  /-- bits 13:8 [02 R58]; reset 0 -/
  session : Nat := 0
  /-- bit 14 [02 R58]; reset 0 -/
  system : Bool := false
  /-- bit 15 [02 R58]; reset 0 -/
  suspect : Bool := false
  /-- bits 23:16 [02 R58]; reset 0 -/
  tb : Byte := 0
  /-- bits 25:24 [02 R58]; reset 0 -/
  dir : Nat := 0
  /-- bits 27:26 [02 R58]; reset 0 -/
  ifpast : Nat := 0
  /-- bit 28 [02 R58]; reset 0 -/
  rep : Bool := false
  /-- bit 29 [02 R58]; reset 0 -/
  flagged : Bool := false
  /-- bit 30 [02 R58]; reset 0 -/
  periodic : Bool := false
  /-- bytes 4-7 bits 26:0 [02 R58]; reset 0 -/
  tag : Nat := 0
  /-- bytes 4-7 bit 31 [02 R58]; reset 0 -/
  tagged : Bool := false
  /-- bytes 8-15, signed 64-bit [02 R58]; reset 0 -/
  trigger : Int := 0
  /-- bytes 16-23 INTERVAL, PERIOD or HYST [02 R58]; reset 0 -/
  aux : Nat := 0
  /-- bytes 24-27 COUNT limit [02 R58]; reset 0 -/
  limit : Nat := 0
  /-- bytes 28-31 firings so far [02 R58]; reset 0 -/
  firings : Nat := 0
  /-- bytes 32-39 system time of the last firing, ns [02 R58]; reset 0 -/
  lastFire : Int := 0
  /-- bytes 40-43 user word [02 R58]; reset 0 -/
  user : W32 := 0
  /-- bytes 44-45 text length [02 R58]; reset 0 -/
  textLen : Nat := 0
  /-- bytes 46-47 next segment's slot or 0xFFFF [02 R58]; reset 0 -/
  next : Nat := 0
  /-- bytes 48-51 segment length [04 R140]; reset 0 -/
  segLen : W32 := 0
  /-- bytes 52-55 end speed, 1/256 microstep/s [04 R140]; reset 0 -/
  segEnd : W32 := 0
  /-- bytes 56-58 acceleration [04 R140]; reset 0 -/
  segAcc : Nat := 0
  /-- byte 59 bits 3:0 [04 R140]; reset 0 -/
  segType : Nat := 0
  /-- bytes 60-61 jerk [04 R140]; reset 0 -/
  segJerk : Nat := 0
  /-- byte 62 station [04 R140]; reset 0 -/
  segStation : Nat := 0
  /-- byte 63 bits 3:0 number, 4 last, 5 negative, 6 creep [04 R140]; reset 0 -/
  segNo : Nat := 0
  segLast : Bool := false
  segNeg : Bool := false
  segCreep : Bool := false
  deriving DecidableEq, Repr

/-- How an operation stands between its acceptance and its final reply. -/
inductive Prog where
  /-- a door command: stations still running, stations reached, failures in order with error and supersession (R171) -/
  | door (running reached : List Nat) (failed : List (Nat × Err × Bool))
  /-- a motion of one station (R136, R143) -/
  | motion (station : Nat)
  /-- STOP: axes still moving, count (R152) -/
  | stopping (axes : List Nat) (n : Nat)
  /-- RESUME: stations whose first step is still to come, count (R154) -/
  | resuming (axes : List Nat) (n : Nat)
  /-- REF LEARN: cycles still to run; the measured traverses (R184) -/
  | learn (station : Nat) (left : Nat)
  /-- AT: embedded command, the timebase value at which the event was last judged (R60), and the firings whose embedded
  command still runs: number, value, late, jump (R66) -/
  | event (doVerb : Verb) (base : Int) (fired : List (Nat × Int × Bool × Bool))
  /-- an event's embedded lasting command runs (R66) -/
  | watch (objs : List Obj) (rate : Nat) (marks : List (Obj × Nat × Nat))
  /-- PROVE LEARN: channels still to learn, results, the end of the lit phase (none: the pulses are given), pulses, I_on (R260) -/
  | proveLearn (station : Nat) (left : List Bool) (results : List (Nat × Nat)) (litUntil : Option Nat) (pulses : List Int) (iOn : Nat)
  /-- PROVE RETURN (R262) -/
  | proveReturn (station : Nat)
  /-- PROVE LOOP (R343) -/
  | proveLoop
  /-- SAVE, and whether it commits the staged set (R461, R478) -/
  | save (staged : Bool)
  /-- SAVE SAFETY, and whether it waits for the latches to be read back (R269, R346) -/
  | saveSafety (latching : Bool)
  /-- PAIR Unnnn, until its deadline (R385) -/
  | pairing (unit : Nat) (deadline : Nat)
  /-- PAIR ATTACH, until an offer's deadline (R397) -/
  | attaching (source : Option Nat) (deadline : Nat)
  /-- PAIR RELEASE, next frame and deadline (R398) -/
  | releasing (partner : Nat) (nextAt deadline : Nat)
  /-- SLEEP (R401) -/
  | sleeping
  /-- a WAKE on the supervisor line (R408) -/
  | waking (deadline : Nat)
  /-- REPLAY: lines taken, ended, child slots still running, window end, the session (R431) -/
  | replaying (k ended : Nat) (children : List Nat) (deadline : Nat) (sess : Nat)
  /-- RESET: rung word, object and snapshot number (R419) -/
  | resetting (rung : String) (object : Option Fld) (snap : String)
  /-- a relayed line (R375) -/
  | relayed (relay : Nat)
  /-- JOURNAL: the lines still to send, the count of its reply, the newest record number where it is settled (R457, R458), and of a snapshot
  its bank, the next byte and the end (R459, R502) -/
  | journal (left : List Reply) (k : Nat) (last : Option Nat) (part : Option (Bool × Nat × Nat))
  deriving DecidableEq, Repr

/-- A live lasting operation (R51, R101). -/
structure Op where
  /-- the pool slot it holds; RESET and supervisor operations hold none [02 R51] -/
  slot : Option Nat
  id : Nat
  port : Port
  tag : Option Nat
  /-- acceptance number [13 R426] -/
  acc : Nat
  verb : Verb
  text : List Byte
  /-- further slots held: segments, embedded command [02 R51] -/
  segs : List Nat := []
  /-- this operation runs inside an event or a REPLAY line [02 R66, 13 R431] -/
  within : Option (Nat × Nat) := none
  prog : Prog
  deriving DecidableEq, Repr

/-- A crossing found and not yet handed on (R68, R69). -/
structure Crossing where
  /-- the instant of the crossing, us -/
  at_ : Nat
  /-- the trigger value's place in the jump that crossed it, in the jump's direction; none without a jump -/
  place : Option Int := none
  slot : Nat
  tb : TB
  value : Int
  late : Bool := false
  jump : Bool := false
  deriving DecidableEq, Repr

/-! ## Speedwell -/

/-- What set an axis in motion (R130, R131). -/
inductive MKind where
  | move | jog | ref | follow | cam | doorOpen | doorClose | reopen | learn
  deriving DecidableEq, Repr

/-- How far a motion has come. -/
inductive MPhase where
  /-- waits for Yarrow [04 R131] -/
  | waiting
  /-- toward HOME [04 R147] -/
  | toHome
  /-- toward the index [04 R147] -/
  | toIndex
  /-- the profile runs -/
  | running
  /-- the final stop of a reference run [04 R147] -/
  | refStop
  /-- a stop ramp runs [04 R142] -/
  | stopping
  /-- stands, target kept [04 R153] -/
  | held
  deriving DecidableEq, Repr

/-- One profile segment. Speeds are in 1/6,553,600,000 microstep/s (so that SCALE x RATIO stays whole), their squares in
the square of that unit (R132, R136, R138). -/
structure Seg where
  /-- type code of R140 -/
  typ : Nat
  /-- steps, none when unbounded -/
  len : Option Nat
  /-- squared speed at the start and at the end -/
  v0q : Nat
  v1q : Nat
  /-- start acceleration and jerk of a jerk segment -/
  a0 : Int := 0
  jerk : Int := 0
  neg : Bool := false
  creep : Bool := false
  last : Bool := false
  num : Nat := 0
  /-- a follower's microsteps: spread evenly over this many ticks [04 R157] -/
  span : Option Nat := none
  deriving DecidableEq, Repr

/-- An interval in the reload timer or the run-ahead buffer: its edge on the step timebase and its length (R132, R141). -/
structure Ivl where
  edge : Nat
  ticks : Nat
  neg : Bool := false
  /-- first edge of a segment: that segment's number [02 R51] -/
  starts : Option Nat := none
  deriving DecidableEq, Repr

/-- How a stopping motion's command ends at standstill. -/
inductive Ending where
  /-- the final reply has been given [04 R143] -/
  | done
  /-- it is held for RESUME [04 R152] -/
  | hold
  /-- a soft limit ended a JOG [04 R149] -/
  | limit (positive : Bool)
  deriving DecidableEq, Repr

/-- The follower (R155 to R158). -/
structure Follow where
  fact : Nat
  /-- tick of the last coarse edge, none before the first [04 R157] -/
  last : Option Nat := none
  /-- microsteps owed and not loaded [04 R157] -/
  owed : Nat := 0
  neg : Bool := false
  /-- net coarse count, and the commanded position at which it was 0 [04 R157] -/
  net : Int := 0
  base : Int := 0
  following : Bool := false
  deriving DecidableEq, Repr

/-- A cam coupling (R160 to R163). -/
structure Couple where
  table : Nat
  master : TB
  offset : Int
  /-- TIME at acceptance, us [04 R160] -/
  t0 : Int
  engaged : Bool := false
  held : Bool := false
  /-- slave target, counts [04 R160] -/
  target : Int := 0
  /-- since when the lag exceeds CAMLAG [04 R162] -/
  lagSince : Option Nat := none
  deriving DecidableEq, Repr

/-- A motion (R131, R141, R152). -/
structure Motion where
  kind : MKind
  phase : MPhase := .waiting
  /-- id of the session command, none for the door cycle -/
  op : Option Nat := none
  /-- admission class 0 to 4 [09 R300] -/
  cls : Nat := 4
  /-- commanded target, microsteps; none for a continuous motion [04 R153] -/
  target : Option Int := none
  /-- the profile's speed, acceleration, deceleration (1/6,553,600,000 microstep/s, /s2) and jerk [04 R128, R129] -/
  speed : Nat := 0
  acc : Nat := 0
  dec : Nat := 0
  jerk : Nat := 0
  scurve : Bool := false
  neg : Bool := false
  /-- segments not yet computed to their end, edges computed of the first of them, its exact start in 2^-32 tick [04 R132] -/
  segs : List Seg := []
  k : Nat := 0
  t0 : Nat := 0
  lastEdge : Nat := 0
  ending : Option Ending := none
  /-- counts travelled in a reference search [04 R147] -/
  searched : Nat := 0
  /-- counts travelled since the HOME edge [04 R147] -/
  sinceHome : Nat := 0
  /-- position when the command became held [04 R153] -/
  heldPos : Int := 0
  /-- the first step has been emitted [09 R304] -/
  moving : Bool := false
  /-- a MOVE on an unreferenced axis: the target as given, counts, made after the search [04 R148] -/
  after : Option Int := none
  afterRel : Bool := false
  follow : Option Follow := none
  couple : Option Couple := none
  /-- speed factor D of its admission, 1/10,000 [09 R318] -/
  d : Nat := 10000
  /-- the SPEED that a MOVE or JOG asks for, um/s [09 R320]; none: another motion -/
  asked : Option Nat := none
  /-- a re-plan to make at standstill: true opens, false closes [05 R175, 09 R306] -/
  turn : Option Bool := none
  /-- the field side has discarded its train: no further step of it is emitted [04 R127, 08 R296, R298]; reset no -/
  cut : Bool := false
  deriving DecidableEq, Repr

/-- An axis (R126, R127, R141, R144 to R146). -/
structure Axis where
  /-- position, signed 32-bit encoder count [04 R126]; reset 0 (DESIGN CHOICE) -/
  pos : Int := 0
  /-- commanded position, signed 64-bit microsteps [04 R126]; reset 0 (DESIGN CHOICE) -/
  cmd : Int := 0
  /-- referenced [04 R164]; reset no -/
  referenced : Bool := false
  /-- IDX [04 R146]; none until a reference; the first index after a door reference sets it [05 R179] -/
  idx : Option Int := none
  /-- counts travelled since the last index [04 R146] -/
  sinceIdx : Nat := 0
  /-- encoder, following-error or follower fault standing, status bit 2 [16 R509]; reset 0 -/
  fault : Option String := none
  /-- the motion [04 R130]; reset none -/
  motion : Option Motion := none
  /-- the loaded interval [04 R141]; reset none -/
  loaded : Option Ivl := none
  /-- run-ahead buffer, at most 64 intervals [04 R127, R164]; reset empty -/
  ahead : List Ivl := []
  /-- direction of the last step emitted, and the direction output's level then, high for positive under SDIR=NORM [04 R125, R134, R164];
  reset positive and low (DESIGN CHOICE: no step has been emitted) -/
  dirNeg : Bool := false
  dirHigh : Bool := false
  /-- tick at which the last step pulse falls: the step output is high before it [04 R134, R164]; reset 0, so low -/
  pulse : Nat := 0
  /-- moving until standstill, status bit 1 [04 R143]; reset 0 -/
  moving : Bool := false
  /-- stretched intervals, `late=` [04 R135]; reset 0 -/
  late : Nat := 0
  /-- intervals stretched in this second [04 R135]; reset 0 -/
  lateNow : Nat := 0
  /-- coarse edges not honoured, `skipped=` [04 R155]; reset 0 -/
  skipped : Nat := 0
  /-- since when the following error exceeds FERR [04 R145] -/
  ferrSince : Option Nat := none
  deriving DecidableEq, Repr

/-! ## Protected switches and lamps -/

/-- A running flash (R267): PERIOD in ms, PHASE, DUTY. -/
structure Flash where
  period : Nat
  phase : Nat := 0
  duty : Nat := 128
  deriving DecidableEq, Repr

/-- What the head commands of a load channel: off, on, or flashing (R292). -/
inductive LoadCmd where
  | off | on
  | flash (f : Flash)
  deriving DecidableEq, Repr

/-- A station's part of its engine's frame buffer: the states that the slice's next downlink frame carries, the last line's winning
(R34, R292, R297), and the switches to which an ON has been given since the last frame (R236). -/
structure FrameBuf where
  la : LoadCmd := .off
  lb : LoadCmd := .off
  fd : Bool := false
  out0 : Bool := false
  out1 : Bool := false
  fresh : List Sw := []
  deriving DecidableEq, Repr

/-- The conversions of the sample that is being formed (R215, R217, R229, R248): their number, the sum of their currents in 0.1 mA, the same
of those with the PWM output on, the sum of their supplies in mV, and whether one was flagged, fell into a turn-on ramp, the inrush window
or under-voltage, or found the limiter active. -/
structure Acc where
  count : Nat := 0
  sum : Nat := 0
  onCount : Nat := 0
  onSum : Nat := 0
  uSum : Nat := 0
  flagged : Bool := false
  ramped : Bool := false
  rushed : Bool := false
  uv : Bool := false
  limited : Bool := false
  deriving DecidableEq, Repr

/-- A lamp sample or a proving pulse as it is judged: current in 0.1 mA, supply in mV, the range flag of R217, whether the
limiter was active, whether the PWM was on at some conversion of it. -/
structure Meas where
  i : Int
  u : Int
  flagged : Bool := false
  limiter : Bool := false
  onPhase : Bool := true
  deriving DecidableEq, Repr

/-- The proving state of a load channel (R248 to R265). -/
structure Lamp where
  /-- dark verdict standing [07 R257, R266 bit 7]; reset 0 -/
  dark : Bool := false
  /-- consecutive failing lit samples 0 to 8 [07 R248, R266]; reset 0 -/
  litFails : Nat := 0
  /-- consecutive passing lit samples [07 R264]; reset 0 -/
  litPasses : Nat := 0
  /-- consecutive failed grid points 0 to 2 [07 R257, R266]; reset 0 -/
  gridFails : Nat := 0
  /-- consecutive passed grid points [07 R264]; reset 0 -/
  gridPasses : Nat := 0
  /-- last grid point failed, last pulse void, last grid point skipped [07 R266 bits 11 to 13]; reset 0 -/
  lastFailed : Bool := false
  lastVoid : Bool := false
  lastSkipped : Bool := false
  /-- the pulse's repeat after a void is still to come [07 R255] -/
  repeatDue : Bool := false
  /-- the first change of the channel's output, supply wait or trips after its last grid point, with what held before: whether a pulse was
  barred, and whether a trip stood [07 R256]; reset none -/
  was : Option (Nat × Bool × Bool) := none
  /-- the latest pulse: its mean judged current in 0.1 mA, whether it passed, and whether it found the limiter active [08 R295]; reset 0, no -/
  pulseI : Int := 0
  pulsePass : Bool := false
  pulseLim : Bool := false
  /-- PROVE RETURN asks for one pulse [07 R262] -/
  returnDue : Bool := false
  /-- in an on-phase now [07 R266 bit 6]; reset 0 -/
  onPhase : Bool := false
  /-- the running flash has had its first edge [07 R259]; reset no -/
  edged : Bool := false
  /-- the lit phase of PROVE LEARN: sum of the normalised samples from 500 ms after the ramp, and their number [07 R260]; reset 0 -/
  litSum : Int := 0
  litCount : Nat := 0
  deriving DecidableEq, Repr

/-- A protected switch: class H FD, or class L LA or LB (R206 to R241). -/
structure Switch where
  /-- commanded on [06 R238 bit 0]; reset off -/
  cmd : Bool := false
  /-- commanded flashing [07 R267]; reset none -/
  flash : Option Flash := none
  /-- output on; class H: conducting [06 R238 bit 1, R241]; reset off -/
  on : Bool := false
  /-- ramp in progress, and whether it rises [06 R210, R213]; reset none -/
  ramp : Option Bool := none
  /-- the ramp's voltage in mV at its start, the instant of its start, and its rate in mV/ms; the instant at which the last turn-on ramp ended
  [06 R210, R213, R214; 07 R260]; reset 0, none -/
  level : Nat := 0
  rampAt : Nat := 0
  rate : Nat := 0
  rampEnd : Option Nat := none
  /-- SLEW in mV/ms as taken at the last turn-on [06 R208]; reset 0 (DESIGN CHOICE: used only once turned on) -/
  slew : Nat := 0
  /-- inrush window open, and when it opened [06 R211]; reset closed -/
  inrush : Option Nat := none
  /-- INRUSH in us, OLDET, OLTHR in 0.1 mA and OLT in us as taken at the last turn-on [06 R208]; reset 0, OFF (DESIGN CHOICE: used only
  once turned on) -/
  window : Nat := 0
  olDet : Bool := false
  olThr : Int := 0
  olTime : Nat := 0
  /-- limiter active [06 R211, R238 bit 4]; reset 0 -/
  limiting : Bool := false
  /-- since when the limiter holds the steady limit with low output [06 R222] -/
  shortSince : Option Nat := none
  /-- high range selected [06 R216, R241]; reset low -/
  high : Bool := false
  /-- the next conversion is made in both ranges (down change) [06 R216]; reset no -/
  downNext : Bool := false
  /-- instant of the last flagged conversion [06 R238 bit 6] -/
  flaggedAt : Option Nat := none
  /-- under-voltage off and wait [06 R224, R238]; reset 0 -/
  uvOff : Bool := false
  uvWait : Bool := false
  /-- since when the supply lies below the off threshold, or above the restart level [06 R224] -/
  uvSince : Option Nat := none
  upSince : Option Nat := none
  /-- trips standing: instant of the trip [06 R236]; reset none -/
  fuse : Option Nat := none
  short : Option Nat := none
  tone : Option Nat := none
  tj : Option Nat := none
  clamp : Option Nat := none
  /-- open load [06 R229]; reset 0 -/
  openLoad : Bool := false
  /-- since when samples lie below OLTHR; passing samples in succession [06 R229] -/
  olSince : Option Nat := none
  olPasses : Nat := 0
  /-- compliance and saturation flags [06 R231, R233]; reset 0 -/
  comply : Bool := false
  complySince : Option Nat := none
  sat : Bool := false
  /-- duty in 1/1,024 [06 R230]; reset 0 (DESIGN CHOICE) -/
  duty : Nat := 0
  /-- PWMF in Hz and PPHASE, AUTO as none, as the pulse generator took them at the start of its last PWM period [06 R208, R234]; reset the
  defaults 500 and AUTO -/
  pwmF : Nat := 500
  pwmPh : Option Nat := none
  /-- fail-safe state applied [06 R238 bit 18]; reset 0 -/
  failSafe : Bool := false
  /-- fuse heat h in 10^-12 [06 R218, R221]; reset 1.00 -/
  heat : Nat := 1000000000000
  /-- the instant up to which h has been brought [06 R218]; reset 0 -/
  heatAt : Nat := 0
  /-- turn-on energy integral, pJ [06 R212]; reset 0 -/
  energy : Nat := 0
  /-- a clamp pulse in progress: the energy allowed to it and the energy measured so far, pJ [06 R226, R227]; reset none -/
  pulse : Option (Nat × Nat) := none
  /-- end of the last clamp pulse [06 R227]; none: no pulse yet -/
  lastClamp : Option Nat := none
  /-- current of the last conversion, 0.1 mA [06 R215]; reset 0 -/
  cur : Nat := 0
  /-- the lamp sample being formed, and the feed sample; the latest feed sample in mA [06 R215]; reset empty, 0 -/
  acc : Acc := {}
  feedAcc : Acc := {}
  feedSample : Nat := 0
  /-- that feed sample contains a flagged conversion [06 R217]; reset no -/
  feedFlagged : Bool := false
  /-- the feed sample before it, mA; the current of the last lamp sample as it is judged, 0.1 mA, and whether it was flagged, and skipped
  [08 R295]; reset 0, no -/
  feedPrev : Nat := 0
  lampI : Int := 0
  lampFlagged : Bool := false
  lampSkipped : Bool := false
  /-- the last test of its current-sense path failed [10 R341]; reset no -/
  senseFailed : Bool := false
  /-- the current to which the channel is held in CC mode, 0.1 mA, and whether the switch is fully on for want of headroom [06 R232, R233];
  reset 0, no -/
  held : Nat := 0
  fullOn : Bool := false
  /-- mean of the last lamp sample 0.1 mA, supply mV, die temperature C [06 R238]; reset 0 (DESIGN CHOICE) -/
  i : Int := 0
  u : Nat := 0
  die : Int := 0
  /-- proving state of a load channel -/
  lamp : Lamp := {}
  /-- Yarrow's dimming fraction, % [09 R316]; reset 100 -/
  dim : Nat := 100
  /-- a command or a fail-safe state turned it on after a standing lane mask loss [06 R228]: re-on when both elements close -/
  maskOff : Bool := false
  deriving DecidableEq, Repr

/-! ## Field inputs and outputs -/

/-- A digital input (R272 to R283, R287). -/
structure Input where
  /-- filtered state as the last uplink frame has brought it to the head [08 R274, R294]; reset OFF -/
  on : Bool := false
  /-- filtered state at the field side [08 R274, R299]; reset OFF -/
  fOn : Bool := false
  /-- the state by the thresholds at the last sample outside the masked windows, its instant, and how long that state has held, masked windows
  left out, us [08 R273, R274, R299]; reset OFF, 0 -/
  raw : Bool := false
  rawAt : Nat := 0
  held : Nat := 0
  /-- current in 0.01 mA [08 R273, R287]; reset 0 (DESIGN CHOICE) -/
  i : Nat := 0
  /-- open wire, over-voltage [08 R275, R276]; reset 0 -/
  openWire : Bool := false
  owSince : Option Nat := none
  overVolt : Bool := false
  ovSince : Option Nat := none
  /-- failures and passes in succession per tap [08 R280]; reset 0 -/
  fails : Tbl Nat := []
  passes : Tbl Nat := []
  /-- taps on whose pulses a fault stands; SHORT on its own, CROSS on another [08 R280]; reset none -/
  faultTaps : List Nat := []
  /-- last pulse failed [08 R287 bit 7]; reset 0 -/
  lastFailed : Bool := false
  /-- SUPPLY diagnostic fault [08 R277]; reset 0 -/
  supply : Bool := false
  /-- unsigned 32-bit count [08 R281, R299]; reset 0 -/
  count : W32 := 0
  /-- gate: edges and stamps of the first, the last in the gate, and the last ever, ticks [08 R282]; reset none -/
  edges : Nat := 0
  first : Option Nat := none
  last : Option Nat := none
  ever : Option Nat := none
  /-- stamp of the last edge in either direction, and the count, the gate's edges and the stamps before it, which a pulse shorter than 4 us
  gives back [08 R281]; reset none -/
  edgeAt : Option Nat := none
  undo : Option (W32 × Nat × Option Nat × Option Nat × Option Nat) := none
  gateStart : Nat := 0
  gateNo : Nat := 0
  /-- frequency, mHz [08 R282]; reset 0 -/
  freq : Nat := 0
  /-- zero-speed flag and since when results lie below ZFREQ [08 R283]; reset 0 -/
  zero : Bool := false
  zeroSince : Option Nat := none
  deriving DecidableEq, Repr

/-- A digital output (R284 to R287). -/
structure Output where
  /-- commanded on [08 R287 bit 0]; reset off -/
  cmd : Bool := false
  /-- output on [08 R287 bit 1, R299]; reset off -/
  on : Bool := false
  overload : Bool := false
  /-- instants of OVERLOAD within the last 10 s; latched at the 4th [08 R285]; reset none -/
  overloads : List Nat := []
  latched : Bool := false
  /-- an OFF has come since the latch [08 R285] -/
  offSeen : Bool := false
  overtemp : Bool := false
  openLoad : Bool := false
  supply : Bool := false
  stuck : Bool := false
  /-- since when it stands at its limit, and since when the conditions of OPEN and SUPPLY hold, or those of their clearing [08 R285]; reset
  none -/
  limitSince : Option Nat := none
  openSince : Option Nat := none
  supplySince : Option Nat := none
  /-- failed and passed test pulses in succession, and the last pulse [08 R286]; reset 0, none -/
  fails : Nat := 0
  passes : Nat := 0
  pulseAt : Option Nat := none
  /-- fail-safe off applied [08 R287 bit 7]; reset 0 -/
  failSafe : Bool := false
  /-- current in mA [08 R287]; reset 0 (DESIGN CHOICE) -/
  i : Nat := 0
  deriving DecidableEq, Repr

/-- The station sensor supply and its taps (R277, R299). -/
structure Sensor where
  /-- supply on [08 R299]; reset off -/
  on : Bool := false
  overload : Bool := false
  overtemp : Bool := false
  /-- current in mA at its last reading [08 R295]; reset 0 (DESIGN CHOICE) -/
  i : Nat := 0
  /-- on again after over-temperature, and not yet kept on for 10 ms without the limit: it counts as off [08 R277]; reset no -/
  restart : Bool := false
  /-- since when the station field supply stands at 14 V [08 R299]; since when the supply, and each tap, is at its limit [08 R277]; reset none -/
  goodSince : Option Nat := none
  limitSince : Option Nat := none
  tapSince : List (Nat × Nat) := []
  /-- next retry, and since when a retry has kept the supply, and each tap, on [08 R277]; reset none -/
  retryAt : Nat := 0
  trying : Option Nat := none
  tapTrying : List (Nat × Nat) := []
  /-- taps off, with their next retry [08 R277]; reset none -/
  taps : List (Nat × Nat) := []
  deriving DecidableEq, Repr

/-! ## Stations -/

/-- Leaf states (R174). -/
inductive Leaf where
  | closedLocked | unlocking | opening | opn | closing | reversing | held | locking | isolated | fault
  deriving DecidableEq, Repr

/-- Step states (R182). -/
inductive StepSt where
  | stowed | deploying | deployed | stowing
  deriving DecidableEq, Repr

/-- Why a leaf closes or opens: by a command, permission loss, AUTOCLOSE, or a reclose (R173, R310). -/
inductive Why where
  | command | permission | autoclose | reclose
  deriving DecidableEq, Repr

/-- What a waiting station waits with (R300, R308, R310). -/
structure Wait where
  /-- class 0 to 4 -/
  cls : Nat
  /-- instant the wait began, us [09 R300] -/
  since : Nat
  /-- the object of the last failed test [09 R310]; none before a test -/
  failed : Option Obj := none
  /-- tentative: reservation id and start instant, TIME ns [09 R322] -/
  tentative : Option (Nat × Int) := none
  why : Why := .command
  /-- the move opens (a leaf), or is a session's motion -/
  opening : Bool := false
  /-- a P1 close asked for by no command has reported E08 [09 R310] -/
  reported : Bool := false
  deriving DecidableEq, Repr

/-- The running door cycle's record (R450). -/
structure Cycle where
  /-- running [14 R450] -/
  running : Bool := false
  start : Int := 0
  session : Nat := 255
  tag : Option Nat := none
  waitOpen : Nat := 0
  unlocking : Nat := 0
  opening : Nat := 0
  openHeld : Nat := 0
  waitClose : Nat := 0
  closing : Nat := 0
  locking : Nat := 0
  locked : Nat := 0
  peakOpen : Int := 0
  peakClose : Int := 0
  energyOpen : Nat := 0
  energyClose : Nat := 0
  obstacles : List Nat := []
  recloses : Nat := 0
  derate : Nat := 100
  derated : Bool := false
  policyClip : Bool := false
  disturbedOpen : Bool := false
  disturbedClose : Bool := false
  permissionClose : Bool := false
  autoClose : Bool := false
  resync : Bool := false
  referenced : Bool := false
  line : Option Int := none
  closeSession : Nat := 255
  closeTag : Option Nat := none
  deploy : Option Nat := none
  stow : Option Nat := none
  deriving DecidableEq, Repr

/-- One station (R4, R166 to R205). -/
structure Station where
  /-- leaf state [05 R174, R205]; reset HELD (set from the switches once the self-tests end) -/
  leaf : Leaf := .held
  /-- instant of entry into the present leaf state, us -/
  leafSince : Nat := 0
  /-- fault cause word [05 R175]; reset none -/
  cause : String := ""
  /-- kept target of a HELD leaf: open, closed or none [05 R174, R205]; reset none -/
  kept : Option Bool := none
  /-- how far the step's last deployment or stowing has come; the step state follows from it and STOWSW [05 R182, R205]; reset DEPLOYED -/
  step : StepSt := .deployed
  /-- instant stowing or deploying began [05 R182, R183] -/
  stepSince : Nat := 0
  /-- timers: UNLOCKT, LOCKT, FINALT, RDWELL, STOWT, STEPT, AUTOCLOSE, each the TIME in ns at which it ends [02 R42, 05 R172, R182]; reset
  off -/
  unlockT : Option Int := none
  lockT : Option Int := none
  finalT : Option Int := none
  rdwell : Option Int := none
  stowT : Option Int := none
  stepT : Option Int := none
  autoT : Option Int := none
  /-- CLOSEDSW has made in LOCKING [05 R178]; reset no -/
  closedMade : Bool := false
  /-- force detection armed [05 R186]; reset no -/
  armed : Bool := false
  /-- since when the current exceeds the force threshold [05 R186] -/
  forceSince : Option Nat := none
  /-- obstacle latched, status bit 5 [05 R189]; reset 0 -/
  obstacle : Bool := false
  /-- recloses since the last CLOSED_LOCKED or door command [05 R189, R205]; reset 0 -/
  attempts : Nat := 0
  /-- the reopen after an obstacle has ended and the dwell runs [05 R189] -/
  reopened : Bool := false
  /-- position to which an obstacle reopens the leaf, counts [05 R189] -/
  reopenTo : Int := 0
  /-- the leaf waits at the lock zone for its step [05 R183] -/
  atZone : Bool := false
  /-- why the leaf closes [09 R310] -/
  why : Why := .command
  /-- id of the door command that runs the station [05 R171] -/
  doorOp : Option Nat := none
  /-- a REF LEARN runs on the leaf [05 R184]; its id -/
  learning : Option Nat := none
  /-- the running traverse is undisturbed so far [05 R185]; reset no -/
  clean : Bool := false
  /-- samples of the running traverse: point number, sum of currents, count [05 R184, R185] -/
  points : List (Nat × Int × Nat) := []
  traverses : List (Bool × List Int) := []
  /-- the open's admission is at the reference search of the leaf's step [15 R480]; reset no -/
  stepRefs : Bool := false
  /-- learned profile, 512 points in 2^-20 mA, per direction [05 R185]; reset the commissioning profile -/
  learnedOpen : List Int := []
  learnedClose : List Int := []
  /-- per point, traverses in succession that left it on its bound, opening and closing, and whether the report was made [05 R185];
  reset 0 -/
  boundsOpen : List Nat := []
  boundsClose : List Nat := []
  boundTold : Bool := false
  /-- out of service, status bit 31 [13 R437, R439]; reset 1 until the slice's return to service (start-up) -/
  outOfService : Bool := true
  /-- slice link lost, status bit 29 [13 R437]; reset 0 -/
  linkLost : Bool := false
  /-- suspect, status bit 30 [13 R429]; reset 0 -/
  suspect : Bool := false
  /-- fail-safe applied by the field side, status bit 28 [08 R296]; reset 0 -/
  failSafe : Bool := false
  /-- admission wait, status bit 27 [09 R311]; reset none -/
  wait : Option Wait := none
  /-- speed factor D in 1/10,000 [09 R318]; reset 1 -/
  derate : Nat := 10000
  /-- the D of the leaf's last admission, which its move keeps [09 R318]; reset 1 -/
  admD : Nat := 10000
  /-- die temperatures of the last 10 s with their instants, 0.1 C, newest first [09 R318]; reset none -/
  dies : List (Nat × Int) := []
  /-- the first of them since the start -/
  diesFrom : Option Nat := none
  /-- supplies in mV: station field supply, FD bus [08 R295]; reset 0 (DESIGN CHOICE) -/
  field : Nat := 0
  busU : Nat := 0
  /-- latest 250 us FD sample, mA [06 R215]; reset 0 -/
  feed : Int := 0
  /-- the samples of the running millisecond and their number; the mean of the last one, mA [09 R307]; reset 0 -/
  feedSum : Nat := 0
  feedCount : Nat := 0
  feedMean : Nat := 0
  /-- the encoder fault bit of the last AXIS record [08 R295]; reset 0 -/
  encFault : Bool := false
  /-- the field side's own: its encoder fault [04 R144], its index-check fault, the position of the last index pulse, and the counts travelled
  since [10 R336]; reset 0, none -/
  encNow : Bool := false
  idxFault : Bool := false
  idxPos : Option Int := none
  idxRun : Nat := 0
  /-- the axis [04 R125]; the switches; the inputs and outputs; the sensor supply; the cycle record -/
  axis : Axis := {}
  fd : Switch := {}
  la : Switch := {}
  lb : Switch := {}
  /-- the frame buffer's states of this station [01 R34, 08 R292]; reset off -/
  buf : FrameBuf := {}
  /-- the reserve is the lamp in use [07 R261, R271]; reset no (the main is) -/
  reserveInUse : Bool := false
  inputs : Tbl Input := []
  /-- what the four inputs read at each tap's latest pulse, IN0 in bit 0 [08 R280, R295]; reset 0 -/
  tapRead : Tbl Nat := []
  out0 : Output := {}
  out1 : Output := {}
  sensor : Sensor := {}
  cycle : Cycle := {}
  deriving DecidableEq, Repr

/-! ## Slices -/

/-- A slice module as the world seats it: type code (R39), serial number, insertion counter (R27). -/
structure Module where
  type : Nat
  serial : Nat
  ins : W16
  deriving DecidableEq, Repr

/-- A slice position (R3, R39, R290 to R299, R437 to R440). -/
structure Slice where
  /-- the seated module [00 R1]; reset none (DESIGN CHOICE: an empty crate) -/
  seated : Option Module := none
  /-- logic side powered, status bit 2 [01 R9]; reset no -/
  powered : Bool := false
  /-- isolation link up, status bit 3 [01 R39]; reset no -/
  link : Bool := false
  /-- CRC error seen since the last SHOW SLICE, status bit 4 [01 R39]; reset 0 -/
  crcSeen : Bool := false
  /-- instant of the link loss while the 2 s window runs, status bit 5 [13 R437]; reset none -/
  lostAt : Option Nat := none
  /-- declared absent [13 R437]; reset no -/
  absent : Bool := false
  /-- self-test passed, failed, status bits 6, 7 [01 R536]; reset 0 -/
  passed : Bool := false
  failed : Bool := false
  /-- fail-safe applied, status bit 8 [01 R39]; reset 0 -/
  failSafe : Bool := false
  /-- latch written and verified, status bit 9 [07 R269]; reset 0 -/
  latched : Bool := false
  /-- instant at which the rewrite of the latch that is under way began [07 R269, 01 R536]; reset none -/
  latchAt : Option Nat := none
  /-- the latch's content [07 R269] -/
  latch : KMap := []
  /-- new insertion not acknowledged, status bit 11 [01 R27]; reset 0 -/
  newIns : Bool := false
  /-- SERVICE=ON has been given for this insertion [13 R439] -/
  service : Bool := false
  /-- the link is a start-up link [01 R27] -/
  startUp : Bool := false
  /-- the set's lines for the position are held: its slice is of another type [15 R474]; reset no -/
  held : Bool := false
  /-- type read from IDENT since power, type last identified, a seated slice seen powered [01 R535]; reset none -/
  typeRead : Option Nat := none
  typeLast : Option Nat := none
  seen : Bool := false
  /-- recorded pair of serial number and insertion counter [01 R27]; reset none -/
  recorded : Option (Nat × W16) := none
  /-- serial number and counter as last read [01 R39] -/
  ident : Option (Nat × W16) := none
  /-- latest enable masks and when they came [01 R19]; reset none -/
  maskA : Byte := 0
  maskB : Byte := 0
  maskAtA : Option Nat := none
  maskAtB : Option Nat := none
  /-- lane elements energised, one bit per station [01 R19, 08 R294]; reset 0 -/
  elemA : Byte := 0
  elemB : Byte := 0
  /-- frame counters: reference of the last downlink and uplink with a correct CRC [08 R291]; reset none -/
  downRef : Option Byte := none
  upRef : Option Byte := none
  /-- instants of the last valid downlink and uplink frame [08 R296, R297] -/
  downAt : Option Nat := none
  upAt : Option Nat := none
  /-- key writes waiting, the sequence in flight, the last accepted by the field side [08 R292, R293]; reset none, 0 -/
  writes : List ((Obj × Key) × KVal) := []
  writeSeq : Nat := 0
  accepted : Nat := 0
  /-- keys held by the field side [06 R208, 08 R299]; reset the latch's -/
  keys : KMap := []
  /-- PWM epoch, us [06 R234]; reset 0 -/
  epoch : Nat := 0
  /-- FLASH replica: value of the last valid frame and its instant [07 R270] -/
  flash : Option (Int × Nat) := none
  /-- RESET SLICE: instant at which logic power returns [13 R422] -/
  restoreAt : Option Nat := none
  /-- id of the RESET SLICE operation [13 R419] -/
  resetOp : Option Nat := none
  /-- trip or fault changed since the last DIAG record [08 R294]; reset 0 -/
  changed : Bool := false
  /-- a move fails its slice test, status bit 12 [09 R315]; reset 0 -/
  heatFail : Bool := false
  /-- sample number of the last LAMP record and grid round of the last PULSE record that Cowslip processed, by slot [01 R14, 08 R295]; reset
  none -/
  rounds : Tbl Nat := []
  /-- element test of this slice done [15 R470]; reset no -/
  tested : Bool := false
  /-- the latest frame sent each way, from its start on [08 R290, R292, R294]; reset none -/
  down : List Byte := []
  up : List Byte := []
  /-- the field side has had no valid step lane word for 400 us [04 R127, 08 R294]; reset no -/
  stepQuiet : Bool := false
  /-- the step lane is valid, and a trip or fault has changed since the last DIAG record, as the last uplink frame shows them [08 R294]; reset
  0 -/
  stepValid : Bool := false
  diagDue : Bool := false
  /-- the last record of each slot as the head has it, bytes 10 to 29 [08 R295]; reset none -/
  recs : Tbl (List Byte) := []
  deriving DecidableEq, Repr

/-! ## Campion -/

/-- One circuit of a train-line input: its state by the thresholds, since when, and its filtered state (R288); reset inactive. -/
structure LineIn where
  raw : Bool := false
  since : Nat := 0
  on : Bool := false
  deriving DecidableEq, Repr

/-- A two-circuit input (R289): each lane's circuit, since when they disagree or agree again, and the result. -/
structure TwoCircuit where
  a : LineIn := {}
  b : LineIn := {}
  differSince : Option Nat := none
  /-- forced inactive until the circuits have agreed for 1 s [08 R289] -/
  blocked : Bool := false
  agreeSince : Option Nat := none
  /-- active for both lanes, and since when [08 R289, 05 R193]; reset inactive -/
  active : Bool := false
  activeSince : Nat := 0
  deriving DecidableEq, Repr

/-- A digital input as a lane has it from its own frames (R17, R18, R280). -/
structure LaneIn where
  /-- filtered state; reset OFF -/
  on : Bool := false
  /-- failures and passes of its test pulses in succession per tap, taps with a fault [08 R280]; reset 0 -/
  fails : Tbl Nat := []
  passes : Tbl Nat := []
  taps : List Nat := []
  /-- its state in the window of the tap pulse that is to be judged next [08 R280]; reset OFF -/
  before : Bool := false
  deriving DecidableEq, Repr

/-- A switch as a lane judges it (R243, R248, R257, R341). -/
structure LaneLamp where
  /-- lit samples failed and passed in succession, grid points failed and passed [07 R243]; reset 0 -/
  litFails : Nat := 0
  litPasses : Nat := 0
  gridFails : Nat := 0
  gridPasses : Nat := 0
  /-- the instants at which the results of pulses are due in the PULSE record, and whether that is a repeat's; reset none -/
  due : List (Nat × Bool) := []
  /-- the lane's own verdict [07 R243]; reset not dark -/
  dark : Bool := false
  /-- the field side's verdict in the last DIAG record [08 R295]; reset 0 -/
  field : Bool := false
  /-- since when the verdicts differ, or, while a mismatch stands, agree; the mismatch [07 R243, R266 bit 14]; reset 0 -/
  differ : Option Nat := none
  mismatch : Bool := false
  /-- sense path: consecutive failed and passed tests, and the fault [10 R341]; reset 0 -/
  senseFails : Nat := 0
  sensePasses : Nat := 0
  senseFault : Bool := false
  /-- when the lane last counted a test of it, of which there is one every 10 s [10 R341]; reset none -/
  senseAt : Option Nat := none
  deriving DecidableEq, Repr

/-- A station as a lane has it from its own frames (R17, R190, R335, R336). -/
structure LaneStn where
  inputs : Tbl LaneIn := []
  /-- the AXIS record's position, and whether it was above that of the record before; its fault bits [08 R295]; reset 0 -/
  pos : Int := 0
  rising : Bool := false
  /-- the lane takes the leaf as driven closing [05 R190]; reset no -/
  closing : Bool := false
  encFault : Bool := false
  idxFault : Bool := false
  /-- position-known flag and closed position [10 R336]; reset clear, 0 -/
  known : Bool := false
  closedAt : Int := 0
  /-- station field supply, mV; FD conducting; reserve in use [08 R295]; reset 0 -/
  supply : Nat := 0
  conducts : Bool := false
  reserve : Bool := false
  fd : LaneLamp := {}
  la : LaneLamp := {}
  lb : LaneLamp := {}
  /-- the changeover was not carried out; since when the lane's main verdict is dark with no reserve in use [10 R335]; reset no -/
  noChange : Bool := false
  mainDarkAt : Option Nat := none
  /-- since when the backstop's current and edge conditions hold; a trip stands [05 R190]; reset no -/
  overSince : Option Nat := none
  edgeSince : Option Nat := none
  backstop : Bool := false
  deriving DecidableEq, Repr

/-- A slice's uplink as a lane receives it (R18, R291). -/
structure LaneSlc where
  /-- counter of the last frame with a correct CRC [08 R291]; reset none -/
  ref : Option Byte := none
  /-- instant of the last valid frame; the last frame was valid; an invalid one has come since the last cycle [01 R18]; reset none, no -/
  at_ : Option Nat := none
  ok : Bool := false
  bad : Bool := false
  /-- the last valid frame shows the fail-safe states applied [08 R294]; reset 0 -/
  safe : Bool := false
  /-- its element readbacks [08 R294]; reset 0 -/
  elemA : Byte := 0
  elemB : Byte := 0
  /-- number of the last LAMP, PULSE and TEST record judged, by slot [08 R280, R295]; reset none -/
  rounds : Tbl Nat := []
  /-- the instant of the first TEST record of the tap round, how many taps' windows have been seen and how many taps judged in it [08 R280];
  reset none -/
  tapAt : Option Nat := none
  tapSeen : Nat := 0
  tapDone : Nat := 0
  deriving DecidableEq, Repr

/-- A lane (R17 to R24, R332 to R336, R356). -/
structure LaneSt where
  /-- healthy and driving its elements, unit status bit 0 or 1 [01 R38]; reset 0 -/
  driving : Bool := false
  /-- start-up self-test ended, passed [01 R24]; reset no -/
  tested : Bool := false
  passed : Bool := false
  /-- stored safety configuration valid and equal to the other lane's [10 R356]; reset no -/
  configOk : Bool := false
  /-- given up control until the next unit reset [01 R23]; reset no -/
  gaveUp : Bool := false
  /-- LOOP contact commanded closed; changed at; the contact [05 R198, 10 R334]; reset open -/
  loop : Bool := false
  loopAt : Nat := 0
  contact : Bool := false
  /-- the two auxiliary contacts as the lane last judged them with LOOP open, closed or not, and when [10 R342]; reset none -/
  auxRead : Option (Nat × Bool × Bool) := none
  /-- since when every LOOP condition holds [05 R199]; reset none -/
  holdSince : Option Nat := none
  /-- station masks of FD elements commanded, per slice, and when a station's bit last changed [01 R19, 10 R334]; reset 0 -/
  masks : Tbl Byte := []
  maskAt : Tbl Nat := []
  /-- permission per station [05 R193]; reset 0 -/
  permitted : W64 := 0
  /-- the stations and the slices as its own frames give them [01 R17, R18] -/
  st : Tbl LaneStn := []
  sl : Tbl LaneSlc := []
  /-- the last own result record [10 R332] -/
  record : ResultRec := {}
  /-- instant of the last valid record of the other lane [10 R333] -/
  peerAt : Nat := 0
  /-- sequence number per safety message type [10 R350] -/
  seq : Tbl W32 := []
  /-- the lane's own store: committed safety configuration with its profiles, SKEY, and its unit number [10 R344, 14 R442, R449]; reset none
  (DESIGN CHOICE) -/
  store : Option KMap := none
  profiles : List (Nat × List Int × List Int) := []
  skey : Option Nat := none
  storeUnit : Option Nat := none
  deriving DecidableEq, Repr

/-- A safety connection: one source and one type (R351, R352). -/
structure SafeConn where
  lastSeq : Option W32 := none
  acceptedAt : Option Nat := none
  /-- valid [10 R352, R356]; reset not valid -/
  valid : Bool := false
  payload : List Byte := []
  deriving DecidableEq, Repr

/-- An authorisation delivered by the safety message layer (R115, R353). -/
structure Auth where
  session : Nat
  tag : Nat
  check : Nat
  at_ : Nat
  deriving DecidableEq, Repr

/-- What both lanes share (R20, R22, R342). -/
structure Campion where
  a : LaneSt := {}
  b : LaneSt := {}
  /-- safe state latched, unit status bit 2 [01 R22]; reset not latched -/
  safe : Bool := false
  /-- LOOP element fault, unit status bit 4 [01 R38]; reset 0 -/
  loopFault : Bool := false
  /-- the two-circuit inputs [08 R288]; reset inactive -/
  zero : TwoCircuit := {}
  rell : TwoCircuit := {}
  relr : TwoCircuit := {}
  key : TwoCircuit := {}
  /-- the proof clock: instant of the last LOOP opening proof [10 R342, R356]; reset none -/
  proofAt : Option Nat := none
  /-- the LOOP test: cause and start; a forced one has run since the last proof [10 R342]; reset not running, no -/
  test : Option (String × Nat) := none
  forced : Bool := false
  /-- id of the PROVE LOOP operation -/
  testOp : Option Nat := none
  /-- safety connections by source and type [10 R351, R352]; reset not valid -/
  conns : Tbl SafeConn := []
  /-- the time since which ZERO of the release message is active [10 R352] -/
  msgZeroSince : Option Nat := none
  auths : List Auth := []
  /-- when the cyclic messages were last sent [10 R350]; reset none -/
  sentAt : Option Nat := none
  /-- instant of the last safety-message-reject record per source [10 R351]; reset none -/
  rejects : Tbl Nat := []
  deriving DecidableEq, Repr

/-! ## Yarrow -/

/-- The charge of an admitted move or of an FD switched on by OUT (R304, R312). -/
structure Charge where
  station : Nat
  /-- the leaf whose move a motorised step's charge belongs to [09 R305]; none: the station's own -/
  owner : Option Nat := none
  bus : Nat
  cls : Nat
  /-- envelope, mA per ms from the first step [09 R303] -/
  env : List Nat
  /-- instant of the first step, us; none before it [09 R304] -/
  started : Option Nat := none
  /-- the move has no end of its own, or the FD stays on [09 R301, R312] -/
  open_ : Bool := false
  byOut : Bool := false
  /-- reservation id and its end in TIME ns [09 R323] -/
  res : Option (Nat × Int) := none
  deriving DecidableEq, Repr

/-- A peer's reservation (R323). -/
structure Reserve where
  source : Nat
  id : Nat
  group : Nat
  /-- current, mA -/
  peak : Nat
  cls : Nat
  firm : Bool
  start : Int
  duration : Nat
  /-- instant of its last frame, us -/
  seenAt : Nat
  deriving DecidableEq, Repr

/-- A group member as heard (R321, R325). -/
structure Member where
  group : Nat
  base : Nat
  /-- base currents of the last 5 s with their instants -/
  hist : List (Nat × Nat) := []
  seenAt : Nat
  gpeak : Nat
  deriving DecidableEq, Repr

/-- A drive bus (R302, R307, R319). -/
structure BusSt where
  /-- policy values: PEAK mA, EMAX J, GPEAK mA [09 R319]; reset none -/
  peak : Option Nat := none
  emax : Option Nat := none
  gpeak : Option Nat := none
  /-- unexplained currents, mA, each with the instant until which it is charged [09 R307]; reset none -/
  unexplained : List (Nat × Nat) := []
  /-- measured current mA and energy of the window, nJ with instants [09 R313]; reset 0 -/
  meas : Nat := 0
  energy : List (Nat × Nat) := []
  /-- group reports: since when they are received [09 R327, R329]; reset none -/
  reportsSince : Option Nat := none
  /-- group reports Yarrow wants before it offers moves here, us: 200 ms after a start, 100 ms after its own reset [09 R327, R329] -/
  reportNeed : Nat := 200000
  mismatchTold : Bool := false
  deriving DecidableEq, Repr

/-- Yarrow (R300 to R329). -/
structure Yarrow where
  charges : List Charge := []
  /-- policy caps in mW [09 R319]; reset none -/
  sliceCap : Tbl (Option Nat) := []
  unitCap : Option Nat := none
  /-- a move fails its crate test, unit status bit 26 [09 R315]; reset 0 -/
  crateFail : Bool := false
  /-- policy clips in force, unit status bit 18 [09 R320]; reset none -/
  clips : List (Obj × Key) := []
  members : Tbl Member := []
  reserves : List Reserve := []
  /-- next reservation id, frame sequence, sequences seen per source [09 R326]; reset 0 -/
  nextId : Nat := 1
  seq : Nat := 0
  seen : Tbl (List Nat) := []
  /-- since when no move has waited on an object, per slice; 8 is the unit [09 R317] -/
  freeSince : Tbl Nat := []
  /-- dimming fraction in force per object [09 R316]; unlisted 100 -/
  dims : Tbl Nat := []
  /-- a switch's loss in each millisecond of the last second, uW, with its instant, newest first; 3 n, 3 n + 1 and 3 n + 2 are LA, LB and
  FD of station n [09 R314]; reset none -/
  losses : Tbl (List (Nat × Nat)) := []
  deriving DecidableEq, Repr

/-! ## LINE -/

/-- LINE states (R82). -/
inductive LineSt where
  | certain | provisional | lost
  deriving DecidableEq, Repr

/-- The LINE timebase (R78 to R83). -/
structure LineTb where
  /-- state [02 R84]; reset LOST -/
  st : LineSt := .lost
  /-- the sum in um; LINE is its floor in mm [02 R79, R84]; reset 0 -/
  um : Int := 0
  /-- half microns owed in DUAL, where LINE advances by the mean of two counts [02 R78] -/
  half : Int := 0
  /-- travel counted in DUAL, half um, and the counts of the last 20,000 mm with the travel at which they came, newest first; true: TACHO2
  [02 R80]; reset none -/
  travel : Nat := 0
  recent : List (Nat × Bool) := []
  /-- counts of one input since the other last counted [02 R80] -/
  run1 : Nat := 0
  run2 : Nat := 0
  /-- DUAL runs on one input only: false TACHO1, true TACHO2 [02 R80] -/
  only : Option Bool := none
  /-- table entries matched by a mark since LINE last passed them [02 R82] -/
  matched : List Nat := []
  /-- table entries LINE has passed since it last became CERTAIN and that no mark has matched yet [02 R82] -/
  passed : List Nat := []
  /-- the circuits of TACHO1, TACHO2 and MARK; a filtered pulse of MARK has come [08 R288]; reset inactive, no -/
  t1 : LineIn := {}
  t2 : LineIn := {}
  t3 : LineIn := {}
  markDue : Bool := false
  deriving DecidableEq, Repr

/-! ## Network, time -/

/-- A path's counters and link state (R363, R364). -/
structure PathSt where
  link : Bool := false
  /-- unit status bit 5 or 6 [01 R38, 11 R363]; reset 0 -/
  bit : Bool := false
  supAt : Option Nat := none
  /-- since when supervision frames arrive without a gap of 100 ms [11 R363] -/
  gapless : Option Nat := none
  sent : Nat := 0
  received : Nat := 0
  fcs : Nat := 0
  wrong : Nat := 0
  dup : Nat := 0
  links : Nat := 0
  /-- Sync: last instant, missed intervals in a row, and since when every Sync came [11 R370] -/
  syncAt : Option Nat := none
  missed : Nat := 0
  cleanSince : Option Nat := none
  deriving DecidableEq, Repr

/-- A peer table entry (R359, R363, R380). -/
structure Peer where
  known : Bool := false
  serial : Nat := 0
  ip : Nat := 0
  cap : W32 := 0
  status : W32 := 0
  flags : Nat := 0
  /-- its uptime in s, announce sequence number and software version, from its latest announce [11 R359] -/
  up : Nat := 0
  annSeq : Nat := 0
  version : List Byte := []
  seenAt : Nat := 0
  silent : Bool := false
  pathA : Bool := false
  pathB : Bool := false
  supA : Option Nat := none
  supB : Option Nat := none
  /-- serials heard with this number and when, for a conflict [11 R360] -/
  serials : List (Nat × Nat) := []
  conflict : Bool := false
  deriving DecidableEq, Repr

/-- Services a frame belongs to (R365). -/
inductive Svc where
  | session | safety | budget | twin | announce | sleepVote | ptp | prp | arp | icmp | igmp
  deriving DecidableEq, Repr

/-- A first copy in the duplicate-discard window: its node, its trailer's sequence number, when it came, whether its second copy has come, and
whether its node has counters (R362, R364). -/
structure Copy where
  node : Nat
  seq : Nat
  at_ : Nat
  twice : Bool := false
  counted : Bool := true
  deriving DecidableEq, Repr

/-- A frame handed to the ports: service, destination unit or group, path (none: both), content. -/
structure Frame where
  svc : Svc
  dst : Option Nat
  path : Option Path := none
  data : List Byte
  /-- the MAC address it is sent from, the same on both ports [11 R362] -/
  src : BitVec 48
  /-- the PRP trailer of the copy on each path: the path's identifier and the unit's sequence number; none without one [11 R362] -/
  trailer : List (Path × Nat) := []
  /-- the priority of its IEEE 802.1Q tag, none untagged [11 R367] -/
  tag : Option Nat := none
  /-- the IPv4 address and the port it goes to, none where no IPv4 datagram or segment carries it; a multicast datagram's time-to-live is 1
  [11 R365] -/
  addr : Option (Nat × Nat) := none
  ttl : Option Nat := none
  set : Option BankSet := none
  deriving DecidableEq, Repr

/-- The PTP settings in force (R369). -/
structure PtpKeys where
  domain : Nat
  masterCap : Bool
  prio1 : Nat
  prio2 : Nat
  annInt : Int
  annTo : Nat
  syncInt : Int
  delayInt : Nat
  utcOff : Nat
  deriving DecidableEq, Repr

/-- PTP (R369 to R373). -/
structure Ptp where
  /-- the settings in force, none before the first are taken; the Announce interval in which they were taken, and whether the best-master
  algorithm has yet to run with them [11 R369]; reset none, 0, no -/
  keys : Option PtpKeys := none
  keysAt : Nat := 0
  reselect : Bool := false
  /-- the selected grandmaster; `none`: none selected [11 R372]; reset none -/
  gm : Option PtpSet := none
  /-- this unit is grandmaster, unit status bit 8 [11 R373]; reset 0 -/
  self : Bool := false
  /-- unit status bit 7 [11 R372]; reset 0 -/
  bit7 : Bool := false
  clearedAt : Option Nat := none
  /-- unit status bit 28 [11 R372, 07 R268]; reset 0 -/
  bit28 : Bool := false
  /-- consecutive accepted Syncs within 500 ns [11 R372] -/
  good : Nat := 0
  /-- the last offset, ns; sign of the last offset above 100 us [11 R371] -/
  offset : Int := 0
  lastBig : Int := 0
  /-- path time is taken over [11 R370] -/
  path : Path := .a
  syncAt : Option Nat := none
  annAt : Option Nat := none
  /-- foreign masters heard, with each one's last Announce [11 R370] -/
  foreign : List (PtpSet × Nat) := []
  deriving DecidableEq, Repr

/-- The network engine (R357 to R382). -/
structure Net where
  a : PathSt := {}
  b : PathSt := {}
  /-- single-copy frames, the duplicate-discard window, the node table with each node's last frame, and the next PRP sequence number
  [11 R362, R364]; reset 0, empty, empty, 0 (DESIGN CHOICE) -/
  single : Nat := 0
  window : List Copy := []
  nodes : List (Nat × Nat) := []
  prpSeq : Nat := 0
  peers : Tbl Peer := []
  /-- own number conflict [11 R360]; reset 0 -/
  conflict : Bool := false
  annSeq : Nat := 0
  /-- next announce, report, heartbeat, safety and supervision instants are the rows' own; last sent: us -/
  supSeq : Nat := 0
  ptp : Ptp := {}
  relays : List Relay := []
  nextRelay : Nat := 0
  /-- multicast groups joined [11 R366]; reset none -/
  groups : List Nat := []
  /-- frames handed to the ports, oldest first -/
  tx : List Frame := []
  /-- address, mask and gateway in force since the last unit reset [11 R358] -/
  ip : Nat := 0
  mask : Nat := 16
  gateway : Nat := 0
  deriving DecidableEq, Repr

/-! ## Twins -/

/-- Custody held for a partner (R388 to R391). -/
structure Custody where
  unit : Nat
  seq : Nat := 0
  set : Option BankSet := none
  /-- raw 128-byte records, oldest first, at most 4,096 -/
  records : List (List Byte) := []
  /-- blocks received of a partial bank, for which sequence [12 R390] -/
  partSeq : Nat := 0
  part : List Nat := []
  deriving DecidableEq, Repr

/-- Twin link (R383 to R398). -/
structure Twin where
  /-- unit status bits 9 and 10 [12 R384, R387]; reset 0 -/
  formed : Bool := false
  silent : Bool := false
  asleep : Bool := false
  hbAt : Option Nat := none
  /-- the partner's heartbeat: its TWIN, flags, own seq, crc, newest record, held seq, wanted block, held record [12 R386] -/
  hbTwin : Option Nat := none
  hbFlags : Nat := 0
  hbSeq : Nat := 0
  hbCrc : W32 := 0
  hbRec : Nat := 0
  hbHeld : Nat := 0
  hbWant : Nat := 4294967295
  hbHeldRec : Nat := 0
  refused : Bool := false
  newerTold : Bool := false
  /-- when frames of types 4 and 5 were last sent [12 R391]; reset never -/
  blocksAt : Option Nat := none
  custody : Option Custody := none
  seq : Nat := 0
  seen : Tbl (List Nat) := []
  /-- attachment: suspended, the holder pulled from, offer (seq, crc, len, oldest, newest), blocks, records, last frame [12 R394 to R396] -/
  suspended : Bool := false
  pullFrom : Option Nat := none
  offer : Option (Nat × W32 × Nat × Nat × Nat) := none
  blocks : List Nat := []
  pulled : Option BankSet := none
  records : List (List Byte) := []
  frameAt : Nat := 0
  offerAt : Option Nat := none
  /-- frames of types 4 and 5 still to send for a pull, and frames sent in the present 100 ms [12 R391] -/
  sendFrom : Option Nat := none
  sendTo : Option Nat := none
  sentRec : Nat := 0
  deriving DecidableEq, Repr

/-! ## Sleep and the crate supervisor -/

/-- A sleep vote this unit takes part in (R401). -/
structure Vote where
  coord : Nat
  number : Nat
  electors : List Nat
  /-- instant of the propose, us -/
  at_ : Nat
  ready : List Nat := []
  notReady : List Nat := []
  /-- this unit's own vote -/
  voted : Bool := false
  op : Option Nat := none
  deriving DecidableEq, Repr

/-- Sleep state of the head (R399 to R405). -/
structure SleepSt where
  vote : Option Vote := none
  /-- commit instant in TIME ns while in the commit window [12 R403]; reset none -/
  commit : Option Int := none
  /-- unit status bit 16 [12 R404]; reset 0 -/
  reached : Bool := false
  number : Nat := 0
  seq : Nat := 0
  seen : Tbl (List Nat) := []
  /-- vote numbers and types acted on, per coordinator [12 R401] -/
  acted : List (Nat × Nat × Nat) := []
  deriving DecidableEq, Repr

/-- States of the crate supervisor (R407). -/
inductive SupSt where
  | awake | pending | asleep | boot
  deriving DecidableEq, Repr

/-- The crate supervisor (R29 to R32, R404 to R409, R415). -/
structure Super where
  /-- state, non-volatile [12 R407]; reset AWAKE -/
  st : SupSt := .awake
  /-- wake latch and causes host, remote, local [12 R407]; reset clear -/
  latch : Bool := false
  host : Bool := false
  remote : Bool := false
  local_ : Bool := false
  /-- the commit instant handed over, us of the supervisor's timer [12 R404] -/
  commitAt : Option Nat := none
  /-- power-down completed at, where the latch was set already [12 R407] -/
  downAt : Option Nat := none
  /-- BOOT began at [12 R408] -/
  bootAt : Option Nat := none
  /-- crate input low since; hold-up running, unit status bits 24 and 25 [17 R514]; reset input good -/
  lowSince : Option Nat := none
  /-- input stands at 16.8 V since [17 R514] -/
  goodSince : Option Nat := some 0
  /-- power removed for a RESET POWER until [01 R30] -/
  offUntil : Option Nat := none
  /-- RESET POWER acted without a snapshot [13 R424]; reset no -/
  snapNone : Bool := false
  /-- snapshot number reported by the head for a RESET POWER [13 R419] -/
  snap : String := "none"
  powerOp : Option Nat := none
  /-- tag memory of 16 tags [03 R112]; reset empty -/
  tags : List TagEntry := []
  /-- replies sent on the supervisor line -/
  out : List Reply := []
  /-- WAKEOUT driven until [12 R409]; reset off -/
  wakeout : Option Nat := none
  /-- WAKEIN and its filter [08 R288]; reset inactive -/
  wakein : LineIn := {}
  /-- crate input, mV [16 R507 vin]; reset 110,000 (DESIGN CHOICE) -/
  vin : Nat := 110000
  deriving DecidableEq, Repr

/-! ## The head -/

/-- An engine (R13, R14). -/
structure EngineSt where
  /-- progress counter [01 R14, 13 R441]; reset 0 -/
  ctr : W32 := 0
  /-- id of the RESET operation -/
  op : Option Nat := none
  deriving DecidableEq, Repr

/-- Causes of a start record (R459). -/
inductive StartCause where
  | power | unit | resetPwr | wake
  deriving DecidableEq, Repr

/-- The head (R11, R469 to R473). -/
structure Head where
  /-- head logic powered [01 R9]; reset on (power-up has just been given) -/
  powered : Bool := true
  /-- the head reset line is released and the cores run: head start done [15 R469]; reset no -/
  started : Bool := false
  /-- what the start follows [14 R459]; reset POWER -/
  cause : StartCause := .power
  /-- start-up self-test not complete, unit status bit 31 [01 R38]; reset 1 -/
  bit31 : Bool := true
  /-- instant of the last head start: origin of the step timebase, us [01 R11] -/
  startAt : Nat := 0
  /-- the memory test runs, has ended, has failed [15 R471, R473]; reset running -/
  memRun : Bool := true
  memFail : Bool := false
  /-- unit number of a valid plug [11 R357]; reset none -/
  unit : Option Nat := none
  /-- head serial number, 10 digits [16 R507]; reset 0 (DESIGN CHOICE) -/
  serial : Nat := 0
  engines : Tbl EngineSt := []
  /-- engine reset in progress, unit status bit 22: which engine -/
  resetting : Option Engine := none
  /-- records queued in the engines while Teasel resets, at most 4,096, and whether some were lost [01 R15] -/
  lostRecords : Bool := false
  /-- configuration set loaded, last load refused, unit status bits 11 and 12 [01 R38]; reset 0 -/
  loaded : Bool := false
  refused : Bool := false
  /-- snapshot present and not read, unit status bit 21 [13 R428, R441]; reset 0 -/
  unread : Bool := false
  /-- the wake causes read from the latch at this start [12 R408, R410]; reset none -/
  wakeCauses : String := ""
  /-- crate supervisor pin of the console rate switch, baud [17 R522]; reset 115,200 -/
  baud : Nat := 115200
  deriving DecidableEq, Repr

/-! ## Stores -/

/-- A journal record, with its payload as bytes (R444). -/
structure JRec where
  num : Nat
  stamp : Int
  code : Nat
  flags : Nat := 0
  unit : Nat := 65535
  station : Nat := 255
  session : Nat := 255
  tag : Option Nat := none
  chan : Nat := 15
  slice : Nat := 255
  engine : Nat := 255
  payload : List Byte := []
  /-- the place fails its CRC or read-back [14 R455, R457] -/
  bad : Bool := false
  deriving DecidableEq, Repr

/-- The journal (R442 to R458). -/
structure Journal where
  /-- places of the record area in writing order: place and record [14 R452]; reset empty (DESIGN CHOICE: a new store) -/
  store : List (Nat × JRec) := []
  nextPlace : Nat := 0
  /-- next record number [14 R445]; reset 1 -/
  nextNum : Nat := 1
  /-- write buffer with the instant its oldest record was formed [14 R453]; reset empty -/
  buf : List JRec := []
  bufSince : Nat := 0
  /-- records queued in engines during a Teasel reset [01 R15]; reset none -/
  queued : List JRec := []
  /-- store fault, unit status bit 20 [14 R455]; reset 0 -/
  fault : Bool := false
  badBlocks : List Nat := []
  badPlaces : List Nat := []
  /-- index banks: sequence number and last indexed block [14 R456]; reset none -/
  indexA : Option (Nat × Nat) := none
  indexB : Option (Nat × Nat) := none
  deriving DecidableEq, Repr

/-- A pool entry with its text in a snapshot (R426). -/
structure SnapItem where
  slot : Nat
  entry : PoolEntry
  acc : Nat
  verb : Verb
  text : List Byte
  /-- the embedded command of an event -/
  doVerb : Option Verb := none
  port : Port
  stations : List Nat := []
  deriving DecidableEq, Repr

/-- A snapshot (R426, R463). -/
structure Snapshot where
  num : Nat
  /-- rung code 1 to 5 and object byte [14 R463] -/
  rung : Nat
  object : Nat
  full : Bool
  at_ : Int
  len : Nat
  suspect : List Nat := []
  omitted : List Nat := []
  partialG : List Nat := []
  items : List SnapItem := []
  /-- sessions that have a group -/
  groups : List Nat := []
  tags : List (Nat × List TagEntry) := []
  system : List (Nat × PoolEntry) := []
  pointer : Nat := 0
  pinned : Bool := false
  /-- bytes read by some session, as ranges [14 R459, R502] -/
  read : List (Nat × Nat) := []
  unit : Option Nat := none
  deriving DecidableEq, Repr

/-- A configuration bank (R460 to R462). -/
structure Bank where
  valid : Bool := false
  unit : Option Nat := none
  seq : Nat := 0
  at_ : Int := 0
  cause : Nat := 0
  session : Nat := 255
  set : BankSet := {}
  deriving DecidableEq, Repr

/-- A bank write in progress (R461). -/
structure BankWrite where
  /-- true: bank B -/
  bankB : Bool
  bank : Bank
  /-- both banks are written (attachment) [12 R395] -/
  both : Bool := false
  op : Option Nat
  /-- SAVE commits a staged set [15 R478] -/
  staged : Bool := false
  started : Nat
  deriving DecidableEq, Repr

/-- The stores of a head (R442). -/
structure Stores where
  bankA : Bank := {}
  bankB : Bank := {}
  /-- the bank loaded: none, A (false), B (true) [14 R462]; reset none -/
  loaded : Option Bool := none
  bothLoaded : Bool := false
  write : Option BankWrite := none
  snapA : Option Snapshot := none
  snapB : Option Snapshot := none
  /-- number of the newest snapshot written [13 R427]; reset 0 -/
  snapNum : Nat := 0
  deriving DecidableEq, Repr

/-! ## Configuration -/

/-- A safety configuration between its writing and its adoption: keys, commissioning profiles, SKEY (R346). -/
structure Saving where
  keys : KMap
  profiles : List (Nat × List Int × List Int)
  skey : Option Nat
  deriving DecidableEq, Repr

/-- The configuration (R345, R474, R497). -/
structure Cfg where
  /-- keys outside the safety configuration, in force [16 R504]; reset every key at its default -/
  plain : KMap := []
  /-- committed safety configuration [10 R344]; reset none committed (defaults) -/
  safety : KMap := []
  /-- candidate safety configuration [10 R345]; reset none -/
  cand : Option KMap := none
  /-- SKEY of the candidate [14 R449] -/
  candSkey : Option Nat := none
  /-- the safety configuration that a SAVE SAFETY is writing to the latches [10 R346]; reset none -/
  saving : Option Saving := none
  /-- commissioning profiles, committed and candidate: station, opening, closing [05 R184]; reset none -/
  profiles : List (Nat × List Int × List Int) := []
  candProfiles : List (Nat × List Int × List Int) := []
  /-- TWIN [12 R383]; reset NONE -/
  twin : Option Nat := none
  deriving DecidableEq, Repr

/-- The model's clock: microseconds since the state after reset, and TIME in 10^-15 s with the servo's correction in
parts per billion [01 R11, R12; 02 R84]; reset 0 (DESIGN CHOICE: the real-time counter's value). -/
structure Clock where
  now : Nat := 0
  timeFs : Int := 0
  ppb : Int := 0
  deriving DecidableEq, Repr

/-- The ordering code (R2, R3): 0 GZ16, 1 GZ32, 2 GZ64; reset GZ64-T-P-J16 (DESIGN CHOICE). -/
structure Fit where
  base : Nat := 2
  optT : Bool := true
  optP : Bool := true
  j16 : Bool := true
  deriving DecidableEq, Repr

/-- Why a step faults. -/
inductive Fault where
  /-- raised by no meaning; names a command whose operands no line, frame or happening can spell (safe: it stops) -/
  | illFormed (mnemonic : String)
  deriving DecidableEq, Repr

/-- Why a command has no meaning. -/
inductive Refusal where
  /-- raised by a dispatch arm that has no meaning yet (safe: it stops) -/
  | notModelled (mnemonic : String)
  deriving DecidableEq, Repr

/-- A report and record formed at a field side, which the head has not made yet: the link is silent, or the lamp engine is being
reset [06 R237, 07 R242]. -/
structure FieldRep where
  station : Nat
  chan : Chan
  words : List String
  /-- record type code, 0 for none -/
  code : Nat
  payload : List Byte
  /-- formed while the head was silent -/
  silent : Bool
  /-- the lamp engine makes it -/
  lamp : Bool
  deriving DecidableEq, Repr

/-- A complete line in a session's input buffer: as it was framed on its arrival, the command its fields spell, the instant of its final
LF, whether its characters were lost because the console's buffer was full, and whether the line still waits outside a network session's
full buffer, on its connection (R98, R109, R115), and whether it has asked an event engine without core time for its slot (R537). -/
structure InLine where
  ses : Nat
  line : Line
  cmd : Instr
  at_ : Nat
  lost : Bool := false
  outside : Bool := false
  asked : Bool := false
  deriving DecidableEq, Repr

/-- The context in which a verb runs: who gets its replies. `within` names the event or REPLAY operation, and the firing or
line number, when the verb runs inside one (R66, R431). -/
structure Ctx where
  port : Port
  tag : Option Nat := none
  within : Option (Nat × Nat) := none
  acc : Nat := 0
  text : List Byte := []
  deriving DecidableEq, Repr

/-- The final reply of a verb that has set field outputs: it is sent once the return frames of the slices report the states (R102). The
slices whose next downlink frame will carry them, and those whose frame has carried them. -/
structure Return where
  ctx : Ctx
  reply : Reply
  due : List Nat
  sent : List Nat := []
  deriving DecidableEq, Repr

/-- The state of the unit. -/
structure State where
  fit : Fit := {}
  clk : Clock := {}
  head : Head := {}
  sup : Super := {}
  sess : Tbl Session := []
  /-- the 16,384 pool entries [02 R49]; reset every byte 0 -/
  pool : Tbl PoolEntry := []
  /-- pool-full record written and not yet answered [02 R56]; reset no -/
  poolFull : Bool := false
  ops : List Op := []
  /-- next operation id and acceptance number; model's own counters -/
  nextOp : Nat := 0
  accNo : Nat := 0
  crossings : List Crossing := []
  cfg : Cfg := {}
  st : Tbl Station := []
  sl : Tbl Slice := []
  line : LineTb := {}
  camp : Campion := {}
  yar : Yarrow := {}
  bus : Tbl BusSt := []
  /-- reports that wait for a link or for the lamp engine, oldest first [06 R237, 07 R242]; reset none -/
  reports : List FieldRep := []
  net : Net := {}
  twin : Twin := {}
  slp : SleepSt := {}
  jrn : Journal := {}
  store : Stores := {}
  /-- the model's counter of values the manual leaves free (DESIGN CHOICE; no statement rests on it) -/
  free : Nat := 0
  /-- complete lines in the input buffers, oldest first: those the interpreter cannot read yet. The first 4 KiB of a network session's lie in
  its buffer, the others still in its transport; the console's holds 16 lines [03 R109, 13 R421]; reset none -/
  inbuf : List InLine := []
  /-- lines that have left on the sessions' connections, oldest first, with their sessions [03 R107]; reset none -/
  left : List (Nat × Reply) := []
  /-- final replies that wait for the field sides' return frames, oldest first [03 R102]; reset none -/
  returns : List Return := []
  /-- the commands that wait, first in first out; the model's own -/
  pending : List Instr := []
  deriving DecidableEq, Repr

/-- The state right after reset: crate power has just been given to a commissioned head with empty stores, and its
start-up sequence has not begun (R469); no command waits. -/
def State.reset : State := {}

end Sys2Proof.Machine
end

