-- ==== Sys2Proof/Machine/Ops.lean ====
section
/-! DEFINITION. The named operations over the state: sparse tables, access to each part, bytes and checks, replies and
the lengths they take in an output buffer, and progress counters. -/

namespace Sys2Proof.Machine

open Sys2Proof

/-! ## Tables kept by number -/

/-- The record at a number; an unlisted number reads as the default record. -/
def tget {α : Type} (d : α) : Tbl α → Nat → α
  | [], _ => d
  | (k, v) :: t, n => if k = n then v else tget d t n

/-- A table with one record replaced, its numbers kept rising. -/
def tset {α : Type} : Tbl α → Nat → α → Tbl α
  | [], n, a => [(n, a)]
  | (k, v) :: t, n, a =>
    if n = k then (k, a) :: t else if n < k then (n, a) :: (k, v) :: t else (k, v) :: tset t n a

/-- A table with one record taken out. -/
def tdel {α : Type} : Tbl α → Nat → Tbl α
  | [], _ => []
  | (k, v) :: t, n => if k = n then t else (k, v) :: tdel t n

/-- A table with one record changed by a function. -/
def tmod {α : Type} (d : α) (t : Tbl α) (n : Nat) (f : α → α) : Tbl α := tset t n (f (tget d t n))

/-- The first match in an association list. -/
def aget {κ α : Type} [DecidableEq κ] : List (κ × α) → κ → Option α
  | [], _ => none
  | (k, v) :: t, n => if k = n then some v else aget t n

/-- An association list with one entry replaced in place, or added at its end. -/
def aset {κ α : Type} [DecidableEq κ] : List (κ × α) → κ → α → List (κ × α)
  | [], n, a => [(n, a)]
  | (k, v) :: t, n, a => if k = n then (k, a) :: t else (k, v) :: aset t n a

/-- An association list without one key. -/
def adel {κ α : Type} [DecidableEq κ] : List (κ × α) → κ → List (κ × α)
  | [], _ => []
  | (k, v) :: t, n => if k = n then adel t n else (k, v) :: adel t n

/-- Runs a list of changes from its first to its last. -/
def forEach {α σ : Type} (l : List α) (f : α → σ → σ) (s : σ) : σ := l.foldl (fun s a => f a s) s

/-! ## Parts of the state -/

/-- Session n (R108). -/
def State.ses (s : State) (n : Nat) : Session := tget {} s.sess n
/-- Changes session n. -/
def State.modSes (s : State) (n : Nat) (f : Session → Session) : State := { s with sess := tmod {} s.sess n f }
/-- Pool entry n (R58). -/
def State.ent (s : State) (n : Nat) : PoolEntry := tget {} s.pool n
/-- Changes pool entry n. -/
def State.modEnt (s : State) (n : Nat) (f : PoolEntry → PoolEntry) : State := { s with pool := tmod {} s.pool n f }
/-- Station n (R4). -/
def State.stn (s : State) (n : Nat) : Station := tget {} s.st n
/-- Changes station n. -/
def State.modStn (s : State) (n : Nat) (f : Station → Station) : State := { s with st := tmod {} s.st n f }
/-- Slice position p (R3). -/
def State.slc (s : State) (p : Nat) : Slice := tget {} s.sl p
/-- Changes slice position p. -/
def State.modSlc (s : State) (p : Nat) (f : Slice → Slice) : State := { s with sl := tmod {} s.sl p f }
/-- Drive bus b, 0 for BUSA (R302). -/
def State.busOf (s : State) (b : Nat) : BusSt := tget {} s.bus b
/-- Changes drive bus b. -/
def State.modBus (s : State) (b : Nat) (f : BusSt → BusSt) : State := { s with bus := tmod {} s.bus b f }
/-- Changes the axis of station n. -/
def State.modAx (s : State) (n : Nat) (f : Axis → Axis) : State := s.modStn n fun t => { t with axis := f t.axis }
/-- The axis of station n (R125). -/
def State.ax (s : State) (n : Nat) : Axis := (s.stn n).axis

/-- A protected switch of a station (R206). -/
def Station.sw (t : Station) : Sw → Switch
  | .fd => t.fd
  | .la => t.la
  | .lb => t.lb
/-- A station with one switch changed. -/
def Station.modSw (t : Station) (w : Sw) (f : Switch → Switch) : Station :=
  match w with
  | .fd => { t with fd := f t.fd }
  | .la => { t with la := f t.la }
  | .lb => { t with lb := f t.lb }
/-- A switch of station n. -/
def State.sw (s : State) (n : Nat) (w : Sw) : Switch := (s.stn n).sw w
/-- Changes a switch of station n. -/
def State.modSw (s : State) (n : Nat) (w : Sw) (f : Switch → Switch) : State := s.modStn n fun t => t.modSw w f
/-- Changes the proving state of a load channel. -/
def State.modLamp (s : State) (n : Nat) (w : Sw) (f : Lamp → Lamp) : State :=
  s.modSw n w fun x => { x with lamp := f x.lamp }
/-- The load channel a flag names: false LA, true LB. -/
def chanSw (b : Bool) : Sw := if b then .lb else .la

/-- Digital input k of a station (R272). -/
def Station.inp (t : Station) (k : Nat) : Input := tget {} t.inputs k
/-- Changes a digital input. -/
def State.modInp (s : State) (n k : Nat) (f : Input → Input) : State :=
  s.modStn n fun t => { t with inputs := tmod {} t.inputs k f }
/-- Digital output 0 or 1 of a station (R284). -/
def Station.outp (t : Station) (second : Bool) : Output := if second then t.out1 else t.out0
/-- Changes a digital output. -/
def State.modOut (s : State) (n : Nat) (second : Bool) (f : Output → Output) : State :=
  s.modStn n fun t => if second then { t with out1 := f t.out1 } else { t with out0 := f t.out0 }

/-- A lane (R17). -/
def State.lane (s : State) : Lane → LaneSt
  | .a => s.camp.a
  | .b => s.camp.b
/-- Changes a lane. -/
def State.modLane (s : State) (x : Lane) (f : LaneSt → LaneSt) : State :=
  match x with
  | .a => { s with camp := { s.camp with a := f s.camp.a } }
  | .b => { s with camp := { s.camp with b := f s.camp.b } }
/-- Station n as a lane has it (R17). -/
def State.laneStn (s : State) (x : Lane) (n : Nat) : LaneStn := tget {} (s.lane x).st n
/-- Changes a lane's copy of a station. -/
def State.modLaneStn (s : State) (x : Lane) (n : Nat) (f : LaneStn → LaneStn) : State :=
  s.modLane x fun l => { l with st := tmod {} l.st n f }
/-- Slice position p as a lane has it (R18). -/
def State.laneSlc (s : State) (x : Lane) (p : Nat) : LaneSlc := tget {} (s.lane x).sl p
/-- Changes a lane's copy of a slice. -/
def State.modLaneSlc (s : State) (x : Lane) (p : Nat) (f : LaneSlc → LaneSlc) : State :=
  s.modLane x fun l => { l with sl := tmod {} l.sl p f }
/-- A switch as a lane judges it. -/
def LaneStn.sw (t : LaneStn) : Sw → LaneLamp
  | .fd => t.fd
  | .la => t.la
  | .lb => t.lb
/-- Changes what a lane keeps of a switch. -/
def LaneStn.modSw (t : LaneStn) (w : Sw) (f : LaneLamp → LaneLamp) : LaneStn :=
  match w with
  | .fd => { t with fd := f t.fd }
  | .la => { t with la := f t.la }
  | .lb => { t with lb := f t.lb }
/-- A switch of a station as a lane judges it. -/
def State.laneSw (s : State) (x : Lane) (n : Nat) (w : Sw) : LaneLamp := (s.laneStn x n).sw w
/-- Changes what a lane keeps of a switch. -/
def State.modLaneSw (s : State) (x : Lane) (n : Nat) (w : Sw) (f : LaneLamp → LaneLamp) : State := s.modLaneStn x n fun t => t.modSw w f
/-- A digital input as a lane has it. -/
def LaneStn.inp (t : LaneStn) (k : Nat) : LaneIn := tget {} t.inputs k
/-- A lane runs its cycles: powered, with its start-up self-test ended (R24). -/
def laneRuns (s : State) (x : Lane) : Bool := s.head.powered && (s.lane x).tested
/-- The other lane. -/
def otherLane : Lane → Lane
  | .a => .b
  | .b => .a
/-- Changes what both lanes share. -/
def State.modCamp (s : State) (f : Campion → Campion) : State := { s with camp := f s.camp }

/-- A path's counters (R364). -/
def State.path (s : State) : Path → PathSt
  | .a => s.net.a
  | .b => s.net.b
/-- Changes a path. -/
def State.modPath (s : State) (x : Path) (f : PathSt → PathSt) : State :=
  match x with
  | .a => { s with net := { s.net with a := f s.net.a } }
  | .b => { s with net := { s.net with b := f s.net.b } }
/-- Changes the network engine's data. -/
def State.modNet (s : State) (f : Net → Net) : State := { s with net := f s.net }
/-- A peer table entry (R359). -/
def State.peer (s : State) (u : Nat) : Peer := tget {} s.net.peers u
/-- Changes a peer table entry. -/
def State.modPeer (s : State) (u : Nat) (f : Peer → Peer) : State :=
  s.modNet fun n => { n with peers := tmod {} n.peers u f }
/-- Changes the twin link. -/
def State.modTwin (s : State) (f : Twin → Twin) : State := { s with twin := f s.twin }
/-- Changes Yarrow. -/
def State.modYar (s : State) (f : Yarrow → Yarrow) : State := { s with yar := f s.yar }
/-- Changes LINE. -/
def State.modLine (s : State) (f : LineTb → LineTb) : State := { s with line := f s.line }
/-- Changes the crate supervisor. -/
def State.modSup (s : State) (f : Super → Super) : State := { s with sup := f s.sup }
/-- Changes the head. -/
def State.modHead (s : State) (f : Head → Head) : State := { s with head := f s.head }
/-- Changes the sleep state. -/
def State.modSlp (s : State) (f : SleepSt → SleepSt) : State := { s with slp := f s.slp }
/-- Changes the journal. -/
def State.modJrn (s : State) (f : Journal → Journal) : State := { s with jrn := f s.jrn }
/-- Changes the stores. -/
def State.modStore (s : State) (f : Stores → Stores) : State := { s with store := f s.store }
/-- Changes the configuration. -/
def State.modCfg (s : State) (f : Cfg → Cfg) : State := { s with cfg := f s.cfg }

/-- The engine's number (R444 byte 30). -/
def engCode : Engine → Nat
  | .int => 0
  | .net => 1
  | .evt => 2
  | .io => 3
  | .mot => 4
  | .lamp => 5
  | .bud => 6
  | .jrn => 7
/-- The engine's name on a line (16, RESET engine names). -/
def engName : Engine → String
  | .int => "INT"
  | .net => "NET"
  | .evt => "EVT"
  | .io => "IO"
  | .mot => "MOT"
  | .lamp => "LAMP"
  | .bud => "BUD"
  | .jrn => "JRN"
/-- The eight engines in the order of R413. -/
def allEngines : List Engine := [.int, .net, .evt, .io, .mot, .lamp, .bud, .jrn]
/-- An engine's data (R14). -/
def State.eng (s : State) (e : Engine) : EngineSt := tget {} s.head.engines (engCode e)
/-- Changes an engine's data. -/
def State.modEng (s : State) (e : Engine) (f : EngineSt → EngineSt) : State :=
  s.modHead fun h => { h with engines := tmod {} h.engines (engCode e) f }
/-- The engine is being reset (R421). -/
def State.engDown (s : State) (e : Engine) : Bool := decide (s.head.resetting = some e)
/-- The engine has completed k units of work (R14, R414); the counter wraps, and stays at 0 while the engine is being reset. -/
def State.worked (s : State) (e : Engine) (k : Nat := 1) : State :=
  s.modEng e fun x => { x with ctr := x.ctr + BitVec.ofNat 32 (if s.engDown e then 0 else k) }
/-- The other engine of an engine's core (R13). -/
def coreMate : Engine → Engine
  | .int => .net
  | .net => .int
  | .evt => .io
  | .io => .evt
  | .mot => .lamp
  | .lamp => .mot
  | .bud => .jrn
  | .jrn => .bud
/-- The engine gets no core time: it, or the other engine of its core, is being reset (R13; DEDUCED for what a field side or a port hands
over meanwhile, log entry 99). -/
def State.noTime (s : State) (e : Engine) : Bool := s.engDown e || s.engDown (coreMate e)

/-- Station numbers of slice position p (R26). -/
def stationsOf (p : Nat) : List Nat := (List.range 8).map (8 * p + ·)
/-- The slice position of a station (R4). -/
def slotOf (n : Nat) : Nat := n / 8
/-- All 64 stations. -/
def allStations : List Nat := List.range 64
/-- The eight slice positions. -/
def allSlices : List Nat := List.range 8

/-- A fresh count for a value the manual leaves free; the counter advances (DESIGN CHOICE, log entry 3). -/
def State.draw (s : State) : Nat × State := (s.free, { s with free := s.free + 1 })

/-! ## Time -/

/-- A signed number in two's complement of 64 bits (R44). -/
def wrap64 (v : Int) : Int := (BitVec.ofInt 64 v).toInt
/-- TIME in ns, signed 64-bit (R44). -/
def State.time (s : State) : Int := wrap64 (s.clk.timeFs / 1000000)
/-- FLASH in us: TIME less the FLASH epoch, which lies at TIME 0, rounded toward minus infinity (R48, R268). -/
def State.flash (s : State) : Int := s.time / 1000
/-- The model's microsecond counter. -/
def State.now (s : State) : Nat := s.clk.now
/-- Ticks of the step timebase since the last head start: 1,500 a microsecond (R11). -/
def State.tick (s : State) : Nat := (s.clk.now - s.head.startAt) * 1500
/-- A deadline that stands and has come. -/
def due (d : Option Nat) (now : Nat) : Bool :=
  match d with
  | none => false
  | some t => decide (t ≤ now)
/-- A condition has held since an instant for a time. -/
def heldFor (since : Option Nat) (now span : Nat) : Bool :=
  match since with
  | none => false
  | some t => decide (t + span ≤ now)
/-- The instant since which a condition holds, kept while it goes on holding. -/
def sinceOf (old : Option Nat) (cond : Bool) (now : Nat) : Option Nat :=
  if cond then (match old with | none => some now | some t => some t) else none

/-! ## Whole numbers -/

/-- A quotient rounded to the nearest, halves away from zero (R45, R92). -/
def roundDiv (a : Int) (b : Nat) : Int :=
  if 0 ≤ a then (2 * a + b) / (2 * b) else -((2 * (-a) + b) / (2 * b))
/-- A quotient rounded up. -/
def ceilDiv (a b : Nat) : Nat := (a + b - 1) / b
/-- A value held between two bounds. -/
def clampI (lo hi v : Int) : Int := if v < lo then lo else if hi < v then hi else v
/-- The whole square root, by halving an interval: `fuel` bits. -/
def isqrtAux : Nat → Nat → Nat → Nat → Nat
  | 0, _, lo, _ => lo
  | fuel + 1, n, lo, hi =>
    let mid := (lo + hi + 1) / 2
    if mid * mid ≤ n then isqrtAux fuel n mid hi else isqrtAux fuel n lo (mid - 1)
/-- The greatest whole number whose square is at most n. -/
def isqrt (n : Nat) : Nat := isqrtAux (Nat.log2 n + 2) n 0 (2 ^ (Nat.log2 n / 2 + 1))
/-- A signed number in two's complement of 32 bits, as the wrapping timebases hold it (R44). -/
def wrap32 (v : Int) : Int := (BitVec.ofInt 32 v).toInt
/-- A number fits signed 32 bits. -/
def fits32 (v : Int) : Bool := decide (-2147483648 ≤ v ∧ v ≤ 2147483647)
/-- A number fits signed 64 bits. -/
def fits64 (v : Int) : Bool := decide (-9223372036854775808 ≤ v ∧ v ≤ 9223372036854775807)

/-! ## Bytes, checks -/

/-- The characters of an ASCII string as bytes. -/
def ascii (t : String) : List Byte := t.toList.map fun c => BitVec.ofNat 8 c.toNat
/-- k bytes of a number, the least significant first (R444, R58). -/
def le : Nat → Nat → List Byte
  | 0, _ => []
  | k + 1, v => BitVec.ofNat 8 v :: le k (v / 256)
/-- k bytes of a signed number in two's complement. -/
def leI (k : Nat) (v : Int) : List Byte := le k (v % (256 ^ k : Nat)).toNat
/-- The number that bytes spell, the first least significant. -/
def unle : List Byte → Nat
  | [] => 0
  | b :: t => b.toNat + 256 * unle t
/-- A signed number from its bytes. -/
def unleI (l : List Byte) : Int :=
  let v : Int := unle l
  if 2 * v < (256 ^ l.length : Nat) then v else v - (256 ^ l.length : Nat)
/-- n bytes of a frame from an offset. -/
def slice (l : List Byte) (off n : Nat) : List Byte := (l.drop off).take n
/-- The number in n bytes of a frame from an offset. -/
def fieldAt (l : List Byte) (off n : Nat) : Nat := unle (slice l off n)
/-- A list filled up with a byte, or cut, to a length. -/
def padTo (k : Nat) (b : Byte) (l : List Byte) : List Byte := l.take k ++ List.replicate (k - l.length) b

/-- One bit of the CRC-16 of R95. -/
def crc16Bit (c : W16) : W16 := if c.msb then (c <<< (1 : Nat)) ^^^ 0x1021 else c <<< (1 : Nat)
/-- CRC-16/CCITT-FALSE over bytes (R95). -/
def crc16 (l : List Byte) : W16 :=
  l.foldl (fun c b =>
    let c : W16 := c ^^^ ((b.zeroExtend 16 : W16) <<< (8 : Nat))
    crc16Bit (crc16Bit (crc16Bit (crc16Bit (crc16Bit (crc16Bit (crc16Bit (crc16Bit c)))))))) 0xFFFF
/-- One bit of the reflected CRC-32 of R443. -/
def crc32Bit (c : W32) : W32 := if c.getLsbD 0 then (c >>> (1 : Nat)) ^^^ 0xEDB88320 else c >>> (1 : Nat)
/-- CRC-32 over bytes (R443). -/
def crc32 (l : List Byte) : W32 :=
  (l.foldl (fun c b =>
    let c : W32 := c ^^^ (b.zeroExtend 32 : W32)
    crc32Bit (crc32Bit (crc32Bit (crc32Bit (crc32Bit (crc32Bit (crc32Bit (crc32Bit c)))))))) 0xFFFFFFFF) ^^^ 0xFFFFFFFF

/-! ## Text of replies -/

/-- Decimal digits, the most significant first. -/
def digitsAux : Nat → Nat → List Char → List Char
  | 0, _, acc => acc
  | fuel + 1, v, acc =>
    let acc := Char.ofNat (48 + v % 10) :: acc
    if v < 10 then acc else digitsAux fuel (v / 10) acc
/-- A number in decimal (R485). -/
def dec (v : Nat) : String := String.ofList (digitsAux (Nat.log2 v + 1) v [])
/-- A signed number in decimal. -/
def decI (v : Int) : String := if v < 0 then "-" ++ dec v.natAbs else dec v.toNat
/-- A number in decimal with leading zeros to k digits. -/
def decPad (k v : Nat) : String :=
  let d := digitsAux (Nat.log2 v + 1) v []
  String.ofList (List.replicate (k - d.length) '0' ++ d)
/-- One upper-case hex digit. -/
def hexDigit (v : Nat) : Char := Char.ofNat (if v < 10 then 48 + v else 55 + v)
/-- k upper-case hex digits. -/
def hexDigits (k v : Nat) : List Char := ((List.range k).reverse.map fun i => hexDigit (v / 16 ^ i % 16))
/-- A 32-bit word as in `0x0000_0059` (R485). -/
def hex32 (v : W32) : String :=
  "0x" ++ String.ofList (hexDigits 4 (v.toNat / 65536)) ++ "_" ++ String.ofList (hexDigits 4 (v.toNat % 65536))

/-- A channel's name (R89). -/
def chName : Chan → String
  | .ax => "AX"
  | .fd => "FD"
  | .la => "LA"
  | .lb => "LB"
  | .in0 => "IN0"
  | .in1 => "IN1"
  | .in2 => "IN2"
  | .in3 => "IN3"
  | .out0 => "OUT0"
  | .out1 => "OUT1"
/-- The target code of a channel (R292, R444 byte 28). -/
def chCode : Chan → Nat
  | .ax => 0
  | .fd => 1
  | .la => 2
  | .lb => 3
  | .in0 => 4
  | .in1 => 5
  | .in2 => 6
  | .in3 => 7
  | .out0 => 8
  | .out1 => 9
/-- The channels in the order of R90. -/
def allChans : List Chan := [.ax, .fd, .la, .lb, .in0, .in1, .in2, .in3, .out0, .out1]
/-- The channel of a protected switch. -/
def swChan : Sw → Chan
  | .fd => .fd
  | .la => .la
  | .lb => .lb
/-- The channel of input k. -/
def inChan (k : Nat) : Chan := match k with | 0 => .in0 | 1 => .in1 | 2 => .in2 | _ => .in3
/-- The channel of output 0 or 1. -/
def outChan (second : Bool) : Chan := if second then .out1 else .out0
/-- A head object's name (R89). -/
def headName : HeadObj → String
  | .tacho1 => "TACHO1"
  | .tacho2 => "TACHO2"
  | .mark => "MARK"
  | .zero => "ZERO"
  | .rell => "RELL"
  | .relr => "RELR"
  | .loop => "LOOP"
  | .key => "KEY"
  | .wakein => "WAKEIN"
  | .wakeout => "WAKEOUT"
/-- A timebase's name (R44). -/
def tbName : TB → String
  | .ax n => "AX" ++ decPad 2 n
  | .line => "LINE"
  | .time => "TIME"
  | .flash => "FLASH"
/-- A station's name. -/
def stName (n : Nat) : String := "S" ++ decPad 2 n
/-- A unit's name. -/
def unitName (n : Nat) : String := "U" ++ decPad 4 n
/-- A drive bus's letter. -/
def busLetter (b : Nat) : String := match b with | 0 => "A" | 1 => "B" | 2 => "C" | _ => "D"
/-- An object as written in Mehroft (R89). -/
def objName : Obj → String
  | .unit => "UNIT"
  | .units => "UNITS"
  | .peers => "PEERS"
  | .safety => "SAFETY"
  | .twin => "TWIN"
  | .net => "NET"
  | .banks => "BANKS"
  | .time => "TIME"
  | .line => "LINE"
  | .session => "SESSION"
  | .supervisor => "SUPERVISOR"
  | .st n => stName n
  | .ch n c => stName n ++ "/" ++ chName c
  | .sl n => "SL" ++ dec n
  | .bus b => "BUS" ++ busLetter b
  | .cam n => "CAM" ++ dec n
  | .camPt n _ => "CAM" ++ dec n
  | .mark n => "MARK " ++ dec n
  | .plat n => "PLATFORM " ++ dec n
  | .head h => headName h
  | .tb t => tbName t
  | .safeout n => "SAFEOUT" ++ dec n
  | .safein n => "SAFEIN" ++ dec n
  | .unitNo n => unitName n
  | .nothing t => t

/-- The names of the keys, in the order of `Key` (R504, R505). -/
def keyNames : List String :=
  ["SCALE", "RATIO", "EDIR", "SDIR", "STEPW", "DIRS", "PROFILE", "SPEED", "ACC", "DEC", "JERK", "CREEP", "SDEC", "FERR", "INDEX", "REVCNT", "ITOL", "HOME"]
    ++ ["HOMEDIR", "REFPOS", "REFMAX", "SLMIN", "SLMAX", "LIMNEG", "LIMPOS", "LIMSTOP", "FACT", "FGAP", "CAMLAG", "IENV", "ROLE", "SIDE", "CLOSEDSW", "LOCKSW", "EDGE", "STOWSW"]
    ++ ["UNLOCK", "STEP", "STEPCAM", "STEPDEP", "STEPSTOW", "STEPT", "STOWT", "OPENPOS", "OSPEED", "CSPEED", "LOCKZONE", "EDGEMUTE", "OBSTARM", "MARGIN", "MARGINMAX", "PERSIST", "PERSISTMAX", "DRIFT"]
    ++ ["DRIFTMAX", "LEARNMAX", "REOPEN", "RECLOSE", "RDWELL", "UNLOCKT", "LOCKT", "FINALT", "AUTOCLOSE", "DOORLAMP", "LAMPLOOP", "DPOS", "DWIDTH", "ITYPE", "FILTER", "TPW", "WIRE", "INRUSH"]
    ++ ["SLEW", "MODE", "PWR", "UREF", "PWMF", "PPHASE", "ISET", "OLDET", "OLTHR", "OLT", "UNOM", "BUS", "PROVED", "PWIDTH", "ONTHR", "PTHR", "RESERVE", "FAILSAFE"]
    ++ ["FSPERIOD", "FSPHASE", "DIMMIN", "ULOAD", "TEST", "OWDET", "OWT", "CNT", "GATE", "ZFREQ", "ZTIME", "COUNT", "TPULSE", "PEAK", "EWIN", "EMAX", "GROUP", "GPEAK"]
    ++ ["CAP", "ENVK", "CRATECAP", "TDSTART", "TDFULL", "DERATEMIN", "SYSID", "SKEY", "SMTIMEOUT", "TYPE", "TO", "FROM", "IPADDR", "MASK", "GATEWAY", "PTPDOMAIN", "PTPROLE", "PRIO1"]
    ++ ["PRIO2", "ANNINT", "ANNTO", "SYNCINT", "DELAYINT", "UTCOFF", "TLV", "RELSRC", "RELUNIT", "ZEROHOLD", "LOOPDELAY", "ORIENT", "SELMARGIN", "PRIOTAG", "PEERTO", "WAKEPULSE", "TWIN", "N"]
    ++ ["INTERP", "WRAP", "X", "Y", "AUTORETURN", "SERVICE", "TACHO", "DPP", "DIR", "MARKTOL", "MARKWIN", "POS", "START", "END", "QUOTA", "IDLE", "HOLD", "VALUE"]
    ++ ["DIST", "FOLLOW", "TABLE", "MASTER", "OFFSET", "LEARN", "PERIOD", "PHASE", "DUTY", "IFPAST", "REPEAT", "INTERVAL", "HYST", "USER", "DO", "RATE", "SNAP", "WINDOW"]
    ++ ["SELECT", "PT", "LEN"]
/-- The name of a key. -/
def keyText (k : Key) : String := keyNames.getD k.ctorIdx ""

/-- A value of a key as text. -/
def kvalText : KVal → String
  | .unset => "unset"
  | .i n => decI n
  | .w t => t
  | .st n => stName n
  | .u n => unitName n
/-- A field of a reply as text. -/
def Fld.text : Fld → String
  | .w t => t
  | .n v => decI v
  | .kn k v u => k ++ "=" ++ decI v ++ u
  | .kw k v => k ++ "=" ++ v
  | .hex k v => k ++ "=" ++ hex32 v
  | .hexb k v => k ++ "=" ++ String.ofList ((v.map fun b => hexDigits 2 b.toNat).flatten)
  | .obj o => objName o
  | .tb t => tbName t
  | .kv k v => keyText k ++ "=" ++ kvalText v
/-- The prefix character (R100). -/
def Pre.text : Pre → String
  | .eq => "="
  | .bang => "!"
  | .colon => ":"
  | .tilde => "~"
/-- A reply line's characters before its check (R100). -/
def Reply.text (r : Reply) : String :=
  let words := r.word :: r.fields.map Fld.text ++ (if r.dup then ["dup"] else [])
  let tag := match r.tag with
    | none => ""
    | some t => "#" ++ dec t ++ " "
  let head := match r.replay with
    | none => r.pre.text ++ tag
    | some i => ":" ++ tag ++ "replay " ++ dec i ++ " " ++ r.pre.text
  head ++ String.intercalate " " words
/-- The characters a reply takes in an output buffer: its text, its check and CR LF (R98, R107). -/
def Reply.size (r : Reply) : Nat := r.text.length + (if r.checked then 5 else 0) + 2
/-- The bytes an output buffer holds. -/
def outBytes (l : List Reply) : Nat := l.foldl (fun a r => a + r.size) 0

/-! ## Sending -/

/-- An equals reply (R100). -/
def eqR (w : String) (f : List Fld := []) : Reply := { pre := .eq, word := w, fields := f }
/-- A colon reply. -/
def colR (w : String) (f : List Fld := []) : Reply := { pre := .colon, word := w, fields := f }
/-- A tilde report. -/
def tilR (w : String) (f : List Fld := []) : Reply := { pre := .tilde, word := w, fields := f }
/-- The word of an error code. -/
def errWord (c : Nat) : String := "E" ++ decPad 2 c
/-- The detail word of an error (R124). -/
def Detail.fld : Detail → List Fld
  | .none => []
  | .obj o => [.obj o]
  | .key k => [.w (keyText k)]
  | .word t => [.w t]
  | .tag n => [.w ("#" ++ dec n)]
/-- A bang reply (R124). -/
def errR (e : Err) : Reply := { pre := .bang, word := errWord e.code, fields := e.detail.fld }

/-- Puts a line of the command with a tag into a session's output buffer (R107): a tilde line is discarded and counted while the buffer
holds more than 48 KiB, and until it has fallen below 16 KiB; with RCHECK=ON in generated mode the line carries a check (R97, R98); a
line whose first reply is held back keeps its place behind it (R103). -/
def Session.putFor (x : Session) (tag : Option Nat) (r : Reply) : Session :=
  let r := { r with checked := x.rcheck && decide (x.mode = .gen) }
  if (r.pre ≠ .tilde ∨ tag.isSome) ∧ HeldItem.line tag ∈ x.heldBack then { x with heldBack := x.heldBack ++ [.reply tag r] }
  else if r.pre = .tilde ∧ (0 < x.lost ∨ 49152 < outBytes x.out) then { x with lost := x.lost + 1 }
  else { x with out := x.out ++ [r] }
/-- Puts a line under its own tag into a session's output buffer. -/
def Session.put (x : Session) (r : Reply) : Session := x.putFor r.tag r
/-- What still waits once nothing stands before it, and the replies that leave: a line behind a relayed one without its first reply stays
(R103). -/
def releaseHeld : Bool → List (Option Nat) → List HeldItem → List Reply × List HeldItem
  | _, _, [] => ([], [])
  | _, opened, .far r t :: l => let q := releaseHeld true opened l; (q.1, .far r t :: q.2)
  | false, opened, .line t :: l => releaseHeld false (t :: opened) l
  | true, opened, .line t :: l => let q := releaseHeld true opened l; (q.1, .line t :: q.2)
  | blocked, opened, .reply t x :: l =>
    let q := releaseHeld blocked opened l
    if t ∈ opened then (x :: q.1, q.2) else (q.1, .reply t x :: q.2)
/-- A session sends the held replies that nothing holds back any more (R98, R103). -/
def Session.release (x : Session) : Session :=
  let q := releaseHeld false [] x.heldBack
  { x with out := x.out ++ q.1, heldBack := q.2 }
/-- A reply of a relayed line comes (R377): the first one lets the lines behind it go, unless local lines before it are still held, when
it waits with them (R103). -/
def Session.putFar (x : Session) (relay : Nat) (tag : Option Nat) (r : Reply) : Session :=
  if r.pre = .tilde ∨ HeldItem.far relay tag ∉ x.heldBack then x.putFor tag r
  else
    let before := x.heldBack.takeWhile (· ≠ .far relay tag)
    let after := (x.heldBack.dropWhile (· ≠ .far relay tag)).drop 1
    let held := before.any fun i => match i with
      | HeldItem.line _ => true
      | _ => false
    if held then ({ x with heldBack := before ++ HeldItem.line tag :: after }).putFor tag r
    else (({ x with heldBack := before ++ after }).putFor tag r).release
/-- Sends a line on a port (R107, R112): a free session receives nothing, and the supervisor line no tilde line. -/
def send (p : Port) (r : Reply) (s : State) : State :=
  match p with
  | .session n => if (s.ses n).st = .free then s else s.modSes n (·.put r)
  | .supervisor => if r.pre = .tilde then s else s.modSup fun u => { u with out := u.out ++ [r] }
/-- Sends a line under the tag of the command it answers, which a reply of a relayed line does not name as a field of its own (R103, R118). -/
def sendUnder (p : Port) (tag : Option Nat) (r : Reply) (s : State) : State :=
  match p with
  | .session n => if (s.ses n).st = .free then s else s.modSes n (·.putFor tag r)
  | .supervisor => send p r s
/-- Sends a reply of a relayed line to its near session (R377). -/
def sendFar (n relay : Nat) (tag : Option Nat) (r : Reply) (s : State) : State :=
  if (s.ses n).st = .free then s else s.modSes n (·.putFar relay tag r)
/-- A unit report: to every open or held session (R107). -/
def sendAll (r : Reply) (s : State) : State :=
  forEach (s.sess.map (·.1)) (fun n s => send (.session n) r s) s
/-- What an open session still holds leaves on its connection before it closes (R107, R419). -/
def flushSes (n : Nat) (s : State) : State :=
  { s.modSes n fun x => { x with out := [] } with left := s.left ++ (s.ses n).out.map fun r => (n, r) }
/-- What every open session still holds leaves before the head goes down (R107, R419). -/
def flushOut (s : State) : State := forEach ((s.sess.filter fun e => decide (e.2.st = .opn)).map (·.1)) flushSes s
/-- A final reply enters the tag memory of its line (R117). -/
def remember (p : Port) (tag : Option Nat) (r : Reply) (s : State) : State :=
  match tag with
  | none => s
  | some t =>
    let upd := fun (l : List TagEntry) =>
      l.map fun e => if e.tag = t ∧ e.reply = none then { e with reply := some r } else e
    match p with
    | .session n => s.modSes n fun x => { x with tags := upd x.tags }
    | .supervisor => s.modSup fun u => { u with tags := upd u.tags }
end Sys2Proof.Machine
end

