-- ==== Sys2Proof/Machine/Operands.lean ====
section
/-! DEFINITION. The operand forms of a line: numbers with their units, station and channel selections, what is fitted, and
the configuration keys with their ranges and defaults. -/

namespace Sys2Proof.Machine

open Sys2Proof

/-! ## Numbers (R92, R486) -/

/-- The kinds of quantity a number may have. -/
inductive UK where
  | plain | len | speed | acc | jerk | time | cur | volt | slew | power | freq | energy | temp | ratio
  deriving DecidableEq, Repr

/-- What a unit suffix is worth in the base unit of its kind: um, um/s, um/s2, um/s3, ns, uA, mV, mV/ms, mW, mHz, mJ,
0.001 C, 0.001 %. -/
def sufFactor : Suf → UK × Nat
  | .um => (.len, 1)
  | .mm => (.len, 1000)
  | .m => (.len, 1000000)
  | .umS => (.speed, 1)
  | .mmS => (.speed, 1000)
  | .mS => (.speed, 1000000)
  | .umS2 => (.acc, 1)
  | .mmS2 => (.acc, 1000)
  | .mS2 => (.acc, 1000000)
  | .umS3 => (.jerk, 1)
  | .mmS3 => (.jerk, 1000)
  | .mS3 => (.jerk, 1000000)
  | .ns => (.time, 1)
  | .us => (.time, 1000)
  | .ms => (.time, 1000000)
  | .s => (.time, 1000000000)
  | .mA => (.cur, 1000)
  | .A => (.cur, 1000000)
  | .mV => (.volt, 1)
  | .V => (.volt, 1000)
  | .vms => (.slew, 1000)
  | .mW => (.power, 1)
  | .W => (.power, 1000)
  | .hz => (.freq, 1000)
  | .khz => (.freq, 1000000)
  | .mJ => (.energy, 1)
  | .J => (.energy, 1000)
  | .c => (.temp, 1000)
  | .pct => (.ratio, 1000)

/-- A number in steps of `snum/sden` base units, rounded to the nearest step with halves away from zero; a number without a
suffix is in units of `f0` base units; a suffix of another kind gives nothing (R92). -/
def litSteps (k : UK) (f0 snum sden : Nat) (l : Lit) : Option Int :=
  let go := fun (f : Nat) => some (roundDiv (l.mant * f * sden) (10 ^ l.decimals * snum))
  match l.suffix with
  | none => go f0
  | some x => if (sufFactor x).1 = k then go (sufFactor x).2 else none

/-- A duration in ns; unsuffixed numbers are in units of `f0` ns. -/
def litNs (f0 : Nat) (l : Lit) : Option Int := litSteps .time f0 1 1 l
/-- A whole number without a suffix. -/
def litPlain (l : Lit) : Option Int := litSteps .plain 1 1 1 l

/-! ## Keys (R504, R505) -/

/-- The forms a key's value takes. -/
inductive VT where
  /-- a number: kind, default unit, step, least, greatest, whether 0 is allowed beside them, allowed words -/
  | num (k : UK) (f0 snum sden : Nat) (lo hi : Int) (zero : Bool) (ws : List String)
  | word (ws : List String)
  /-- a station, or one of the words -/
  | station (ws : List String)
  /-- a cam table -/
  | cam
  /-- a unit number, or one of the words -/
  | unitNo (ws : List String)
  /-- an IPv4 address, or one of the words -/
  | ip (ws : List String)
  /-- one of these numbers -/
  | choice (l : List Int)
  /-- the system key -/
  | skey
  deriving DecidableEq, Repr

/-- A row of a key table. -/
structure KRow where
  vt : VT
  dflt : KVal := .unset
  safety : Bool := false
  deriving DecidableEq, Repr

/-- A row for a plain count. -/
def rCount (lo hi : Int) (d : KVal) : KRow := { vt := .num .plain 1 1 1 lo hi false [], dflt := d }
/-- A row for a word. -/
def rWord (ws : List String) (d : String) : KRow := { vt := .word ws, dflt := if d = "" then .unset else .w d }
/-- A row for a length in mm, kept in um. -/
def rMm (lo hi : Int) (d : KVal) : KRow := { vt := .num .len 1000 1 1 (1000 * lo) (1000 * hi) false [], dflt := d }
/-- A row for a time in ms, kept in us. -/
def rMs (lo hi : Int) (d : Int) : KRow := { vt := .num .time 1000000 1000 1 (1000 * lo) (1000 * hi) false [], dflt := .i (1000 * d) }
/-- A row for a current in mA, kept in 0.1 mA. -/
def rMa (lo hi : Int) (d : KVal) : KRow := { vt := .num .cur 1000 100 1 (10 * lo) (10 * hi) false [], dflt := d }
/-- A row for a ratio in per cent, kept in whole per cent. -/
def rPct (lo hi : Int) (d : Int) : KRow := { vt := .num .ratio 1000 1000 1 lo hi false [], dflt := .i d }
/-- A row marked S. -/
def KRow.S (r : KRow) : KRow := { r with safety := true }

/-- The four input words. -/
def inWords : List String := ["IN0", "IN1", "IN2", "IN3"]
/-- ON and OFF. -/
def onOff : List String := ["ON", "OFF"]

/-- Axis keys (R128, R302 IENV). Lengths in um, times in ns, RATIO in 1/65,536, SCALE in 0.01 counts per mm. -/
def axisRow : Key → Option KRow
  | .SCALE => some { vt := .num .plain 1 1 100 1 1000000 false [] }
  | .RATIO => some { vt := .num .plain 1 1 65536 4096 16777216 false [], dflt := .i 65536 }
  | .EDIR => some (rWord ["NORM", "INV"] "NORM")
  | .SDIR => some (rWord ["NORM", "INV"] "NORM")
  | .STEPW => some { vt := .num .time 1000 1 1 100 20000 false [], dflt := .i 200 }
  | .DIRS => some { vt := .num .time 1000 1 1 50 10000 false [], dflt := .i 1000 }
  | .PROFILE => some (rWord ["TRAP", "SCURVE"] "TRAP")
  | .SPEED => some { vt := .num .speed 1000 1 1 100 5000000 false [], dflt := .i 200000 }
  | .ACC => some { vt := .num .acc 1000 1 1 1000 100000000 false [], dflt := .i 500000 }
  | .DEC => some { vt := .num .acc 1000 1 1 1000 100000000 false [], dflt := .i 500000 }
  | .JERK => some { vt := .num .jerk 1000 1 1 10000 10000000000 false [], dflt := .i 10000000 }
  | .CREEP => some { vt := .num .speed 1000 1 1 1000 50000 false [], dflt := .i 20000 }
  | .SDEC => some { vt := .num .acc 1000 1 1 1000 100000000 false [], dflt := .i 2000000 }
  | .FERR => some (rCount 4 100000 (.i 200))
  | .INDEX => some (rWord onOff "ON")
  | .REVCNT => some (rCount 16 1000000 .unset)
  | .ITOL => some (rCount 1 4 (.i 4))
  | .HOME => some (rWord (inWords ++ ["NONE"]) "NONE")
  | .HOMEDIR => some (rWord ["POS", "NEG"] "NEG")
  | .REFPOS => some (rCount (-2147483648) 2147483647 (.i 0))
  | .REFMAX => some (rCount 100 10000000 (.i 100000))
  | .SLMIN => some (rCount (-2147483648) 2147483647 (.i (-2147483648)))
  | .SLMAX => some (rCount (-2147483648) 2147483647 (.i 2147483647))
  | .LIMNEG => some (rWord (inWords ++ ["NONE"]) "NONE")
  | .LIMPOS => some (rWord (inWords ++ ["NONE"]) "NONE")
  | .LIMSTOP => some (rWord ["HARD", "RAMP"] "RAMP")
  | .FACT => some { vt := .choice [1, 2, 4, 8, 16, 32, 64, 128, 256], dflt := .i 1 }
  | .FGAP => some (rMs 1 100 5)
  | .CAMLAG => some (rCount 4 100000 (.i 64))
  | .IENV => some { vt := .num .cur 1000000 1000 1 100 24000 false [], dflt := .i 24000 }
  | _ => none

/-- Station keys (R166, R167, R272). ROLE's default is the type's. -/
def stationRow (roleDflt : String) : Key → Option KRow
  | .ROLE => some (rWord ["LEAF", "STEP", "LAMP", "NONE"] roleDflt)
  | .SIDE => some (rWord ["L", "R"] "L")
  | .CLOSEDSW => some (rWord inWords "IN0").S
  | .LOCKSW => some (rWord inWords "IN1").S
  | .EDGE => some (rWord (inWords ++ ["NONE"]) "IN2").S
  | .STOWSW => some (rWord (inWords ++ ["NONE"]) "IN3").S
  | .UNLOCK => some (rWord ["OUT0", "OUT1"] "OUT0")
  | .STEP => some { vt := .station ["OUT1", "NONE"], dflt := .w "NONE", safety := true }
  | .STEPCAM => some { vt := .cam, safety := true }
  | .STEPDEP => some (rMm 0 2000 (.i 50000))
  | .STEPSTOW => some (rMm 0 2000 (.i 300000))
  | .STEPT => some (rMs 100 10000 1500)
  | .STOWT => some (rMs 500 10000 3000)
  | .OPENPOS => some (rMm 10 5000 .unset).S
  | .OSPEED => some { vt := .num .speed 1000 1 1 10000 1000000 false [], dflt := .i 300000, safety := true }
  | .CSPEED => some { vt := .num .speed 1000 1 1 10000 500000 false [], dflt := .i 250000, safety := true }
  | .LOCKZONE => some (rMm 5 100 (.i 20000)).S
  | .EDGEMUTE => some (rMm 0 50 (.i 5000)).S
  | .OBSTARM => some (rMm 50 2000 (.i 400000)).S
  | .MARGIN => some { vt := .num .cur 1000 1000 1 50 20000 false [] }
  | .MARGINMAX => some { vt := .num .cur 1000 1000 1 50 20000 false [], safety := true }
  | .PERSIST => some (rMs 5 100 15)
  | .PERSISTMAX => some (rMs 5 100 15).S
  | .DRIFT => some (rPct 0 15 10)
  | .DRIFTMAX => some (rPct 0 15 15).S
  | .LEARNMAX => some { vt := .num .cur 1000 1000 1 50 24000 false [], safety := true }
  | .REOPEN => some (rMm 50 2000 (.i 200000))
  | .RECLOSE => some (rCount 0 10 (.i 3))
  | .RDWELL => some (rMs 500 30000 2000)
  | .UNLOCKT => some (rMs 50 3000 500)
  | .LOCKT => some (rMs 50 3000 500)
  | .FINALT => some (rMs 200 5000 1500).S
  | .AUTOCLOSE => some { vt := .num .time 1000000000 1000 1 0 600000000 false [], dflt := .i 0 }
  | .DOORLAMP => some (rWord ["LA", "LB", "NONE"] "LA").S
  | .LAMPLOOP => some (rWord onOff "ON").S
  | .DPOS => some (rMm (-1000000) 1000000 (.i 0))
  | .DWIDTH => some (rMm 300 3000 (.i 1300000))
  | .ITYPE => some { vt := .choice [1, 3], dflt := .i 1, safety := true }
  | .FILTER => some { vt := .num .time 1000000 50000 1 2 400 false [], dflt := .i 60, safety := true }
  | .TPW => some { vt := .num .time 1000000 50000 1 4 20 false [], dflt := .i 10, safety := true }
  | _ => none

/-- Load channel keys (R207, R244, R302). -/
def loadRow (isLa : Bool) : Key → Option KRow
  | .WIRE => some (rWord ["W050", "W075", "W100", "W150"] "W050")
  | .INRUSH => some (rMs 5 200 30)
  | .SLEW => some { vt := .num .slew 1000 1 1 1000 50000 false [], dflt := .i 10000 }
  | .MODE => some (rWord ["SWITCH", "CP", "CC"] "SWITCH")
  | .PWR => some (rPct 1 100 100)
  | .UREF => some { vt := .num .volt 1000 1 1 14000 32000 false [], dflt := .i 24000 }
  | .PWMF => some { vt := .num .freq 1000 1000 1 200 2000 false [], dflt := .i 500 }
  | .PPHASE => some { vt := .num .plain 1 1 1 0 255 false ["AUTO"], dflt := .w "AUTO" }
  | .ISET => some (rMa 10 1000 (.i 1000))
  | .OLDET => some (rWord onOff "ON")
  | .OLTHR => some (rMa 1 100 (.i 100))
  | .OLT => some (rMs 10 1000 100)
  | .PROVED => some (rWord onOff "OFF").S
  | .PROFILE => some (rWord ["FIL", "LED"] "FIL").S
  | .PWIDTH => some { vt := .num .time 1000000 50000 1 2 40 false [], dflt := .i 2, safety := true }
  | .ONTHR => some (rMa 1 2000 .unset).S
  | .PTHR => some (rMa 1 20000 .unset).S
  | .RESERVE => if isLa then some (rWord ["LB", "NONE"] "NONE").S else none
  | .FAILSAFE => some (rWord ["OFF", "ON", "FLASH"] "OFF").S
  | .FSPERIOD => some (rMs 250 4000 1000).S
  | .FSPHASE => some { (rCount 0 255 (.i 0)) with safety := true }
  | .DIMMIN => some (rPct 1 100 100)
  | .ULOAD => some { vt := .num .volt 1000 1 1 0 32000 false [], dflt := .i 0 }
  | _ => none

/-- Feed switch keys (R207, R302). -/
def feedRow : Key → Option KRow
  | .WIRE => some (rWord ["W100", "W150", "W250", "W400"] "W100")
  | .INRUSH => some (rMs 10 200 100)
  | .SLEW => some { vt := .num .slew 1000 1 1 1000 50000 false [], dflt := .i 5000 }
  | .OLDET => some (rWord onOff "OFF")
  | .OLTHR => some (rMa 10 2000 (.i 1000))
  | .OLT => some (rMs 10 1000 100)
  | .UNOM => some { vt := .num .volt 1000 1000 1 24 110 false [] }
  | .BUS => some (rWord ["BUSA", "BUSB", "BUSC", "BUSD"] "BUSA")
  | _ => none

/-- Input keys (R272, R505 COUNT); the counting keys belong to IN0 and IN1 only. -/
def inputRow (k : Nat) : Key → Option KRow
  | .TEST => some (rWord onOff "ON").S
  | .OWDET => some (rWord onOff "OFF")
  | .OWT => some (rMs 10 1000 100)
  | .CNT => if k < 2 then some (rWord ["OFF", "RISE", "FALL", "BOTH"] "OFF") else none
  | .GATE => if k < 2 then some (rMs 1 10000 100) else none
  | .ZFREQ => if k < 2 then some { vt := .num .freq 1000 1 1 100 1000000 false [], dflt := .i 1000 } else none
  | .ZTIME => if k < 2 then some (rMs 10 10000 1000) else none
  | .COUNT => if k < 2 then some (rCount 0 4294967295 .unset) else none
  | _ => none

/-- Output keys (R505). -/
def outputRow : Key → Option KRow
  | .OLDET => some (rWord onOff "OFF")
  | .TPULSE => some (rWord onOff "OFF")
  | _ => none

/-- Bus keys (R302); currents in mA, energy in J. -/
def busRow : Key → Option KRow
  | .PEAK => some { vt := .num .cur 1000000 1000 1 1000 400000 false [], dflt := .i 100000 }
  | .EWIN => some { vt := .num .time 1000000000 1000000 1 1000 600000 false [], dflt := .i 60000 }
  | .EMAX => some { vt := .num .energy 1000000 1000 1 1000 100000000 true [], dflt := .i 0 }
  | .GROUP => some (rCount 0 255 (.i 0))
  | .GPEAK => some { vt := .num .cur 1000000 1000 1 1000 4000000 false [] }
  | _ => none

/-- Unit keys (R302, R344, R358, R369, R505). RELSRC's default follows -T. -/
def unitRow (optT : Bool) : Key → Option KRow
  | .ENVK => some (rPct 100 200 120)
  | .CRATECAP => some { vt := .num .power 1000 1 1 50000 320000 false [], dflt := .i 320000 }
  | .TDSTART => some { vt := .num .temp 1000 1000 1 90 150 false [], dflt := .i 120, safety := true }
  | .TDFULL => some { vt := .num .temp 1000 1000 1 95 160 false [], dflt := .i 145, safety := true }
  | .DERATEMIN => some (rPct 25 100 50).S
  | .SYSID => some { (rCount 1 65535 .unset) with safety := true }
  | .SKEY => some { vt := .skey, safety := true }
  | .SMTIMEOUT => some (rMs 20 200 40).S
  | .IPADDR => some { vt := .ip ["DEFAULT"], dflt := .w "DEFAULT" }
  | .MASK => some (rCount 8 30 (.i 16))
  | .GATEWAY => some { vt := .ip [], dflt := .i 0 }
  | .PTPDOMAIN => some (rCount 0 127 (.i 0))
  | .PTPROLE => some (rWord ["MASTERCAP", "SLAVEONLY"] "MASTERCAP")
  | .PRIO1 => some (rCount 0 255 (.i 128))
  | .PRIO2 => some (rCount 0 255 (.i 128))
  | .ANNINT => some (rCount 0 4 (.i 1))
  | .ANNTO => some (rCount 2 10 (.i 3))
  | .SYNCINT => some (rCount (-1) 1 (.i 0))
  | .DELAYINT => some (rCount 0 5 (.i 0))
  | .UTCOFF => some { vt := .num .time 1000000000 1000000000 1 0 255 false [], dflt := .i 37 }
  | .TLV => some (rWord ["24V", "110V"] "110V").S
  | .RELSRC => some (rWord ["LINES", "MSG"] (if optT then "LINES" else "MSG")).S
  | .RELUNIT => some { vt := .unitNo [], safety := true }
  | .ZEROHOLD => some (rMs 100 5000 500).S
  | .LOOPDELAY => some (rMs 50 2000 200).S
  | .ORIENT => some (rWord ["FWD", "REV"] "FWD")
  | .SELMARGIN => some (rMm 0 5000 (.i 300000))
  | .PRIOTAG => some (rWord onOff "OFF")
  | .PEERTO => some { vt := .num .time 1000000000 1000 1 200000 60000000 false [], dflt := .i 2000000 }
  | .WAKEPULSE => some { vt := .num .time 1000000000 1000 1 500000 10000000 true [], dflt := .i 2000000 }
  | _ => none

/-- Safety message keys (R344). -/
def safeoutRow : Key → Option KRow
  | .TYPE => some (rWord ["RELEASE", "LAMPS", "DOORS"] "").S
  | .TO => some { vt := .unitNo ["ALL"], safety := true }
  | _ => none
/-- Safety message keys of an accepted connection (R344). -/
def safeinRow : Key → Option KRow
  | .TYPE => some (rWord ["RELEASE", "LAMPS", "DOORS", "AUTH"] "").S
  | .FROM => some { vt := .unitNo [], safety := true }
  | _ => none

/-- Cam keys (R159). -/
def camRow : Key → Option KRow
  | .N => some (rCount 2 1024 .unset)
  | .INTERP => some (rWord ["LINEAR", "CUBIC"] "LINEAR")
  | .WRAP => some (rWord onOff "OFF")
  | _ => none
/-- Keys of one cam point (R159). -/
def camPtRow : Key → Option KRow
  | .X => some (rCount (-2147483648) 2147483647 .unset)
  | .Y => some (rCount (-2147483648) 2147483647 .unset)
  | _ => none

/-- Slice keys (R505, R440, R475). -/
def sliceRow (autoDflt : String) : Key → Option KRow
  | .TYPE => some (rWord ["M8", "L8", "NONE"] "")
  | .AUTORETURN => some (rWord onOff autoDflt)
  | .SERVICE => some (rWord ["ON"] "")
  | _ => none

/-- LINE keys (R505); POS is an action key in mm. -/
def lineRow : Key → Option KRow
  | .TACHO => some (rWord ["QUAD", "DUAL"] "QUAD")
  | .DPP => some { vt := .num .len 1 1 1 100 100000 false [], dflt := .i 1000 }
  | .DIR => some (rWord ["FWD", "REV"] "FWD")
  | .MARKTOL => some { vt := .num .len 1000 1000 1 10 10000 false [], dflt := .i 1000 }
  | .MARKWIN => some { vt := .num .len 1000 1000 1 20 1000000 false [], dflt := .i 20000 }
  | .POS => some { vt := .num .len 1000 1000 1 (-2147483648) 2147483647 false [] }
  | _ => none
/-- Mark keys (R505). -/
def markRow : Key → Option KRow
  | .POS => some { vt := .num .len 1000 1000 1 (-2147483648) 2147483647 false ["NONE"], dflt := .w "NONE" }
  | _ => none
/-- Platform keys (R505). -/
def platRow : Key → Option KRow
  | .START => some { vt := .num .len 1000 1000 1 (-2147483648) 2147483647 false [] }
  | .END => some { vt := .num .len 1000 1000 1 (-2147483648) 2147483647 false [] }
  | .SIDE => some (rWord ["L", "R", "NONE"] "NONE")
  | _ => none
/-- Session keys (R505); all action keys. -/
def sessionRow : Key → Option KRow
  | .QUOTA => some (rCount 16 16384 (.i 1024))
  | .IDLE => some { vt := .num .time 1000000000 1000000000 1 0 3600 false [], dflt := .i 30 }
  | .HOLD => some { vt := .num .time 1000000000 1000000000 1 0 60 false [], dflt := .i 10 }
  | _ => none
/-- TIME's key (R505). -/
def timeRow : Key → Option KRow
  | .VALUE => some { vt := .num .time 1 1 1 (-9223372036854775808) 9223372036854775807 false [] }
  | _ => none

/-! ## What is fitted (R2, R3, R5, R535) -/

/-- The type code of the slice in a position: read now, else last identified (R535 cases 1 and 2). -/
def typeSeen (s : State) (p : Nat) : Option Nat := (s.slc p).typeRead <|> (s.slc p).typeLast
/-- A position the crate supervisor powers (R3). -/
def enabled (s : State) (p : Nat) : Bool :=
  decide (p < (match s.fit.base with | 0 => 2 | 1 => 4 | _ => 8))
/-- A line of the set names AX or FD of one of the position's stations, or gives a role that needs an axis (R475). -/
def setImpliesM8 (m : KMap) (p : Nat) : Bool :=
  m.any fun e => match e with
    | ((.ch n .ax, _), _) => slotOf n == p
    | ((.ch n .fd, _), _) => slotOf n == p
    | ((.st n, .ROLE), .w r) => slotOf n == p && (r == "LEAF" || r == "STEP")
    | _ => false
/-- The type a set gives a position: code 1 GS-M8, 2 GS-L8, 0 NONE, or either (R475). -/
def setType (m : KMap) (p : Nat) : Option Nat :=
  match aget m (.sl p, .TYPE) with
  | some (.w "M8") => some 1
  | some (.w "L8") => some 2
  | some (.w "NONE") => some 0
  | _ => if setImpliesM8 m p then some 1 else none
/-- The type the configuration in force gives a position. -/
def cfgType (s : State) (p : Nat) : Option Nat := setType s.cfg.plain p
/-- The type that decides which channels a position's stations carry (R535): 1 GS-M8, 2 GS-L8, 3 only the common ones, none
where its stations are absent. -/
def fitType (s : State) (p : Nat) : Option Nat :=
  if !enabled s p || cfgType s p == some 0 then none
  else match typeSeen s p with
    | some t => some t
    | none =>
      match (if s.head.loaded then cfgType s p else none) with
      | some t => some t
      | none => if (s.slc p).seen then some 3 else none
/-- A station exists (R535). -/
def stFitted (s : State) (n : Nat) : Bool := decide (n < 64) && (fitType s (slotOf n)).isSome
/-- A channel exists (R4, R535). -/
def chFitted (s : State) (n : Nat) (c : Chan) : Bool :=
  decide (n < 64) && (match fitType s (slotOf n) with
    | none => false
    | some 1 => true
    | some _ => decide (c ≠ .ax ∧ c ≠ .fd))
/-- The role of a station before its key: LEAF on a GS-M8, else LAMP (R166). -/
def roleDflt (s : State) (n : Nat) : String := if fitType s (slotOf n) = some 1 then "LEAF" else "LAMP"
/-- The default of AUTORETURN: the seated slice's, once its type has been read (R440). -/
def autoDflt (s : State) (p : Nat) : String := if (s.slc p).typeRead = some 2 then "ON" else "OFF"
/-- A timebase exists (R44). -/
def tbFitted (s : State) : TB → Bool
  | .ax n => chFitted s n .ax
  | .line => s.fit.optP
  | _ => true
/-- A head object exists (R5, head options). -/
def headFitted (s : State) : HeadObj → Bool
  | .tacho1 | .tacho2 | .mark => s.fit.optP
  | .zero | .rell | .relr | .loop => s.fit.optT
  | _ => true

/-- The row of a key of an object (R504, R505); none where the object's kind lacks the key. -/
def keyRow (s : State) (o : Obj) (k : Key) : Option KRow :=
  match o with
  | .ch _ .ax => axisRow k
  | .ch _ .fd => feedRow k
  | .ch _ .la => loadRow true k
  | .ch _ .lb => loadRow false k
  | .ch _ .in0 => inputRow 0 k
  | .ch _ .in1 => inputRow 1 k
  | .ch _ .in2 => inputRow 2 k
  | .ch _ .in3 => inputRow 3 k
  | .ch _ _ => outputRow k
  | .st n => stationRow (roleDflt s n) k
  | .bus _ => busRow k
  | .unit => unitRow s.fit.optT k
  | .safeout _ => safeoutRow k
  | .safein _ => safeinRow k
  | .cam _ => camRow k
  | .camPt _ _ => camPtRow k
  | .sl p => sliceRow (autoDflt s p) k
  | .line => lineRow k
  | .mark _ => markRow k
  | .plat _ => platRow k
  | .session => sessionRow k
  | .time => timeRow k
  | _ => none

/-- A key's value in a map, else its default. -/
def kOf (s : State) (m : KMap) (o : Obj) (k : Key) : KVal :=
  match aget m (o, k) with
  | some v => v
  | none => match keyRow s o k with
    | some r => r.dflt
    | none => .unset
/-- Whether a key belongs to the safety configuration (R344). -/
def isSafety (s : State) (o : Obj) (k : Key) : Bool :=
  match keyRow s o k with
  | some r => r.safety
  | none => false
/-- The axis of a LEAF station has its REFPOS fixed at 0 (R179). -/
def leafRefpos (s : State) (o : Obj) (k : Key) : Bool :=
  match o, k with
  | .ch n .ax, .REFPOS => decide (kOf s s.cfg.plain (.st n) .ROLE = .w "LEAF")
  | _, _ => false
/-- A key's value in force (R345, R167: MARGIN's default is MARGINMAX). -/
def State.key (s : State) (o : Obj) (k : Key) : KVal :=
  if isSafety s o k then kOf s s.cfg.safety o k
  else if leafRefpos s o k then .i 0
  else match k, kOf s s.cfg.plain o k with
    | .MARGIN, .unset => kOf s s.cfg.safety o .MARGINMAX
    | _, v => v
/-- The safety configuration as it will be: the candidate, else the committed one (R345). -/
def candOf (s : State) : KMap := s.cfg.cand.getD s.cfg.safety
/-- A key's value as it will be in force, the candidate included (R272, R302). -/
def State.keyNext (s : State) (o : Obj) (k : Key) : KVal :=
  if isSafety s o k then kOf s (candOf s) o k else s.key o k
/-- A value as a number, 0 where it is none. -/
def kInt : KVal → Int
  | .i n => n
  | .st n => n
  | .u n => n
  | _ => 0
/-- A key's number in force. -/
def State.keyI (s : State) (o : Obj) (k : Key) : Int := kInt (s.key o k)
/-- A key's number in force, when it is not negative. -/
def State.keyN (s : State) (o : Obj) (k : Key) : Nat := (s.keyI o k).toNat
/-- A key in force is this word. -/
def State.keyIs (s : State) (o : Obj) (k : Key) (w : String) : Bool := decide (s.key o k = .w w)
/-- An axis key's number. -/
def State.axK (s : State) (n : Nat) (k : Key) : Int := s.keyI (.ch n .ax) k
/-- A station key's number. -/
def State.stK (s : State) (n : Nat) (k : Key) : Int := s.keyI (.st n) k
/-- A switch key's number. -/
def State.swK (s : State) (n : Nat) (w : Sw) (k : Key) : Int := s.keyI (.ch n (swChan w)) k
/-- A unit key's number. -/
def State.uK (s : State) (k : Key) : Int := s.keyI .unit k
/-- A station has this role (R166). -/
def isRole (s : State) (n : Nat) (r : String) : Bool := s.keyIs (.st n) .ROLE r
/-- A station is a fitted leaf. -/
def isLeaf (s : State) (n : Nat) : Bool := stFitted s n && isRole s n "LEAF"
/-- The input an input word names; none for NONE. -/
def inputOf : KVal → Option Nat
  | .w "IN0" => some 0
  | .w "IN1" => some 1
  | .w "IN2" => some 2
  | .w "IN3" => some 3
  | _ => none
/-- The input a station key names (R167). -/
def swInput (s : State) (n : Nat) (k : Key) : Option Nat := inputOf (s.key (.st n) k)
/-- Filtered state of a named input; a key of NONE reads off. -/
def inOn (s : State) (n : Nat) (k : Key) : Bool :=
  match swInput s n k with
  | none => false
  | some i => ((s.stn n).inp i).on
/-- The load channel DOORLAMP names (R167). -/
def doorLamp (s : State) (n : Nat) : Option Sw :=
  match s.key (.st n) .DOORLAMP with
  | .w "LA" => some .la
  | .w "LB" => some .lb
  | _ => none
/-- The bus of a feed (R302). -/
def busOfSt (s : State) (n : Nat) : Nat :=
  match s.key (.ch n .fd) .BUS with
  | .w "BUSB" => 1
  | .w "BUSC" => 2
  | .w "BUSD" => 3
  | _ => 0
/-- A length in um in counts of the axis, rounded to the nearest with halves away from zero (R45, R167). -/
def umCounts (s : State) (n : Nat) (um : Int) : Int := roundDiv (um * s.axK n .SCALE) 100000
/-- A station key's length in counts. -/
def stCounts (s : State) (n : Nat) (k : Key) : Int := umCounts s n (s.stK n k)
/-- The axis has a scale (R45). -/
def hasScale (s : State) (n : Nat) : Bool := decide (s.key (.ch n .ax) .SCALE ≠ .unset)

/-! ## Values of SET lines (R92, R93) -/

/-- A value as the key takes it; none where the key does not take it, which is E05. -/
def keyVal (r : KRow) (v : Val) : Option KVal :=
  match r.vt, v with
  | .num k f0 sn sd lo hi zero _, .num l =>
    match litSteps k f0 sn sd l with
    | none => none
    | some x => if (lo ≤ x ∧ x ≤ hi) ∨ (zero = true ∧ x = 0) then some (.i x) else none
  | .num _ _ _ _ _ _ _ ws, .word w => if w ∈ ws then some (.w w) else none
  | .word ws, .word w => if w ∈ ws then some (.w w) else none
  | .word ws, .obj (.bus b) => if "BUS" ++ busLetter b ∈ ws then some (.w ("BUS" ++ busLetter b)) else none
  | .station ws, .word w => if w ∈ ws then some (.w w) else none
  | .station _, .obj (.st n) => if n < 64 then some (.st n) else none
  | .cam, .obj (.cam n) => if n < 64 then some (.i n) else none
  | .unitNo ws, .word w => if w ∈ ws then some (.w w) else none
  | .unitNo _, .obj (.unitNo n) => if n < 1024 then some (.u n) else none
  | .ip ws, .word w => if w ∈ ws then some (.w w) else none
  | .ip _, .ip a b c d =>
    if a < 256 ∧ b < 256 ∧ c < 256 ∧ d < 256 then some (.i (((a * 256 + b) * 256 + c) * 256 + d)) else none
  | .choice ns, .num l =>
    match litPlain l with
    | none => none
    | some x => if x ∈ ns then some (.i x) else none
  | .skey, .hexkey x => if x < 2 ^ 128 then some (.i x) else none
  | _, _ => none

/-! ## Selections (R90, R489) -/

/-- The numbers from first to last. -/
def upTo (first last : Nat) : List Nat := (List.range (last + 1 - first)).map (first + ·)
/-- The stations a list names, in the order written. -/
def stItems (l : List StRange) : List Nat := (l.map fun r => upTo r.first r.last).flatten
/-- The channels from c1 to c2 in the order of R90. -/
def chanSpan (c1 c2 : Chan) : List Chan :=
  (allChans.dropWhile (· ≠ c1)).take ((allChans.idxOf c2) + 1 - allChans.idxOf c1)
/-- The addresses that one member of a channel list names by itself; ALL names none. -/
def chItem : ChItem → List Obj
  | .over a b c => (upTo a b).map fun n => Obj.ch n c
  | .within n c1 c2 => (chanSpan c1 c2).map fun c => Obj.ch n c
  | .all _ => []
  | .other o => [o]
  | .nothing t => [Obj.nothing t]
/-- The channel addresses a list names, in the order written. -/
def chItems (l : List ChItem) : List Obj := (l.map chItem).flatten
/-- A list without its repeats: each member stands where it was written first (R90, R493, R495). -/
def distinct {α : Type} [DecidableEq α] : List α → List α
  | [] => []
  | a :: l => a :: (distinct l).filter (· ≠ a)
/-- The channels that ALL names: those of every fitted station that carries the channel (R90). -/
def allCh (s : State) (c : Chan) : List Obj := (allStations.filter fun n => chFitted s n c).map fun n => Obj.ch n c
/-- The addresses of a channel selection, each once (R90). -/
def chSel (s : State) : ChSel → List Obj
  | .all c => allCh s c
  | .items l => distinct (l.map fun i => match i with
    | .all c => allCh s c
    | i => chItem i).flatten
/-- The stations that ALL names: the fitted ones that pass a test (R90, R489). -/
def allSt (s : State) (ok : Nat → Bool) : List Nat := allStations.filter fun n => stFitted s n && ok n
/-- The stations of a selection, each once (R90, R489). -/
def stSel (s : State) (ok : Nat → Bool) : StSel → List Nat
  | .all => allSt s ok
  | .items l => distinct (stItems l)
  | .withAll l => distinct (l.map fun r => match r with
    | none => allSt s ok
    | some r => upTo r.first r.last).flatten
/-- The stations that a selection names by their numbers. -/
def stWritten : StSel → List Nat
  | .all => []
  | .items l => stItems l
  | .withAll l => stItems (l.filterMap id)
/-- The objects of a SET or WATCH selection, each once (R495, R497). -/
def objSel (s : State) : ObjSel → List Obj
  | .obj o => [o]
  | .sts x => (stSel s (fun _ => true) x).map Obj.st
  | .chs x => chSel s x
  | .mix l => distinct (l.map fun i => match i with
    | .st r => (upTo r.first r.last).map Obj.st
    | .ch (.all c) => allCh s c
    | .ch c => chItem c
    | .all => (allSt s fun _ => true).map Obj.st).flatten
/-- An ALL of a station selection names no fitted station, which is E04 (R90, R489). -/
def stNone (s : State) (ok : Nat → Bool) : StSel → Bool
  | .items l => (stItems l).isEmpty
  | _ => (allSt s ok).isEmpty
/-- An ALL of a channel selection names no fitted station. -/
def chNone (s : State) : ChSel → Bool
  | .all c => (allCh s c).isEmpty
  | .items l => l.isEmpty || l.any fun i => match i with
    | .all c => (allCh s c).isEmpty
    | _ => false
/-- An ALL of a SET or WATCH selection names no fitted station. -/
def objNone (s : State) : ObjSel → Bool
  | .obj _ => false
  | .sts x => stNone s (fun _ => true) x
  | .chs x => chNone s x
  | .mix l => l.isEmpty || l.any fun i => match i with
    | .ch (.all c) => (allCh s c).isEmpty
    | .all => (allSt s fun _ => true).isEmpty
    | _ => false
/-- The E04 of an ALL that names nothing (R90). -/
def allGone (b : Bool) : Option Err := if b then some { code := 4, detail := .word "ALL" } else none

/-- An address names something of the device at all (R89); a unit number too large names nothing. -/
def objInDevice : Obj → Bool
  | .st n => decide (n < 64)
  | .ch n _ => decide (n < 64)
  | .sl n => decide (n < 8)
  | .bus n => decide (n < 4)
  | .cam n => decide (n < 64)
  | .camPt n _ => decide (n < 64)
  | .mark n => decide (n < 1024)
  | .plat n => decide (n < 512)
  | .tb (.ax n) => decide (n < 64)
  | .safeout n => decide (n < 16)
  | .safein n => decide (n < 16)
  | .unitNo n => decide (n < 1024)
  | .nothing _ => false
  | _ => true
/-- An address names something this unit has (R5, R535). -/
def objFitted (s : State) : Obj → Bool
  | .st n => stFitted s n
  | .ch n c => chFitted s n c
  | .line => s.fit.optP
  | .mark _ => s.fit.optP
  | .tb t => tbFitted s t
  | .head h => headFitted s h
  | .sl p => enabled s p
  | _ => true
/-- The first address that names nothing of the device, as E03 (R105 step 7). -/
def firstE03 (l : List Obj) : Option Err :=
  (l.find? fun o => !objInDevice o).map fun o => { code := 3, detail := .obj o }
/-- The first address of a head option that this unit lacks, as E04 (R5). -/
def optionE04 (s : State) (l : List Obj) : Option Err :=
  (l.find? fun o => match o with
    | .head h => !headFitted s h
    | .line | .mark _ | .tb .line => !s.fit.optP
    | _ => false).map fun o => { code := 4, detail := .obj o }
/-- The first address that this unit lacks, as E04 (R105 step 8). -/
def firstE04 (s : State) (l : List Obj) : Option Err :=
  (l.find? fun o => !objFitted s o).map fun o => { code := 4, detail := .obj o }

/-! ## Frames (R362 to R365, R367) -/

/-- The priority of a service's frames (R367). -/
def prioOf : Svc → Nat
  | .ptp => 7
  | .safety => 6
  | .budget | .twin | .announce => 5
  | _ => 0
/-- The priority tag that a frame carries with PRIOTAG=ON (R367). -/
def prioTag (s : State) (svc : Svc) : Option Nat := if s.keyIs .unit .PRIOTAG "ON" then some (prioOf svc) else none
/-- The unit's MAC address, the same on both ports, from the head's serial number (R362). -/
def ownMac (s : State) : BitVec 48 := Config.macAddress s.head.serial
/-- The IPv4 address 239.80.x.y. -/
def groupIp (x y : Nat) : Nat := 4015980544 + 256 * x + y
/-- A service's datagram goes to a multicast group (R365). -/
def multicast (svc : Svc) (dst : Option Nat) : Bool :=
  match svc with
  | .announce | .sleepVote | .budget => true
  | .safety => dst.isNone
  | _ => false
/-- The IPv4 address and the port of a frame: a known peer's announced address, or the service's group; a budget frame names its group in
byte 2 (R324, R359, R365). -/
def frameTo (s : State) (svc : Svc) (dst : Option Nat) (data : List Byte) : Option (Nat × Nat) :=
  let unit := dst.bind fun u => if (s.peer u).known then some (s.peer u).ip else none
  match svc with
  | .session => unit.map fun a => (a, 4780)
  | .safety => if dst.isNone then some (groupIp 0 2, 4781) else unit.map fun a => (a, 4781)
  | .budget => some (groupIp 1 (data.getD 2 0).toNat, 4782)
  | .twin => unit.map fun a => (a, 4783)
  | .announce | .sleepVote => some (groupIp 0 1, 4784)
  | .ptp | .prp | .arp | .icmp | .igmp => none
/-- A frame handed to both ports with the unit's next PRP sequence number (R362): the network engine has sent one (R414), and each path counts
it (R364). -/
def transmit (svc : Svc) (dst : Option Nat) (data : List Byte) (s : State) (set : Option BankSet := none) : State :=
  (s.modNet fun n => { n with
    tx := n.tx ++ [{ svc, dst, data, set, src := ownMac s, trailer := [(.a, n.prpSeq), (.b, n.prpSeq)]
                     tag := prioTag s svc
                     addr := frameTo s svc dst data, ttl := if multicast svc dst then some 1 else none }]
    prpSeq := (n.prpSeq + 1) % 65536
    a := if n.a.link then { n.a with sent := n.a.sent + 1 } else n.a
    b := if n.b.link then { n.b with sent := n.b.sent + 1 } else n.b }).worked .net
/-- A frame without a trailer, handed to one port: PTP or PRP supervision (R362). -/
def transmitOn (p : Path) (svc : Svc) (dst : Option Nat) (data : List Byte) (s : State) : State :=
  let s := s.modNet fun n => { n with tx := n.tx ++ [{ svc, dst, data, src := ownMac s, path := some p, tag := prioTag s svc }] }
  (s.modPath p fun x => if x.link then { x with sent := x.sent + 1 } else x).worked .net
/-- A line with a check as it goes to another unit (R95, R377). -/
def framedLine (chars : List Byte) (check : W16 := crc16 chars) : List Byte :=
  chars ++ 0x2A :: (hexDigits 4 check.toNat).map (fun ch => BitVec.ofNat 8 ch.toNat) ++ [0x0D, 0x0A]
/-- The near unit sets a relay that it opens (R376). -/
def openRelay (far : Nat) (s : State) : State :=
  transmit .session (some far) (framedLine (ascii "SET SESSION IDLE=0s HOLD=60s")) (transmit .session (some far) (framedLine (ascii "MODE GEN")) s)

/-- A node stands in the node table: it was heard in the last 60 s (R362). -/
def nodeKnown (s : State) (node : Nat) : Bool := s.net.nodes.any fun e => decide (e.1 = node ∧ s.now < e.2 + 60000000)
/-- A node has been heard: it enters the node table, which holds 2,048 (R362). -/
def noteNode (node : Nat) (s : State) : State :=
  let live := s.net.nodes.filter fun e => decide (s.now < e.2 + 60000000 ∧ e.1 ≠ node)
  s.modNet fun n => { n with nodes := if live.length < 2048 then (node, s.now) :: live else live }
/-- First copies whose second has not come within the discard window, from nodes that have counters (R362, R364). -/
def lateCopies (s : State) : Nat :=
  (s.net.window.filter fun c => decide (c.at_ + 400000 ≤ s.now) && !c.twice && c.counted).length
/-- The discard window forgets what is older than 400 ms; copies that stayed single are counted (R362, R364). -/
def agePrp (s : State) : State :=
  s.modNet fun n => { n with
    single := n.single + lateCopies s, window := n.window.filter fun c => decide (s.now < c.at_ + 400000) }
/-- A frame arrives on a path whose link is up. One with an FCS error is only counted. The first copy of a frame with a trailer is delivered,
the second is discarded; a frame without a trailer is delivered (R362, R364). -/
def receive (a : Arrival) (deliver : State → State) (s : State) : State :=
  if ¬ (s.path a.path).link ∨ ¬ s.head.started ∨ s.engDown .net then s
  else if a.fcs then s.modPath a.path fun x => { x with fcs := x.fcs + 1 }
  else
    let s := noteNode a.node (agePrp s)
    let s := s.modPath a.path fun x => { x with received := x.received + 1 }
    match a.trailer with
    | none => deliver s
    | some (p, seq) =>
      let s := if p = a.path then s else s.modPath a.path fun x => { x with wrong := x.wrong + 1 }
      if s.net.window.any fun c => decide (c.node = a.node ∧ c.seq = seq) then
        (s.modNet fun n => { n with window := n.window.map fun c => if c.node = a.node ∧ c.seq = seq then { c with twice := true } else c }).modPath
          a.path fun x => { x with dup := x.dup + 1 }
      else deliver (s.modNet fun n => { n with window := { node := a.node, seq, at_ := s.now, counted := nodeKnown s a.node } :: n.window })
/-- A frame of PTP or PRP supervision arrives on a path whose link is up (R362, R370). -/
def receiveOn (p : Path) (deliver : State → State) (s : State) : State :=
  if ¬ (s.path p).link ∨ ¬ s.head.started ∨ s.engDown .net then s
  else deliver (s.modPath p fun x => { x with received := x.received + 1 })

end Sys2Proof.Machine
end

