-- ==== Sys2Proof/Machine/Records.lean ====
section
/-! DEFINITION. Teasel's journal: forming a record, the encodings of its payload, the record area and its index, and the
writing out of the buffer (14). -/

namespace Sys2Proof.Machine

open Sys2Proof

/-! ## Payload fields (R446) -/

/-- An instant: 8 bytes of system time in ns. -/
def pInst (t : Int) : List Byte := leI 8 t
/-- A duration: 4 bytes of us. -/
def pDur (us : Nat) : List Byte := le 4 us
/-- A signed quantity of 4 bytes: a current in 0.1 mA, a voltage in mV, a position, LINE. -/
def pInt (v : Int) : List Byte := leI 4 v
/-- A temperature: 2 bytes of 0.1 C. -/
def pTemp (v : Int) : List Byte := leI 2 v
/-- A count, a number, a percentage, an energy: 4 bytes. -/
def pNum (v : Nat) : List Byte := le 4 v
/-- A fuse heat: h x 10,000, from 10^-12. -/
def pHeat (h : Nat) : List Byte := le 4 (h / 100000000)
/-- A cause word: 8 characters, padded with spaces. -/
def pWord (t : String) : List Byte := padTo 8 0x20 (ascii t)
/-- An address: 8 characters as written in Mehroft. -/
def pObj (o : Obj) : List Byte := pWord (objName o)

/-! ## Forming a record -/

/-- The header fields of a record that the happening gives (R444). -/
structure RecHd where
  station : Nat := 255
  session : Nat := 255
  tag : Option Nat := none
  chan : Nat := 15
  slice : Nat := 255
  engine : Nat := 255
  /-- bits 1, 3 and 4 of byte 18: silent, stamped on arrival, formed by a lane -/
  flags : Nat := 0
  stamp : Option Int := none
  deriving DecidableEq, Repr

/-- Where a channel's record belongs. -/
def hdCh (n : Nat) (c : Chan) : RecHd := { station := n, chan := chCode c }
/-- The session field of a port (R444 byte 23). -/
def portByte : Port → Nat
  | .session n => n
  | .supervisor => 254

/-- The engine whose queue holds a record while Teasel resets, by its type code (R15, R447). -/
def recEngine (code : Nat) : Nat :=
  match code / 256 with
  | 1 => 0
  | 2 => if code < 0x0203 then 2 else 3
  | 3 => 4
  | 4 => 4
  | 5 => if code = 0x0501 then 5 else 3
  | 6 => 5
  | 7 => 6
  | 0xB => 7
  | 0xC => 7
  | _ => 1

/-- A record as formed now, without its number (R444). -/
def formRec (s : State) (code : Nat) (payload : List Byte) (hd : RecHd) : JRec :=
  { num := 0
    stamp := hd.stamp.getD s.time
    code
    flags := hd.flags ||| (if s.net.ptp.bit7 then 0 else 4)
    unit := s.head.unit.getD 65535
    station := hd.station
    session := hd.session
    tag := hd.tag
    chan := hd.chan
    slice := hd.slice
    engine := hd.engine
    payload := padTo 92 0 payload }

/-- A record enters the write buffer and takes its number (R445, R453). -/
def pushRec (r : JRec) (s : State) : State :=
  s.modJrn fun j => { j with
    buf := j.buf ++ [{ r with num := j.nextNum }]
    bufSince := if j.buf.isEmpty then s.now else j.bufSince
    nextNum := j.nextNum + 1 }

/-- A happening is journalled: its record enters the write buffer, or its engine's queue while Teasel, or Yarrow beside it, is being
reset, where the oldest of more than 4,096 is lost (R13, R15, R453). -/
def record (code : Nat) (payload : List Byte) (hd : RecHd) (s : State) : State :=
  let r := formRec s code payload hd
  if s.noTime .jrn then
    let same := s.jrn.queued.filter fun q => recEngine q.code = recEngine code
    if same.length < 4096 then s.modJrn fun j => { j with queued := j.queued ++ [r] }
    else
      let q := match s.jrn.queued.findIdx? fun q => recEngine q.code = recEngine code with
        | none => s.jrn.queued
        | some i => s.jrn.queued.eraseIdx i
      { (s.modJrn fun j => { j with queued := q ++ [r] }) with head := { s.head with lostRecords := true } }
  else pushRec r s

/-! ## A record's bytes (R444) -/

/-- The tag field of bytes 24 to 27. -/
def tagField : Option Nat → List Byte
  | none => le 4 0
  | some t => le 4 (t % 134217728 + 2147483648)
/-- Bytes 0 to 123 of a record. -/
def recBody (r : JRec) : List Byte :=
  le 8 r.num ++ leI 8 r.stamp ++ le 2 r.code ++ [BitVec.ofNat 8 r.flags, 1] ++ le 2 r.unit
    ++ [BitVec.ofNat 8 r.station, BitVec.ofNat 8 r.session] ++ tagField r.tag
    ++ [BitVec.ofNat 8 r.chan, BitVec.ofNat 8 r.slice, BitVec.ofNat 8 r.engine, 0] ++ r.payload
/-- The 128 bytes of a record, with its CRC-32. -/
def recBytes (r : JRec) : List Byte :=
  let b := recBody r
  b ++ le 4 (crc32 b).toNat

/-! ## The record area (R451, R452, R455, R456) -/

/-- Record places of the journal option (R451). -/
def places (s : State) : Nat := if s.fit.j16 then 134197248 else 33533952
/-- The block of a place. -/
def blockOf (p : Nat) : Nat := p / 2048
/-- Blocks of the record area. -/
def blocks (s : State) : Nat := places s / 2048
/-- The next place in writing order (R452). -/
def nextPlace (s : State) (p : Nat) : Nat := (p + 1) % places s
/-- The first place at or after p that lies in no bad block (R455); `fuel` blocks are tried. -/
def goodPlace (s : State) : Nat → Nat → Nat
  | 0, p => p
  | fuel + 1, p =>
    if blockOf p ∈ s.jrn.badBlocks then goodPlace s fuel ((blockOf p + 1) * 2048 % places s) else p
/-- Writing enters a block: the block that follows it is erased, and an index bank is due after every 64 blocks entered
(R452, R456). -/
def enterBlock (p : Nat) (s : State) : State :=
  if p % 2048 ≠ 0 then s else
  let b := (blockOf p + 1) % blocks s
  let s := s.modJrn fun j => { j with store := j.store.filter fun e => blockOf e.1 ≠ b }
  if blockOf p % 64 = 0 then writeIndexAt p s else s
where
  /-- The index bank that does not hold the higher valid sequence number takes the next one (R456). -/
  writeIndexAt (p : Nat) (s : State) : State :=
    s.modJrn fun j =>
      match j.indexA, j.indexB with
      | none, none => { j with indexA := some (1, blockOf p) }
      | some (a, _), none => { j with indexB := some (a + 1, blockOf p) }
      | none, some (b, _) => { j with indexA := some (b + 1, blockOf p) }
      | some (a, _), some (b, _) =>
        if b < a then { j with indexB := some (a + 1, blockOf p) } else { j with indexA := some (b + 1, blockOf p) }
/-- The index is written at a sleep commit instant and before a reset snapshot (R456). -/
def writeIndex (s : State) : State := enterBlock.writeIndexAt s.jrn.nextPlace s

/-- One record goes to its place, and to the next place while the read-back of a place fails; a block with three failed
places is bad (R452, R455). -/
def placeRec : Nat → JRec → State → State
  | 0, _, s => s
  | fuel + 1, r, s =>
    let p := goodPlace s (blocks s) s.jrn.nextPlace
    let s := enterBlock p s
    if p ∈ s.jrn.badPlaces then
      let s := s.modJrn fun j => { j with store := j.store ++ [(p, { r with bad := true })], nextPlace := nextPlace s p }
      let failed := s.jrn.badPlaces.filter fun q => blockOf q = blockOf p ∧ q ≤ p
      let s := if failed.length = 3 then
          let s := s.modJrn fun j => { j with badBlocks := j.badBlocks ++ [blockOf p] }
          let s := s.modJrn fun j => { j with fault := j.fault || decide (blocks s ≤ 100 * j.badBlocks.length) }
          record 0x0C06 (pNum (blockOf p)) { engine := 7 } s
        else s
      placeRec fuel r s
    else
      (s.modJrn fun j => { j with store := j.store ++ [(p, r)], nextPlace := nextPlace s p }).worked .jrn

/-- Teasel writes out its buffer, the oldest record first (R453). -/
def flushJournal (s : State) : State :=
  let l := s.jrn.buf
  let s := s.modJrn fun j => { j with buf := [] }
  forEach l (fun r s => placeRec 4096 r s) s

/-- The records that can be read, in record-number order (R457): the stored ones. -/
def readable (s : State) : List JRec := s.jrn.store.map (·.2)

/-- The records queued during a Teasel reset enter the buffer in their order, and one loss record follows where some were lost
(R15). -/
def drainQueued (s : State) : State :=
  let q := s.jrn.queued
  let s := s.modJrn fun j => { j with queued := [] }
  let s := forEach q pushRec s
  if s.head.lostRecords then
    record 0x0C03 [] { engine := 7 } (s.modHead fun h => { h with lostRecords := false })
  else s

end Sys2Proof.Machine
end

