-- ==== Sys2Proof/Machine/Flags.lean ====
section
/-! DEFINITION. The status and flags words, computed from the state: unit (R38), slice (R39), capability bits (R40), station
(R509), switch (R238), lamp channel (R266), inputs and outputs (R287). -/

namespace Sys2Proof.Machine

open Sys2Proof

/-- A word with the bits whose condition holds. -/
def wordOf (l : List (Nat × Bool)) : W32 :=
  l.foldl (fun w e => if e.2 then w ||| (1#32 <<< e.1) else w) 0

/-- One bit of a station mask of a slice. -/
def maskBit (m : Byte) (n : Nat) : Bool := m.getLsbD (n % 8)

/-- Both lane elements of a feed are closed: each lane's latest valid mask has the station's bit set (R19). -/
def elementsClosed (s : State) (n : Nat) : Bool :=
  maskBit (s.slc (slotOf n)).elemA n && maskBit (s.slc (slotOf n)).elemB n
/-- The load keys a latch holds (R269). -/
def latchKeys : List Key := [.FAILSAFE, .FSPERIOD, .FSPHASE, .PROVED, .PROFILE, .PWIDTH, .ONTHR, .PTHR, .RESERVE]
/-- A channel's key as the field side has it: its own copy, and a latched key from the latch while it holds fail-safe states (R208, R237,
R270). -/
def fieldKey (s : State) (n : Nat) (w : Sw) (k : Key) : KVal :=
  let x := s.slc (slotOf n)
  kOf s (if x.failSafe ∧ k ∈ latchKeys then x.latch else x.keys) (.ch n (swChan w)) k
/-- Its number, when it is not negative. -/
def fieldN (s : State) (n : Nat) (w : Sw) (k : Key) : Nat := (kInt (fieldKey s n w k)).toNat

/-- A key of an object of a slice as the field side has it: its own copy, else the default (R208, R272, R299). -/
def fieldOf (s : State) (p : Nat) (o : Obj) (k : Key) : KVal := kOf s (s.slc p).keys o k
/-- A station's key as the field side has it, as a number. -/
def fieldSt (s : State) (n : Nat) (k : Key) : Int := kInt (fieldOf s (slotOf n) (.st n) k)
/-- A channel's key as the field side has it is this word. -/
def fieldIs (s : State) (n : Nat) (c : Chan) (k : Key) (w : String) : Bool := decide (fieldOf s (slotOf n) (.ch n c) k = .w w)
/-- TPW in us (R272). -/
def tpw (s : State) (n : Nat) : Int := 50 * fieldSt s n .TPW
/-- The voltage that a switch's ramp has reached, mV (R210, R213, R214). -/
def rampLevel (x : Switch) (now : Nat) : Nat :=
  match x.ramp with
  | some true => min x.u (x.level + x.rate * (now - x.rampAt) / 1000)
  | some false => x.level - x.rate * (now - x.rampAt) / 1000
  | none => if x.on then x.u else 0
/-- A switch is on: its turn-off ramp, where it has one, has not reached 0 V (R213). -/
def Switch.isOn (x : Switch) (now : Nat) : Bool := x.on && (decide (x.ramp ≠ some false) || decide (0 < rampLevel x now))
/-- A ramp is in progress (R238 bit 2); the turn-on ramp of a channel in CP mode begins with its first on-edge (R210). -/
def Switch.ramping (x : Switch) (now : Nat) : Bool :=
  match x.ramp with
  | some true => decide (x.rampAt ≤ now)
  | some false => x.isOn now
  | none => false
/-- PPHASE in the present PWM period: as set, or AUTO's 16 x (2 x (station mod 8) + c) (R208, R234). -/
def pphase (s : State) (n : Nat) (w : Sw) : Nat := (s.sw n w).pwmPh.getD (16 * (2 * (n % 8) + (if w = .lb then 1 else 0)))
/-- How far the present PWM period of a channel has run, in millionths of it: every period starts at the slice's PWM epoch plus a whole
number of periods (R208, R234). -/
def pwmPlace (s : State) (n : Nat) (w : Sw) : Nat := (s.now - (s.slc (slotOf n)).epoch) * (s.sw n w).pwmF % 1000000
/-- How far a channel's pulse generator is past its last on-edge, in parts of a period by 256,000,000 (R234). -/
def pwmPast (s : State) (n : Nat) (w : Sw) : Nat := (256 * pwmPlace s n w + 256000000 - 1000000 * (pphase s n w % 256)) % 256000000
/-- The PWM output of a channel in CP mode is on: the duty's share of the period, from PPHASE/256 of it on (R230, R234). -/
def pwmOn (s : State) (n : Nat) (w : Sw) : Bool := decide (pwmPast s n w * 1024 < 256000000 * (s.sw n w).duty)
/-- The channel is in CP mode (R230). -/
def cpMode (s : State) (n : Nat) (w : Sw) : Bool := decide (w ≠ .fd ∧ fieldKey s n w .MODE = .w "CP")
/-- The channel is in CC mode (R232). -/
def ccMode (s : State) (n : Nat) (w : Sw) : Bool := decide (w ≠ .fd ∧ fieldKey s n w .MODE = .w "CC")
/-- The time in us until a channel's next on-edge: none in another mode than CP, and none while the PWM output is on (R210). -/
def onEdgeIn (s : State) (n : Nat) (w : Sw) : Nat :=
  let f := 256 * (s.sw n w).pwmF
  if !cpMode s n w || pwmOn s n w then 0 else (256000000 - pwmPast s n w + f - 1) / f
/-- The output voltage of a switch, mV: its ramp's, and between the PWM edges of CP mode, which run at 2 V/us, what they have reached
(R210, R213, R214). -/
def outLevel (s : State) (n : Nat) (w : Sw) : Nat :=
  let x := s.sw n w
  if !cpMode s n w || x.ramp.isSome || !x.on || decide (1024 ≤ x.duty) then rampLevel x s.now
  else
    let past := pwmPast s n w / (256 * x.pwmF)
    if pwmOn s n w then min x.u (2000 * past) else x.u - 2000 * (past - 1000000 * x.duty / (1024 * x.pwmF))
/-- A feed conducts: the class H switch and both lane elements are on (R19). -/
def fdConducts (s : State) (n : Nat) : Bool := (s.stn n).fd.isOn s.now && elementsClosed s n
/-- A switch's output is on (R238 bit 1): a channel in CP mode follows its pulse generator (R230). -/
def outputOn (s : State) (n : Nat) : Sw → Bool
  | .fd => fdConducts s n
  | w => (s.sw n w).isOn s.now && (!cpMode s n w || pwmOn s n w)
/-! ## The fuse model (R218, R219, R221) -/

/-- Nominal current of a wire profile, 0.1 mA (R219). -/
def inOf (w : Sw) (wire : KVal) : Nat :=
  match w, wire with
  | .fd, .w "W150" => 70000
  | .fd, .w "W250" => 90000
  | .fd, .w "W400" => 109000
  | .fd, _ => 50000
  | _, .w "W075" => 14000
  | _, .w "W100" => 18000
  | _, .w "W150" => 22500
  | _, _ => 10000
/-- Time constant of a wire profile, s (R219). -/
def tauOf (w : Sw) (wire : KVal) : Nat :=
  match w, wire with
  | .fd, .w "W150" => 22
  | .fd, .w "W250" => 32
  | .fd, .w "W400" => 45
  | .fd, _ => 16
  | _, .w "W075" => 13
  | _, .w "W100" => 16
  | _, .w "W150" => 22
  | _, _ => 10
/-- The nominal current of the profile that the field side holds (R208). -/
def wireIn (s : State) (n : Nat) (w : Sw) : Nat := inOf w (fieldKey s n w .WIRE)
/-- Its time constant. -/
def wireTau (s : State) (n : Nat) (w : Sw) : Nat := tauOf w (fieldKey s n w .WIRE)
/-- (i / IN)^2 in 10^-12 (R218). -/
def heatGoal (i inom : Nat) : Nat := i * i * 1000000000000 / (inom * inom)
/-- One conversion of the fuse model: h + (m2 - h) dt / tau, with dt = 50 us, h and m2 in 10^-12 (R218). -/
def fuseStep (h i inom tau : Nat) : Nat :=
  let m2 := heatGoal i inom
  if h ≤ m2 then h + (m2 - h) / (20000 * tau) else h - (h - m2) / (20000 * tau)
/-- A power of a factor below 1, both in 10^-18, by halving the exponent. -/
def fixPow (b : Nat) : Nat → Nat → Nat
  | 0, _ => 1000000000000000000
  | fuel + 1, k =>
    if k = 0 then 1000000000000000000
    else
      let r := fixPow (b * b / 1000000000000000000) fuel (k / 2)
      if k % 2 = 1 then r * b / 1000000000000000000 else r
/-- k conversions of the fuse model at one current: h approaches m2 by the factor (1 - dt / tau)^k (R218). -/
def fuseSteps (k h i inom tau : Nat) : Nat :=
  let m2 := heatGoal i inom
  let f := fixPow (1000000000000000000 - 1000000000000000000 / (20000 * tau)) 64 k
  if h ≤ m2 then m2 - (m2 - h) * f / 1000000000000000000 else m2 + (h - m2) * f / 1000000000000000000
/-- The fuse heat now: the conversions since h was last brought up to date have measured the last current, or 0 A with the output off
(R218, R228; the current between the conversions that commands bring is a DESIGN CHOICE, log entry 74). -/
def heatNow (s : State) (n : Nat) (w : Sw) : Nat :=
  let x := s.sw n w
  fuseSteps ((s.now - x.heatAt) / 50) x.heat (if outputOn s n w then x.cur else 0) (wireIn s n w) (wireTau s n w)
/-! ## Words -/

/-- A trip stands (R236). -/
def Switch.tripped (x : Switch) : Bool :=
  x.fuse.isSome || x.short.isSome || x.tone.isSome || x.tj.isSome || x.clamp.isSome

/-- The switch flags word (R238). -/
def swFlags (s : State) (n : Nat) (w : Sw) : W32 :=
  let x := s.sw n w
  wordOf [(0, x.cmd || x.flash.isSome), (1, outputOn s n w), (2, x.ramping s.now), (3, x.inrush.any (· ≤ s.now)), (4, x.limiting),
    (5, x.high), (6, match x.flaggedAt with | none => false | some t => decide (s.now < t + 1000)),
    (7, x.uvOff), (8, x.uvWait), (9, x.fuse.isSome), (10, x.short.isSome), (11, x.tone.isSome), (12, x.tj.isSome),
    (13, x.clamp.isSome), (14, x.openLoad), (15, x.comply), (16, x.sat),
    (17, decide (w = .fd) && elementsClosed s n), (18, x.failSafe)]

/-- A load channel is proved by Cowslip (R244). -/
def proved (s : State) (n : Nat) (w : Sw) : Bool := s.keyIs (.ch n (swChan w)) .PROVED "ON"
/-- LA of the station has LB as its reserve (R245). -/
def hasReserve (s : State) (n : Nat) : Bool := s.keyIs (.ch n .la) .RESERVE "LB"

/-- A flash pattern at a FLASH value: whether it is in an on-phase (R267). -/
def flashOn (f : Flash) (flashUs : Int) : Bool :=
  let p : Int := 1000 * f.period
  let off : Int := roundDiv (f.phase * p) 256
  let len : Int := 1000 * roundDiv (f.duty * f.period) 256
  decide ((flashUs - off) % p < len)
/-- The FLASH value as a slice's field side has it: its replica while it holds fail-safe states, else the head's (R270). Before the first
valid frame there is no replica, and the head's stands in (DESIGN CHOICE, log entry 129). -/
def fieldFlash (s : State) (n : Nat) : Int :=
  match (s.slc (slotOf n)).flash with
  | some (v, t) => if (s.slc (slotOf n)).failSafe then v + (s.now - t : Nat) else s.flash
  | none => s.flash
/-- A channel's pattern is in an on-phase now: the phase its last edge has given it, and for a main whose reserve is in use the one its
commanded pattern has (R261, R266 bit 6). -/
def onPhaseNow (s : State) (n : Nat) (w : Sw) : Bool :=
  let x := s.sw n w
  if w = .la ∧ (s.stn n).reserveInUse then x.flash.any fun f => flashOn f (fieldFlash s n) else x.lamp.onPhase
/-- Thresholds of a channel await SAVE SAFETY: the candidate gives ONTHR or PTHR another value than the committed configuration (R266 bit
18). -/
def thresholdsWait (s : State) (n : Nat) (w : Sw) : Bool :=
  let o : Obj := .ch n (swChan w)
  s.cfg.cand.any fun c => [Key.ONTHR, .PTHR].any fun k => decide (kOf s c o k ≠ kOf s s.cfg.safety o k)
/-- The lamp channel status word (R266). -/
def lampWord (s : State) (n : Nat) (w : Sw) : W32 :=
  let x := s.sw n w
  let l := x.lamp
  let p := proved s n w
  let fs := match s.key (.ch n (swChan w)) .FAILSAFE with
    | .w "ON" => 1
    | .w "FLASH" => 2
    | _ => 0
  let main := decide (w = .la)
  let low := wordOf [(0, p), (1, p && s.keyIs (.ch n (swChan w)) .PROFILE "LED"), (2, p && !main && hasReserve s n),
    (3, p && main && hasReserve s n), (4, x.cmd || x.flash.isSome), (5, x.flash.isSome), (6, onPhaseNow s n w), (7, p && l.dark),
    (8, p && main && (s.stn n).reserveInUse), (9, p && main && hasReserve s n && (s.stn n).lb.lamp.dark),
    (10, p && decide (0 < l.litFails)), (11, p && l.lastFailed), (12, p && l.lastVoid), (13, p && l.lastSkipped),
    (14, p && ((s.laneSw .a n w).mismatch || (s.laneSw .b n w).mismatch)), (15, p && x.comply), (16, p && x.sat), (17, x.failSafe), (18, p && thresholdsWait s n w),
    (19, p && !s.net.ptp.bit28)]
  let cnt := if p then BitVec.ofNat 32 (l.litFails % 16 * 1048576 + l.gridFails % 4 * 16777216) else 0
  low ||| cnt ||| BitVec.ofNat 32 (fs * 67108864)

/-- The input flags word (R287). -/
def inFlags (s : State) (n k : Nat) : W32 :=
  let i := (s.stn n).inp k
  wordOf [(0, i.on), (1, i.openWire), (2, i.overVolt), (3, decide (k ∈ i.faultTaps)), (4, i.faultTaps.any (· ≠ k)),
    (5, i.supply), (6, i.zero), (7, i.lastFailed)]
/-- A diagnostic fault stands on an input: flags bits 1 to 5 (R287). -/
def inFault (s : State) (n k : Nat) : Bool := decide ((inFlags s n k) &&& 0x3E#32 ≠ 0)
/-- A digital output is on now: not within a test pulse, for which it is off for TPW (R286, R287). -/
def outNow (s : State) (n : Nat) (second : Bool) : Bool :=
  let o := (s.stn n).outp second
  o.on && !(o.pulseAt.any fun t => decide ((s.now : Int) < t + tpw s n))
/-- The output flags word (R287). -/
def outFlags (s : State) (n : Nat) (second : Bool) : W32 :=
  let o := (s.stn n).outp second
  wordOf [(0, o.cmd), (1, outNow s n second), (2, o.overload || o.latched), (3, o.overtemp), (4, o.openLoad), (5, o.supply), (6, o.stuck),
    (7, o.failSafe)]
/-- A diagnostic fault stands on an output: flags bits 2 to 6 (R287). -/
def outFault (s : State) (n : Nat) (second : Bool) : Bool := decide ((outFlags s n second) &&& 0x7C#32 ≠ 0)

/-- A load channel reads dark on its station bit (R239, R265). -/
def darkBit (s : State) (n : Nat) (w : Sw) : Bool :=
  if proved s n w then (s.sw n w).lamp.dark else (s.sw n w).openLoad

/-- A station is out of service (R437, R439). -/
def outOfService (s : State) (n : Nat) : Bool := (s.stn n).outOfService

/-- The station status word (R509); bits 0 to 7 read 0 on a station without an axis. -/
def stStatus (s : State) (n : Nat) : W32 :=
  let t := s.stn n
  let ax := chFitted s n .ax
  let fd := swFlags s n .fd
  wordOf [(0, ax && t.axis.referenced), (1, ax && t.axis.moving), (2, ax && t.axis.fault.isSome), (3, ax && inOn s n .CLOSEDSW),
    (4, ax && inOn s n .LOCKSW), (5, ax && t.obstacle), (6, ax && fdConducts s n), (7, ax && decide (fd &&& 0x7F80#32 ≠ 0)),
    (8, t.la.cmd || t.la.flash.isSome), (9, darkBit s n .la), (10, decide (swFlags s n .la &&& 0x3F80#32 ≠ 0)),
    (11, t.lb.cmd || t.lb.flash.isSome), (12, darkBit s n .lb), (13, decide (swFlags s n .lb &&& 0x3F80#32 ≠ 0)),
    (14, (t.inp 0).on), (15, (t.inp 1).on), (16, (t.inp 2).on), (17, (t.inp 3).on),
    (18, inFault s n 0), (19, inFault s n 1), (20, inFault s n 2), (21, inFault s n 3),
    (22, outNow s n false), (23, outNow s n true), (24, outFault s n false), (25, outFault s n true),
    (26, decide (t.derate < 10000)), (27, t.wait.isSome), (28, t.failSafe), (29, t.linkLost), (30, t.suspect), (31, t.outOfService)]

/-- The type code of a position: slice status bits 1:0 and the capability bits (R39, R41). An enabled, seated slice whose logic side is
unpowered reads 00 (DESIGN CHOICE, log entry 100). -/
def typeCode (s : State) (p : Nat) : Nat :=
  let x := s.slc p
  if !enabled s p || x.absent || x.seated.isNone || !x.powered then 0
  else match x.typeRead with
    | some t => t
    | none => 3

/-- An enable mask came within the last 400 us (R19, R39 bits 14 and 15). -/
def maskValid (at_ : Option Nat) (now : Nat) : Bool :=
  match at_ with
  | none => false
  | some t => decide (now ≤ t + 400)

/-- The slice status word (R39). -/
def slStatus (s : State) (p : Nat) : W32 :=
  let x := s.slc p
  if !enabled s p then 0 else
  wordOf [(2, x.powered), (3, x.link), (4, x.crcSeen), (5, x.lostAt.isSome), (6, x.passed), (7, x.failed), (8, x.failSafe),
    (9, x.latched), (10, s.keyIs (.sl p) .AUTORETURN "ON"), (11, x.newIns), (12, x.heatFail),
    (13, (stationsOf p).any fun n => (s.stn n).derate < 10000), (14, maskValid x.maskAtA s.now), (15, maskValid x.maskAtB s.now)]
  ||| BitVec.ofNat 32 (typeCode s p)
  ||| BitVec.ofNat 32 ((match x.ident with | none => 0 | some i => i.2.toNat % 256) * 65536)
  ||| wordOf ((stationsOf p).map fun n => (24 + n % 8, stFitted s n && (s.stn n).outOfService))

/-- The capability bits (R40). -/
def capBits (s : State) : W32 :=
  BitVec.ofNat 32 ((allSlices.map fun p => typeCode s p * 4 ^ p).sum + s.fit.base * 65536)
  ||| wordOf [(18, s.fit.optT), (19, s.fit.optP), (20, s.fit.j16)]

/-- The committed safety configuration is held, valid and equal in both lanes (R356, unit status bit 13). -/
def safetyValid (s : State) : Bool := s.camp.a.configOk && s.camp.b.configOk
/-- LOOP is closed: both contacts (R38 bit 3). -/
def loopClosed (s : State) : Bool := s.camp.a.contact && s.camp.b.contact
/-- LINE is uncertain (R82). -/
def lineUncertain (s : State) : Bool := decide (s.line.st ≠ .certain)
/-- The KEY input is active (R288). -/
def keyActive (s : State) : Bool := s.camp.key.active
/-- An interlock or a move fails its crate test (R315). -/
def crateReached (s : State) : Bool := s.yar.crateFail

/-- A clip that is kept still clips: one of an axis key while the station is derated, one of a channel while it is dimmed (R320). -/
def clipStands (s : State) (e : Obj × Key) : Bool :=
  match e.1 with
  | .ch n .ax => decide ((s.stn n).derate < 10000)
  | .ch n .la => decide ((s.stn n).la.dim < 100)
  | .ch n .lb => decide ((s.stn n).lb.dim < 100)
  | _ => true
/-- A MOVE or JOG runs below the SPEED it asks for (R320). -/
def speedCut (m : Motion) : Bool := decide (m.phase ≠ .waiting ∧ m.phase ≠ .held) && m.asked.any fun v => decide (v * m.d / 10000 < v)
/-- A policy clip is in force (R38, R320). -/
def clipInForce (s : State) : Bool := s.yar.clips.any (clipStands s) || s.st.any fun e => e.2.axis.motion.any speedCut

/-- A configuration set is loaded; a unit whose set a PAIR ATTACH discards shows none while it attaches (R393, R397; DEDUCED, log entry 144). -/
def setLoaded (s : State) : Bool := s.head.loaded && !s.ops.any fun o => match o.prog with
  | .attaching .. => true
  | _ => false
/-- The unit status word (R38). -/
def unitStatus (s : State) : W32 :=
  wordOf [(0, s.camp.a.driving && !s.camp.safe), (1, s.camp.b.driving && !s.camp.safe), (2, s.camp.safe), (3, loopClosed s), (4, s.camp.loopFault),
    (5, s.net.a.bit), (6, s.net.b.bit), (7, s.net.ptp.bit7), (8, s.net.ptp.self), (9, s.twin.formed), (10, s.twin.silent),
    (11, setLoaded s), (12, s.head.refused), (13, safetyValid s), (14, keyActive s), (15, s.slp.vote.isSome),
    (16, s.slp.reached), (17, allStations.any fun n => (s.stn n).derate < 10000), (18, clipInForce s),
    (19, !s.jrn.buf.isEmpty), (20, s.jrn.fault), (21, s.head.unread), (22, s.head.resetting.isSome),
    (23, s.sess.any fun e => e.2.suspect), (24, s.sup.lowSince.isSome), (25, s.sup.lowSince.isSome && s.head.powered),
    (26, crateReached s), (27, s.fit.optP && lineUncertain s), (28, s.net.ptp.bit28),
    (29, allStations.any fun n => stFitted s n && (s.stn n).outOfService),
    (30, allSlices.any fun p => (s.slc p).lostAt.isSome || (s.slc p).absent), (31, s.head.bit31)]

/-! ## Train-line inputs (R288) -/

/-- The upper and the lower threshold of the train-line inputs in mV, by TLV (R288). -/
def lineThresholds (s : State) : Nat × Nat := if s.keyIs .unit .TLV "24V" then (15000, 9000) else (66000, 40000)
/-- A sample of a train-line circuit: its state by the thresholds, which is the filtered one once it has held for the filter time (R288). -/
def lineSample (s : State) (filter u : Nat) (x : LineIn) : LineIn :=
  let raw := if (lineThresholds s).1 ≤ u then true else if u ≤ (lineThresholds s).2 then false else x.raw
  let since := if raw = x.raw then x.since else s.now
  { raw, since, on := if since + filter ≤ s.now then raw else x.on }

end Sys2Proof.Machine
end

