-- ==== Sys2Proof/Machine/Pool.lean ====
section
/-! DEFINITION. The operation pool and the operations in it: taking and releasing slots, the entries' fields, and the way
replies reach a session through an event or a REPLAY (02 R49 to R59, R66; 13 R431). -/

namespace Sys2Proof.Machine

open Sys2Proof

/-! ## Slots -/

/-- The first slot of the session block and the slot after its last (R49). -/
def sessFirst : Nat := 1024
/-- The slot after the last of the pool. -/
def poolEnd : Nat := 16384

/-- A slot is free (R50). -/
def slotFree (s : State) (n : Nat) : Bool := decide ((s.ent n).kind = .free)
/-- The lowest-numbered free slot at or after n, within `fuel` slots (R50). -/
def freeFrom (s : State) : Nat → Nat → Option Nat
  | 0, _ => none
  | fuel + 1, n => if slotFree s n then some n else freeFrom s fuel (n + 1)
/-- The lowest-numbered free slot of the session block. -/
def freeSlot (s : State) : Option Nat := freeFrom s 15360 sessFirst
/-- The session-block slots in use. -/
def usedSlots (s : State) : Nat :=
  (s.pool.filter fun e => decide (sessFirst ≤ e.1 ∧ e.1 < poolEnd ∧ e.2.kind ≠ .free)).length
/-- The session-block slots a session holds (R51, R53). -/
def heldSlots (s : State) (n : Nat) : Nat :=
  (s.pool.filter fun e => decide (sessFirst ≤ e.1 ∧ e.1 < poolEnd ∧ e.2.kind ≠ .free ∧ e.2.session = n)).length
/-- The free slots of the session block. -/
def freeSlots (s : State) : Nat := 15360 - usedSlots s
/-- The session block has no free slot (R56). -/
def blockFull (s : State) : Bool := decide (15360 ≤ usedSlots s)
/-- The quota in force: one above 15,360 acts as 15,360 (R54). -/
def quotaOf (s : State) (n : Nat) : Nat := min (s.ses n).quota 15360

/-- The pool-full record when the session block first has no free slot, the pool-available record at the next release (R56). -/
def poolRecord (s : State) : State :=
  if blockFull s ∧ ¬ s.poolFull then { record 0x0201 [] { engine := 2 } s with poolFull := true }
  else if ¬ blockFull s ∧ s.poolFull ∧ ¬ s.engDown .evt then { record 0x0202 [] { engine := 2 } s with poolFull := false }
  else s
/-- A slot is taken: its entry is written, the event engine has taken one slot (R56, R414). -/
def takeSlot (n : Nat) (f : PoolEntry → PoolEntry) (s : State) : State := poolRecord ((s.modEnt n f).worked .evt)
/-- A released slot: kind and state read 0, every other byte stays (R57). -/
def PoolEntry.released (e : PoolEntry) : PoolEntry := { e with kind := .free, st := .free }
/-- Releases slots; the event engine has released one each (R414). -/
def releaseSlots (l : List Nat) (s : State) : State :=
  forEach l (fun n s => poolRecord ((s.modEnt n PoolEntry.released).worked .evt)) s

/-- The session number a port's operations carry. -/
def portSession : Port → Nat
  | .session n => n
  | .supervisor => 0

/-- The next free slots in ascending order, k of them, each marked taken by a segment or a reservation (R50, R51). -/
def takeSlots (kind : Kind) (st : ESt) (sess : Nat) (tag : Option Nat) : Nat → State → List Nat × State
  | 0, s => ([], s)
  | k + 1, s =>
    match freeSlot s with
    | none => ([], s)
    | some n =>
      let s := takeSlot n (fun e => { e with
        kind, st, session := sess, system := false, suspect := false, tag := tag.getD 0, tagged := tag.isSome, tb := 0xFF, dir := 0, ifpast := 0, rep := false, flagged := false,
        periodic := false }) s
      let r := takeSlots kind st sess tag k s
      (n :: r.1, r.2)

/-- A queued command's entry: bytes 0 to 7 and 44 to 47 are written (R59). -/
def cmdEntry (sess : Nat) (tag : Option Nat) (len : Nat) (next : Nat) (st : ESt) (e : PoolEntry) : PoolEntry :=
  { e with
    kind := .command, st, session := sess, system := false, suspect := false, tb := 0xFF, dir := 0, ifpast := 0,
    rep := false, flagged := false, periodic := false, tag := tag.getD 0, tagged := tag.isSome, textLen := len, next }

/-! ## Operations -/

/-- An operation by its id. -/
def State.opOf (s : State) (id : Nat) : Option Op := s.ops.find? (·.id = id)
/-- Changes an operation. -/
def State.modOp (s : State) (id : Nat) (f : Op → Op) : State :=
  { s with ops := s.ops.map fun o => if o.id = id then f o else o }
/-- The context of an operation. -/
def Op.ctx (o : Op) : Ctx := { port := o.port, tag := o.tag, within := o.within, acc := o.acc, text := o.text }
/-- Takes an operation out and releases the slots it holds (R50, R51). -/
def dropOp (o : Op) (s : State) : State :=
  let s := { s with ops := s.ops.filter (·.id ≠ o.id) }
  releaseSlots (o.slot.toList ++ o.segs) s

/-- The engine a lasting verb's work belongs to, for R429. -/
def verbEngine : Verb → Engine
  | .opn .. | .cls .. | .stop .. | .resume .. | .move .. | .follow .. | .jog .. | .ref .. | .refLearn .. | .cam .. => .mot
  | .lamp .. | .flash .. | .proveLearn .. | .proveReturn .. => .lamp
  | .out .. => .io
  | .proveLoop => .int
  | .event .. => .evt
  | .save | .saveSafety | .saveBegin | .saveAbort => .jrn
  | .journalRead .. | .snapshotList | .snapshotRead .. | .snapshotRelease .. => .jrn
  | .pair .. | .pairAttach .. | .pairRelease | .sleep .. | .wake => .net
  | .budget .. | .budgetClear => .bud
  | _ => .int

/-- The operation that names an engine in a reply. -/
def e50 (e : Engine) : Err := { code := 50, detail := .word (engName e) }

/-- A fired report (R66). -/
def firedReport (tb : TB) (val : Int) (late jump : Bool) (result : Option String) : Reply :=
  colR "fired" ([.tb tb, .kn "val" val "", .kn "late" late.toNat "", .kn "jump" jump.toNat ""]
    ++ (match result with | none => [] | some r => [.kw "result" r]))
/-- The word of a result (R66). -/
def resultWord (r : Reply) : String := if r.pre = .bang then r.word else "ok"
/-- The timebase an event operation is keyed to. -/
def opTb (o : Op) : TB :=
  match o.verb with
  | .event t => t
  | _ => .time
/-- An operation is a REPEAT event (R65). -/
def repeats (s : State) (o : Op) : Bool :=
  match o.slot with
  | none => false
  | some n => (s.ent n).rep

/-- A reply that is not final. It passes through the event or REPLAY it runs in: the event's tag, or `replay i` of the
REPLAY's tag; nothing of a REPEAT event's firing but its outcome is reported (R66, R431). `fuel` bounds the nesting. -/
def sayIn : Nat → Ctx → Reply → State → State
  | 0, _, _, s => s
  | fuel + 1, c, r, s =>
    match c.within with
    | none => send c.port { r with tag := c.tag } s
    | some (pid, i) =>
      match s.opOf pid with
      | none => send c.port { r with tag := c.tag } s
      | some p =>
        match p.prog with
        | .replaying .. => send p.port { r with tag := p.tag, replay := some i } s
        | _ => if repeats s p then s else sayIn fuel p.ctx r s
/-- A reply that is not final (R101). -/
def say (c : Ctx) (r : Reply) (s : State) : State := sayIn 4 c r s

/-- What ends with a final reply: the line, its event, or a line of a REPLAY (R66, R101, R117, R431). -/
def finIn : Nat → Ctx → Reply → State → State
  | 0, _, _, s => s
  | fuel + 1, c, r, s =>
    match c.within with
    | none => remember c.port c.tag { r with tag := c.tag } (send c.port { r with tag := c.tag } s)
    | some (pid, i) =>
      match s.opOf pid with
      | none => s
      | some p =>
        match p.prog with
        | .replaying k ended children deadline sess =>
          let s := send p.port { r with tag := p.tag, replay := some i } s
          let children := children.filter (· ≠ i)
          let s := s.modOp pid fun o => { o with prog := .replaying k (ended + 1) children deadline sess }
          if r.pre = .bang ∧ r.word = "E50" then
            let s := dropOp p s
            let s := match p.port with
              | .session n => s.modSes n fun x => { x with suspect := true }
              | .supervisor => s
            finIn fuel p.ctx { r with replay := none } s
          else if children.isEmpty then
            finIn fuel p.ctx (eqR "replay" [.n k, .kn "ended" (ended + 1) "", .kn "cut" 0 ""])
              ((dropOp p s).modSes sess fun x => { x with suspect := false })
          else s
        | .event dv base fired =>
          match fired.find? (·.1 = i) with
          | none => s
          | some (_, val, late, jump) =>
            if repeats s p then
              let s := s.modOp pid fun o => { o with prog := .event dv base (fired.filter (·.1 ≠ i)) }
              let s := sayIn fuel p.ctx (firedReport (opTb p) val late jump (some (resultWord r))) s
              let e := s.ent (p.slot.getD 0)
              if 0 < e.limit ∧ e.limit ≤ e.firings ∧ (fired.filter (·.1 ≠ i)).isEmpty then
                finIn fuel p.ctx (eqR "fired" [.kn "n" e.firings ""]) (dropOp p s)
              else s
            else finIn fuel p.ctx r (dropOp p s)
        | _ => s
/-- A final reply in its context (R101). -/
def fin (c : Ctx) (r : Reply) (s : State) : State := finIn 4 c r s
/-- An error as a final reply. -/
def finErr (c : Ctx) (e : Err) (s : State) : State := fin c (errR e) s

/-- An operation ends with its final reply (R101). -/
def finOp (id : Nat) (r : Reply) (s : State) : State :=
  match s.opOf id with
  | none => s
  | some o => fin o.ctx r (dropOp o s)
/-- An operation ends with an error. -/
def failOp (id : Nat) (e : Err) (s : State) : State := finOp id (errR e) s
/-- An operation reports (R101). -/
def sayOp (id : Nat) (r : Reply) (s : State) : State :=
  match s.opOf id with
  | none => s
  | some o => say o.ctx r s
/-- An operation ends with an error when it carries a tag, and without a reply otherwise (R77, R420). -/
def cutOp (id : Nat) (e : Err) (s : State) : State :=
  match s.opOf id with
  | none => s
  | some o => if o.tag.isSome ∨ o.within.isSome then fin o.ctx (errR e) (dropOp o s) else dropOp o s

/-- A lasting verb is accepted: its operation takes the lowest free slot, unless it runs in an event's slot, comes on the
supervisor line or is a RESET (R51, R52); its entry is written as a queued command's (R59). -/
def startOp (c : Ctx) (v : Verb) (p : Prog) (slots : Bool) (s : State) : Nat × State :=
  let id := s.nextOp
  let s := { s with nextOp := s.nextOp + 1 }
  let viaEvent := match c.within with
    | none => false
    | some (pid, _) => match s.opOf pid with
      | some q => (match q.prog with | .event .. => true | _ => false)
      | none => false
  let sess := portSession c.port
  let take := slots && !viaEvent && decide (c.port ≠ .supervisor)
  let slot := if take then freeSlot s else none
  let s := match slot with
    | none => s
    | some n => takeSlot n (cmdEntry sess (if c.within.isSome then none else c.tag) c.text.length 0xFFFF .executing) s
  let o : Op := { slot, id, port := c.port, tag := c.tag, acc := c.acc, verb := v, text := c.text, within := c.within, prog := p }
  (id, { s with ops := s.ops ++ [o] })

end Sys2Proof.Machine
end

