-- ==== Sys2Proof/Machine/Profile.lean ====
section
/-! DEFINITION. Speedwell's arithmetic: conversion of rates, trapezoid and S-curve plans, the exact time of every edge, and the
position of a plan at an instant (04 R129 to R138). -/

namespace Sys2Proof.Machine

open Sys2Proof

/-- One microstep per second, in the unit in which speeds are kept: um/s x SCALE x RATIO stays a whole number (R129). -/
def rateUnit : Nat := 6553600000
/-- Ticks of the step timebase in a second (R132). -/
def tickHz : Nat := 1500000000
/-- Fractions of a tick that exact times carry (R132). -/
def subTick : Nat := 4294967296
/-- Fractional bits kept in a square root: 2^20. -/
def rootScale : Nat := 1048576

/-- A rate of the line, um/s (um/s2, um/s3), in microstep rates of 1/6,553,600,000 (R129). -/
def convRate (s : State) (n : Nat) (um : Nat) : Nat := um * (s.axK n .SCALE).toNat * (s.axK n .RATIO).toNat
/-- Counts in microsteps, to the nearest (R126). -/
def countsToSteps (s : State) (n : Nat) (c : Int) : Int := roundDiv (c * s.axK n .RATIO) 65536
/-- Microsteps in counts, to the nearest. -/
def stepsToCounts (s : State) (n : Nat) (m : Int) : Int := roundDiv (m * 65536) (s.axK n .RATIO).toNat

/-- A quotient of whole numbers rounded to the nearest, halves up. -/
def roundUp (a b : Nat) : Nat := (2 * a + b) / (2 * b)
/-- A square root in 2^-20. -/
def rootOf (vq : Nat) : Nat := isqrt (vq * rootScale * rootScale)

/-- The squared speed at edge k of a segment of constant acceleration (R132, R136). -/
def speedSqAt (g : Seg) (k : Nat) : Nat :=
  match g.len with
  | none => g.v1q
  | some 0 => g.v1q
  | some n => ((g.v0q : Int) + ((g.v1q : Int) - (g.v0q : Int)) * k / n).toNat
/-- The exact time of edge k from the segment's start, in 2^-32 tick: k = (v0 + v(k)) s / 2 (R132). -/
def constTime (g : Seg) (k : Nat) : Nat :=
  let v := rootOf g.v0q + rootOf (speedSqAt g k)
  if v = 0 then 0 else roundUp (2 * k * rateUnit * tickHz * subTick * rootScale) v
/-- Whether a jerk segment has covered k edges after a time of t, in 2^-32 tick: v0 t + a0 t2/2 + j t3/6 against k (R132). -/
def jerkCovers (g : Seg) (k t : Nat) : Bool :=
  let f : Int := (tickHz * subTick : Nat)
  let v0 : Int := rootOf g.v0q / rootScale
  decide (6 * (k : Int) * rateUnit * f * f * f ≤ 6 * v0 * f * f * t + 3 * g.a0 * f * t * t + g.jerk * t * t * t)
/-- The root of a jerk segment by halving an interval. -/
def jerkRoot (g : Seg) (k : Nat) : Nat → Nat → Nat → Nat
  | 0, _, hi => hi
  | fuel + 1, lo, hi =>
    let mid := (lo + hi) / 2
    if jerkCovers g k mid then jerkRoot g k fuel lo mid else jerkRoot g k fuel (mid + 1) hi
/-- The first of a rising row of times, each a quarter above the last, by which a jerk segment has covered k edges. -/
def jerkReach (g : Seg) (k : Nat) : Nat → Nat → Nat
  | 0, t => t
  | fuel + 1, t => if jerkCovers g k t then t else jerkReach g k fuel (t + t / 4)
/-- The exact time of edge k of a segment, in 2^-32 tick (R132). -/
def edgeTime (g : Seg) (k : Nat) : Nat :=
  match g.span with
  | some w => roundUp (k * w * subTick) (max 1 (g.len.getD 1))
  | none =>
  if g.jerk = 0 ∧ g.a0 = 0 then constTime g k
  else if k = 0 then 0
  else
    let hi := jerkReach g k 120 (2 ^ 40)
    jerkRoot g k 80 (hi - hi / 4) hi
/-- A tick from an exact time, halves up (R132). -/
def toTick (t : Nat) : Nat := (t + subTick / 2) / subTick
/-- How long a bounded segment lasts, in 2^-32 tick. -/
def segTime (g : Seg) : Nat :=
  match g.len with
  | none => 0
  | some n => edgeTime g n

/-! ## Plans -/

/-- One constant-acceleration segment. -/
def mkSeg (typ num : Nat) (len : Option Nat) (v0q v1q : Nat) (neg last creep : Bool) : Seg :=
  { typ, num, len, v0q, v1q, neg, last, creep }

/-- A trapezoid of N steps from a start speed to standstill (R136, R137): cruise speed v, acceleration a, deceleration d. A short move
from standstill whose share of accelerating steps rounds to 0, and so would have no peak speed, takes one (DESIGN CHOICE, log entry 92). -/
def trapFrom (v0q v a d n : Nat) (neg : Bool) : List Seg :=
  let na := if v0q = 0 then max 1 (roundUp (v * v) (2 * a * rateUnit)) else roundUp (v * v - v0q) (2 * a * rateUnit)
  let nd := max 1 (roundUp (v * v) (2 * d * rateUnit))
  if na + nd ≤ n then
    [mkSeg 1 0 (some na) v0q (v * v) neg false false, mkSeg 0 1 (some (n - na - nd)) (v * v) (v * v) neg false false,
      mkSeg 2 2 (some nd) (v * v) 0 neg true false]
  else
    let stop := roundUp v0q (2 * d * rateUnit)
    let na := min n (max (if v0q = 0 then 1 else 0) (roundUp ((n - min n stop) * d) (a + d)))
    let pk := v0q + 2 * a * na * rateUnit
    [mkSeg 1 0 (some na) v0q pk neg false false, mkSeg 0 1 (some 0) pk pk neg false false,
      mkSeg 2 2 (some (n - na)) pk 0 neg true false]

/-- Twice the steps of an S-shaped change between standstill and a speed in continuous time: v (2 tj + ta), with tj the jerk time and ta
the time at constant acceleration (R138). -/
def jerkHalves (v a j : Nat) : Nat :=
  let f := tickHz * subTick
  let t := if a * a ≤ v * j then v * f / a + a * f / j else 2 * isqrt (v * f / j * f)
  v * t / (rateUnit * f)
/-- The greatest value from lo to hi that passes a test which the greater ones fail; lo where none passes. -/
def bisect (p : Nat → Bool) : Nat → Nat → Nat → Nat
  | 0, lo, _ => lo
  | fuel + 1, lo, hi =>
    if hi ≤ lo then lo
    else
      let mid := (lo + hi + 1) / 2
      if p mid then bisect p fuel mid hi else bisect p fuel lo (mid - 1)
/-- An S-shaped change between standstill and a speed: whole steps of rising, constant and falling acceleration, and the peak
acceleration at which the three parts make exactly these steps (R138). -/
structure Ramp where
  n1 : Nat
  n2 : Nat
  n3 : Nat
  a : Nat
  deriving DecidableEq, Repr
/-- The squared speed after n1 steps of rising acceleration up to a, then n2 steps at a: 3 a n1 / 2 + 2 a n2 (R138). -/
def rampSq (n1 n2 a : Nat) : Nat := 3 * n1 * rateUnit * a / 2 + 2 * a * n2 * rateUnit
/-- How long the acceleration falls from a to 0 up to a speed: 2 (v - v2) / a, in 2^-32 tick (R138). -/
def rampTail (v n1 n2 a : Nat) : Nat := 2 * (v - isqrt (rampSq n1 n2 a)) * (tickHz * subTick) / a
/-- The way made meanwhile: v2 t + a t2 / 3, in microsteps times the rate unit (R138). -/
def rampWay (v n1 n2 a : Nat) : Nat :=
  let f := tickHz * subTick
  let t := rampTail v n1 n2 a
  isqrt (rampSq n1 n2 a) * t / f + a * t / f * t / (3 * f)
/-- The S-shaped change in whole steps (R138): the first and the last part are rounded up and the middle one down, and the peak
acceleration is lowered until the parts end on these steps at the given speed, so that neither the acceleration nor the jerk exceeds
its limit (DESIGN CHOICE, log entry 24). -/
def rampOf (v a j : Nat) : Ramp :=
  let a0 := max 1 (min a (isqrt (v * j)))
  let n1 := max 1 (ceilDiv (a0 * a0 * a0) (6 * j * j * rateUnit))
  let top := v - a0 * a0 / (2 * j)
  let n2 := (top * top - 3 * n1 * rateUnit * a0 / 2) / (2 * a0 * rateUnit)
  let a1 := bisect (fun x =>
    let v2 := isqrt (rampSq n1 n2 x)
    decide (v2 ≤ v ∧ x * x ≤ 2 * j * (v - v2))) 64 1 a0
  let n3 := max 1 (ceilDiv (rampWay v n1 n2 a1) rateUnit)
  { n1, n2, n3, a := bisect (fun x => decide (n3 * rateUnit ≤ rampWay v n1 n2 x)) 64 1 a1 }
/-- The steps of an S-shaped change. -/
def Ramp.steps (r : Ramp) : Nat := r.n1 + r.n2 + r.n3
/-- The jerk of the rising part, which reaches a after n1 steps: a / t1, with t1 the square root of 6 n1 / a (R138). -/
def Ramp.jerkUp (r : Ramp) : Nat :=
  let f := tickHz * subTick
  r.a * f / max 1 (isqrt (6 * r.n1 * rateUnit * f / r.a * f))
/-- The jerk of the falling part up to a speed. -/
def Ramp.jerkDown (r : Ramp) (v : Nat) : Nat := r.a * (tickHz * subTick) / max 1 (rampTail v r.n1 r.n2 r.a)
/-- The three segments of a rise to a speed: jerk up, constant acceleration, jerk down (R138). -/
def jerkRise (v : Nat) (r : Ramp) (neg : Bool) : List Seg :=
  let q1 := rampSq r.n1 0 r.a
  let q2 := rampSq r.n1 r.n2 r.a
  [{ typ := 3, num := 0, len := some r.n1, v0q := 0, v1q := q1, jerk := r.jerkUp, neg },
    { typ := 1, num := 1, len := some r.n2, v0q := q1, v1q := q2, neg },
    { typ := 4, num := 2, len := some r.n3, v0q := q2, v1q := v * v, a0 := r.a, jerk := -(r.jerkDown v : Int), neg }]
/-- The three segments of a fall from a speed, a rise run backwards (R138). -/
def jerkFall (v : Nat) (r : Ramp) (neg : Bool) : List Seg :=
  let q1 := rampSq r.n1 0 r.a
  let q2 := rampSq r.n1 r.n2 r.a
  [{ typ := 3, num := 4, len := some r.n3, v0q := v * v, v1q := q2, jerk := -(r.jerkDown v : Int), neg },
    { typ := 2, num := 5, len := some r.n2, v0q := q2, v1q := q1, neg },
    { typ := 4, num := 6, len := some r.n1, v0q := q1, v1q := 0, a0 := -(r.a : Int), jerk := r.jerkUp, neg, last := true }]
/-- The peak speed of a short S-curve: the highest, in half steps of its length, whose rise and fall fit (R138). -/
def jerkPeak (v a d j n : Nat) : Nat → Nat → Nat
  | 0, p => p
  | fuel + 1, p =>
    if (rampOf p a j).steps + (rampOf p d j).steps ≤ n then p
    else jerkPeak v a d j n fuel (bisect (fun x => decide (jerkHalves x a j + jerkHalves x d j ≤ 2 * n - (24 - fuel))) 64 1 v)
/-- An S-curve of fewer than four steps, which has no room for both ends of a rise and a fall: one step of rising and one of falling
speed, and between them at most one at the speed reached (DESIGN CHOICE, log entry 24). -/
def scurveTiny (v a d j n : Nat) (neg : Bool) : List Seg :=
  let top := max 1 (min (min a d) (2 * v * v / (3 * rateUnit)))
  let r : Ramp := { n1 := 1, n2 := 0, n3 := 0, a := bisect (fun x => decide (x * x * x ≤ 6 * j * j * rateUnit)) 64 1 top }
  let q := rampSq 1 0 r.a
  [{ typ := 3, num := 0, len := some 1, v0q := 0, v1q := q, jerk := r.jerkUp, neg },
    mkSeg 1 1 (some 0) q q neg false false, mkSeg 4 2 (some 0) q q neg false false, mkSeg 0 3 (some (n - 2)) q q neg false false,
    mkSeg 3 4 (some 0) q q neg false false, mkSeg 2 5 (some 0) q q neg false false,
    { typ := 4, num := 6, len := some (min 1 (n - 1)), v0q := q, v1q := 0, a0 := -(r.a : Int), jerk := r.jerkUp, neg, last := true }]
/-- An S-curve of n steps (R138). -/
def scurve (v a d j n : Nat) (neg : Bool) : List Seg :=
  if n < 4 then scurveTiny v a d j n neg
  else
    let v := jerkPeak v a d j n 24 v
    let r := rampOf v a j
    let f := rampOf v d j
    jerkRise v r neg ++ [mkSeg 0 3 (some (n - r.steps - f.steps)) (v * v) (v * v) neg false false] ++ jerkFall v f neg

/-- A plan of n steps in the profile's shape. -/
def plan (curved : Bool) (v a d j n : Nat) (neg : Bool) : List Seg :=
  if curved then scurve v a d j n neg else trapFrom 0 v a d n neg
/-- A plan that has no end of its own: rise to speed, then cruise (R149, R147). -/
def planOpen (v a : Nat) (neg creep : Bool) : List Seg :=
  let na := max 1 (roundUp (v * v) (2 * a * rateUnit))
  [mkSeg 1 0 (some na) 0 (v * v) neg false creep, mkSeg 0 1 none (v * v) (v * v) neg true creep]
/-- The same in the profile's shape (R138, R149). -/
def planRun (curved : Bool) (v a j : Nat) (neg : Bool) : List Seg :=
  if curved then jerkRise v (rampOf v a j) neg ++ [mkSeg 0 3 none (v * v) (v * v) neg true false] else planOpen v a neg false
/-- The types of the segments of a profile, in order (R136, R138, R140). -/
def planTypes (curved : Bool) : List Nat := if curved then [3, 1, 4, 0, 3, 2, 4] else [1, 0, 2]
/-- The steps of a stop from a squared speed: none where the speed is that of a last step, so that the loaded interval ends the train
(R142). -/
def stopSteps (vq d : Nat) : Nat := roundUp vq (2 * d * rateUnit)
/-- A stop ramp of some steps (R142). -/
def planStop (vq k : Nat) (neg : Bool) : List Seg := [mkSeg 2 0 (some k) vq 0 neg true false]
/-- A closing plan: to the lock zone boundary at CREEP, then at CREEP for the rest (R178). -/
def planClose (v a d creep nMain nCreep : Nat) (neg : Bool) : List Seg :=
  let c2 := creep * creep
  let na := max 1 (roundUp (v * v) (2 * a * rateUnit))
  let nd := roundUp (v * v - c2) (2 * d * rateUnit)
  let tail := mkSeg 0 3 (some nCreep) c2 c2 neg true true
  if v ≤ creep ∨ nMain = 0 then
    let nc := max 1 (roundUp c2 (2 * a * rateUnit))
    [mkSeg 1 0 (some (min nc (nMain + nCreep))) 0 c2 neg false true,
      mkSeg 0 1 (some (nMain + nCreep - nc)) c2 c2 neg true true]
  else if na + nd ≤ nMain then
    [mkSeg 1 0 (some na) 0 (v * v) neg false false, mkSeg 0 1 (some (nMain - na - nd)) (v * v) (v * v) neg false false,
      mkSeg 2 2 (some nd) (v * v) c2 neg false false, tail]
  else
    let na := min nMain (max 1 (roundUp (nMain * d + c2 / (2 * rateUnit)) (a + d)))
    let pk := 2 * a * na * rateUnit
    [mkSeg 1 0 (some na) 0 pk neg false false, mkSeg 2 2 (some (nMain - na)) pk (min pk c2) neg false false, tail]

/-! ## Limits of R129, R133, R140 -/

/-- A speed lies between 0.35 microsteps/s and the axis's highest rate (R129). -/
def speedOk (s : State) (n v : Nat) : Bool :=
  decide (7 * rateUnit ≤ 20 * v ∧ v ≤ 2000000 * rateUnit ∧ v * 2 * (s.axK n .STEPW).toNat ≤ 1000000000 * rateUnit)
/-- An acceleration fits its field (R140). -/
def accOk (a : Nat) : Bool := decide (0 < a ∧ a ≤ 16777215 * rateUnit)
/-- A jerk fits its field (R140). -/
def jerkOk (j : Nat) : Bool := decide (0 < j ∧ j ≤ 65535 * 16384 * rateUnit)
/-- The shortest interval, the tick equivalent of the highest rate (R133). -/
def minTicks (s : State) (n : Nat) : Nat := max 750 (ceilDiv (2 * (s.axK n .STEPW).toNat * 3) 2)
/-- The longest interval that the reload timer takes (R133). -/
def maxTicks : Nat := 4294967295
/-- The first and the last interval of a segment, the longest it has, fit the reload timer (R133). -/
def segFits (g : Seg) : Bool :=
  match g.len with
  | none => decide (toTick (edgeTime g 1) ≤ maxTicks)
  | some 0 => true
  | some n => decide (toTick (edgeTime g 1) ≤ maxTicks ∧ toTick (edgeTime g n) ≤ toTick (edgeTime g (n - 1)) + maxTicks)
/-- The key that a plan with a too long interval fails: SPEED for a cruise, JERK for a jerk segment, else ACC (R133; DEDUCED, log
entry 93). -/
def planKey (l : List Seg) : Option Key :=
  (l.find? fun g => !segFits g).map fun g => if g.typ = 0 then .SPEED else if g.typ = 3 ∨ g.typ = 4 then .JERK else .ACC

/-! ## The plan at an instant -/

/-- Steps a segment has made a time of t (2^-32 tick) after its start: by halving an interval over its edges. -/
def stepsBy (g : Seg) (t : Nat) : Nat → Nat → Nat → Nat
  | 0, lo, _ => lo
  | fuel + 1, lo, hi =>
    let mid := (lo + hi + 1) / 2
    if edgeTime g mid ≤ t then stepsBy g t fuel mid hi else stepsBy g t fuel lo (mid - 1)
/-- Steps a plan has made a time of t after its start. -/
def planSteps : List Seg → Nat → Nat
  | [], _ => 0
  | g :: l, t =>
    match g.len with
    | none => t * rootOf g.v1q / rootScale / (rateUnit * tickHz * subTick)
    | some n => if segTime g ≤ t then n + planSteps l (t - segTime g) else stepsBy g t 34 0 n
/-- How long a bounded plan lasts, in 2^-32 tick. -/
def planTime (l : List Seg) : Nat := (l.map segTime).sum
/-- Milliseconds a plan lasts, rounded up; at most the 30 s of Yarrow's timeline (R312). -/
def planMs (l : List Seg) : Nat := min 30000 (ceilDiv (planTime l) (1500000 * subTick))

end Sys2Proof.Machine
end

