-- ==== Sys2Proof/Machine/Budget.lean ====
section
/-! DEFINITION. Yarrow's arithmetic: the envelope of a move, the timeline of a bus, the tests of an admission, predicted
dissipation, and the speed factor (09 R303 to R318). -/

namespace Sys2Proof.Machine

open Sys2Proof

/-! ## Envelopes (R303, R304) -/

/-- The point of a learned profile that covers a position, in mA (05, "Teaching the commissioning profile"). -/
def profPoint (s : State) (n : Nat) (l : List Int) (pos : Int) : Int :=
  let openPos := stCounts s n .OPENPOS
  let i := if openPos ≤ 0 then 0 else (clampI 0 511 (pos * 512 / openPos)).toNat
  l.getD i 0
/-- The highest point of a profile. -/
def profMax (l : List Int) : Int := l.foldl max 0
/-- One mA in the unit in which learned points are kept. -/
def profUnit : Int := 1048576
/-- A commissioning profile as a learned one starts (R185). -/
def fineProfile (l : List Int) : List Int := l.map (· * profUnit)
/-- The learned profile of a direction, in mA. -/
def learned (t : Station) (opening : Bool) : List Int := (if opening then t.learnedOpen else t.learnedClose).map fun v => roundDiv v 1048576
def envk (s : State) (i : Int) : Nat := (roundDiv (i * s.uK .ENVK) 100).toNat
/-- The planned position of a move k ms from its first step, counts (R303). -/
def plannedAt (s : State) (n : Nat) (segs : List Seg) (start : Int) (neg : Bool) (k : Nat) : Int :=
  let d : Int := planSteps segs (k * 1500000 * subTick)
  stepsToCounts s n (if neg then start - d else start + d)
/-- The highest envelope of an axis in a direction, mA: ENVK times the highest point of that direction's profile on a leaf, else IENV; where
the direction is open, the higher of the two (R303; DEDUCED for a leaf that a follower or a coupling moves, log entry 133). -/
def envTop (s : State) (n : Nat) (opening : Option Bool) : Nat :=
  let prof := fun (o : Bool) => learned (s.stn n) o
  let top := fun (o : Bool) => if !isLeaf s n || (prof o).isEmpty then (s.axK n .IENV).toNat else envk s (profMax (prof o))
  match opening with
  | some o => top o
  | none => max (top true) (top false)
/-- The envelope of a planned move: one value in mA for each ms from its first step (R303). -/
def envelope (s : State) (n : Nat) (opening : Bool) (segs : List Seg) (start : Int) (neg : Bool) : List Nat :=
  let prof := learned (s.stn n) opening
  let ms := max 1 (planMs segs)
  if !isLeaf s n || prof.isEmpty || !(s.ax n).referenced then List.replicate ms (envTop s n (some opening))
  else (List.range ms).map fun k => envk s (profPoint s n prof (plannedAt s n segs start neg k))
/-- The envelope of a leaf's door move: a close is charged from its planned arrival at position 0 at ENVK x L(0) for LOCKT (R304). -/
def doorEnvelope (s : State) (n : Nat) (opening : Bool) (segs : List Seg) (start : Int) (neg : Bool) : List Nat :=
  let prof := learned (s.stn n) opening
  let env := envelope s n opening segs start neg
  if opening || prof.isEmpty || !(s.ax n).referenced then env
  else
    let arrival := ((List.range env.length).find? fun k => decide (plannedAt s n segs start neg k ≤ 0)).getD env.length
    env.take (max 1 arrival) ++ List.replicate (s.stK n .LOCKT / 1000).toNat (envk s (profPoint s n prof 0))
/-- The highest value of an envelope. -/
def envMax (l : List Nat) : Nat := l.foldl max 0

/-! ## The timeline of a bus (R307, R312) -/

/-- A feed that OUT has switched on is on: not tripped, and not held off by under-voltage (R228, R301). -/
def outFeedOn (s : State) (n : Nat) : Bool := (s.stn n).buf.fd && !(s.stn n).fd.tripped && !(s.stn n).fd.uvOff
/-- What a charge puts into the bin j ms from now, in mA: e(0) until the first step, the envelope from it, the measured
current past its end, a feed switched by OUT while it is on, and its highest value where it has no end and beyond 30 s (R301, R304, R307, R312). -/
def chargeAt (s : State) (c : Charge) (j : Nat) : Nat :=
  let at_ := fun (i : Nat) => if 30000 ≤ i ∧ i < c.env.length then envMax c.env else c.env.getD i 0
  if c.byOut then (if outFeedOn s c.station then envMax c.env else 0)
  else if c.open_ then envMax c.env
  else match c.started with
    | none => at_ j
    | some t0 =>
      let k := (s.now - t0) / 1000
      if c.env.length ≤ k then (s.stn c.station).feedMean else at_ (k + j)
/-- Unexplained current of a bus in the bin j ms from now (R307). -/
def unexplainedAt (s : State) (b j : Nat) : Nat :=
  let x := s.busOf b
  ((x.unexplained.filter fun e => decide (s.now + 1000 * j < e.2)).map (·.1)).sum
/-- The charge of a bus in the bin j ms from now (R312). -/
def busBin (s : State) (b j : Nat) : Nat :=
  ((s.yar.charges.filter (·.bus = b)).map fun c => chargeAt s c j).sum + unexplainedAt s b j
/-- The effective PEAK of a bus: the lower of the key and the policy value (R312, R319), in mA. -/
def effPeak (s : State) (b : Nat) : Nat :=
  let k := s.keyN (.bus b) .PEAK
  match (s.busOf b).peak with
  | none => k
  | some p => min k p
/-- The effective EMAX of a bus, in J; 0 is off (R313, R319). -/
def effEmax (s : State) (b : Nat) : Nat :=
  let k := s.keyN (.bus b) .EMAX
  match (s.busOf b).emax with
  | none => k
  | some p => if k = 0 then p else min k p
/-- The peak test: in every bin the candidate touches, bin plus envelope stays at or below the effective PEAK (R312). -/
def peakTest (s : State) (b : Nat) (env : List Nat) : Bool :=
  ((env.take 30000).zipIdx).all fun e => decide (busBin s b e.2 + e.1 ≤ effPeak s b)
/-- Envelopes that run together, added bin by bin. -/
def addEnv : List Nat → List Nat → List Nat
  | [], l => l
  | l, [] => l
  | a :: x, b :: y => (a + b) :: addEnv x y
/-- Predicted energy of an envelope on a station's feed, in uJ: mA x 1 ms x UNOM (R313). -/
def envEnergy (s : State) (n : Nat) (env : List Nat) : Nat := env.sum * s.keyN (.ch n .fd) .UNOM
/-- What is still to come of a charge's envelope. -/
def envLeft (s : State) (c : Charge) : List Nat :=
  match c.started with
  | none => c.env
  | some t0 => c.env.drop ((s.now - t0) / 1000)
/-- A bin after which the charges of a bus no longer change, at most the timeline's last. -/
def busSpan (s : State) (b : Nat) : Nat :=
  let l := (s.yar.charges.filter (·.bus = b)).map fun c => (envLeft s c).length + 1
  min 29999 (l.foldl max (if (s.busOf b).unexplained.isEmpty then 0 else 1000))
/-- What a charge adds to the bins it touches: one without an end touches all of them (R301, R312). -/
def testEnv (s : State) (c : Charge) : List Nat := if c.open_ then List.replicate (busSpan s c.bus + 1) (envMax c.env) else c.env
/-- The measured energy of the last EWIN, in nJ (R313). -/
def windowEnergy (s : State) (b : Nat) : Nat :=
  (((s.busOf b).energy.filter fun e => s.now ≤ e.1 + 1000 * s.keyN (.bus b) .EWIN).map (·.2)).sum
/-- What charges are predicted to draw still, in uJ: of moves, a feed that OUT has switched on being none (R313). A move without a planned end
counts one millisecond of its envelope, as the manual states no length for it (DESIGN CHOICE, log entry 134). -/
def energyLeft (s : State) (l : List Charge) : Nat :=
  ((l.filter fun c => !c.byOut).map fun c => envEnergy s c.station (envLeft s c)).sum
/-- The energy test of what a candidate charges on a bus (R313). -/
def energyTest (s : State) (b : Nat) (l : List Charge) : Bool :=
  let m := effEmax s b
  m = 0 || decide (windowEnergy s b + 1000 * (energyLeft s (s.yar.charges.filter (·.bus = b)) + energyLeft s l) ≤ 1000000000 * m)

/-! ## Groups (R321, R322) -/

/-- A bus's group, 0 for none. -/
def groupOf (s : State) (b : Nat) : Nat := s.keyN (.bus b) .GROUP
/-- This unit's reservations on a bus: the peaks of its reserved charges. -/
def ownReserved (s : State) (b : Nat) : Nat :=
  ((s.yar.charges.filter fun c => c.bus = b ∧ c.res.isSome).map fun c => envMax c.env).sum
/-- The base current of a bus: measured less the envelopes of its own reserved moves, never below 0 (R321). -/
def baseCurrent (s : State) (b : Nat) : Nat :=
  (s.busOf b).meas - ((s.yar.charges.filter fun c => c.bus = b ∧ c.res.isSome).map fun c => chargeAt s c 0).sum
/-- A member's base as it is charged: while it is silent, the highest it reported in its last 5 s (R325). -/
def memberBase (s : State) (m : Member) : Nat :=
  if (m.seenAt + s.keyN .unit .PEERTO) < s.now then
    ((m.hist.filter fun h => m.seenAt ≤ h.1 + 5000000).map (·.2)).foldl max m.base
  else m.base
/-- The other members' charges of a group: base currents and live reservations (R321). -/
def othersCharge (s : State) (g : Nat) : Nat :=
  ((s.yar.members.filter (·.2.group = g)).map fun m => memberBase s m.2).sum
    + ((s.yar.reserves.filter (·.group = g)).map (·.peak)).sum
/-- This unit's GPEAK for a bus (R319, R321). -/
def ownGpeak (s : State) (b : Nat) : Nat :=
  let k := s.keyN (.bus b) .GPEAK
  match (s.busOf b).gpeak with
  | none => k
  | some p => min k p
/-- This unit's buses in a group. -/
def ownBuses (s : State) (g : Nat) : List Nat := [0, 1, 2, 3].filter fun b => groupOf s b == g
/-- The lowest GPEAK seen in the group (R319, R321), in mA. -/
def groupPeak (s : State) (g : Nat) : Nat :=
  let own := (ownBuses s g).map (ownGpeak s)
  (s.yar.members.filter fun m => decide (m.2.group = g ∧ 0 < m.2.gpeak)).foldl (fun a m => min a m.2.gpeak) (own.foldl min (own.headD 0))
/-- The charge of the whole group: the other members', and this unit's base currents and reservations on its buses there (R321). -/
def groupCharge (s : State) (g : Nat) : Nat :=
  othersCharge s g + ((ownBuses s g).map fun b => baseCurrent s b + ownReserved s b).sum
/-- The group test of a peak (R321). -/
def groupTest (s : State) (g peak : Nat) : Bool := g = 0 || decide (groupCharge s g + peak ≤ groupPeak s g)

/-! ## Budget frames (R323, R326) -/

/-- The unit takes the frames of the system: it has a valid number, and its network engine runs (R357, R381). -/
def takesPart (s : State) : Bool := s.head.started && s.head.unit.isSome && !s.engDown .net
/-- The unit sends group traffic: in a number conflict of its own it stops (R357, R360, R381). -/
def groupUp (s : State) : Bool := takesPart s && !s.net.conflict
/-- A current in 0.1 A, saturating (R326). -/
def tenthA (mA : Nat) : List Byte := le 2 (min 65535 ((mA + 50) / 100))
/-- A budget frame of a grouped bus (R326). -/
def sendBudget (b type id cur cls : Nat) (time : Int) (dur : Nat) (s : State) : State :=
  if !groupUp s ∨ groupOf s b = 0 then s
  else
    let f := le 2 (s.head.unit.getD 65535) ++ le 1 (groupOf s b) ++ le 1 type ++ le 4 id ++ tenthA cur ++ le 1 cls ++ le 1 b ++ leI 8 time ++ le 4 dur
      ++ tenthA (ownGpeak s b) ++ le 2 s.yar.seq
    transmit .budget none (f ++ le 4 (crc32 f).toNat) (s.modYar fun y => { y with seq := (y.seq + 1) % 65536 })
/-- The station whose move a charge is of. -/
def Charge.of (c : Charge) : Nat := c.owner.getD c.station
/-- How long a reservation lasts: the envelope and 100 ms, at most 5 s, in ms (R323). -/
def resLength (c : Charge) : Nat := if c.open_ then 5000 else min 5000 (c.env.length + 100)
/-- The time that remains of a move's reservation, ms: what is left of its envelope and 100 ms, at most 5 s (R323; DEDUCED past the end of the
envelope, log entry 45). -/
def resLeft (s : State) (c : Charge) : Nat := if c.open_ then 5000 else min 5000 ((envLeft s c).length + 100)
/-- A charge on a grouped bus takes a reservation id, and its frame goes out: 2 tentative, with its start instant, or 3 firm (R322). -/
def reserve (type : Nat) (start : Int) (c : Charge) (s : State) : Charge × State :=
  if groupOf s c.bus = 0 then (c, s)
  else
    let id := s.yar.nextId
    let s := s.modYar fun y => { y with nextId := y.nextId + 1 }
    let d := resLength c
    ({ c with res := some (id, start + 1000000 * d) }, sendBudget c.bus type id (envMax c.env) c.cls start d s)
/-- Reservations whose charge has gone are released (R323). -/
def releaseGone (s0 s : State) : State :=
  if !s.head.started ∨ s0.engDown .bud ∨ s.engDown .bud then s
  else
    let kept := s.yar.charges.filterMap fun c => c.res.map (·.1)
    forEach s0.yar.charges (fun c s => match c.res with
      | some (id, _) => if id ∈ kept then s else sendBudget c.bus 4 id (envMax c.env) c.cls s.time 0 s
      | none => s) s

/-! ## Heat (R314, R315) -/

/-- The duty of a PWM period in 1/1,024 and whether it saturates (R230): PWR in per cent, UREF and u in mV. -/
def dutyOf (pwr uref u : Nat) : Nat × Bool :=
  let num := pwr * uref * uref
  let den := 100 * u * u
  if den ≤ num then (1024, true) else ((roundDiv (1024 * num : Nat) den).toNat, false)

/-- The number of a switch among the losses. -/
def lossIdx (n : Nat) : Sw → Nat
  | .la => 3 * n
  | .lb => 3 * n + 1
  | .fd => 3 * n + 2
/-- The loss of a switch in uW now, of a load channel without dimming (R314); while the lamp engine resets a lit channel is taken at its 5 A
limit (R15). -/
def lossNow (s : State) (n : Nat) (w : Sw) : Nat :=
  let x := s.sw n w
  if w = .fd then (s.stn n).feedMean * (s.stn n).feedMean / 50
  else if !x.isOn s.now then 0 else
  let i : Nat := if s.engDown .lamp then 50000 else x.i.toNat
  if s.keyIs (.ch n (swChan w)) .MODE "CC" then
    let i := if x.dim < 100 && !s.engDown .lamp then (s.swK n w .ISET).toNat else i
    (x.u - (s.swK n w .ULOAD).toNat) * i / 10
  else
    let duty := if s.keyIs (.ch n (swChan w)) .MODE "CP" then
        (if x.dim < 100 then (dutyOf (s.swK n w .PWR).toNat (s.swK n w .UREF).toNat x.u).1 else x.duty) else 1024
    i * i * duty / (1250 * 1024)
/-- The mean loss of a switch over the last second, a load channel's without dimming (R314). -/
def meanLoss (s : State) (n : Nat) (w : Sw) : Nat :=
  (((tget [] s.yar.losses (lossIdx n w)).filter fun e => decide (s.now < e.1 + 1000000)).map (·.2)).sum / 1000
/-- The loss of a load channel that Yarrow predicts with, without dimming (R15, R314). -/
def chanLoss (s : State) (n : Nat) (w : Sw) : Nat := if s.engDown .lamp then lossNow s n w else meanLoss s n w
/-- The loss of a load channel as it is counted at a fraction: f times its undimmed loss, its 5 A loss while the lamp engine is being reset
(R15, R314, R316). -/
def lossAt (s : State) (n : Nat) (w : Sw) (f : Nat) : Nat := if s.engDown .lamp then chanLoss s n w else chanLoss s n w * f / 100
/-- The loss of a load channel as it is counted now (R316). -/
def chanHeat (s : State) (n : Nat) (w : Sw) : Nat := lossAt s n w (s.sw n w).dim
/-- A station has an admitted move. -/
def hasCharge (s : State) (n : Nat) : Bool := s.yar.charges.any fun c => decide (c.station = n ∧ ¬ c.byOut)
/-- The dissipation of a move for its whole length: 0.020 ohm at its highest value, in uW (R314). -/
def moveHeat (env : List Nat) : Nat := envMax env * envMax env / 50
/-- The predicted dissipation of a slice, in uW (R314). -/
def sliceHeat (s : State) (p : Nat) : Nat :=
  6000000 + ((stationsOf p).map fun n =>
    chanHeat s n .la + chanHeat s n .lb
    + (if hasCharge s n then 0 else meanLoss s n .fd)).sum
  + ((s.yar.charges.filter fun c => decide (slotOf c.station = p ∧ ¬ c.byOut)).map fun c => moveHeat c.env).sum
/-- The head takes a slice to be in a position: it has been identified there, and has not been declared absent (R437, R438; DEDUCED, log
entry 135). -/
def sliceThere (s : State) (p : Nat) : Bool := (s.slc p).link || ((s.slc p).ident.isSome && !(s.slc p).absent)
/-- The predicted dissipation of the crate, in uW: of all its slices (R314). -/
def crateHeat (s : State) : Nat := 28400000 + ((allSlices.filter (sliceThere s)).map (sliceHeat s)).sum
/-- The cap of a slice, in uW: 48 W or a lower policy cap (R315, R319). -/
def sliceCap (s : State) (p : Nat) : Nat :=
  match tget none s.yar.sliceCap p with
  | none => 48000000
  | some c => min 48000000 (1000 * c)
/-- The cap of the crate, in uW (R315, R319). -/
def crateCap (s : State) : Nat :=
  let k := 1000 * s.keyN .unit .CRATECAP
  match s.yar.unitCap with
  | none => k
  | some c => min k (1000 * c)
/-- What charges dissipate on a slice, in uW (R314, R315). -/
def heatOn (p : Nat) (l : List Charge) : Nat := ((l.filter (slotOf ·.station = p)).map fun c => moveHeat c.env).sum
/-- The slice test of what a candidate charges there (R315). -/
def sliceTest (s : State) (p : Nat) (l : List Charge) : Bool := decide (sliceHeat s p + heatOn p l ≤ sliceCap s p)
/-- A channel is dimmable (R316). -/
def dimmable (s : State) (n : Nat) (w : Sw) : Bool :=
  decide (s.swK n w .DIMMIN < 100) && !proved s n w
    && (s.keyIs (.ch n (swChan w)) .MODE "CP" || s.keyIs (.ch n (swChan w)) .MODE "CC")

/-! ## Derating (R318) -/

/-- The speed factor in 1/10,000 from a temperature in 0.1 C (R318). -/
def factorD (s : State) (t : Int) : Nat :=
  let a := 10 * s.uK .TDSTART
  let b := 10 * s.uK .TDFULL
  let m := s.uK .DERATEMIN
  if t ≤ a then 10000
  else if b ≤ t then (100 * m).toNat
  else (10000 - (100 - m) * 100 * (t - a) / (b - a)).toNat
/-- A rate multiplied by the station's D, rounded down to the key's step of 1 um/s (R318). -/
def derated (s : State) (n um : Nat) : Nat := um * (s.stn n).derate / 10000

end Sys2Proof.Machine
end

