-- ==== Sys2Proof/Machine/Inspect.lean ====
section
/-! DEFINITION. The fields SHOW gives for each object (16 R507, R508), the images whose CRC-32 SHOW reports, and the 64 bytes of
a pool entry (02 R58). -/

namespace Sys2Proof.Machine

open Sys2Proof

/-! ## Decimal fields -/

/-- A number of tenths as text. -/
def tenths (v : Int) : String :=
  (if v < 0 then "-" else "") ++ dec (v.natAbs / 10) ++ "." ++ dec (v.natAbs % 10)
/-- A number of thousandths as text. -/
def thousandths (v : Nat) : String := dec (v / 1000) ++ "." ++ decPad 3 (v % 1000)
/-- A flag as 0 or 1. -/
def fBit (k : String) (b : Bool) : Fld := .kn k b.toNat ""
/-- A 16-bit word in hex. -/
def hex16 (v : Nat) : String := "0x" ++ String.ofList (hexDigits 4 (v % 65536))
/-- A serial number: 10 digits. -/
def serialText (v : Nat) : String := decPad 10 v
/-- A unit number, or dashes with no valid number (R357). -/
def unitText (u : Option Nat) : String :=
  match u with
  | none => "U----"
  | some n => unitName n

/-! ## Images (R345, R460) -/

/-- An object spelled as numbers. -/
def objNums : Obj → List Int
  | .st n => [1, n]
  | .ch n c => [2, n, chCode c]
  | .sl n => [3, n]
  | .bus n => [4, n]
  | .cam n => [5, n]
  | .camPt n i => [6, n, i]
  | .mark n => [7, n]
  | .plat n => [8, n]
  | .safeout n => [9, n]
  | .safein n => [10, n]
  | .line => [11]
  | .unit => [12]
  | _ => [0]
/-- A value spelled as numbers. -/
def valNums : KVal → List Int
  | .unset => [0]
  | .i n => [1, n]
  | .w t => 2 :: t.toList.map fun c => (c.toNat : Int)
  | .st n => [3, n]
  | .u n => [4, n]
/-- A map of keys spelled as numbers. -/
def mapNums (m : KMap) : List Int :=
  (m.map fun e => objNums e.1.1 ++ [(e.1.2.ctorIdx : Int)] ++ valNums e.2 ++ [-1]).flatten
/-- Commissioning profiles spelled as numbers. -/
def profNums (l : List (Nat × List Int × List Int)) : List Int :=
  (l.map fun e => [(e.1 : Int)] ++ e.2.1 ++ [-1] ++ e.2.2 ++ [-1]).flatten
/-- One list of numbers comes before another in the order of a dictionary. -/
def numsBefore : List Int → List Int → Bool
  | [], _ :: _ => true
  | a :: x, b :: y => decide (a < b) || (a == b && numsBefore x y)
  | _, [] => false
/-- An item put among others by its numbers. -/
def putByNums {α : Type} (f : α → List Int) (a : α) : List α → List α
  | [] => [a]
  | b :: t => if numsBefore (f b) (f a) then b :: putByNums f a t else a :: b :: t
/-- Items in the order of their numbers. -/
def byNums {α : Type} (f : α → List Int) (l : List α) : List α := l.foldl (fun t a => putByNums f a t) []
/-- The canonical image of a safety configuration as numbers: its keys other than at their defaults and its profiles, each in one order
whatever order they were set in, and SKEY (R345; the form of the image is the model's own, log entry 138). -/
def safetyImage (s : State) (m : KMap) (skey : Option Nat) (prof : List (Nat × List Int × List Int)) : List Int :=
  let keys := m.filter fun e => match keyRow s e.1.1 e.1.2 with
    | some r => decide (r.dflt ≠ e.2)
    | none => true
  mapNums (byNums (fun e => objNums e.1.1 ++ [(e.1.2.ctorIdx : Int)]) keys) ++ profNums (byNums (fun e => [(e.1 : Int)]) prof)
    ++ (match skey with | none => [-2] | some k => [-3, k])
/-- The CRC-32 of a safety configuration with its SKEY (R345). -/
def safetyCrc (s : State) (m : KMap) (skey : Option Nat) (prof : List (Nat × List Int × List Int)) : W32 :=
  Config.safetyImageCrc (safetyImage s m skey prof)
/-- The commissioning profiles of the candidate: those in force, with the newly learned ones in the place of their stations' (R184, R345). -/
def candProfs (s : State) : List (Nat × List Int × List Int) := s.cfg.candProfiles.foldl (fun l e => aset l e.1 e.2) s.cfg.profiles
/-- The content of a bank spelled as numbers (R460). -/
def bankNums (b : Bank) : List Int :=
  [((b.unit.getD 65535 : Nat) : Int), b.seq, b.at_, b.cause, b.session] ++ mapNums b.set.text
    ++ [match b.set.twin with | none => (-1 : Int) | some u => (u : Int)]
    ++ (match b.set.safety with | none => [(-2 : Int)] | some m => mapNums m) ++ profNums b.set.profiles
/-- The CRC-32 of a bank (R460). -/
def bankCrc (b : Bank) : W32 := Config.bankCrc (bankNums b)
/-- The CRC-32 of a set held in custody: of the bank content it came from (R386, R388). -/
def setCrc (seq : Nat) (b : BankSet) : W32 := bankCrc { valid := true, seq, set := b }
/-- The length of a set's text as its canonical lines: per key line an opaque length is not needed, a line has at most 255
characters and its image's length is Config's (R460); DESIGN CHOICE, log entry 30. -/
def setLen (b : BankSet) : Nat :=
  Config.safetyImageLen (mapNums b.text ++ [-1] ++ (match b.safety with | none => [] | some m => mapNums m) ++ profNums b.profiles)

/-! ## The loaded set (R384, R386, R462) -/

/-- The bank loaded. -/
def loadedBank (s : State) : Option Bank :=
  match s.store.loaded with
  | none => none
  | some false => some s.store.bankA
  | some true => some s.store.bankB
/-- The sequence number of the unit's own current set, 0 with none. -/
def ownSeq (s : State) : Nat := ((loadedBank s).map (·.seq)).getD 0
/-- The CRC-32 of the unit's own current set. -/
def ownCrc (s : State) : W32 :=
  match loadedBank s with
  | none => 0
  | some b => setCrc b.seq b.set
/-- The newest record number of the store (R457). -/
def newestRec (s : State) : Nat := ((s.jrn.store.map (·.2.num)).getLast?).getD 0

/-! ## Pool entries as bytes (R58, R140) -/

/-- The number of a kind. -/
def kindCode : Kind → Nat
  | .free => 0
  | .command => 1
  | .event => 2
  | .segment => 3
  | .system => 4
/-- The number of an entry's state. -/
def estCode : ESt → Nat
  | .free => 0
  | .executing => 1
  | .waiting => 2
  | .armed => 3
  | .held => 4
  | .rearm => 5
  | .segPending => 6
  | .segRunning => 7
/-- The number of a timebase in an entry. -/
def tbCode : TB → Nat
  | .ax n => n
  | .line => 0x40
  | .time => 0x41
  | .flash => 0x42
/-- Bytes 0 to 3 of an entry. -/
def entWord (e : PoolEntry) : Nat :=
  kindCode e.kind + 16 * estCode e.st + 256 * (e.session % 64) + 16384 * e.system.toNat + 32768 * e.suspect.toNat
    + 65536 * e.tb.toNat + 16777216 * (e.dir % 4) + 67108864 * (e.ifpast % 4) + 268435456 * e.rep.toNat
    + 536870912 * e.flagged.toNat + 1073741824 * e.periodic.toNat
/-- The 64 bytes of a pool entry (R58, R140). -/
def entBytes (e : PoolEntry) : List Byte :=
  le 4 (entWord e) ++ le 4 (e.tag % 134217728 + 2147483648 * e.tagged.toNat) ++ leI 8 e.trigger ++ le 8 e.aux
    ++ le 4 e.limit ++ le 4 e.firings ++ leI 8 e.lastFire ++ le 4 e.user.toNat ++ le 2 e.textLen ++ le 2 e.next
    ++ le 4 e.segLen.toNat ++ le 4 e.segEnd.toNat ++ le 3 e.segAcc ++ le 1 (e.segType % 16) ++ le 2 e.segJerk
    ++ le 1 e.segStation ++ le 1 (e.segNo % 16 + 16 * e.segLast.toNat + 32 * e.segNeg.toNat + 64 * e.segCreep.toNat)

/-! ## SHOW (R507) -/

/-- A leaf state's name (R174). -/
def leafName : Leaf → String
  | .closedLocked => "CLOSED_LOCKED"
  | .unlocking => "UNLOCKING"
  | .opening => "OPENING"
  | .opn => "OPEN"
  | .closing => "CLOSING"
  | .reversing => "REVERSING"
  | .held => "HELD"
  | .locking => "LOCKING"
  | .isolated => "ISOLATED"
  | .fault => "FAULT"
/-- A leaf state's code (R174, R450 byte 70). -/
def leafCode : Leaf → Nat
  | .closedLocked => 0
  | .unlocking => 1
  | .opening => 2
  | .opn => 3
  | .closing => 4
  | .reversing => 5
  | .held => 6
  | .locking => 7
  | .isolated => 8
  | .fault => 9
/-- A step state's name (R182). -/
def stepName : StepSt → String
  | .stowed => "STOWED"
  | .deploying => "DEPLOYING"
  | .deployed => "DEPLOYED"
  | .stowing => "STOWING"
/-- The state of a leaf's step (R182): STOWED while STOWSW is made, else how far its deployment or stowing has come; DEPLOYED where STOWSW
has opened without either, as R205 has it at start-up (DEDUCED, log entry 97). -/
def stepState (s : State) (n : Nat) : StepSt :=
  if inOn s n .STOWSW then .stowed
  else match (s.stn n).step with
    | .stowed => .deployed
    | x => x
/-- The self-test word of SHOW UNIT (R473). -/
def selfTest (s : State) : String := if s.head.memFail then "HEADMEM" else if s.head.bit31 then "RUN" else "OK"
/-- The state word of an axis (R507). -/
def axState (a : Axis) : String :=
  match a.motion with
  | none => if a.moving then "MOVING" else "IDLE"
  | some m =>
    match m.phase, m.kind with
    | .held, _ => "HELD"
    | .waiting, _ => "IDLE"
    | _, .follow => "FOLLOW"
    | _, .cam => "CAM"
    | _, _ => "MOVING"
/-- SHOW heat: round(100 h / 1.21) % (R218). -/
def heatPct (h : Nat) : Nat := roundUp (h * 100) 1210000000000
/-- A session state's word. -/
def sessWord : SessSt → String
  | .free => "FREE"
  | .opn => "OPEN"
  | .held => "HELD"
/-- A mode's word (R97). -/
def modeWord : Mode → String
  | .typed => "TYPED"
  | .gen => "GEN"
/-- LINE in mm: the sum in um divided by 1,000, toward minus infinity (R79). -/
def lineMm (s : State) : Int := s.line.um / 1000
/-- The state word of LINE (R82). -/
def lineWord : LineSt → String
  | .certain => "CERTAIN"
  | .provisional => "PROVISIONAL"
  | .lost => "LOST"
/-- The supervisor's state word (R407). -/
def supWord : SupSt → String
  | .awake => "AWAKE"
  | .pending => "PENDING"
  | .asleep => "ASLEEP"
  | .boot => "BOOT"
/-- The wake causes standing (R407, R507). -/
def wakeCauses (u : Super) : String :=
  let l := (if u.host then ["host"] else []) ++ (if u.remote then ["remote"] else []) ++ (if u.local_ then ["local"] else [])
  if l.isEmpty then "none" else String.intercalate "," l
/-- The state word of SHOW TWIN (R385). -/
def twinWord (s : State) : String :=
  if s.cfg.twin = none then "NONE"
  else if !s.twin.formed then "PENDING"
  else if s.twin.asleep then "ASLEEP"
  else if s.twin.silent then "SILENT"
  else "FORMED"
/-- A path's six counts (R364). -/
def pathText (x : PathSt) : String :=
  String.intercalate "/" [dec x.sent, dec x.received, dec x.fcs, dec x.wrong, dec x.dup, dec x.links]
/-- A bank's three fields of SHOW BANKS. -/
def bankText (b : Bank) : String :=
  dec b.seq ++ "/" ++ dec b.valid.toNat ++ "/" ++ hex32 (if b.valid then bankCrc b else 0)
/-- An IPv4 address as text. -/
def ipText (v : Nat) : String :=
  String.intercalate "." [dec (v / 16777216 % 256), dec (v / 65536 % 256), dec (v / 256 % 256), dec (v % 256)]
/-- The paths on which a peer is heard (R507). -/
def peerPaths (p : Peer) : String :=
  if p.pathA && p.pathB then "AB" else if p.pathA then "A" else if p.pathB then "B" else "-"
/-- The number of the first known peer at or above one (R508). -/
def peerFrom (s : State) (u : Nat) : Option Nat :=
  (s.net.peers.find? fun e => decide (u ≤ e.1) && e.2.known).map (·.1)
/-- A value, or the word for one that is not there. -/
def kvOr (k : String) (v : KVal) (dflt : String) : Fld := .kw k (match v with | .unset => dflt | x => kvalText x)
/-- The table a coupling uses. -/
def camUsed (s : State) (n : Nat) : Bool :=
  s.st.any fun e => match e.2.axis.motion with
    | some m => (match m.couple with | some c => decide (c.table = n) | none => false)
    | none => false
/-- The switch fields of SHOW (R238, R507). -/
def swFields (s : State) (n : Nat) (w : Sw) : List Fld :=
  let x := s.sw n w
  [.hex "flags" (swFlags s n w)] ++ (if w = .fd then [] else [.hex "lamp" (lampWord s n w)])
    ++ [.kw "i" (tenths x.i ++ "mA"), .kw "u" (tenths (x.u / 100 : Nat) ++ "V"), .kn "tj" x.die "C", .kn "heat" (heatPct (heatNow s n w)) "%"]
    ++ (if s.keyIs (.ch n (swChan w)) .MODE "CP" then [.kn "duty" (roundUp (x.duty * 100) 1024) "%"] else [])
/-- The input fields of SHOW (R287, R507). -/
def inFields (s : State) (n k : Nat) : List Fld :=
  let i := (s.stn n).inp k
  [.kw "state" (if i.on then "ON" else "OFF"), .kw "i" (tenths (i.i / 10 : Nat) ++ "mA"), .hex "flags" (inFlags s n k)]
    ++ (if k < 2 ∧ ¬ s.keyIs (.ch n (inChan k)) .CNT "OFF" then
        [.kn "count" i.count.toNat "", .kw "freq" (thousandths i.freq ++ "Hz"), fBit "zero" i.zero] else [])
/-- The output fields of SHOW (R287, R507). -/
def outFields (s : State) (n : Nat) (second : Bool) : List Fld :=
  let o := (s.stn n).outp second
  [.kw "state" (if outNow s n second then "ON" else "OFF"), .kn "i" o.i "mA", .hex "flags" (outFlags s n second)]
/-- The fields of a bus (R507). -/
def busFields (s : State) (b : Nat) : List Fld :=
  [.kw "peak" (thousandths (s.keyN (.bus b) .PEAK) ++ "A"), .kw "applied" (thousandths (effPeak s b) ++ "A"),
    .kw "charge" (thousandths (busBin s b 0) ++ "A"), .kw "meas" (thousandths (s.busOf b).meas ++ "A"),
    .kw "energy" (thousandths (windowEnergy s b / 1000000000) ++ "kJ"), .kn "group" (groupOf s b) "",
    .kw "base" (thousandths (baseCurrent s b) ++ "A")]
/-- The fields of a session (R507). -/
def sessFields (s : State) (n : Nat) : List Fld :=
  let x := s.ses n
  [.kn "session" n "", .kw "state" (sessWord x.st), .kw "mode" (modeWord x.mode), fBit "rcheck" x.rcheck, .kn "quota" x.quota "",
    .kn "slots" (heldSlots s n) "", fBit "auth" x.auth, fBit "suspect" x.suspect, .kn "idle" x.idle "s", .kn "hold" x.hold "s"]
/-- The SKEY of the committed configuration is set. -/
def skeySet (s : State) : Bool := s.camp.a.skey.isSome && s.camp.b.skey.isSome
/-- The candidate differs from the committed configuration (R345). -/
def candDiffers (s : State) : Bool :=
  decide (safetyImage s (candOf s) (s.cfg.candSkey <|> s.camp.a.skey) (candProfs s) ≠ safetyImage s s.cfg.safety s.camp.a.skey s.cfg.profiles)
/-- The fields of SAFETY (R345, R507). -/
def safetyFields (s : State) : List Fld :=
  [.hex "crc" (safetyCrc s s.cfg.safety s.camp.a.skey s.cfg.profiles)]
    ++ (if candDiffers s then [.hex "cand" (safetyCrc s (candOf s) (s.cfg.candSkey <|> s.camp.a.skey) (candProfs s))] else [])
    ++ [fBit "valid" (safetyValid s), .kw "skey" (if skeySet s then "set" else "unset")]
/-- The fields of TWIN (R385). -/
def twinFields (s : State) : List Fld :=
  let c := s.twin.custody
  let recs := match c with | none => [] | some x => x.records
  [.kw "twin" (match s.cfg.twin with | none => "NONE" | some u => unitName u), .kw "state" (twinWord s),
    .kn "held" (match c with | none => 0 | some x => x.seq) "",
    .hex "hcrc" (match c with | some { set := some b, seq := q, .. } => setCrc q b | _ => 0),
    .kn "jfirst" (match recs.head? with | none => 0 | some r => fieldAt r 0 8) "",
    .kn "jlast" (match recs.getLast? with | none => 0 | some r => fieldAt r 0 8) "", .kn "own" s.twin.hbHeld ""]
/-- The fields SHOW gives for an object (R507); they are also the state fields of a WATCH report (R106, R495). -/
def showFields (s : State) : Obj → List Fld
  | .unit => [.hex "status" (unitStatus s), .hex "cap" (capBits s), .kw "selftest" (selfTest s), .kw "unit" (unitText s.head.unit),
      .kw "serial" (serialText s.head.serial), .kn "up" ((s.now - s.head.startAt) / 1000000) "s"]
  | .units => [.hex "cap" (capBits s)]
  | .st n =>
    let t := s.stn n
    [.hex "status" (stStatus s n), .kw "leaf" (if isLeaf s n then leafName t.leaf else "NONE"),
      .kw "step" (if isLeaf s n && !s.keyIs (.st n) .STEP "NONE" then stepName (stepState s n) else "NONE")]
  | .ch n .ax =>
    let a := s.ax n
    [if a.referenced then .kn "pos" a.pos "" else .kw "pos" "unref", .kn "cmd" a.cmd "", .kw "state" (axState a),
      .kn "late" a.late "", .kn "skipped" a.skipped "", .kn "d" ((s.stn n).derate / 100) "%"]
  | .ch n .fd => swFields s n .fd
  | .ch n .la => swFields s n .la
  | .ch n .lb => swFields s n .lb
  | .ch n .in0 => inFields s n 0
  | .ch n .in1 => inFields s n 1
  | .ch n .in2 => inFields s n 2
  | .ch n .in3 => inFields s n 3
  | .ch n .out0 => outFields s n false
  | .ch n .out1 => outFields s n true
  | .sl p =>
    let x := s.slc p
    [.hex "status" (slStatus s p), .kw "type" (match typeCode s p with | 1 => "M8" | 2 => "L8" | _ => "NONE"),
      .kw "serial" (match x.ident with | none => "none" | some i => serialText i.1),
      .kw "ins" (hex16 (match x.ident with | none => 0 | some i => i.2.toNat))]
  | .bus b => busFields s b
  | .line => [.kw "state" (lineWord s.line.st), .kn "line" (lineMm s) "mm", .kw "tacho" (kvalText (s.key .line .TACHO))]
  | .time => [.kn "time" s.time "ns", .kn "offset" s.net.ptp.offset "ns",
      .kw "gm" (if s.net.ptp.self then unitText s.head.unit else match s.net.ptp.gm with
        | none => "none"
        | some g => match g.unit with | none => "ext" | some u => unitName u),
      .kw "path" (match s.net.ptp.path with | .a => "A" | .b => "B"), fBit "sync" s.net.ptp.bit7]
  | .safety => safetyFields s
  | .twin => twinFields s
  | .net => [.kw "A" (pathText s.net.a), .kw "B" (pathText s.net.b), .kn "single" (s.net.single + lateCopies s : Nat) ""]
  | .banks => [.kw "A" (bankText s.store.bankA), .kw "B" (bankText s.store.bankB),
      .kw "loaded" (match s.store.loaded with | none => "none" | some false => "A" | some true => "B")]
  | .cam n => [kvOr "n" (s.key (.cam n) .N) "unset", .kw "interp" (kvalText (s.key (.cam n) .INTERP)),
      fBit "wrap" (s.keyIs (.cam n) .WRAP "ON"), fBit "used" (camUsed s n)]
  | .camPt n i => [kvOr "x" (s.key (.camPt n i) .X) "unset", kvOr "y" (s.key (.camPt n i) .Y) "unset"]
  | .mark n => match s.key (.mark n) .POS with
    | .w _ => [.w "empty"]
    | v => [.kw "POS" (kvalText v ++ "mm")]
  | .plat n =>
    let a := aget s.cfg.plain (.plat n, .START)
    let b := aget s.cfg.plain (.plat n, .END)
    let c := aget s.cfg.plain (.plat n, .SIDE)
    if a.isNone && b.isNone && c.isNone then [.w "empty"]
    else (a.toList.map fun v => Fld.kw "START" (kvalText v ++ "mm")) ++ (b.toList.map fun v => Fld.kw "END" (kvalText v ++ "mm"))
      ++ (c.toList.map fun v => Fld.kw "SIDE" (kvalText v))
  | .supervisor => [.kw "state" (supWord s.sup.st), fBit "latch" s.sup.latch, .kw "causes" (wakeCauses s.sup),
      .kw "vin" (tenths (s.sup.vin / 100 : Nat) ++ "V"), .kw "head" (if s.head.powered then "on" else "off"),
      .kw "slices" ("0x" ++ String.ofList (hexDigits 2 ((allSlices.map fun p => (s.slc p).powered.toNat * 2 ^ p).sum)))]
  | .unitNo u =>
    let p := s.peer u
    [.kw "ip" (ipText p.ip), .kw "serial" (serialText p.serial), .kw "paths" (peerPaths p), fBit "silent" p.silent]
  | _ => []

end Sys2Proof.Machine
end

