-- ==== Sys2Proof/Machine/Events0.lean ====
section
/-! DEFINITION. Timebases and the events keyed to them: values, uncertainty, crossings and their order, hold and
re-evaluation, jumps (02 R44 to R75). The verbs and the firing stand in Events.lean. -/

namespace Sys2Proof.Machine

open Sys2Proof

/-! ## Values (R44, R47, R48) -/

/-- TIME on its 1 us grid, in ns (R47). -/
def timeGrid (s : State) : Int := s.time / 1000 * 1000
/-- A delay keyed to TIME has ended: its trigger value lies at or behind the 1 us grid (R42, R47). -/
def dueTime (d : Option Int) (s : State) : Bool := d.any fun t => decide (t ≤ timeGrid s)
/-- The trigger value of a delay in us from now (R42, R46). -/
def afterUs (us : Nat) (s : State) : Int := s.time + 1000 * us
/-- The value of a timebase as events see it. -/
def tbValue (s : State) : TB → Int
  | .ax n => (s.ax n).pos
  | .line => lineMm s
  | .time => timeGrid s
  | .flash => s.flash
/-- A timebase is uncertain (R73). -/
def tbUncertain (s : State) : TB → Bool
  | .ax n => !(s.ax n).referenced
  | .line => lineUncertain s || s.engDown .io
  | _ => false

/-! ## Crossings (R63, R69) -/

/-- The crossing test of R63 for a direction: 1 UP, 2 DOWN, 3 ANY. -/
def crosses (dir : Nat) (b0 b1 v : Int) : Bool :=
  let up := decide (b0 < v ∧ v ≤ b1)
  let down := decide (v < b0 ∧ b1 ≤ v)
  (decide (dir = 1 ∨ dir = 3) && up) || (decide (dir = 2 ∨ dir = 3) && down)
/-- The timebase stands at or beyond a trigger value in the event's direction; ANY only exactly at it (R62). -/
def beyond (dir : Nat) (b v : Int) : Bool :=
  match dir with
  | 1 => decide (v ≤ b)
  | 2 => decide (b ≤ v)
  | _ => decide (b = v)
/-- An entry is an armed event of a timebase: a session's, or one of the door cycle's own (R69, R172). -/
def armedOn (tb : TB) (e : PoolEntry) : Bool :=
  decide ((e.kind = .event ∨ e.kind = .system) ∧ e.st = .armed ∧ e.tb.toNat = tbCode tb)
/-- A trigger value's place in a jump: TIME's in ns, FLASH's too, so that the events of one PTP step stand in one order (R69 step 2). -/
def jumpPlace (tb : TB) (rising : Bool) (v : Int) : Int :=
  let v := if tb = .flash then 1000 * v else v
  if rising then v else -v
/-- One crossing fires before another: by instant, then within one jump by trigger value in its direction, then by timebase, then by slot
(R69). -/
def Crossing.before (x y : Crossing) : Bool :=
  let tie := decide (tbCode x.tb < tbCode y.tb ∨ (tbCode x.tb = tbCode y.tb ∧ x.slot < y.slot))
  decide (x.at_ < y.at_) || (decide (x.at_ = y.at_) && match x.place, y.place with
    | some a, some b => decide (a < b) || (decide (a = b) && tie)
    | _, _ => tie)
/-- A crossing takes its place in the row of those to hand on (R69). -/
def putCrossing (x : Crossing) : List Crossing → List Crossing
  | [] => [x]
  | y :: l => if x.before y then x :: y :: l else y :: putCrossing x l
/-- A crossing found now joins the row. -/
def joinRow (x : Crossing) (s : State) : State := { s with crossings := putCrossing x s.crossings }
/-- A timebase has gone from b0 to b1: the events it has crossed join the row of crossings to hand on, in the order of R69. -/
def crossed (tb : TB) (b0 b1 : Int) (jump late : Bool) (s : State) : State :=
  if tbUncertain s tb then s else
  let l := s.pool.filter fun e => armedOn tb e.2 && crosses e.2.dir b0 b1 e.2.trigger
  let s := s.worked .evt l.length
  forEach l (fun e s => joinRow
    { at_ := s.now, place := if jump || late then some (jumpPlace tb (decide (b0 < b1)) e.2.trigger) else none, slot := e.1, tb, value := b1, late, jump } s) s

/-- A signed 32-bit timebase moves by continuous travel to a value that may lie past its width; at its wrap no event fires (R72). -/
def travelled (tb : TB) (b0 b1 : Int) (s : State) : State :=
  if fits32 b1 then crossed tb b0 b1 false false s else s

/-! ## Hold and re-evaluation (R74, R75) -/

/-- The crossings found for a slot's earlier event are none of its new one's (R63). -/
def dropRow (slot : Nat) (s : State) : State := { s with crossings := s.crossings.filter (·.slot ≠ slot) }
/-- The operation whose event stands in a slot. -/
def opAt (s : State) (slot : Nat) : Option Op := s.ops.find? (·.slot = some slot)
/-- Every event of a timebase that has become uncertain is held, and reports it (R74). -/
def holdEvents (tb : TB) (s : State) : State :=
  let l := s.pool.filter fun e => decide ((e.2.kind = .event ∨ e.2.kind = .system) ∧ (e.2.st = .armed ∨ e.2.st = .rearm)
    ∧ e.2.tb.toNat = tbCode tb)
  let s := { s with crossings := s.crossings.filter fun c => c.tb ≠ tb }
  forEach l (fun e s =>
    let s := s.modEnt e.1 fun x => { x with st := .held }
    match opAt s e.1 with
    | none => s
    | some o => say o.ctx (colR "held" [.tb tb]) s) s
/-- A held event is judged against the timebase's value as if newly armed (R75, R62): it fires late, stays armed, or has
missed. -/
def judge (slot : Nat) (tb : TB) (s : State) : State :=
  let e := s.ent slot
  let arm := fun (s : State) => s.modEnt slot fun x => { x with st := .armed }
  let report := fun (s : State) => match opAt s slot with
    | none => s
    | some o => say o.ctx (colR "armed" [.tb tb]) s
  if e.kind = .system then arm s
  else if beyond e.dir (tbValue s tb) e.trigger then
    match e.ifpast with
    | 0 =>
      let s := arm s
      joinRow { at_ := s.now, slot, tb, value := tbValue s tb, late := true } s
    | 1 => report (arm s)
    | _ => match opAt s slot with
      | none => s.modEnt slot PoolEntry.released
      | some o => finOp o.id (eqR "missed") s
  else report (arm s)
/-- Every held event of a timebase that has become certain is re-evaluated, in slot order (R75). -/
def reEvaluate (tb : TB) (s : State) : State :=
  let l := s.pool.filter fun e => decide ((e.2.kind = .event ∨ e.2.kind = .system) ∧ e.2.st = .held ∧ e.2.tb.toNat = tbCode tb)
  forEach l (fun e s => judge e.1 tb s) s

/-! ## Axis reference and loss of it (R71, R73) -/

/-- An axis becomes unreferenced, and the events on its timebase are held (R73, R74). -/
def unreference (n : Nat) (s : State) : State :=
  if (s.ax n).referenced then
    holdEvents (.ax n) (s.modAx n fun a => { a with referenced := false, idx := none })
  else s.modAx n fun a => { a with idx := none }
/-- A reference set: the position becomes a value, no event fires, and held events are re-evaluated (R71, R147, R179). The
commanded position follows it, so that both stand together (R126). -/
def referenceSet (n : Nat) (pos : Int) (idx : Option Int) (s : State) : State :=
  reEvaluate (.ax n) (s.modAx n fun a => { a with
    pos, cmd := countsToSteps s n pos, referenced := true, idx, sinceIdx := 0
    fault := none, ferrSince := none })

/-! ## LINE (R82, R83) -/

/-- LINE takes a state; on leaving CERTAIN its events are held, on reaching it they are re-evaluated (R74, R75, R83). -/
def setLineState (x : LineSt) (s : State) : State :=
  let was := s.line.st
  let s := s.modLine fun l => { l with st := x }
  if was = .certain ∧ x ≠ .certain then holdEvents .line s
  else if was ≠ .certain ∧ x = .certain then reEvaluate .line s
  else s
/-- LINE takes a value in mm. -/
def setLineMm (v : Int) (s : State) : State := s.modLine fun l => { l with um := 1000 * v, half := 0 }

/-! ## TIME (R71, R371, R373) -/

/-- TIME has moved on continuously: TIME, then FLASH, cross their events (R69 step 3). -/
def timeMoved (t0 f0 : Int) (s : State) : State :=
  crossed .flash f0 s.flash false false (crossed .time t0 (timeGrid s) false false s)
/-- TIME is stepped: forward, the events in the skipped span fire late; back, none fires (R71). -/
def stepTime (ns : Int) (s : State) : State :=
  let t0 := timeGrid s
  let f0 := s.flash
  let s := { s with clk := { s.clk with timeFs := s.clk.timeFs + 1000000 * ns } }
  if 0 < ns then crossed .flash f0 s.flash false true (crossed .time t0 (timeGrid s) false true s) else s

/-! ## System slots of a leaf (R172) -/

/-- The entry of a system event: bytes 0 to 39 and 44 to 47 (R59). -/
def sysEntry (st : ESt) (tb dir : Nat) (ifpast : Nat) (trigger : Int) (e : PoolEntry) : PoolEntry :=
  { e with
    kind := .system, st, session := 0, system := true, suspect := false, tb := BitVec.ofNat 8 tb, dir, ifpast, rep := false, flagged := false
    periodic := false, tag := 0, tagged := false, trigger, aux := 0, limit := 0, firings := 0, lastFire := 0, textLen := 0, next := 0xFFFF }
/-- A system event of the door cycle is armed in a leaf's slot (R59, R172). -/
def sysArm (n off : Nat) (tb : TB) (dir : Nat) (trigger : Int) (s : State) : State :=
  (dropRow (16 * n + off) s).modEnt (16 * n + off) (sysEntry (if tbUncertain s tb then .held else .armed) (tbCode tb) dir 1 trigger)
/-- A leaf's slot has no event any more. -/
def sysDrop (n off : Nat) (s : State) : State :=
  if (s.ent (16 * n + off)).kind = .free then s else s.modEnt (16 * n + off) PoolEntry.released
/-- A leaf's slot is held by its cycle or its step's coupling, which no trigger ends (R59, R172). -/
def sysHold (n off tb : Nat) (s : State) : State := s.modEnt (16 * n + off) (sysEntry .executing tb 0 0 0)
/-- Slot 0 of a leaf is held while a cycle runs (R172). -/
def sysControl (n : Nat) (s : State) : State := sysHold n 0 0xFF s

end Sys2Proof.Machine
end

