-- ==== Sys2Proof/Machine/Speedwell.lean ====
section
/-! DEFINITION. Speedwell's shared operations: filling the run-ahead buffer, loading, starting, re-planning and stopping a
motion, and the segment slots it holds (04 R127, R132 to R143, R150 to R154). -/

namespace Sys2Proof.Machine

open Sys2Proof

/-! ## The run-ahead buffer (R127, R132, R134, R141) -/

/-- Ticks of a time in ns, rounded up. -/
def nsTicks (ns : Nat) : Nat := ceilDiv (3 * ns) 2
/-- Ticks between the last edge in one direction and the first in the other: the step pulse's high time, then DIRS (R134). -/
def turnTicks (s : State) (n : Nat) : Nat := nsTicks ((s.axK n .STEPW).toNat + (s.axK n .DIRS).toNat)

/-- The next interval of a motion, and the motion after it (R132), within the bounds of R133: an exhausted or empty segment gives way to
the next, which starts at the exact time of its last edge; of a train that the field side has cut there is none (R127). `neg` is the direction of the edge before. -/
def nextIvl (minT turnT : Nat) (neg : Bool) : Nat → Motion → Option (Ivl × Motion)
  | 0, _ => none
  | fuel + 1, m =>
    if m.cut then none else
    match m.segs with
    | [] => none
    | g :: rest =>
      if g.len = some m.k then
        nextIvl minT turnT neg fuel { m with segs := rest, k := 0, t0 := m.t0 + segTime g }
      else
        let k := m.k + 1
        let low := m.lastEdge + (if g.neg = neg then minT else max minT turnT)
        let e := min (m.lastEdge + maxTicks) (max low (toTick (m.t0 + edgeTime g k)))
        some ({ edge := e, ticks := e - m.lastEdge, neg := g.neg, starts := if k = 1 then some g.num else none },
          { m with k, lastEdge := e })
/-- The step output is high: a pulse lasts STEPW from its edge (R134). -/
def stepOut (s : State) (n : Nat) : Bool := decide (s.tick < (s.ax n).pulse)
/-- The direction output's level for a direction: high for positive, inverted by SDIR=INV (R125). -/
def dirLevel (s : State) (n : Nat) (neg : Bool) : Bool := neg == s.keyIs (.ch n .ax) .SDIR "INV"
/-- The direction output: at the falling end of a step it takes the level of the next one (R134). -/
def dirOut (s : State) (n : Nat) : Bool :=
  if stepOut s n then (s.ax n).dirHigh
  else match (s.ax n).loaded with
    | some i => dirLevel s n i.neg
    | none => (s.ax n).dirHigh
/-- A motion has no edge left to compute. -/
def planDone (m : Motion) : Bool := (nextIvl 0 0 false 16 m).isNone
/-- The direction of the last interval computed, or the direction output's level. -/
def lastDir (a : Axis) : Bool :=
  match a.ahead.getLast? with
  | some i => i.neg
  | none => match a.loaded with
    | some i => i.neg
    | none => a.dirNeg
/-- Fills the run-ahead buffer up to 64 intervals, and says how many were computed (R141). -/
def fillAx (minT turnT : Nat) : Nat → Nat → Axis → Nat × Axis
  | 0, c, a => (c, a)
  | fuel + 1, c, a =>
    if 64 ≤ a.ahead.length then (c, a) else
    match a.motion with
    | none => (c, a)
    | some m =>
      match nextIvl minT turnT (lastDir a) 16 m with
      | none => (c, a)
      | some (i, m) => fillAx minT turnT fuel (c + 1) { a with ahead := a.ahead ++ [i], motion := some m }
/-- Speedwell computes the intervals an axis lacks; each is a unit of its work (R141, R414). -/
def refill (n : Nat) (s : State) : State :=
  let r := fillAx (minTicks s n) (turnTicks s n) 64 0 (s.ax n)
  (s.modAx n fun _ => r.2).worked .mot r.1

/-- The planned step rates of all axes sum to more than 32,000,000 a second (R135). -/
def overloaded (s : State) : Bool :=
  decide (32000000 < (s.st.map fun e => match e.2.axis.loaded with
    | none => 0
    | some i => tickHz / max 1 i.ticks).sum)

/-! ## Segment entries (R58, R59, R139, R140) -/

/-- Segment data written into its slot: each value rounded to the nearest unit of its field, halves up; an unbounded or longer
length reads 0xFFFF_FFFF (R59, R140). A jerk segment's acceleration is the one it starts with (DESIGN CHOICE, log entry 94). The Creep bit,
which the table only names, is that of a segment planned to run at CREEP: of a search, of a close in its lock zone and of a close on an
unreferenced leaf, not of a JOG whose speed is held to CREEP (DESIGN CHOICE, log entry 118). -/
def segEntry (n : Nat) (g : Seg) (next : Nat) (e : PoolEntry) : PoolEntry :=
  let len := match g.len with
    | none => 4294967295
    | some l => min l 4294967295
  let acc := if g.jerk ≠ 0 then roundUp g.a0.natAbs rateUnit
    else if g.typ = 0 ∨ len = 0 then 0
    else roundUp ((g.v1q : Int) - g.v0q).natAbs (2 * len * rateUnit * rateUnit)
  { e with
    next, textLen := 0, segLen := BitVec.ofNat 32 len, segEnd := BitVec.ofNat 32 (roundUp (rootOf g.v1q * 256) (rootScale * rateUnit))
    segAcc := acc, segType := g.typ, segJerk := roundUp g.jerk.natAbs (rateUnit * 16384), segStation := n, segNo := g.num
    segLast := g.last, segNeg := g.neg, segCreep := g.creep }
/-- The segments that slots of these types hold: those of a plan by their numbers, the rest empty (R139, R140). A follower's and a
coupling's one segment is unbounded (R59). -/
def slotSegs (types : List Nat) (segs : List Seg) : List Seg :=
  (types.zip (List.range types.length)).map fun t =>
    (segs.find? (·.num = t.2)).getD (mkSeg t.1 t.2 (if t.1 = 5 ∨ t.1 = 6 then none else some 0) 0 0 false (decide (t.2 + 1 = types.length)) false)
/-- Segment data goes into a chain of slots (R58, R59, R140). -/
def writeSegs (n : Nat) (slots : List Nat) (l : List Seg) (s : State) : State :=
  forEach ((slots.zip l).zip (List.range slots.length)) (fun e s => s.modEnt e.1.1 (segEntry n e.1.2 (slots.getD (e.2 + 1) 0xFFFF))) s
/-- The event in whose slots an operation's embedded command runs (R52). -/
def hostEvent (s : State) (o : Op) : Option Op := o.within.bind fun w => s.opOf w.1
/-- A motion command takes its segment slots in ascending order, each pointing to the next; one embedded in an event uses those its
event reserved (R50, R51, R52, R58, R140). -/
def takeSegs (id n : Nat) (types : List Nat) (segs : List Seg) (s : State) : State :=
  match s.opOf id with
  | none => s
  | some o =>
    match o.slot with
    | none => match hostEvent s o with
      | none => s
      | some p => writeSegs n p.segs (slotSegs types segs) s
    | some c =>
      let r := takeSlots .segment .segPending (portSession o.port) o.tag types.length s
      let s := r.2.modOp id fun o => { o with segs := o.segs ++ r.1 }
      let s := match r.1 with
        | f :: _ => s.modEnt c fun e => { e with next := f }
        | [] => s
      writeSegs n r.1 (slotSegs types segs) s
/-- The plan of a motion whose slots are taken already is written into those not yet released (R140, R148). -/
def fillSegs (n : Nat) (types : List Nat) (segs : List Seg) (s : State) : State :=
  match ((s.ax n).motion.bind (·.op)).bind s.opOf with
  | none => s
  | some o =>
    let l := if o.slot.isSome then o.segs else ((hostEvent s o).map (·.segs)).getD []
    writeSegs n l ((slotSegs types segs).drop (types.length - l.length)) s
/-- The leaf's motion segments stand in its slots 8 to 14 (R172, R140). -/
def leafSegs (n : Nat) (segs : List Seg) (s : State) : State :=
  forEach (List.range 7) (fun i s =>
    match segs[i]? with
    | none => sysDrop n (8 + i) s
    | some g => s.modEnt (16 * n + 8 + i) fun e => segEntry n g (if g.last then 0xFFFF else 16 * n + 9 + i) { e with
        kind := .segment, st := .segPending, session := 0, system := true, suspect := false, tb := 0xFF, dir := 0, ifpast := 0, rep := false
        flagged := false, periodic := false, tag := 0, tagged := false, textLen := 0 }) s
/-- A leaf's segment of a number starts: its slot shows it running, and those before it have ended (R58). -/
def leafSegStarts (n num : Nat) (s : State) : State :=
  forEach (List.range 7) (fun i s =>
    let k := 16 * n + 8 + i
    if (s.ent k).kind ≠ .segment ∨ num < (s.ent k).segNo then s
    else if (s.ent k).segNo = num then s.modEnt k fun e => { e with st := .segRunning }
    else sysDrop n (8 + i) s) s

/-- A segment starts: the slots of a session's command that it and those before it held are released (R51, R139); the search of a MOVE
runs within the command's own slot (R148). -/
def releaseStarted (n : Nat) (starts : Option Nat) (s : State) : State :=
  match starts, (s.ax n).motion with
  | some num, some m =>
    match m.op.bind s.opOf with
    | none => if isLeaf s n then leafSegStarts n num s else s
    | some o =>
      if m.phase ≠ .running then s
      else
        let total := if m.follow.isSome ∨ m.couple.isSome then 1 else (planTypes m.scurve).length
        let keep := total - num - 1
        let gone := o.segs.take (o.segs.length - keep)
        releaseSlots gone (s.modOp o.id fun o => { o with segs := o.segs.drop (o.segs.length - keep) })
  | _, _ => s

/-- Whether the push rule lets an interval be loaded: in LOCKING the commanded position stays no more than FERR/2 counts ahead of
the position in the closing direction (R178). -/
def pushOk (s : State) (n : Nat) (i : Ivl) : Bool :=
  let t := s.stn n
  if t.leaf = .locking ∧ i.neg = true then
    decide (countsToSteps s n (t.axis.pos - s.axK n .FERR / 2) ≤ t.axis.cmd - 1)
  else true

/-- What waits on an axis, and what is still to be computed, comes later by some ticks. -/
def delayAhead (d : Nat) (a : Axis) : Axis :=
  { a with
    ahead := a.ahead.map fun i => { i with edge := i.edge + d }
    motion := a.motion.map fun m => { m with t0 := m.t0 + d * subTick, lastEdge := m.lastEdge + d } }
/-- The next interval goes into the reload timer when nothing is loaded (R141). While the planned rates are too high in sum, it
may be stretched by a time the manual does not fix; the edges after it keep their distance, as no interval is shortened (R135). -/
def loadNext (n : Nat) (s : State) : State :=
  let a := s.ax n
  if a.loaded.isSome then s else
  match a.ahead with
  | [] => s
  | i :: rest =>
    if !pushOk s n i then s else
    let busy := overloaded s
    let dr := if busy then s.draw else (0, s)
    let x := if busy then (Config.freeInt dr.1).toNat else 0
    let s := dr.2.modAx n fun a => { delayAhead x { a with ahead := rest } with
      loaded := some { i with edge := i.edge + x, ticks := i.ticks + x }
      late := if 0 < x then a.late + 1 else a.late, lateNow := if 0 < x then a.lateNow + 1 else a.lateNow }
    refill n (releaseStarted n i.starts s)

/-- The step timebase's tick from which a new course runs: the loaded edge, or now (R142). -/
def baseTick (s : State) (n : Nat) : Nat :=
  match (s.ax n).loaded with
  | some i => i.edge
  | none => s.tick
/-- The commanded position once the loaded interval has completed (R142). -/
def cmdAt (a : Axis) : Int :=
  match a.loaded with
  | some i => if i.neg then a.cmd - 1 else a.cmd + 1
  | none => a.cmd
/-- The squared speed of the loaded interval: f divided by it (R142). -/
def loadedSpeedSq (a : Axis) : Nat :=
  match a.loaded with
  | none => 0
  | some i => (tickHz * rateUnit / max 1 i.ticks) * (tickHz * rateUnit / max 1 i.ticks)

/-- A course is set: the flush discards what waits, and the segments run from the loaded edge or from now (R142). -/
def setCourse (n : Nat) (segs : List Seg) (f : Motion → Motion) (s : State) : State :=
  let base := baseTick s n
  let s := s.modAx n fun a => { a with
    ahead := [], moving := true
    motion := a.motion.map fun m => f { m with segs, k := 0, t0 := base * subTick, lastEdge := base } }
  let s := if isLeaf s n ∧ (s.ax n).motion.any (·.op.isNone) then leafSegs n segs s else s
  loadNext n (refill n s)

/-! ## Rates of a motion -/

/-- An axis key's rate in microstep rates (R129). -/
def axRate (s : State) (n : Nat) (k : Key) : Nat := convRate s n (s.axK n k).toNat
/-- A rate of a motion times its D, rounded down to 1 um/s (R318). -/
def withD (s : State) (n d v : Nat) : Nat :=
  let u := convRate s n 1
  if d = 10000 ∨ u = 0 then v else convRate s n (v / u * d / 10000)
/-- The plan of a motion over a distance in microsteps, from standstill (R136 to R138, R318). -/
def planFor (s : State) (n : Nat) (m : Motion) (dist : Int) : List Seg :=
  if dist = 0 then [] else
  plan m.scurve (withD s n m.d m.speed) (withD s n m.d m.acc) (withD s n m.d m.dec) m.jerk dist.natAbs (decide (dist < 0))

/-- A soft limit in microsteps: the last one that does not pass it (R149). -/
def limitSteps (s : State) (n : Nat) (neg : Bool) : Int :=
  let r := s.axK n .RATIO
  if neg then -(-(s.axK n .SLMIN * r) / 65536) else s.axK n .SLMAX * r / 65536
/-- A commanded target of a referenced axis, brought within the soft limits in whole microsteps (R149). -/
def softClamp (s : State) (n : Nat) (t : Int) : Int :=
  if (s.ax n).referenced then clampI (limitSteps s n true) (limitSteps s n false) t else t
/-- The plan of a motion from standstill: to its target, or on to the soft limit or without end for a continuous jog (R149). -/
def motionPlan (s : State) (n : Nat) (m : Motion) : List Seg :=
  match m.target with
  | some t => planFor s n m (t - (s.ax n).cmd)
  | none =>
    if (s.ax n).referenced then
      let d := limitSteps s n m.neg - (s.ax n).cmd
      if (m.neg = true ∧ d < 0) ∨ (m.neg = false ∧ 0 < d) then planFor s n m d else []
    else planRun m.scurve (withD s n m.d m.speed) (withD s n m.d m.acc) m.jerk m.neg

/-! ## Stops (R142, R150, R151) -/

/-- The deceleration at which a stop ramp runs; none where the train simply ends. -/
def rampRate (m : Motion) : Option Nat :=
  match m.segs with
  | g :: _ => match g.len with
    | some l => some (g.v0q / (2 * max 1 l * rateUnit))
    | none => none
  | [] => none
/-- An axis stands: nothing is loaded, and no edge is left. -/
def stands (s : State) (n : Nat) : Bool :=
  let a := s.ax n
  a.loaded.isNone && a.ahead.isEmpty && (match a.motion with | none => true | some m => planDone m || decide (m.phase = .waiting))

/-- The steps that a train which comes to standstill by its own plan has left in the direction of the loaded one. -/
def trainLeft (a : Axis) : Option Nat :=
  match a.motion with
  | none => none
  | some m =>
    let neg := lastDir { a with ahead := [] }
    match m.segs, m.segs.getLast? with
    | g :: rest, some z =>
      if z.span = none ∧ z.v1q = 0 ∧ z.len.isSome ∧ (g :: rest).all (fun x => x.neg == neg) ∧ a.ahead.all (fun i => i.neg == neg) then
        some (a.ahead.length + (g.len.getD 0 - m.k) + (rest.map fun x => x.len.getD 0).sum)
      else none
    | _, _ => none
/-- The steps that a session's motion has left to the soft limit of the direction it runs in; none where it is not within it (R149). -/
def limitLeft (s : State) (n : Nat) : Option Nat :=
  let a := s.ax n
  let neg := lastDir { a with ahead := [] }
  let d := if neg then cmdAt a - limitSteps s n true else limitSteps s n false - cmdAt a
  if a.referenced ∧ 0 ≤ d ∧ (a.motion.any fun m => decide (m.kind = .move ∨ m.kind = .jog ∨ m.kind = .follow ∨ m.kind = .cam)) then some d.toNat
  else none
/-- The stop of an axis from its loaded edge at a deceleration: no longer than the train's own way to standstill, which would govern, and
never past a soft limit (R142, R149, R151). -/
def stopPlan (s : State) (n dec : Nat) : List Seg :=
  let a := s.ax n
  let k := stopSteps (loadedSpeedSq a) dec
  let k := (trainLeft a).elim k (min k)
  planStop (loadedSpeedSq a) ((limitLeft s n).elim k (min k)) (lastDir { a with ahead := [] })
/-- A motion begins to stop at a deceleration; a stop that already ends it sooner governs the train (R142, R151). -/
def rampStop (n dec : Nat) (e : Ending) (s : State) : State :=
  let a := s.ax n
  match a.motion with
  | none => s
  | some m =>
    let sooner := decide (m.phase = .stopping) && (match rampRate m with | none => true | some r => decide (dec ≤ r))
    if m.phase = .waiting ∨ m.phase = .held ∨ a.loaded.isNone then
      s.modAx n fun a => { a with ahead := [], motion := some { m with segs := [], phase := .stopping, ending := some e } }
    else if sooner then s.modAx n fun a => { a with motion := some { m with ending := some e } }
    else setCourse n (stopPlan s n dec) (fun m => { m with phase := .stopping, ending := some e }) s
/-- The step train ends with the loaded interval (R130, R150 HARD). -/
def hardStop (n : Nat) (e : Ending) (s : State) : State :=
  s.modAx n fun a => { a with
    ahead := [], motion := a.motion.map fun m => { m with segs := [], phase := .stopping, ending := some e } }

/-! ## Commands of an axis -/

/-- The command that runs a motion ends with a reply; the motion itself stops on its own course. -/
def motionReply (n : Nat) (r : Reply) (s : State) : State :=
  match (s.ax n).motion with
  | none => s
  | some m => match m.op with
    | none => s
    | some id => finOp id r (s.modAx n fun a => { a with motion := a.motion.map fun m => { m with op := none } })
/-- The motion's command ends with E06 naming the axis (R144, R145). -/
def motionFails (n : Nat) (s : State) : State := motionReply n (errR { code := 6, detail := .obj (.ch n .ax) }) s
/-- The motion's command reports. -/
def motionSays (n : Nat) (r : Reply) (s : State) : State :=
  match (s.ax n).motion with
  | none => s
  | some m => match m.op with
    | none => s
    | some id => sayOp id r s
/-- The command that moves a station in the door cycle reports. -/
def cycleSays (n : Nat) (r : Reply) (s : State) : State :=
  match (s.stn n).doorOp <|> (s.stn n).learning with
  | none => s
  | some id => sayOp id r s

/-- A coupling's motion with its coupling changed. -/
def modCouple (n : Nat) (f : Couple → Couple) (s : State) : State :=
  s.modAx n fun a => { a with motion := a.motion.map fun m => { m with couple := m.couple.map f } }
/-- A slave whose master is uncertain stops at its DEC and reports it, once (R163). -/
def camHold (n : Nat) (s : State) : State :=
  match (s.ax n).motion with
  | none => s
  | some m =>
    match m.couple with
    | none => s
    | some c =>
      if c.held ∨ m.phase ≠ .running then s
      else
        let s := motionSays n (colR "held" [.tb c.master]) (modCouple n (fun c => { c with held := true, engaged := false, lagSince := none }) s)
        if (s.ax n).loaded.isNone then s.modAx n fun a => { a with ahead := [], motion := a.motion.map fun m => { m with segs := [] } }
        else setCourse n (stopPlan s n m.dec) (fun m => m) s
/-- The axes coupled to a master. -/
def slavesOf (t : TB) (s : State) : List Nat :=
  (s.st.filter fun e => (e.2.axis.motion.bind (·.couple)).any fun c => decide (c.master = t)).map (·.1)
/-- An axis becomes unreferenced; its slaves hold (R73, R163). -/
def loseReference (n : Nat) (s : State) : State :=
  let s := unreference n s
  forEach (slavesOf (.ax n) s) camHold s
/-- LINE takes a state; while it is uncertain its slaves hold (R83, R163). -/
def toLineState (x : LineSt) (s : State) : State :=
  let s := setLineState x s
  if lineUncertain s then forEach (slavesOf .line s) camHold s else s

/-- The admission of a station's moves is withdrawn or ends: its charge goes (R306, R307). -/
def dropCharge (n : Nat) (s : State) : State :=
  s.modYar fun y => { y with charges := y.charges.filter fun c => decide (c.of ≠ n ∨ c.byOut) }
/-- The move's first step: its envelope starts to run (R304). -/
def startCharge (n : Nat) (s : State) : State :=
  s.modYar fun y => { y with charges := y.charges.map fun c =>
    if c.of = n ∧ ¬ c.byOut ∧ c.started = none then { c with started := some s.now } else c }
/-- The stations that an operation moves. -/
def Op.movers (o : Op) : List Nat :=
  match o.prog with
  | .motion n => [n]
  | .learn n _ => [n]
  | .door r _ _ => r
  | _ => []
/-- A command's entry shows whether it waits for admission, is held, or runs (R58; DEDUCED for a command of several stations, log
entry 95). -/
def markOp (id : Nat) (s : State) : State :=
  match s.opOf id with
  | none => s
  | some o => match o.slot with
    | none => s
    | some k =>
      let l := o.movers
      if (s.ent k).kind ≠ .command ∨ l.isEmpty then s
      else
        let st : ESt := if l.any (fun n => (s.stn n).wait.isSome) then .waiting
          else if l.any (fun n => (s.ax n).motion.any fun m => decide (m.phase = .held)) then .held else .executing
        s.modEnt k fun e => { e with st }
/-- The entries of the commands that move a station show its state (R58). -/
def markOps (n : Nat) (s : State) : State := forEach ((s.ops.filter fun o => decide (n ∈ o.movers)).map (·.id)) markOp s
/-- A station waits no longer (R311). -/
def endWait (n : Nat) (s : State) : State := markOps n (s.modStn n fun t => { t with wait := none })
/-- A wait ends without an admission: what a tentative move was charged with goes (R307, R322, R323). -/
def leaveWait (n : Nat) (s : State) : State := endWait n (if (s.stn n).wait.isSome then dropCharge n s else s)
/-- A station begins to wait for admission (R300, R311). -/
def beginWait (n cls : Nat) (why : Why) (opening : Bool) (s : State) : State :=
  markOps n (s.modStn n fun t => { t with wait := some { cls, since := s.now, why, opening } })

/-- The STOP commands that wait for an axis count it as standing; one that waits for none ends (R152). -/
def stopDone (n : Nat) (s : State) : State :=
  forEach (s.ops.filter fun o => match o.prog with
      | .stopping l _ => decide (n ∈ l)
      | _ => false) (fun o s =>
    match o.prog with
    | .stopping l k =>
      let l := l.filter (· ≠ n)
      if l.isEmpty then finOp o.id (eqR "stop" [.n k]) s else s.modOp o.id fun o => { o with prog := .stopping l k }
    | _ => s) s
/-- The RESUME commands that wait for an axis's first step count it; one that waits for none ends (R154). -/
def resumeDone (n : Nat) (s : State) : State :=
  forEach (s.ops.filter fun o => match o.prog with
      | .resuming l _ => decide (n ∈ l)
      | _ => false) (fun o s =>
    match o.prog with
    | .resuming l k =>
      let l := l.filter (· ≠ n)
      if l.isEmpty then finOp o.id (eqR "resume" [.n k]) s else s.modOp o.id fun o => { o with prog := .resuming l k }
    | _ => s) s

/-- A RESUME that waits for the axis ends with an error: its admission wait was too long, or what it resumes can no longer start (R310;
16, "Door and motion forms"). -/
def resumeFails (n : Nat) (e : Err) (s : State) : State :=
  forEach (s.ops.filter fun o => match o.prog with
      | .resuming l _ => decide (n ∈ l)
      | _ => false) (fun o s => failOp o.id e s) s

/-- A position reply of a motion (R147, R149). -/
def posReply (w : String) (pos : Int) (extra : List Fld := []) : Reply := eqR w ([.n 1, .kn "pos" pos ""] ++ extra)
/-- The result word of a motion (16, "Door and motion forms"). -/
def motionWord : MKind → String
  | .jog => "jog"
  | .ref => "ref"
  | _ => "move"

/-- The commanded target of a motion in microsteps: its own, the soft limit a continuous jog runs to, a coupling's target, or the count a
follower owes up to (R149, R153, R157). A MOVE that still searches has the target of its line. -/
def goalOf (s : State) (n : Nat) (m : Motion) : Option Int :=
  match m.target, m.couple, m.follow, m.after with
  | some t, _, _, _ => some t
  | _, some c, _, _ => some (softClamp s n (countsToSteps s n c.target))
  | _, _, some f, _ => some (f.base + f.fact * f.net)
  | _, _, _, some g => some (if m.afterRel then (s.ax n).cmd + countsToSteps s n g else countsToSteps s n g)
  | _, _, _, _ =>
    if m.kind = .jog ∧ (s.ax n).referenced then some (limitSteps s n m.neg) else none
/-- What is left of a held motion, counts: its target less the commanded position; of a search and of a jog without a limit, which have
no target, a value the manual does not state (R152, R153; log entry 96). -/
def heldRem (n : Nat) (m : Motion) (s : State) : Int × State :=
  match goalOf s n m with
  | some t => (stepsToCounts s n (t - (s.ax n).cmd), s)
  | none => let d := s.draw; (Config.freeInt d.1, d.2)
/-- An axis has come to standstill (R143, R152, R153): status bit 1 clears, the charge of the move ends, STOP commands that waited
for it end, and the motion is held, or over. A RESUME whose motion has ended without a step waits for it no longer. -/
def axisStops (n : Nat) (s : State) : State :=
  let a := s.ax n
  let s := s.modAx n fun a => { a with moving := false, ahead := [] }
  let s := dropCharge n (endWait n s)
  let s := match a.motion with
    | none => s
    | some m =>
      match m.ending with
      | some .hold =>
        let r := heldRem n m s
        let held := { m with
          phase := .held, segs := [], heldPos := a.pos, moving := false
          couple := m.couple.map fun c => { c with engaged := false, lagSince := none } }
        let tell := if m.op.isNone ∧ m.couple.isNone then cycleSays n else motionSays n
        markOps n (tell (colR "held" [.kn "rem" r.1 ""]) (r.2.modAx n fun a => { a with motion := some held }))
      | some (.limit positive) =>
        (motionReply n (posReply "jog" a.pos [.kw "limit" (if positive then "SLMAX" else "SLMIN")]) s).modAx n fun a =>
          { a with motion := none }
      | _ => s.modAx n fun a => { a with motion := none }
  let s := if isLeaf s n then leafSegs n [] s else s
  resumeDone n (stopDone n s)

end Sys2Proof.Machine
end

