-- ==== Sys2Proof/Machine/LoadOps.lean ====
section
/-! DEFINITION. Shared operations of the field side: reports to watching sessions, switching loads and feeds on and off, trips and
their clearing, flashing, outputs, and the fail-safe states (06, 07, 08). -/

namespace Sys2Proof.Machine

open Sys2Proof

/-! ## Reports (R106) -/

/-- The WATCH operations that name one of these objects. -/
def watchers (s : State) (l : List Obj) : List Op :=
  s.ops.filter fun o => match o.prog with
    | .watch objs _ _ => objs.any fun x => decide (x ∈ l)
    | _ => false
/-- An event report `~#tag <address> <words>` to every session that watches one of the objects (R106). -/
def report (l : List Obj) (o : Obj) (f : List Fld) (s : State) : State :=
  forEach (watchers s l) (fun w s => say w.ctx (tilR (objName o) f) s) s
/-- A report about a channel, to the sessions that watch it. -/
def reportCh (n : Nat) (c : Chan) (f : List Fld) (s : State) : State := report [.ch n c] (.ch n c) f s

/-- A report about a peer, to the sessions that watch the peers (R363, R380). -/
def reportPeer (u : Nat) (f : List Fld) (s : State) : State :=
  forEach (watchers s [.peers, .unitNo u]) (fun w s => say w.ctx (tilR "peer" (.obj (.unitNo u) :: f)) s) s
/-- A valid frame of any kind has come from a unit: a silent peer is heard again (R380). -/
def heardPeer (u : Nat) (s : State) : State :=
  let p := s.peer u
  if !p.known then s
  else
    let s := s.modPeer u fun p => { p with seenAt := s.now, silent := false }
    if p.silent then reportPeer u [.w "back"] s else s

/-- A field-side happening reaches its watchers and the journal; it waits while the slice's link is down, or, for a lamp report,
while the lamp engine is being reset (R237, R242). -/
def fieldReport (n : Nat) (c : Chan) (words : List String) (code : Nat) (payload : List Byte) (lamp : Bool) (s : State) : State :=
  let up := (s.slc (slotOf n)).link
  if up ∧ ¬ (lamp ∧ s.engDown .lamp) then
    let s := reportCh n c (words.map Fld.w) s
    if code = 0 then s else record code payload (hdCh n c) s
  else { s with reports := s.reports ++ [{ station := n, chan := c, words, code, payload, silent := !up, lamp }] }
/-- Waiting reports of a slice, or all of them, go out in their order, stamped on arrival when they were formed in silence
(R237, R242). -/
def flushReports (s : State) : State :=
  let ready := fun (r : FieldRep) => (s.slc (slotOf r.station)).link && !(r.lamp && s.engDown .lamp)
  let l := s.reports.filter ready
  let s := { s with reports := s.reports.filter fun r => !ready r }
  forEach l (fun r s =>
    let s := reportCh r.station r.chan (r.words.map Fld.w) s
    if r.code = 0 then s
    else record r.code r.payload { hdCh r.station r.chan with flags := if r.silent then 10 else 0 } s) s

/-! ## Limits by class (R206, R216, R225) -/

/-- A threshold by class: H, then L. -/
def byClass (w : Sw) (h l : Nat) : Nat := if w = .fd then h else l
/-- The continuous current: 12 A and 2.5 A (R206). -/
def continuousLimit (w : Sw) : Nat := byClass w 120000 25000
/-- The steady limit: 24 A and 5 A (R206). -/
def steadyLimit (w : Sw) : Nat := byClass w 240000 50000
/-- The inrush limit: 40 A and 20 A (R206). -/
def inrushLimit (w : Sw) : Nat := byClass w 400000 200000
/-- The limit that the limiter holds now: the inrush limit inside the window, the steady limit outside (R211). -/
def limitNow (w : Sw) (x : Switch) : Nat := if x.inrush.isSome then inrushLimit w else steadyLimit w
/-- The turn-on energy limit in pJ: 20 J and 2 J (R206). -/
def toneLimit (w : Sw) : Nat := byClass w 20000000000000 2000000000000
/-- The clamp voltage across the switch in mV: 180 V and 50 V (R206). -/
def clampVoltage (w : Sw) : Nat := byClass w 180000 50000
/-- The energy in uJ allowed to a clamp pulse by the interval since the last (R227). -/
def clampAllowance (w : Sw) (since : Option Nat) : Nat :=
  match since with
  | none => byClass w 2000000 300000
  | some t =>
    if 10000000 ≤ t then byClass w 2000000 300000
    else if 1000000 ≤ t then byClass w 1000000 150000
    else if 100000 ≤ t then byClass w 400000 60000
    else if 10000 ≤ t then byClass w 80000 12000
    else if 1000 ≤ t then byClass w 10000 1500
    else byClass w 2000 300

/-! ## Ranges (R206, R215 to R217) -/

/-- A reading of the low range: 0 to 2 A by 1 mA, and 0 to 0.25 A by 0.1 mA (R206). -/
def lowReading (w : Sw) (i : Nat) : Nat := min (byClass w 20000 2500) (i / byClass w 10 1 * byClass w 10 1)
/-- A reading of the high range: 0 to 60 A by 25 mA, and 0 to 25 A by 10 mA (R206). -/
def highReading (w : Sw) (i : Nat) : Nat := min (byClass w 600000 250000) (i / byClass w 250 100 * byClass w 250 100)
/-- What one conversion gives: the current that is used, whether it is flagged, the range of the next one, and whether that is made in both
ranges (R216, R217). -/
structure Sensed where
  i : Nat
  flagged : Bool
  high : Bool
  down : Bool
  deriving DecidableEq, Repr
/-- A conversion in the selected range, with the other range's value held at the same instant (R216, R217). -/
def sense (w : Sw) (high down : Bool) (c : Conv) : Sensed :=
  let lo := lowReading w c.low
  let hi := highReading w c.high
  if down then { i := hi, flagged := true, high := false, down := false }
  else if high then { i := hi, flagged := false, high := true, down := decide (hi ≤ byClass w 16000 2000) }
  else if byClass w 19200 2400 ≤ lo then { i := hi, flagged := true, high := true, down := false }
  else { i := lo, flagged := false, high := false, down := false }

/-- A row of conversions, each in the range that the one before has selected (R216). -/
def senseAll (w : Sw) : Bool → Bool → List Conv → List Sensed
  | _, _, [] => []
  | high, down, c :: t =>
    let r := sense w high down c
    r :: senseAll w r.high r.down t

/-! ## Turning on and off (R208 to R214, R228, R259) -/

/-- How long ago the channel's last grid point was, us (R252). -/
def sinceGrid (s : State) (n : Nat) (w : Sw) : Int :=
  ((s.now : Int) - (s.slc (slotOf n)).epoch - 2500 * (2 * (n % 8 : Nat) + (if w = .lb then 1 else 0))) % 40000
/-- A switch's output or its supply bars a proving pulse: it is on or within a ramp, or in under-voltage off or wait (R256). -/
def Switch.bars (x : Switch) (now : Nat) : Bool := x.isOn now || x.ramping now || x.uvOff || x.uvWait
/-- The output, the supply wait or the trips of a channel are about to change: what held at its last grid point is kept with the first change
after it (R256). -/
def noteGrid (n : Nat) (w : Sw) (s : State) : State :=
  s.modSw n w fun x =>
    if w ≠ .fd ∧ ¬ (x.lamp.was.any fun e => decide ((s.now : Int) - sinceGrid s n w < e.1)) then
      { x with lamp := { x.lamp with was := some (s.now, x.bars s.now, x.tripped) } }
    else x

/-- h is brought up to date before the output or the wire changes. -/
def syncHeat (n : Nat) (w : Sw) (s : State) : State :=
  let h := heatNow s n w
  s.modSw n w fun x => { x with heat := h, heatAt := x.heatAt + (s.now - x.heatAt) / 50 * 50 }

/-- The UNOM of a feed is set (R209). -/
def unomSet (s : State) (n : Nat) : Bool := decide (s.key (.ch n .fd) .UNOM ≠ .unset)
/-- A switch may turn on: no trip, no under-voltage wait, power on the slice; a feed needs UNOM and both elements (R209, R224, R228). -/
def canTurnOn (s : State) (n : Nat) (w : Sw) : Bool :=
  let x := s.sw n w
  (s.slc (slotOf n)).powered && !x.tripped && !x.uvOff && !x.uvWait
    && (match w with | .fd => decide (fieldKey s n .fd .UNOM ≠ .unset) && elementsClosed s n | _ => true)
/-- The edge rate of PWM, of proving pulses and of a running flash on a proved channel, mV/ms: 2 V/us (R210, R253, R259). -/
def fastEdge : Nat := 2000000
/-- A turn-on at a rate, from off or from where a turn-off ramp stands: the ramp and a new inrush window begin, in CP mode with the first
on-edge, with a new energy integral (R210 to R212, R214), in the low range after off (R216); SLEW, INRUSH and the open-load keys take effect
(R208). A switch that is on stays as it is. -/
def turnOnAt (rate : Nat) (n : Nat) (w : Sw) (s : State) : State :=
  let x := s.sw n w
  let was := x.isOn s.now
  if was ∧ x.ramp ≠ some false then s
  else if canTurnOn s n w then
    let start := s.now + (if was then 0 else onEdgeIn s n w)
    (syncHeat n w (noteGrid n w s)).modSw n w fun x => { x with
      on := true, ramp := some true, level := if was then rampLevel x s.now else 0, rampAt := start, rate, rampEnd := none
      slew := fieldN s n w .SLEW, inrush := some start, energy := 0, high := was && x.high, downNext := was && x.downNext, maskOff := false
      limiting := false, shortSince := none, olSince := none, olPasses := 0, fullOn := false
      window := fieldN s n w .INRUSH, olDet := decide (fieldKey s n w .OLDET = .w "ON"), olThr := fieldN s n w .OLTHR
      olTime := fieldN s n w .OLT }
  else if w = .fd ∧ ¬ elementsClosed s n then s.modSw n w fun x => { x with maskOff := true }
  else s
/-- A turn-on at SLEW (R210). -/
def turnOn (n : Nat) (w : Sw) (s : State) : State := turnOnAt (fieldN s n w .SLEW) n w s
/-- A fast off (R213). -/
def turnOff (n : Nat) (w : Sw) (s : State) : State :=
  (syncHeat n w (noteGrid n w s)).modSw n w fun x => { x with
    on := false, ramp := none, level := 0, inrush := none, limiting := false, shortSince := none, high := false, downNext := false
    olSince := none, complySince := none, fullOn := false, maskOff := false }
/-- A commanded off: the output falls at a rate from where it stands (R213, R214). -/
def slewOff (rate : Nat) (n : Nat) (w : Sw) (s : State) : State :=
  let x := s.sw n w
  if ¬ x.isOn s.now then turnOff n w s
  else if x.ramp = some false then s
  else (syncHeat n w (noteGrid n w s)).modSw n w fun x => { x with
    ramp := some false, level := outLevel s n w, rampAt := s.now, rate, inrush := none, shortSince := none, olSince := none
    complySince := none, fullOn := false, maskOff := false }

/-- The field side proves a channel (R244). -/
def fieldProved (s : State) (n : Nat) (w : Sw) : Bool := decide (fieldKey s n w .PROVED = .w "ON")
/-- The field side has a reserve for the main (R245). -/
def fieldReserve (s : State) (n : Nat) : Bool := decide (fieldKey s n .la .RESERVE = .w "LB")

/-- The switch on which a channel's commanded state acts: LB while the reserve is in use (R261, R262). -/
def actSw (s : State) (n : Nat) (w : Sw) : Sw := if w = .la ∧ (s.stn n).reserveInUse then .lb else w
/-- The output follows the switch's commanded state: on, off, or the phase its flash has now (R261, R267). A turn-on runs at the rate given;
the edges of a running flash on a proved channel, after its first, at the fast rate (R259); an off at the SLEW of the last turn-on, or fast
where it is a fail-safe state (R213). -/
def followAt (rate : Nat) (safe : Bool) (n : Nat) (w : Sw) (s : State) : State :=
  let x := s.sw n w
  let off := fun (r : Nat) (s : State) => if safe then turnOff n w s else slewOff r n w s
  match x.flash with
  | some f =>
    let p := flashOn f (fieldFlash s n)
    let quick := fieldProved s n w && x.lamp.edged
    let edge := decide (p ≠ (x.isOn s.now && decide (x.ramp ≠ some false)))
    let s := s.modLamp n w fun l => { l with onPhase := p, edged := l.edged || edge }
    if p then turnOnAt (if quick then fastEdge else rate) n w s else off (if quick then fastEdge else x.slew) s
  | none =>
    let s := s.modLamp n w fun l => { l with onPhase := false }
    if x.cmd then turnOnAt rate n w s else off x.slew s
/-- The output follows at SLEW. -/
def follow (n : Nat) (w : Sw) (s : State) : State := followAt (fieldN s n w .SLEW) false n w s
/-- The reserve becomes the lamp in use: the main goes off fast, and the reserve takes its commanded state and turns on from off, at the
greater of its SLEW and 5 V/ms (R261). -/
def changeover (n : Nat) (s : State) : State :=
  let m := (s.stn n).la
  let s := turnOff n .la s
  let s := s.modStn n fun t => { t with reserveInUse := true }
  let s := s.modSw n .lb fun x => { x with cmd := m.cmd, flash := m.flash, failSafe := m.failSafe, lamp := { x.lamp with edged := false } }
  fieldReport n .la ["changeover", "LB"] 0x0602 [] true (followAt (max (fieldN s n .lb .SLEW) 5000) false n .lb s)
/-- A switch takes a commanded state at the field side (R209, R267). -/
def command (n : Nat) (w : Sw) (on : Bool) (f : Option Flash) (s : State) : State :=
  let set := fun (w : Sw) (s : State) => (s.modSw n w fun x => { x with cmd := on, flash := f, failSafe := false }).modLamp n w fun l => { l with edged := false }
  let a := actSw s n w
  let s := set w s
  let s := if a = w then s else set a s
  follow n a s

/-! ## The frame buffer and the return frames (R34, R102, R292) -/

/-- Changes a station's frame buffer. -/
def State.modBuf (s : State) (n : Nat) (f : FrameBuf → FrameBuf) : State := s.modStn n fun t => { t with buf := f t.buf }
/-- The head commands a switch: the frame buffer takes the state, which the slice's next downlink frame carries; a later one replaces it
(R34, R292). -/
def ask (n : Nat) (w : Sw) (c : LoadCmd) (s : State) : State :=
  s.modBuf n fun b => match w with
    | .la => { b with la := c }
    | .lb => { b with lb := c }
    | .fd => { b with fd := decide (c ≠ .off) }
/-- The ON of a switch, as one that clears its trips (R236). -/
def askOn (n : Nat) (w : Sw) (s : State) : State :=
  (ask n w .on s).modBuf n fun b => { b with fresh := if w ∈ b.fresh then b.fresh else b.fresh ++ [w] }
/-- The head commands a digital output (R284, R292). -/
def askOut (n : Nat) (second on : Bool) (s : State) : State :=
  s.modBuf n fun b => if second then { b with out1 := on } else { b with out0 := on }
/-- The head commands a switch on or flashing, or the field side still holds it so. -/
def lit (s : State) (n : Nat) (w : Sw) : Bool :=
  let b := (s.stn n).buf
  let x := s.sw n w
  (match w with | .la => decide (b.la ≠ .off) | .lb => decide (b.lb ≠ .off) | .fd => b.fd) || x.cmd || x.flash.isSome
/-- An immediate verb that has set field outputs ends with its reply once the slices have reported the states in their return frames; at
once where it set none (R102). -/
def awaitReturn (c : Ctx) (r : Reply) (slices : List Nat) (s : State) : State :=
  if slices.isEmpty then fin c r s else { s with returns := s.returns ++ [{ ctx := c, reply := r, due := slices.dedup }] }
/-- A slice's downlink frame has carried the buffered states (R34, R292). -/
def framesCarried (p : Nat) (s : State) : State :=
  let s := { s with returns := s.returns.map fun r => if p ∈ r.due then { r with due := r.due.filter (· ≠ p), sent := r.sent ++ [p] } else r }
  forEach (stationsOf p) (fun n s => s.modBuf n fun b => { b with fresh := [] }) s
/-- A slice's return frame reports the states that its last downlink frame carried: the replies that waited for it alone are sent (R102). -/
def framesReturned (p : Nat) (s : State) : State :=
  let l := s.returns.map fun r => { r with sent := r.sent.filter (· ≠ p) }
  let done := fun (r : Return) => r.due.isEmpty && r.sent.isEmpty
  forEach (l.filter done) (fun r s => fin r.ctx r.reply s) { s with returns := l.filter fun r => !done r }
/-- A slice's link is lost: what waited for its frames ends with an error (R76). -/
def framesLost (p : Nat) (e : Err) (s : State) : State :=
  let gone := fun (r : Return) => decide (p ∈ r.due ∨ p ∈ r.sent)
  forEach (s.returns.filter gone) (fun r s => fin r.ctx (errR e) s) { s with returns := s.returns.filter fun r => !gone r }
/-- What the head sends for a station that is out of service: its loads at their FAILSAFE states, all else off (R297). -/
def bufSafe (n : Nat) (s : State) : State :=
  let load := fun (w : Sw) =>
    let o : Obj := .ch n (swChan w)
    match s.key o .FAILSAFE with
    | .w "ON" => LoadCmd.on
    | .w "FLASH" => .flash { period := s.keyN o .FSPERIOD / 1000, phase := s.keyN o .FSPHASE }
    | _ => .off
  s.modBuf n fun b => { b with la := load .la, lb := if hasReserve s n then .off else load .lb, fd := false, out0 := false, out1 := false, fresh := [] }

/-- The waits of R236, in us: SHORT and CLAMP, by class. -/
def tripWait (w : Sw) : Nat := if w = .fd then 5000000 else 1000000
/-- The clearing condition of every standing trip is met (R236). -/
def tripsClear (s : State) (n : Nat) (w : Sw) : Bool :=
  let x := s.sw n w
  let past := fun (t : Option Nat) (span : Nat) => match t with
    | none => true
    | some t => decide (t + span ≤ s.now)
  (x.tj.isNone || decide (x.die ≤ 120)) && past x.short (tripWait w) && (x.fuse.isNone || decide (heatNow s n w ≤ 250000000000))
    && past x.tone 10000000 && past x.clamp (tripWait w)
/-- An ON clears every standing trip together (R236). -/
def clearTrips (n : Nat) (w : Sw) (s : State) : State :=
  (noteGrid n w s).modSw n w fun x => { x with fuse := none, short := none, tone := none, tj := none, clamp := none }

/-- The payload of a switch-trip record: cause, current, supply, h, die temperature, and the clamp energy in uJ for CLAMP (R240). -/
def tripPayload (s : State) (n : Nat) (w : Sw) (cause : String) (energy : Option Nat) : List Byte :=
  let x := s.sw n w
  pWord cause ++ pInt x.cur ++ pInt x.u ++ pHeat x.heat ++ pTemp (10 * x.die)
    ++ (match energy with | none => [] | some e => pNum e)

/-- What turns a switch off by itself, in the order of R235. -/
inductive TripCause where
  | tj | short | fuse | tone | clamp | uv
  deriving DecidableEq, Repr
/-- Its name (R240). -/
def TripCause.word : TripCause → String
  | .tj => "TJ"
  | .short => "SHORT"
  | .fuse => "FUSE"
  | .tone => "TONE"
  | .clamp => "CLAMP"
  | .uv => "UV"
/-- The flag it sets (R224, R235). Under-voltage off and under-voltage wait are set together and end together, with the restart time
(DESIGN CHOICE, log entry 126). -/
def TripCause.mark (now : Nat) (x : Switch) : TripCause → Switch
  | .tj => { x with tj := some now }
  | .short => { x with short := some now }
  | .fuse => { x with fuse := some now }
  | .tone => { x with tone := some now }
  | .clamp => { x with clamp := some now }
  | .uv => { x with uvOff := true, uvWait := true, upSince := none }
/-- A switch turns off fast for the causes of one conversion, highest first: every cause shows in the flags, one report and one record name
the highest (R235, R240). -/
def tripAll (n : Nat) (w : Sw) (l : List TripCause) (energy : Nat) (s : State) : State :=
  match l with
  | [] => s
  | c :: _ =>
    let s := turnOff n w ((noteGrid n w s).modSw n w fun x => l.foldl (TripCause.mark s.now) x)
    let s := s.modSlc (slotOf n) fun p => { p with changed := true }
    fieldReport n (swChan w) ["trip", c.word] 0x0501 (tripPayload s n w c.word (if c = .clamp then some energy else none)) false s

/-! ## Inputs and outputs (R272, R284, R285, R287) -/

/-- Entry into a diagnostic fault is reported and journalled, its clearance is reported (R287). -/
def ioFault (n : Nat) (c : Chan) (cause : String) (enter : Bool) (s : State) : State :=
  let s := s.modSlc (slotOf n) fun p => { p with changed := true }
  if enter then fieldReport n c ["fault", cause] 0x0502 (pWord cause) false s else fieldReport n c ["fault", "clear"] 0 [] false s
/-- TEST=OFF takes effect on an input: its test faults clear (R272). -/
def clearTest (n k : Nat) (s : State) : State :=
  let i := (s.stn n).inp k
  let s := s.modInp n k fun i => { i with fails := [], passes := [], faultTaps := [], lastFailed := false }
  let s := forEach [Lane.a, .b] (fun x s => s.modLaneStn x n fun t => { t with
    inputs := tmod {} t.inputs k fun i => { i with fails := [], passes := [], taps := [] } }) s
  if i.faultTaps.isEmpty then s else ioFault n (inChan k) "TEST" false s

/-- A digital output takes a commanded state: an OFF and then an ON clear a latched OVERLOAD (R285). -/
def driveOut (n : Nat) (second on : Bool) (s : State) : State :=
  let unlatch := on && ((s.stn n).outp second).latched && ((s.stn n).outp second).offSeen
  let s := if unlatch then ioFault n (outChan second) "OVERLOAD" false s else s
  s.modOut n second fun o =>
    if on then
      let clear := o.latched && o.offSeen
      let o := if clear then { o with latched := false, overload := false, overloads := [], offSeen := false } else o
      { o with cmd := true, failSafe := false, on := !o.latched && !o.overload && !o.overtemp }
    else { o with cmd := false, on := false, failSafe := false, offSeen := o.offSeen || o.latched }

/-! ## Fail-safe states (R270, R296, R297) -/

/-- A load channel takes its FAILSAFE state; an off is a fast one; a main that is dark passes it to its reserve (R213, R270). -/
def failSafeLoad (n : Nat) (w : Sw) (applied : Bool) (s : State) : State :=
  let key := fieldKey s n w
  let fl : Flash := { period := (kInt (key .FSPERIOD)).toNat / 1000, phase := (kInt (key .FSPHASE)).toNat }
  let on := decide (key .FAILSAFE = .w "ON")
  let fs := if key .FAILSAFE = .w "FLASH" then some fl else none
  let reserve := decide (w = .lb) && fieldReserve s n
  if reserve then s.modSw n w fun x => { x with failSafe := applied }
  else
    let a := actSw s n w
    let set := fun (w : Sw) (s : State) => s.modSw n w fun x => { x with
      cmd := on, flash := fs, failSafe := applied, lamp := { x.lamp with edged := x.lamp.edged && decide (x.flash = fs) } }
    let s := set w s
    let s := if a = w then s else set a s
    if w = .la ∧ a = w ∧ fieldReserve s n ∧ (s.stn n).la.lamp.dark ∧ ¬ (s.stn n).lb.lamp.dark then changeover n s
    else followAt (fieldN s n a .SLEW) true n a s
/-- The field side discards what is ahead of an axis's step train: of the motion that runs no further step comes (R127, R296, R298). -/
def cutTrain (n : Nat) (s : State) : State :=
  s.modAx n fun a => { a with ahead := [], motion := a.motion.map fun m =>
    if m.phase = .waiting ∨ m.phase = .held then m else { m with segs := [], cut := true } }
/-- A station's outputs take the states of R296: loads their FAILSAFE states, everything else off. -/
def failSafeStation (n : Nat) (applied : Bool) (s : State) : State :=
  let s := failSafeLoad n .lb applied (failSafeLoad n .la applied s)
  let s := turnOff n .fd (s.modSw n .fd fun x => { x with cmd := false, failSafe := applied })
  let off := fun (b : Bool) (s : State) => s.modOut n b fun o => { o with on := false, cmd := false, failSafe := applied }
  off true (off false s)

end Sys2Proof.Machine
end

