-- ==== Sys2Proof/Machine/DoorOps.lean ====
section
/-! DEFINITION. Shared operations of the door cycle: a leaf's state and what follows from it, its system slots and timers, the
parts of a door command, starting and ending its moves, obstacles, and the step (05; 14 R450). -/

namespace Sys2Proof.Machine

open Sys2Proof

/-! ## What a leaf has -/

/-- The station that drives the leaf's step (R181). -/
def stepStation (s : State) (n : Nat) : Option Nat :=
  match s.key (.st n) .STEP with
  | .st m => some m
  | _ => none
/-- OUT1 drives the leaf's step (R181). -/
def stepOut1 (s : State) (n : Nat) : Bool := s.keyIs (.st n) .STEP "OUT1"
/-- The leaf has a step. -/
def hasStep (s : State) (n : Nat) : Bool := (stepStation s n).isSome || stepOut1 s n
/-- The leaf that a step station serves (R181, R195). -/
def servedLeaf (s : State) (m : Nat) : Option Nat :=
  (allStations.filter fun n => isLeaf s n && decide (s.key (.st n) .STEP = .st m)).head?
/-- The step does not keep the leaf from its lock zone (R183). -/
def stepOk (s : State) (n : Nat) : Bool := !hasStep s n || inOn s n .STOWSW
/-- The commissioning profile of a leaf (R184). -/
def commissioned (s : State) (n : Nat) : Option (List Int × List Int) := aget s.cfg.profiles n
/-- The leaf's position in counts at which it is open. -/
def openPos (s : State) (n : Nat) : Int := stCounts s n .OPENPOS
/-- The leaf's lock zone boundary in counts. -/
def lockPos (s : State) (n : Nat) : Int := stCounts s n .LOCKZONE
/-- CLOSEDSW and LOCKSW are both made, as the door cycle reads them (R168). -/
def bothMade (s : State) (n : Nat) : Bool := inOn s n .CLOSEDSW && inOn s n .LOCKSW
/-- A leaf state in which a move may run. -/
def leafMoves : Leaf → Bool
  | .opening | .closing | .reversing | .locking => true
  | _ => false

/-! ## Limit switches (R150) -/

/-- A limit switch of a direction is active (R150). -/
def limitActive (s : State) (n : Nat) (neg : Bool) : Bool :=
  match inputOf (s.key (.ch n .ax) (if neg then .LIMNEG else .LIMPOS)) with
  | none => false
  | some k => ((s.stn n).inp k).on
/-- The direction in which a motion goes on from standstill: true negative; none where it stands on its target, or where only coarse
steps will tell (R147, R153). -/
def motionDir (s : State) (n : Nat) (m : Motion) : Option Bool :=
  if m.kind = .ref ∨ m.after.isSome then some (s.keyIs (.ch n .ax) .HOMEDIR "NEG")
  else match goalOf s n m with
    | some t => if t = (s.ax n).cmd then none else some (decide (t < (s.ax n).cmd))
    | none => if m.kind = .jog then some m.neg else none

/-! ## Parts of a door command (R171) -/

/-- A door command whose every station has ended gives its final reply (R171). -/
def finishDoor (id : Nat) (s : State) : State :=
  match s.opOf id with
  | none => s
  | some o =>
    match o.prog with
    | .door [] reached failed =>
      match failed with
      | [] => finOp id (eqR (match o.verb with | .cls .. => "close" | _ => "open") [.n reached.length]) s
      | l => match l.find? fun f => !f.2.2 with
        | none => failOp id { code := 70 } s
        | some f => failOp id f.2.1 s
    | _ => s
/-- A station of a door command has reached its target. -/
def doorReached (n : Nat) (s : State) : State :=
  match (s.stn n).doorOp with
  | none => s
  | some id =>
    let s := s.modStn n fun t => { t with doorOp := none }
    finishDoor id (s.modOp id fun o => match o.prog with
      | .door r d f => { o with prog := .door (r.filter (· ≠ n)) (d ++ [n]) f }
      | _ => o)
/-- A station of a door command fails, with its cause (R171). -/
def doorFailed (n : Nat) (e : Err) (cause : String) (s : State) : State :=
  match (s.stn n).doorOp with
  | none => s
  | some id =>
    let s := s.modStn n fun t => { t with doorOp := none }
    let s := sayOp id (colR "failed" [.obj (.st n), .w cause]) s
    finishDoor id (s.modOp id fun o => match o.prog with
      | .door r d f => { o with prog := .door (r.filter (· ≠ n)) d (f ++ [(n, e, decide (cause = "superseded"))]) }
      | _ => o)
/-- The error that names a station. -/
def e06St (n : Nat) : Err := { code := 6, detail := .obj (.st n) }
/-- The error that names a station's axis. -/
def e06Ax (n : Nat) : Err := { code := 6, detail := .obj (.ch n .ax) }

/-! ## The cycle record (R450) -/

/-- A duration in ms that saturates at its field's greatest value. -/
def msField (k us : Nat) : List Byte := le k (min (us / 1000) (256 ^ k - 1))
/-- A number that saturates at its field's greatest value. -/
def satField (k v : Nat) : List Byte := le k (min v (256 ^ k - 1))
/-- The largest deviation of the learned closing profile from the commissioned one, in 0.1 % (R450). -/
def driftMax (s : State) (n : Nat) : Nat :=
  match commissioned s n with
  | none => 0
  | some (_, c) => ((s.stn n).learnedClose.zip c).foldl
      (fun a e => if e.2 ≤ 0 then a else max a ((e.1 - e.2 * profUnit).natAbs * 1000 / (e.2 * profUnit).toNat)) 0
/-- The payload of a door cycle record (R450). -/
def cyclePayload (s : State) (n : Nat) (c : Cycle) (end_ : Leaf) (cause : String) : List Byte :=
  let obs := fun (i : Nat) => satField 1 (c.obstacles.getD i 0)
  msField 4 c.waitOpen ++ msField 2 c.unlocking ++ msField 2 c.opening ++ msField 4 c.openHeld ++ msField 2 c.waitClose
    ++ msField 2 c.closing ++ msField 2 c.locking ++ msField 2 c.locked
    ++ satField 2 (c.peakOpen / 10).toNat ++ satField 2 (c.peakClose / 10).toNat ++ satField 4 c.energyOpen ++ satField 4 c.energyClose
    ++ obs 0 ++ obs 1 ++ obs 2 ++ satField 1 c.recloses ++ satField 1 c.derate
    ++ le 1 (wordOf [(0, c.derated), (1, c.policyClip), (2, c.opening ≠ 0 && !c.disturbedOpen), (3, c.closing ≠ 0 && !c.disturbedClose),
        (4, c.permissionClose), (5, c.autoClose), (6, c.resync), (7, c.referenced)]).toNat
    ++ le 1 (leafCode end_) ++ pWord (if end_ = .fault then cause else "") ++ satField 2 (driftMax s n)
    ++ (match c.line with | none => le 4 0x80000000 | some v => pInt v)
    ++ le 1 c.closeSession ++ tagField c.closeTag
    ++ (match c.deploy with | none => le 2 0xFFFF | some v => msField 2 v)
    ++ (match c.stow with | none => le 2 0xFFFF | some v => msField 2 v)
/-- The cycle with the time of the leaf's present state added (R450). -/
def cycleTime (t : Station) (now : Nat) : Cycle :=
  let d := now - t.leafSince
  let c := t.cycle
  match t.leaf with
  | .unlocking => { c with unlocking := c.unlocking + d }
  | .opening => { c with opening := c.opening + d }
  | .opn | .held => { c with openHeld := c.openHeld + d }
  | .closing | .reversing => { c with closing := c.closing + d }
  | .locking => if t.closedMade then { c with locked := c.locked + d } else { c with locking := c.locking + d }
  | _ => c
/-- A cycle that begins now (R450). -/
def newCycle (s : State) (n : Nat) : Cycle :=
  let t := s.stn n
  let o := t.doorOp.bind s.opOf
  { running := true, start := s.time, session := (o.map fun o => portByte o.port).getD 255, tag := o.bind (·.tag)
    referenced := t.axis.referenced, line := if s.line.st = .certain then some (lineMm s) else none
    waitOpen := t.cycle.waitOpen }

/-! ## System slots and timers (R172) -/

/-- A delay in us from now, in a station's timer slot (R42, R172). -/
def slotTimer (n off us : Nat) (s : State) : State := sysArm n off .time 1 (afterUs us s) s
/-- The lock release is driven or not (R167 UNLOCK). -/
def unlockOut (n : Nat) (on : Bool) (s : State) : State := askOut n (s.keyIs (.st n) .UNLOCK "OUT1") on s

/-! ## The leaf state (R169, R174, R175) -/

/-- The indicator lamp is on in every leaf state but CLOSED_LOCKED and ISOLATED (R169). -/
def leafLamp (n : Nat) (s : State) : State :=
  match doorLamp s n with
  | none => s
  | some w => ask n w (if (s.stn n).leaf ≠ .closedLocked ∧ (s.stn n).leaf ≠ .isolated then .on else .off) s
/-- The door cycle commands the feed on while the leaf is in service and neither in FAULT nor ISOLATED; the one it gives as the leaf
leaves FAULT is the ON of R236 (R209, R236, R297; DEDUCED, log entry 17). -/
def doorFeed (n : Nat) (leaves : Bool) (s : State) : State :=
  let t := s.stn n
  let want := !t.outOfService && decide (t.leaf ≠ .fault ∧ t.leaf ≠ .isolated) && unomSet s n
  let feed := fun (m : Nat) (s : State) =>
    if want ∧ leaves then askOn m .fd s else ask m .fd (if want then .on else .off) s
  let s := feed n s
  match stepStation s n with
  | none => s
  | some m => if unomSet s m ∨ ¬ want then feed m s else s
/-- The timers of a leaf are off; the end of STOWT, which runs from where stowing began, is kept for the next close (R183). -/
def clearTimers (n : Nat) (s : State) : State :=
  let s := s.modStn n fun t => { t with unlockT := none, lockT := none, finalT := none, rdwell := none, autoT := none }
  sysDrop n 15 (sysDrop n 7 (sysDrop n 1 s))
/-- Force detection and the crossings of a closing leaf are off. -/
def disarm (n : Nat) (s : State) : State :=
  let s := s.modStn n fun t => { t with armed := false, forceSince := none }
  sysDrop n 3 (sysDrop n 2 s)

/-- A leaf takes a state: the cycle's times are kept, its record is begun and written, the indicator and the feed follow
(R169, R174, R450). -/
def setLeaf (n : Nat) (st : Leaf) (s : State) : State :=
  let t := s.stn n
  let s := s.modStn n fun t => { t with cycle := cycleTime t s.now, leaf := st, leafSince := s.now, closedMade := false }
  let s := if t.leaf = .closedLocked ∧ st ≠ .closedLocked ∧ ¬ t.cycle.running then
      s.modStn n fun t => { t with cycle := newCycle s n } else s
  let ends := decide (st = .closedLocked ∨ st = .fault ∨ st = .isolated)
  let c := (s.stn n).cycle
  let s := if ends ∧ c.running then
      let s := record 0x0401 (cyclePayload s n c st t.cause)
        { station := n, session := c.session, tag := c.tag, stamp := some c.start } s
      s.modStn n fun t => { t with cycle := {} }
    else s
  let s := if ends then (sysDrop n 0 (clearTimers n (disarm n s))).modStn n fun t => { t with stowT := none } else sysControl n s
  let s := if st = .opn ∨ st = .closedLocked then s.modStn n fun t => { t with obstacle := false } else s
  doorFeed n (decide (t.leaf = .fault)) (leafLamp n s)

/-- The reference search of a leaf's step is given up: its axis stops at DEC, and the open's charge goes (R480). -/
def endSearch (n : Nat) (s : State) : State :=
  if !(s.stn n).stepRefs then s
  else
    let s := dropCharge n (s.modStn n fun t => { t with stepRefs := false })
    match stepStation s n with
    | none => s
    | some m => if (s.ax m).motion.any (fun x => decide (x.kind = .ref) && x.op.isNone) then rampStop m (axRate s m .DEC) .done s else s
/-- The step's coupling, or the search before it, ends, and its axis stops (R181). -/
def uncoupleStep (n : Nat) (s : State) : State :=
  let s := sysDrop n 6 (endSearch n s)
  match stepStation s n with
  | none => s
  | some m =>
    match (s.ax m).motion with
    | some x => if x.couple.isSome ∧ x.op.isNone then rampStop m (axRate s m .DEC) .done s else s
    | none => s
/-- A motorised step is coupled to its leaf. -/
def stepCoupled (s : State) (n : Nat) : Bool :=
  match stepStation s n with
  | none => false
  | some m => (s.ax m).motion.any fun x => x.op.isNone && (x.couple.any fun c => decide (c.master = .ax n)) && decide (x.phase = .running)
/-- The step's axis is coupled to the leaf through STEPCAM, unless it is so already (R181). -/
def coupleStep (n : Nat) (s : State) : State :=
  match stepStation s n, s.key (.st n) .STEPCAM with
  | some m, .i table =>
    if stepCoupled s n then s
    else (sysHold n 6 n s).modAx m fun a => { a with
      moving := true
      motion := some { kind := .cam, phase := .running, speed := axRate s m .SPEED, acc := axRate s m .ACC, dec := axRate s m .DEC, couple := some { table := table.toNat, master := .ax n, offset := 0, t0 := s.time / 1000, target := a.pos } } }
  | _, _ => s
/-- A motorised step begins to deploy with its leaf (R181, R182). -/
def deployStep (n : Nat) (s : State) : State :=
  let s := if (stepStation s n).isSome then s.modStn n fun t => { t with step := .deploying, stepSince := s.now, stowT := none } else s
  coupleStep n s
/-- The crossing at which an OUT1 step deploys is armed (R172, R181). -/
def armDeploy (n : Nat) (s : State) : State := if stepOut1 s n then sysArm n 4 (.ax n) 1 (stCounts s n .STEPDEP) s else s

/-- The leaf enters CLOSED_LOCKED: the drive stops, the door reference is set, attempts and slots are cleared, and the command's
part is reached (R175, R178, R179). -/
def closeAndLock (n : Nat) (s : State) : State :=
  let s := hardStop n .done s
  let s := unlockOut n false (uncoupleStep n s)
  let s := s.modStn n fun t => { t with attempts := 0, kept := none, atZone := false, reopened := false, cause := "", step := if hasStep s n ∧ inOn s n .STOWSW then .stowed else t.step }
  let s := setLeaf n .closedLocked s
  let s := referenceSet n 0 none s
  doorReached n (dropCharge n (endWait n s))
/-- The leaf is HELD with a target kept, or with none; its slots on AX stay (R174). -/
def standHeld (n : Nat) (kept : Option Bool) (s : State) : State :=
  let s := s.modStn n fun t => { t with clean := false, kept, atZone := false, reopened := false, armed := false, forceSince := none }
  setLeaf n .held (clearTimers n (leaveWait n s))
/-- The leaf stands with a target kept, or with none (R174). -/
def holdLeaf (n : Nat) (kept : Option Bool) (s : State) : State := standHeld n kept (disarm n s)
/-- A REF LEARN on the leaf ends with an error; what it has measured is dropped (R184; DESIGN CHOICE, log entry 42). -/
def learnFails (n : Nat) (e : Err) (s : State) : State :=
  match (s.stn n).learning with
  | none => s
  | some id => failOp id e (s.modStn n fun t => { t with learning := none, traverses := [], points := [] })
/-- What a door command moves that is no leaf, a step by itself, fails with its axis (R130, R144 to R146, R171). -/
def stepFails (n : Nat) (e : Err) (cause : String) (s : State) : State :=
  if isLeaf s n ∨ (s.stn n).doorOp.isNone then s
  else doorFailed n e cause (s.modAx n fun a => { a with motion := a.motion.map fun m => { m with turn := none } })
/-- The leaf goes to FAULT with a cause; UNLOCK is off, and the command's part fails (R175). Its step stays coupled until CLOSED_LOCKED
(R181). -/
def faultLeaf (n : Nat) (cause : String) (e : Err) (s : State) : State :=
  if (s.stn n).leaf = .isolated then s else
  let s := s.modStn n fun t => { t with cause, kept := none, atZone := false, reopened := false }
  let s := if (s.stn n).wait.isSome then resumeFails n e (leaveWait n s) else s
  let s := learnFails n e (unlockOut n false s)
  doorFailed n e cause (endSearch n (setLeaf n .fault s))

/-! ## Door moves (R177, R178, R180, R189) -/

/-- A door motion. -/
def doorMotion (s : State) (n : Nat) (kind : MKind) (cls : Nat) (key : Key) (target : Option Int) (d : Nat) : Motion :=
  { kind, cls, target, phase := .running, speed := convRate s n (s.stK n key).toNat, acc := axRate s n .ACC, dec := axRate s n .DEC, jerk := axRate s n .JERK
    scurve := s.keyIs (.ch n .ax) .PROFILE "SCURVE", d }
/-- The closing plan: to the lock zone at CREEP, then on at CREEP to -FERR/2 counts; all of it at CREEP on an unreferenced leaf
(R178, R180). It is a trapezoid whatever the axis PROFILE, which R177 gives to the opening move alone (DESIGN CHOICE, log entry 119). -/
def closePlan (s : State) (n : Nat) (m : Motion) : List Seg :=
  let creep := axRate s n .CREEP
  let cmd := cmdAt (s.ax n)
  if !(s.ax n).referenced then planOpen (withD s n m.d creep) (withD s n m.d m.acc) true true
  else
    let lock := countsToSteps s n (lockPos s n)
    let goal := countsToSteps s n (-(s.axK n .FERR / 2))
    let nMain := (cmd - lock).toNat
    let nCreep := (min cmd lock - goal).toNat
    planClose (withD s n m.d m.speed) (withD s n m.d m.acc) (withD s n m.d m.dec) creep nMain nCreep true
/-- The plan of a door motion in a direction. -/
def doorPlan (s : State) (n : Nat) (m : Motion) : List Seg :=
  match m.kind with
  | .doorClose => closePlan s n m
  | _ => match m.target with
    | none => []
    | some t => planFor s n m (t - cmdAt (s.ax n))
/-- The closing leaf's slots and force detection are armed: from OBSTARM, or from the first step below it (R172, R186). -/
def armClosing (n : Nat) (s : State) : State :=
  let s := sysArm n 2 (.ax n) 2 (lockPos s n) s
  let s := if stepOut1 s n then sysArm n 5 (.ax n) 2 (stCounts s n .STEPSTOW) s else s
  if !(s.ax n).referenced ∨ (s.ax n).pos < stCounts s n .OBSTARM then
    s.modStn n fun t => { t with armed := true, forceSince := none }
  else sysArm n 3 (.ax n) 2 (stCounts s n .OBSTARM) (s.modStn n fun t => { t with armed := false, forceSince := none })
/-- A door motion starts from standstill (R131, R172); one that has no step to make has none to wait for (R154). -/
def startDoor (n : Nat) (m : Motion) (s : State) : State :=
  let segs := doorPlan s n m
  let s := s.modAx n fun a => { a with motion := some m, fault := if a.fault = some "follow" then none else a.fault, ferrSince := none }
  let s := setCourse n segs (fun m => m) s
  if segs.all (fun g => g.len = some 0) then resumeDone n s else s
/-- The opening move of a leaf, with the speed factor of its admission (R177, R318). -/
def openMotion (s : State) (n d : Nat) : Motion :=
  doorMotion s n .doorOpen 2 .OSPEED (some (countsToSteps s n (openPos s n))) d
/-- The closing move of a leaf, with the speed factor of its admission (R178, R318). -/
def closeMotion (s : State) (n d : Nat) : Motion :=
  doorMotion s n .doorClose 1 .CSPEED none d
/-- A move of a leaf in a direction. -/
def leafMotion (s : State) (n d : Nat) (opening : Bool) : Motion := if opening then openMotion s n d else closeMotion s n d
/-- The charges of a leaf's move: its own, and that of its motorised step, from the leaf's first step to the planned end (R303 to R305). -/
def leafCharges (s : State) (n cls : Nat) (opening : Bool) (m : Motion) : List Charge :=
  let segs := doorPlan s n m
  let env := doorEnvelope s n opening segs (cmdAt (s.ax n)) (!opening)
  let open_ := segs.any fun g => g.len.isNone
  { station := n, bus := busOfSt s n, cls, env, open_ } :: match stepStation s n with
    | none => []
    | some k => [{ station := k, owner := some n, bus := busOfSt s k, cls, env := List.replicate (max 1 (planMs segs)) (s.axK k .IENV).toNat, open_ }]
/-- An admitted open leaves CLOSED_LOCKED: UNLOCK on, UNLOCKT started (R175). -/
def beginUnlock (n : Nat) (s : State) : State :=
  let us := (s.stK n .UNLOCKT).toNat
  let s := unlockOut n true (setLeaf n .unlocking s)
  slotTimer n 1 us (s.modStn n fun t => { t with unlockT := some (afterUs us s), kept := some true })
/-- The search of a leaf's step is over once its axis has no motion: referenced, UNLOCK is driven; else the part fails with E06 naming
the step's axis, and the leaf stays CLOSED_LOCKED (R480). -/
def searchEnds (n : Nat) (s : State) : State :=
  match stepStation s n with
  | none => endSearch n s
  | some m =>
    if (s.ax m).motion.isSome then s
    else
      let s := s.modStn n fun t => { t with stepRefs := false }
      if (s.ax m).referenced then beginUnlock n s else learnFails n (e06Ax m) (doorFailed n (e06Ax m) "step" (dropCharge n s))
/-- The leaf begins to open: the move, its step, and the samples of a new traverse (R175, R177, R181). -/
def beginOpening (n : Nat) (s : State) : State :=
  let s := if (s.stn n).leaf = .opening then s else setLeaf n .opening s
  let s := s.modStn n fun t => { t with points := [], forceSince := none, kept := some true, autoT := none, clean := t.clean && decide (t.admD = 10000)
                                        cycle := { t.cycle with disturbedOpen := t.cycle.disturbedOpen || decide (t.admD < 10000), derated := t.cycle.derated || decide (t.admD < 10000) } }
  startDoor n (openMotion s n (s.stn n).admD) (deployStep n (armDeploy n s))
/-- LOCKSW has opened in UNLOCKING: the leaf moves (R175, R177); not while the lamp engine is being reset, as then no leaf moves (R15). -/
def lockOpens (n : Nat) (s : State) : State :=
  if s.engDown .lamp then s else beginOpening n (clearTimers n (s.modStn n fun t => { t with clean := true }))
/-- The leaves whose lock opened while the lamp engine was being reset move now (R13, R15). -/
def lateOpens (s : State) : State :=
  forEach (s.st.map (·.1)) (fun n s => if isLeaf s n ∧ (s.stn n).leaf = .unlocking ∧ ¬ inOn s n .LOCKSW then lockOpens n s else s) s
/-- Stowing begins: STOWT runs in slot 7 (R172, R182, R183). -/
def beginStow (n : Nat) (s : State) : State :=
  let us := (s.stK n .STOWT).toNat
  slotTimer n 7 us (s.modStn n fun t => { t with step := .stowing, stepSince := s.now, stowT := some (afterUs us s) })
/-- The end of STOWT of an OUT1 step whose stowing has begun stands in slot 7 again (R172, R183). -/
def restow (n : Nat) (s : State) : State :=
  match (s.stn n).stowT with
  | some t => if stepOut1 s n ∧ (s.stn n).step = .stowing ∧ ¬ inOn s n .STOWSW then sysArm n 7 .time 1 t s else s
  | none => s
/-- The leaf begins to close (R175, R178, R181, R183). -/
def beginClosing (n : Nat) (s : State) : State :=
  let s := if (s.stn n).leaf = .closing ∨ (s.stn n).leaf = .locking then s else setLeaf n .closing s
  let s := s.modStn n fun t => { t with points := [], kept := some false, autoT := none, reopened := false, atZone := false, clean := t.clean && decide (t.admD = 10000)
                                        cycle := { t.cycle with disturbedClose := t.cycle.disturbedClose || decide (t.admD < 10000), derated := t.cycle.derated || decide (t.admD < 10000), derate := t.admD / 100 } }
  let s := if (s.stn n).leaf = .closing then armClosing n s else s
  let s := if (stepStation s n).isSome ∧ ¬ inOn s n .STOWSW then beginStow n s else restow n s
  startDoor n (closeMotion s n (s.stn n).admD) (sysDrop n 15 (coupleStep n s))

/-! ## LOCKING and obstacles (R178, R183, R187 to R189) -/

/-- CLOSEDSW is made in LOCKING: FINALT ends and LOCKT starts (R178). -/
def closedIsMade (n : Nat) (s : State) : State :=
  let us := (s.stK n .LOCKT).toNat
  slotTimer n 1 us (sysDrop n 7 (s.modStn n fun t => { t with
    cycle := cycleTime t s.now, leafSince := s.now, closedMade := true, finalT := none, lockT := some (afterUs us s) }))
/-- The leaf enters LOCKING: FINALT starts, force detection is off (R178); where CLOSEDSW is made already, it waits for LOCKSW. -/
def enterLocking (n : Nat) (s : State) : State :=
  let s := disarm n (setLeaf n .locking s)
  let us := (s.stK n .FINALT).toNat
  let s := slotTimer n 7 us (s.modStn n fun t => { t with finalT := some (afterUs us s), atZone := false })
  if inOn s n .CLOSEDSW then closedIsMade n s else s
/-- A bounded key of a leaf as the hardware loops use it: never above its ceiling (R192, R347). -/
def underCeiling (s : State) (n : Nat) (k top : Key) : Int :=
  if s.key (.st n) top = .unset then s.stK n k else min (s.stK n k) (s.stK n top)
/-- The threshold of force detection: the learned point plus MARGIN; flat on an unreferenced leaf (R180, R186). -/
def forceLimit (s : State) (n : Nat) (opening : Bool) : Int :=
  let t := s.stn n
  let prof := learned t opening
  underCeiling s n .MARGIN .MARGINMAX + (if t.axis.referenced then profPoint s n prof t.axis.pos else profMax prof)
/-- The obstacle record: cause, position, current, threshold, the two instants, the attempt (R189). -/
def obstacleRec (n : Nat) (cause : String) (current limit : Int) (attempt : Nat) (s : State) : State :=
  record 0x0402 (pWord cause ++ pInt (s.ax n).pos ++ pInt (10 * current) ++ pInt (10 * limit) ++ pInst s.time ++ pInst s.time ++ pNum attempt)
    { station := n, engine := 4 } s
/-- The place of a cause among the counts of R450. -/
def obstacleIdx (cause : String) : Nat := if cause = "FORCE" then 0 else if cause = "EDGE" then 1 else 2
/-- A closing obstacle: the leaf reverses and stops at SDEC as P0, to reopen by REOPEN (R189). -/
def closingObstacle (n : Nat) (cause : String) (current limit : Int) (s : State) : State :=
  let t := s.stn n
  let attempt := t.attempts + 1
  let s := obstacleRec n cause current limit attempt s
  let s := match t.doorOp with
    | none => s
    | some id => sayOp id (colR "obstacle" [.obj (.st n), .w cause, .kn "attempt" attempt ""]) s
  let i := obstacleIdx cause
  let s := setLeaf n .reversing (clearTimers n (disarm n s))
  let s := s.modStn n fun t => { t with
    clean := false, obstacle := true, reopened := false, reopenTo := min (t.axis.pos + stCounts s n .REOPEN) (openPos s n), kept := some false
    cycle := { t.cycle with obstacles := (List.range 3).map fun k => t.cycle.obstacles.getD k 0 + (if k = i then 1 else 0), disturbedClose := true } }
  rampStop n (axRate s n .SDEC) .done s
/-- An opening obstacle: the leaf stops at SDEC and is HELD, and status bit 5 is set (R175, R186). -/
def openingObstacle (n : Nat) (current limit : Int) (s : State) : State :=
  let t := s.stn n
  let s := obstacleRec n "FORCE" current limit (t.attempts + 1) s
  let s := match t.doorOp with
    | none => s
    | some id => sayOp id (colR "obstacle" [.obj (.st n), .w "FORCE", .kn "attempt" (t.attempts + 1 : Nat) ""]) s
  let s := rampStop n (axRate s n .SDEC) .done s
  let s := holdLeaf n (some true) (s.modStn n fun t => { t with obstacle := true, cycle := { t.cycle with disturbedOpen := true } })
  doorFailed n (e06St n) "obstacle" s
/-- Charges take their reservations, of a type and with a start instant, and stand (R322). -/
def chargeAll (type : Nat) (start : Int) (l : List Charge) (s : State) : List Charge × State :=
  let r := l.foldl (fun (q : List Charge × State) x => let y := reserve type start x q.2; (q.1 ++ [y.1], y.2)) ([], s)
  (r.1, r.2.modYar fun y => { y with charges := y.charges ++ r.1 })
/-- A P0 move is charged without a test, with its step (R300, R305, R322). -/
def chargeP0 (n : Nat) (m : Motion) (opening : Bool) (s : State) : State :=
  let s := dropCharge n s
  (chargeAll 3 s.time (leafCharges s n 0 opening m) s).2
/-- A limit switch ends the command of an axis, a session's or the door cycle's, which reports it (R150, R151). -/
def limitTold (n : Nat) (positive : Bool) (s : State) : State :=
  let r := colR "stopped" [.kw "limit" (if positive then "LIMPOS" else "LIMNEG")]
  let s := match (s.stn n).doorOp with
    | some id => sayOp id r s
    | none => motionSays n r s
  doorFailed n (e06Ax n) "limit" (motionFails n s)
/-- The reopen after an obstacle, with the step that goes out again; an active limit switch on its way ends it where the leaf stands
(R150, R181, R182, R189). -/
def beginReopen (n : Nat) (s : State) : State :=
  let t := s.stn n
  let m := { doorMotion s n .reopen 0 .OSPEED (some (countsToSteps s n (max t.reopenTo t.axis.pos))) 10000 with cls := 0 }
  if limitActive s n false && m.target != some t.axis.cmd then (limitTold n true s).modStn n fun t => { t with reopened := true }
  else startDoor n m (deployStep n (armDeploy n (chargeP0 n m true s)))

/-! ## Standstill in the door cycle -/

/-- The old charges of a re-planned move with the new move's envelopes; none where one of these peaks higher than what it would take over
(R306). -/
def takenOver (old new : List Charge) : Option (List Charge) :=
  new.foldr (fun c l =>
    match l, old.find? (·.station = c.station) with
    | some l, some o => if envMax c.env ≤ envMax o.env then some ({ c with res := o.res } :: l) else none
    | _, _ => none) (some [])
/-- A leaf's axis has come to standstill: a re-plan takes over the old charge, with the speed factor of its admission, or waits for its own
admission, and an obstacle's reopen starts (R175, R189, R306, R318); toward an active limit switch nothing starts (R150). -/
def doorStands (n : Nat) (turn : Option Bool) (ended : Option MKind) (old : List Charge) (s : State) : State :=
  let t := s.stn n
  match turn with
  | some opening =>
    let cls := if opening then 2 else 1
    if limitActive s n (!opening) then learnFails n (e06Ax n) (limitTold n opening s)
    else match takenOver old (leafCharges s n cls opening (leafMotion s n t.admD opening)) with
    | some l =>
      let s := s.modYar fun y => { y with charges := y.charges ++ l }
      if opening then beginOpening n s else beginClosing n s
    | none => beginWait n cls t.why opening s
  | none =>
    if t.leaf ≠ .reversing ∨ t.reopened then s
    else if ended = some .reopen then s.modStn n fun t => { t with reopened := true }
    else beginReopen n s
/-- The cam table of the step that a step station is: its leaf's STEPCAM, when that is complete (R159, R181). -/
def stepTable (s : State) (n : Nat) : Option Nat :=
  match (servedLeaf s n).map fun l => s.key (.st l) .STEPCAM with
  | some (.i c) => match s.key (.cam c.toNat) .N with
    | .i k => if (List.range k.toNat).all (fun i => decide (s.key (.camPt c.toNat i) .X ≠ .unset ∧ s.key (.camPt c.toNat i) .Y ≠ .unset)) then some c.toNat else none
    | _ => none
  | _ => none
/-- The step position, in counts, that OPEN or CLOSE of a step alone goes to: the last or the first Y of its leaf's STEPCAM
(R181, R182; DESIGN CHOICE, log entry 40). -/
def stepGoal (s : State) (n : Nat) (opening : Bool) : Option Int :=
  (stepTable s n).map fun c => s.keyI (.camPt c (if opening then (s.keyN (.cam c) .N) - 1 else 0)) .Y
/-- The move of a step station to a position in counts (R128, R173). -/
def stepMotion (s : State) (n : Nat) (y : Int) : Motion :=
  { kind := .move, cls := 3, target := some (countsToSteps s n y), phase := .waiting, speed := axRate s n .SPEED, acc := axRate s n .ACC
    dec := axRate s n .DEC, jerk := axRate s n .JERK, scurve := s.keyIs (.ch n .ax) .PROFILE "SCURVE" }
/-- A step station goes to a position by itself, admitted as P3 (R166, R173). -/
def moveStep (n : Nat) (opening : Bool) (s : State) : State :=
  match stepGoal s n opening with
  | none => s
  | some y =>
    beginWait n 3 .command opening (s.modAx n fun a => { a with motion := some (stepMotion s n y), fault := if a.fault = some "follow" then none else a.fault })
/-- What a stopped leaf has left to its kept target, counts: OPENPOS, or the closing move's -FERR/2; an unreferenced close has no target,
and the value is free (R152, R153, R178; log entry 96). -/
def leafRem (n : Nat) (s : State) : Int × State :=
  let left := fun (c : Int) => (stepsToCounts s n (countsToSteps s n c - (s.ax n).cmd), s)
  match (s.stn n).kept with
  | some true => left (openPos s n)
  | _ => if (s.ax n).referenced then left (-(s.axK n .FERR / 2)) else let d := s.draw; (Config.freeInt d.1, d.2)
/-- A leaf that a STOP has made HELD reports to its command what is left, once it stands (R152; several stations of one command: DESIGN
CHOICE, log entry 120). -/
def leafHeld (n : Nat) (s : State) : State :=
  if (s.stn n).leaf = .held ∧ (s.stn n).kept.isSome ∧ ((s.stn n).doorOp.isSome ∨ (s.stn n).learning.isSome) then
    let r := leafRem n s
    cycleSays n (colR "held" [.kn "rem" r.1 ""]) r.2
  else s
/-- A motion of the door cycle's own. -/
def doorKind (m : Motion) : Bool := m.op.isNone && decide (m.kind = .doorOpen ∨ m.kind = .doorClose ∨ m.kind = .reopen)
/-- An axis comes to standstill, and its station goes on from there: a leaf in its cycle, a step that another door command has taken over
on its way (R171, R175). -/
def standstill (n : Nat) (s : State) : State :=
  let m := (s.ax n).motion
  let old := s.yar.charges.filter fun c => decide (c.of = n ∧ ¬ c.byOut)
  let s := axisStops n s
  let turn := m.bind (·.turn)
  if isLeaf s n then doorStands n turn (m.map (·.kind)) old (if m.any doorKind then leafHeld n s else s)
  else match turn with
    | some opening => moveStep n opening s
    | none => s
/-- After a stop: an axis that already stands comes to standstill at once. -/
def settleAxis (n : Nat) (s : State) : State :=
  if (s.ax n).motion.any (fun m => decide (m.phase = .stopping)) && stands s n then standstill n s else s

/-- A limit switch stops an axis, HARD or at SDEC (R150, R151). -/
def limitStops (n : Nat) (positive : Bool) (s : State) : State :=
  let s := limitTold n positive s
  settleAxis n (if s.keyIs (.ch n .ax) .LIMSTOP "HARD" then hardStop n .done s else rampStop n (axRate s n .SDEC) .done s)

end Sys2Proof.Machine
end

