-- ==== Sys2Proof/Machine/Cam.lean ====
section
/-! DEFINITION. Vetch, the cam coupling: the table as a curve, the slave target, and the re-plan toward it (04 R159 to R163). -/

namespace Sys2Proof.Machine

open Sys2Proof

/-! ## The table (R159) -/

/-- Points 0 to N - 1 of a table; none while N or one of them is unset. -/
def camPoints (s : State) (c : Nat) : Option (List (Int × Int)) :=
  match s.key (.cam c) .N with
  | .i k =>
    let l := (List.range k.toNat).filterMap fun i => match s.key (.camPt c i) .X, s.key (.camPt c i) .Y with
      | .i x, .i y => some (x, y)
      | _, _ => none
    if l.length = k.toNat ∧ 2 ≤ l.length then some l else none
  | _ => none
/-- X values rise strictly. -/
def rising : List (Int × Int) → Bool
  | a :: b :: t => decide (a.1 < b.1) && rising (b :: t)
  | _ => true
/-- The first and the last point. -/
def camEnds (l : List (Int × Int)) : (Int × Int) × (Int × Int) := (l.headD (0, 0), (l.getLast?).getD (0, 0))

/-! ## Interpolation (R160) -/

/-- Fixed-point unit of the cubic curve. -/
def camOne : Int := 1048576
/-- The secant slopes of a table, in 2^-20 (R160). -/
def secants : List (Int × Int) → List Int
  | a :: b :: t => (b.2 - a.2) * camOne / (b.1 - a.1) :: secants (b :: t)
  | _ => []
/-- Slopes at the inner points: the mean of the two secants, 0 where they differ in sign (Fritsch and Carlson). -/
def innerSlopes : List Int → List Int
  | a :: b :: t => (if a * b ≤ 0 then 0 else (a + b) / 2) :: innerSlopes (b :: t)
  | _ => []
/-- The slopes at all points: one-sided at the ends (R160). -/
def slopes (d : List Int) : List Int := d.headD 0 :: innerSlopes d ++ [(d.getLast?).getD 0]
/-- The slopes limited interval by interval, in order, so that the curve stays monotone: where the two at an interval's ends, as a vector,
leave the circle of three times its secant, both are drawn back to it; a limited slope holds for both intervals of its point
(Fritsch and Carlson; R160). -/
def limitSlopes : List Int → List Int → List Int
  | d :: ds, m0 :: m1 :: ms =>
    let q := if d = 0 then (0, 0)
      else
        let r := isqrt (m0 * m0 + m1 * m1).toNat
        if (r : Int) ≤ 3 * d.natAbs then (m0, m1) else (m0 * 3 * d.natAbs / r, m1 * 3 * d.natAbs / r)
    q.1 :: limitSlopes ds (q.2 :: ms)
  | _, ms => ms
/-- The cubic Hermite value at u of an interval of width h, rounded, within the two points' Y (R160). -/
def hermite (y0 y1 m0 m1 h u : Int) : Int :=
  let h3 := h * h * h
  let v := y0 * camOne * (2 * u * u * u - 3 * h * u * u + h3) + m0 * h * (u * u * u - 2 * h * u * u + h * h * u)
    + y1 * camOne * (3 * h * u * u - 2 * u * u * u) + m1 * h * (u * u * u - h * u * u)
  clampI (min y0 y1) (max y0 y1) (roundDiv v (camOne * h3).toNat)
/-- The interval of a table that covers a value: its number and its two points. -/
def camSpan : List (Int × Int) → Int → Nat → Option (Nat × (Int × Int) × (Int × Int))
  | a :: b :: t, x, k => if x < b.1 ∨ t = [] then some (k, a, b) else camSpan (b :: t) x (k + 1)
  | _, _, _ => none
/-- The curve of a table at a value inside it (R160); parts of a count are rounded to the nearest. -/
def camCurve (cubic : Bool) (l : List (Int × Int)) (x : Int) : Int :=
  match camSpan l x 0 with
  | none => 0
  | some (k, a, b) =>
    if !cubic then a.2 + roundDiv ((b.2 - a.2) * (x - a.1)) (b.1 - a.1).toNat
    else
      let d := secants l
      let m := limitSlopes d (slopes d)
      hermite a.2 b.2 (m.getD k 0) (m.getD (k + 1) 0) (b.1 - a.1) (x - a.1)
/-- The value of a table for a master value: wrapped, or held at its ends (R160). -/
def camAt (wrap cubic : Bool) (l : List (Int × Int)) (m : Int) : Int :=
  let e := camEnds l
  if wrap then camCurve cubic l (e.1.1 + (m - e.1.1) % (e.2.1 - e.1.1))
  else if m ≤ e.1.1 then e.1.2
  else if e.2.1 ≤ m then e.2.2
  else camCurve cubic l m

/-! ## Target and re-plan (R160 to R163) -/

/-- The master value of a coupling (R160). -/
def masterValue (s : State) (c : Couple) : Int :=
  match c.master with
  | .time => s.time / 1000 - c.t0
  | t => tbValue s t
/-- The slave target in counts: OFFSET plus the interpolated value, clamped to the soft limits (R160). -/
def camTarget (s : State) (n : Nat) (c : Couple) : Int :=
  match camPoints s c.table with
  | none => c.target
  | some l =>
    let v := camAt (s.keyIs (.cam c.table) .WRAP "ON") (s.keyIs (.cam c.table) .INTERP "CUBIC") l (masterValue s c)
    clampI (s.axK n .SLMIN) (s.axK n .SLMAX) (c.offset + v)
/-- A re-plan under R142 toward a commanded target: from the loaded interval's speed when it leads that way and the stop still
fits, else a stop first and the move on to the target from there (R161). -/
def replan (n : Nat) (target : Int) (s : State) : State :=
  let a := s.ax n
  match a.motion with
  | none => s
  | some m =>
    let dist := target - cmdAt a
    let v0q := match a.loaded with
      | none => 0
      | some _ => loadedSpeedSq a
    let neg := decide (dist < 0)
    let v := withD s n m.d m.speed
    let acc := withD s n m.d m.acc
    let dec := withD s n m.d m.dec
    let straight := decide (a.loaded = none) || decide ((a.loaded.map (·.neg)) = some neg)
    let fits := decide (roundUp v0q (2 * dec * rateUnit) ≤ dist.natAbs)
    if dist = 0 ∧ a.loaded = none then s
    else if straight ∧ fits ∧ dist ≠ 0 then setCourse n (trapFrom (min v0q (v * v)) v acc dec dist.natAbs neg) (fun m => m) s
    else
      let back := (a.loaded.map (·.neg)).getD false
      let stop := stopPlan s n dec
      let ns : Int := ((stop.map fun g => g.len.getD 0).sum : Nat)
      let rest := if back then dist + ns else dist - ns
      setCourse n (stop ++ if rest = 0 then [] else trapFrom 0 v acc dec rest.natAbs (decide (rest < 0))) (fun m => m) s
/-- The slave is updated: held while the master is uncertain, else re-planned toward its new target, which an active limit switch on the way
ends (R150, R161, R163). -/
def camTrack (n : Nat) (s : State) : State :=
  match (s.ax n).motion with
  | none => s
  | some m =>
    match m.couple with
    | none => s
    | some c =>
      if m.phase ≠ .running then s
      else if tbUncertain s c.master then camHold n s
      else
        let t := camTarget s n c
        let s := modCouple n (fun c => { c with target := t, held := false }) s
        let goal := softClamp s n (countsToSteps s n t)
        let neg := decide (goal < (s.ax n).cmd)
        if goal ≠ (s.ax n).cmd ∧ limitActive s n neg then limitStops n (!neg) s else replan n goal s
/-- The slave has come within ITOL of its target: it is engaged, once (R162, R163). -/
def camEngage (n : Nat) (s : State) : State :=
  match (s.ax n).motion with
  | none => s
  | some m =>
    match m.couple with
    | none => s
    | some c =>
      if c.engaged ∨ c.held ∨ m.phase ≠ .running ∨ s.axK n .ITOL < (c.target - (s.ax n).pos).natAbs then s
      else motionSays n (colR "engaged") (modCouple n (fun c => { c with engaged := true, lagSince := none }) s)
/-- Since when an engaged slave lags by more than CAMLAG; none while a STOP holds the coupling (R162, R163). -/
def lagWatch (n : Nat) (s : State) : State :=
  let runs := (s.ax n).motion.any fun m => decide (m.phase = .running)
  let far := fun (c : Couple) => runs && c.engaged && !c.held && decide (s.axK n .CAMLAG < (c.target - (s.ax n).pos).natAbs)
  modCouple n (fun c => { c with lagSince := sinceOf c.lagSince (far c) s.now }) s
/-- The leaf whose motorised step is deployed: coupling engaged, with the leaf at or beyond the last X of STEPCAM (R182). -/
def stepDeployed (s : State) (n : Nat) : Bool :=
  match stepStation s n, s.key (.st n) .STEPCAM with
  | some m, .i c =>
    (match (s.ax m).motion.bind (·.couple) with | some x => x.engaged | none => false)
      && (match camPoints s c.toNat with | some l => decide ((camEnds l).2.1 ≤ (s.ax n).pos) | none => false)
  | _, _ => false
/-- A deploying step reaches DEPLOYED (R182); the cycle's record keeps how long it took (R450). -/
def stepReached (n : Nat) (s : State) : State :=
  if (s.stn n).step = .deploying ∧ stepDeployed s n ∧ ¬ inOn s n .STOWSW then
    s.modStn n fun t => { t with step := .deployed, cycle := { t.cycle with deploy := some (s.now - t.stepSince) } }
  else s
/-- What follows from where a slave stands: engagement, its lag, and, for the step of a leaf, DEPLOYED (R162, R182). -/
def camStands (n : Nat) (s : State) : State :=
  let s := lagWatch n (camEngage n s)
  match servedLeaf s n with
  | some l => stepReached l s
  | none => s
/-- A slave is updated (R161). -/
def camUpdate (n : Nat) (s : State) : State := camStands n (camTrack n s)
/-- A slave's master has another value, or has become certain or uncertain, since an earlier state. -/
def masterMoved (s0 s : State) (n : Nat) : Bool :=
  match (s.ax n).motion.bind (·.couple) with
  | none => false
  | some c => decide (tbValue s0 c.master ≠ tbValue s c.master) || (tbUncertain s0 c.master != tbUncertain s c.master)
/-- The slaves of what a command has moved are updated, however it moved it: by travel, a jump, a reference or the loss of one (R161,
R163). -/
def camsFollow (s0 s : State) : State := forEach ((s.st.map (·.1)).filter (masterMoved s0 s)) camUpdate s
/-- A chain of couplings leads from an axis to another (R162). -/
def couplesTo (s : State) (target : Nat) : Nat → TB → Bool
  | 0, _ => false
  | fuel + 1, .ax n => n == target || (match (s.ax n).motion with
      | some m => (match m.couple with | some c => couplesTo s target fuel c.master | none => false)
      | none => false)
  | _, _ => false

end Sys2Proof.Machine
end

