-- ==== Sys2Proof/Machine/Cancel.lean ====
section
/-! DEFINITION. Ending operations: the cancel rules of each verb, the end of a session, operations that a lost slice or an engine
reset ends (16 R503, 03 R111, 02 R76 and R77, 13 R420 and R421), and the wake frame a cancelled SLEEP sends (12 R405). -/

namespace Sys2Proof.Machine

open Sys2Proof

/-! ## Sleep frames (R405) -/

/-- The bit list of an electorate: 128 bytes (R405). -/
def electorBytes (l : List Nat) : List Byte :=
  (List.range 128).map fun i => BitVec.ofNat 8 (((List.range 8).map fun b => if 8 * i + b ∈ l then 2 ^ b else 0).sum)
/-- The head sends a sleep frame three times; a wake frame pulses WAKEOUT (R401, R405, R409; log entry 82). -/
def sendSleep (type coord number : Nat) (time : Int) (cause notReady : Nat) (electors : List Nat) (s : State) : State :=
  let s := s.modSlp fun x => { x with seq := x.seq + 1 }
  let b := le 2 (s.head.unit.getD 65535) ++ le 1 type ++ [1] ++ le 2 coord ++ le 4 number ++ leI 8 time ++ le 1 cause ++ le 1 notReady
    ++ le 4 s.slp.seq ++ electorBytes electors
  let f := b ++ le 4 (crc32 b).toNat
  let s := transmit .sleepVote none f (transmit .sleepVote none f (transmit .sleepVote none f s))
  if type = 5 ∧ 0 < s.uK .WAKEPULSE then s.modSup fun u => { u with wakeout := some (s.now + s.keyN .unit .WAKEPULSE) } else s
/-- A wake frame with a cause: bit 0 host, 1 remote, 2 local, 3 vote (R405). A vote of this unit alone sends no frame (R399). -/
def sendWake (cause : Nat) (s : State) : State :=
  let v := s.slp.vote
  if s.head.unit.isNone ∨ (v.map (·.electors.length)) = some 1 then s
  else sendSleep 5 ((v.map (·.coord)).getD (s.head.unit.getD 65535)) ((v.map (·.number)).getD s.slp.number) s.time cause 0 [] s

/-- The bits of what keeps the unit from sleeping: door, journal flush, motion, store write, engine reset, start-up (R400, R405). -/
def notReady (s : State) : Nat :=
  let door := allStations.any fun n => isLeaf s n && decide ((s.stn n).leaf ≠ .isolated ∧ (s.stn n).leaf ≠ .closedLocked)
  let motion := s.st.any fun e => e.2.axis.motion.isSome || e.2.axis.moving
  door.toNat + 2 * (!s.jrn.buf.isEmpty).toNat + 4 * motion.toNat + 8 * (s.store.write.isSome || s.cfg.saving.isSome).toNat + 16 * s.head.resetting.isSome.toNat
    + 32 * s.head.bit31.toNat
/-- A sleep is cancelled before its commit instant: it is reported and journalled (R403). -/
def abortSleep (src : Nat) (causes : List String) (s : State) : State :=
  let s := s.modSlp fun x => { x with commit := none, vote := none }
  let s := s.modSup fun u => { u with commitAt := none }
  let s := sendAll (tilR "sleep" [.w "aborted", .obj (.unitNo src), .kw "cause" (String.intercalate "," causes)]) s
  record 0x0A06 (pObj (.unitNo src) ++ causes.flatMap pWord) { engine := 1 } s
/-- In the commit window, the loss of readiness is a wake with cause `local` (R403). -/
def sleepWatch (s : State) : State :=
  if s.slp.commit.isSome ∧ ¬ s.slp.reached ∧ notReady s ≠ 0 then
    abortSleep (s.head.unit.getD 65535) ["local"] (sendWake 4 s)
  else s

/-! ## Motion (R143, R153, R163) -/

/-- A session's motion on an axis is cancelled: it stops at the DEC of its command, and one that waits or is held is over
(R143). -/
def cancelMotion (n : Nat) (s : State) : State :=
  match (s.ax n).motion with
  | none => s
  | some m =>
    if m.phase = .waiting ∨ m.phase = .held then
      resumeDone n (endWait n (dropCharge n (s.modAx n fun a => { a with motion := none, moving := a.loaded.isSome })))
    else
      settleAxis n (rampStop n m.dec .done (s.modAx n fun a => { a with motion := a.motion.map fun m => { m with op := none } }))
/-- A leaf under a cancelled door command: driven, it stops at DEC and is HELD with its target kept, its step still coupled; waiting, it
stays in its state (R181, R503). -/
def cancelLeaf (n : Nat) (s : State) : State :=
  let t := s.stn n
  let s := s.modStn n fun t => { t with doorOp := none, learning := none }
  if t.wait.isSome ∧ ¬ t.axis.moving then resumeDone n (endWait n (dropCharge n s))
  else if leafMoves t.leaf ∨ t.leaf = .unlocking then
    let kept := some (decide (t.leaf = .opening ∨ t.leaf = .unlocking))
    let s := if t.leaf = .unlocking then unlockOut n false s else s
    let s := s.modAx n fun a => { a with motion := a.motion.map fun m => { m with turn := none } }
    let s := holdLeaf n kept s
    settleAxis n (rampStop n (axRate s n .DEC) .done (endSearch n s))
  else endSearch n s
/-- A step station moved on its own by a cancelled door command. -/
def cancelStep (n : Nat) (s : State) : State :=
  let s := s.modStn n fun t => { t with doorOp := none }
  cancelMotion n s

/-- A RESUME whose axes have made no step is withdrawn; its commands stay held (R503). -/
def withdrawResume (axes : List Nat) (s : State) : State :=
  forEach axes (fun n s =>
    let s := endWait n (dropCharge n s)
    s.modAx n fun a => { a with motion := a.motion.map fun m => if m.phase = .waiting then { m with phase := .held } else m }) s

/-! ## One operation (R503) -/

/-- The operations that run inside an operation. -/
def childrenOf (s : State) (id : Nat) : List Op := s.ops.filter fun o => decide ((o.within.map (·.1)) = some id)

/-- An operation is cancelled under its verb's rules: whether it ends with E70, and the state after. `fuel` bounds the nesting of
events and REPLAY lines. -/
def cancelIn : Nat → Nat → State → Bool × State
  | 0, _, s => (false, s)
  | fuel + 1, id, s =>
    let e70 : Err := { code := 70 }
    match s.opOf id with
    | none => (false, s)
    | some o =>
      match o.prog with
      | .door running _ _ =>
        let s := forEach running (fun n s => if isLeaf s n then cancelLeaf n s else cancelStep n s) s
        (true, failOp id e70 s)
      | .motion n =>
        let s := failOp id e70 s
        (true, cancelMotion n s)
      | .learn n _ => (true, failOp id e70 (cancelLeaf n s))
      | .stopping .. => (true, failOp id e70 s)
      | .resuming axes n => if axes.length = n then (true, failOp id e70 (withdrawResume axes s)) else (false, s)
      | .proveLearn n left _ _ _ _ =>
        let s := match left.head? with
          | none => s
          | some b => ask n (chanSw b) .off s
        (true, failOp id e70 s)
      | .proveReturn n => (true, failOp id e70 (s.modLamp n .la fun l => { l with returnDue := false }))
      | .proveLoop => (true, failOp id e70 (s.modCamp fun c => { c with testOp := none }))
      | .event dv base fired =>
        if repeats s o then
          let s := forEach (childrenOf s id) (fun c s => (cancelIn fuel c.id s).2) s
          (true, failOp id e70 s)
        else if fired.isEmpty then (true, failOp id e70 s)
        else match (childrenOf s id).head? with
          | none => (false, s.modOp id fun o => { o with prog := .event dv base fired })
          | some c => cancelIn fuel c.id s
      | .watch .. => (true, failOp id e70 s)
      | .journal .. => (true, failOp id e70 s)
      | .save _ => if s.store.write.isSome then (false, s) else (true, failOp id e70 s)
      | .saveSafety latching => if s.store.write.isSome ∨ latching then (false, s) else (true, failOp id e70 s)
      | .attaching .. =>
        if s.store.write.isSome then (false, s)
        else (true, failOp id e70 (s.modTwin fun t => { t with pullFrom := none }))
      | .pairing .. => (true, failOp id e70 s)
      | .releasing .. => (true, failOp id e70 s)
      | .sleeping =>
        if s.slp.commit.isSome then (false, s)
        else
          let s := sendWake 1 s
          (true, failOp id e70 (s.modSlp fun x => { x with vote := none }))
      | .replaying k ended children deadline sess =>
        let s := s.modOp id fun o => { o with prog := .replaying k ended (0 :: children) deadline sess }
        let s := forEach (childrenOf s id) (fun c s => (cancelIn fuel c.id s).2) s
        (true, failOp id e70 s)
      | .relayed _ => (false, s)
      | .waking _ | .resetting .. => (false, s)
/-- An operation is cancelled (R503). -/
def cancelOp (id : Nat) (s : State) : Bool × State := cancelIn 3 id s

/-- Operations of a session that have no final reply and stand on their own, oldest first. -/
def sessionOps (s : State) (n : Nat) : List Op :=
  s.ops.filter fun o => decide (o.port = .session n ∧ o.within = none)
/-- Every operation of a session is cancelled; how many ended with E70 (R496). -/
def cancelAll (n : Nat) (s : State) : Nat × State :=
  (sessionOps s n).foldl (fun r o =>
    let q := cancelOp o.id r.2
    (if q.1 then r.1 + 1 else r.1, q.2)) (0, s)

/-! ## Relays and sessions (R111, R376) -/

/-- The relays of a near session end with LOGIN END (R376). -/
def dropRelays (n : Nat) (s : State) : State :=
  let l := s.net.relays.filter (·.near = n)
  let s := forEach l (fun r s => transmit .session (some r.far) (framedLine (ascii "LOGIN END")) s) s
  let s := forEach l (fun r s => releaseSlots (r.waiting.map (·.2)) s) s
  s.modNet fun x => { x with relays := x.relays.filter (·.near ≠ n) }
/-- A network session ends: its operations are cancelled, its tag memory is discarded, its number is free (R111). Operations that
cannot be cancelled run on without a session. -/
def endSession (n : Nat) (s : State) : State :=
  let s := (cancelAll n s).2
  let s := dropRelays n s
  { s.modSes n fun _ => {} with inbuf := s.inbuf.filter (·.ses ≠ n), returns := s.returns.filter (·.ctx.port ≠ .session n) }

/-! ## Suspect sessions (R429) -/

/-- The station of an object. -/
def stationOf : Obj → Option Nat
  | .ch n _ | .st n | .tb (.ax n) => some n
  | _ => none
/-- The stations a verb names. -/
def verbStations (s : State) : Verb → List Nat
  | .opn x _ _ | .cls x _ | .stop x _ | .resume x | .isolate x _ => stSel s (fun _ => true) x
  | .move n _ _ | .follow n _ | .jog n _ _ | .ref n | .refLearn n _ | .setCount n _ _ => [n]
  | .cam n _ m _ => n :: (stationOf m).toList
  | .lamp x _ | .flash x _ _ _ | .out x _ => (chSel s x).filterMap stationOf
  | .proveLearn o | .proveReturn o | .get o _ | .budget o _ | .show (.obj o) => (stationOf o).toList
  | .set x _ => (objSel s x).filterMap stationOf
  | .watch xs _ => xs.flatMap fun x => (objSel s x).filterMap stationOf
  | _ => []
/-- The stations an operation names. -/
def opStations (s : State) (o : Op) : List Nat :=
  match o.prog with
  | .door r d f => r ++ d ++ f.map (·.1)
  | .motion n | .learn n _ | .proveReturn n => [n]
  | .proveLearn n _ _ _ _ _ => [n]
  | .stopping l _ | .resuming l _ => l
  | .event v _ _ => verbStations s v ++ (match opTb o with
    | .ax n => [n]
    | _ => [])
  | _ => verbStations s o.verb
/-- Sessions become suspect, with the pool entries of their operations and the stations that these name (R429). -/
def markSuspect (l : List Nat) (s : State) : State :=
  forEach l (fun n s =>
    let s := s.modSes n fun x => { x with suspect := true }
    forEach ((sessionOps s n).filter (·.slot.isSome)) (fun o s =>
      let s := match o.slot with
        | none => s
        | some k => s.modEnt k fun e => { e with suspect := true }
      forEach (opStations s o) (fun k s => s.modStn k fun t => { t with suspect := true }) s) s) s

/-! ## Operations that a lost slice ends (R76) -/

/-- A channel object lies on a slice. -/
def onSlice (p : Nat) : Obj → Bool
  | .ch n _ => decide (slotOf n = p)
  | .st n => decide (slotOf n = p)
  | .tb (.ax n) => decide (slotOf n = p)
  | .sl q => decide (q = p)
  | _ => false
/-- A selection names a station of the slice. -/
def stHits (s : State) (p : Nat) (x : StSel) : Bool := (stSel s (fun _ => true) x).any fun n => slotOf n == p
/-- A verb names a channel of a slice (R76). -/
def verbHits (s : State) (p : Nat) : Verb → Bool
  | .opn x _ _ | .cls x _ | .stop x _ | .resume x | .isolate x _ => stHits s p x
  | .move n _ _ | .follow n _ | .jog n _ _ | .ref n | .refLearn n _ => slotOf n == p
  | .cam n _ m _ => slotOf n == p || onSlice p m
  | .lamp x _ | .flash x _ _ _ | .out x _ => (chSel s x).any (onSlice p)
  | .proveLearn o | .proveReturn o => onSlice p o
  | .setCount n _ _ => slotOf n == p
  | .set x _ => (objSel s x).any (onSlice p)
  | .get o _ => onSlice p o
  | .show (.obj o) => onSlice p o
  | .show (.slice q) => decide (q = p)
  | .watch xs _ => xs.any fun x => (objSel s x).any (onSlice p)
  | .budget o _ => onSlice p o
  | _ => false
/-- An operation is one of a slice: it moves or loads one of its stations, or its timebase or embedded command is of it (R76). -/
def opHits (s : State) (p : Nat) (o : Op) : Bool :=
  match o.prog with
  | .motion n | .learn n _ | .proveReturn n => slotOf n == p
  | .proveLearn n _ _ _ _ _ => slotOf n == p
  | .stopping l _ | .resuming l _ => l.any fun n => slotOf n == p
  | .event dv _ _ => verbHits s p dv || (match opTb o with | .ax n => slotOf n == p | _ => false)
  | _ => false
/-- The operations of a lost slice end with E40; a door command's stations of it fail one by one with their leaves (R76). -/
def endSliceOps (p : Nat) (s : State) : State :=
  let e : Err := { code := 40, detail := .obj (.sl p) }
  let l := s.ops.filter (opHits s p)
  forEach l (fun o s => failOp o.id e s) s

/-! ## The event engine's reset (R77) -/

/-- A relayed line loses its slot at an event engine reset: E50 where it carries a tag; its session is suspect (R77, R375). -/
def endFarLine (r : Relay) (tag : Option Nat) (s : State) : State :=
  let s := s.modSes r.near fun x => { x with suspect := true }
  match tag with
  | none => s
  | some t =>
    let x := { errR (e50 .evt) with tag := some t }
    remember (.session r.near) tag x (sendFar r.near r.id tag x s)
/-- Every operation that holds a session-block slot ends: E50 where it carries a tag; its session is suspect; the pool restarts
empty, left-over bytes staying (R57, R77, R421). -/
def endPool (s : State) : State :=
  let l := s.ops.filter fun o => o.slot.isSome || o.within.isSome
  let s := forEach l (fun o s =>
    let s := match o.port with
      | .session n => s.modSes n fun x => { x with suspect := true }
      | .supervisor => s
    cutOp o.id (e50 .evt) s) s
  let s := forEach s.net.relays (fun r s => forEach r.waiting (fun w s => endFarLine r w.1 s) s) s
  let s := s.modNet fun x => { x with relays := x.relays.map fun r => { r with waiting := [] } }
  { s with pool := s.pool.map fun e => if sessFirst ≤ e.1 then (e.1, e.2.released) else e, crossings := [] }

end Sys2Proof.Machine
end

