-- ==== Sys2Proof/Machine/Settle.lean ====
section
/-! DEFINITION. What every command leaves behind: the WATCH reports of what it changed, the end of a held session whose output
buffer is full, the pool-full and pool-available records; and what no command touches. -/

namespace Sys2Proof.Machine

open Sys2Proof

/-- The state fields of a watched object as one report (R106, R495). -/
def watchReply (s : State) (o : Obj) (merged : Nat) : Reply :=
  tilR (objName o) (showFields s o ++ (if 2 ≤ merged then [.kn "n" merged ""] else []))
/-- A watched object has changed: a report at once, or merged with the others of its RATE interval (R106). -/
def watchChange (id : Nat) (o : Obj) (s : State) : State :=
  match s.opOf id with
  | none => s
  | some w =>
    match w.prog with
    | .watch objs rate marks =>
      let due := match marks.find? (·.1 = o) with
        | none => true
        | some (_, at_, k) => decide (k = 0 ∧ at_ + rate ≤ s.now)
      if due then
        let s := s.modOp id fun x => { x with prog := .watch objs rate ((o, s.now, 0) :: marks.filter (·.1 ≠ o)) }
        say w.ctx (watchReply s o 1) s
      else s.modOp id fun x => { x with
        prog := .watch objs rate (marks.map fun m => if m.1 = o then (m.1, m.2.1, m.2.2 + 1) else m) }
    | _ => s
/-- Reports of what has changed between two states, to each WATCH that stood in the first (R106). -/
def watchDiff (s0 s : State) : State :=
  forEach s0.ops (fun w s =>
    match w.prog with
    | .watch objs _ _ =>
      let one := fun (o : Obj) (s : State) => if showFields s0 o = showFields s o then s else watchChange w.id o s
      forEach objs (fun o s => match o with
        | .peers => forEach (s.net.peers.map fun p => Obj.unitNo p.1) one s
        | _ => one o s) s
    | _ => s) s
/-- A held session whose output buffer is full ends (R111). -/
def endFull (s : State) : State :=
  forEach (s.sess.filter fun e => decide (e.2.st = .held ∧ 65536 ≤ outBytes e.2.out)) (fun e s => endSession e.1 s) s
/-- What no command touches: the parts the unit is built of, the queue, the model's clock; and the safe state's latch, which only
`rel` lets go (R22). The pool-full flag says whether the block was full when last looked at. -/
def sealState (rel : Bool) (s0 s : State) : State :=
  { s with
    fit := s0.fit, pending := s0.pending, clk := { s.clk with now := s0.clk.now }, poolFull := blockFull s || (s.poolFull && s.engDown .evt)
    camp := { s.camp with safe := s.camp.safe || (s0.camp.safe && !rel) } }
/-- A suspect session's snapshotted operation names a station (R429). -/
def namedSuspect (s : State) (n : Nat) : Bool :=
  (s.store.snapA.toList ++ s.store.snapB.toList).any fun q => q.items.any fun i => decide (n ∈ i.stations) && (s.ses i.entry.session).suspect
/-- A station's bit 30 clears when no suspect session's snapshotted operation names it (R429). -/
def clearMarks (s : State) : State :=
  forEach (s.st.filter fun e => e.2.suspect && !namedSuspect s e.1) (fun e s => s.modStn e.1 fun t => { t with suspect := false }) s
/-- The leaves whose step was searching for its reference go on where the search is over (R480). -/
def searchesEnd (s : State) : State := forEach ((s.st.filter (·.2.stepRefs)).map (·.1)) searchEnds s
/-- A command's effect with what follows from it: couplings that follow their masters, ended step searches, released reservations, a sleep that loses its readiness, cleared marks, reports, ended
sessions, the pool's records. -/
def settleWith (rel : Bool) (s0 s : State) : State := sealState rel s0 (poolRecord (endFull (watchDiff s0 (clearMarks (sleepWatch (releaseGone s0 (searchesEnd (camsFollow s0 s))))))))
/-- A command's effect with what follows from it; the safe state stays latched (R22). -/
def settle (s0 s : State) : State := settleWith false s0 s

end Sys2Proof.Machine
end

