-- ==== Sys2Proof/Machine/Text.lean ====
section
/-! DEFINITION. A Mehroft line read from its characters: fields, addresses, ranges, numbers and the other value forms, and the command that
the fields of each verb spell (03 R85 to R96; 16 R484 to R500). -/

namespace Sys2Proof.Machine

open Sys2Proof

/-! ## Fields (R87) -/

/-- The characters of one field. -/
abbrev Tok := List Byte
/-- A field as text, for the detail word of an E01. -/
def tokText (t : Tok) : String := String.ofList (t.map fun b => Char.ofNat b.toNat)
/-- The fields of a text: they stand apart by spaces, which a quoted string and an embedded command may hold (R87, R93). -/
def splitFields : Bool → Bool → Tok → List Byte → List Tok
  | _, _, cur, [] => if cur.isEmpty then [] else [cur.reverse]
  | q, p, cur, b :: t =>
    if b = 0x20 ∧ ¬ q ∧ ¬ p then
      (if cur.isEmpty then splitFields false false [] t else cur.reverse :: splitFields false false [] t)
    else if b = 0x22 ∧ ¬ p then splitFields (!q) p (b :: cur) t
    else if b = 0x28 ∧ ¬ q then splitFields q true (b :: cur) t
    else if b = 0x29 ∧ ¬ q then splitFields q false (b :: cur) t
    else splitFields q p (b :: cur) t
/-- The parts of a text between separators. -/
def splitAt (sep : Byte) : Tok → List Byte → List Tok
  | cur, [] => [cur.reverse]
  | cur, b :: t => if b = sep then cur.reverse :: splitAt sep [] t else splitAt sep (b :: cur) t
/-- What follows a beginning. -/
def afterPre : Tok → Tok → Option Tok
  | [], t => some t
  | _ :: _, [] => none
  | a :: p, b :: t => if a = b then afterPre p t else none
/-- An upper-case letter, a digit, a hex digit. -/
def isUp (b : Byte) : Bool := decide (0x41#8 ≤ b ∧ b ≤ 0x5A#8)
/-- A decimal digit's value. -/
def digitOf (b : Byte) : Option Nat := if 0x30#8 ≤ b ∧ b ≤ 0x39#8 then some (b.toNat - 48) else none
/-- A hex digit's value, in either case (R92). -/
def hexOf (b : Byte) : Option Nat :=
  if 0x30#8 ≤ b ∧ b ≤ 0x39#8 then some (b.toNat - 48)
  else if 0x41#8 ≤ b ∧ b ≤ 0x46#8 then some (b.toNat - 55)
  else if 0x61#8 ≤ b ∧ b ≤ 0x66#8 then some (b.toNat - 87)
  else none
/-- A word: upper-case letters, digits and underscores (R93). -/
def isWord (t : Tok) : Bool := !t.isEmpty && t.all fun b => isUp b || (digitOf b).isSome || decide (b = 0x5F)
/-- The number that decimal digits alone spell; none for anything else. -/
def decOf (t : Tok) : Option Nat :=
  if t.isEmpty then none else t.foldl (fun a b => a.bind fun v => (digitOf b).map (10 * v + ·)) (some 0)
/-- A number of exactly so many digits. -/
def decFixed (k : Nat) (t : Tok) : Option Nat := if t.length = k then decOf t else none

/-! ## Numbers (R92) -/

/-- The suffixes as written (R92, R486). -/
def sufNames : List (String × Suf) :=
  [("um", .um), ("mm", .mm), ("m", .m), ("um/s", .umS), ("mm/s", .mmS), ("m/s", .mS), ("um/s2", .umS2), ("mm/s2", .mmS2), ("m/s2", .mS2),
    ("um/s3", .umS3), ("mm/s3", .mmS3), ("m/s3", .mS3), ("ns", .ns), ("us", .us), ("ms", .ms), ("s", .s), ("mA", .mA), ("A", .A), ("mV", .mV), ("V", .V),
    ("V/ms", .vms), ("mW", .mW), ("W", .W), ("Hz", .hz), ("kHz", .khz), ("mJ", .mJ), ("J", .J), ("C", .c), ("%", .pct)]
/-- A number's suffix: none, one of the table, or no suffix at all. -/
def sufOf (t : Tok) : Option (Option Suf) :=
  if t.isEmpty then some none else (sufNames.find? fun e => decide (ascii e.1 = t)).map fun e => some e.2
/-- Digits at the head of a text, with their value and count, and the rest. -/
def takeDigits : List Byte → Nat → Nat → Nat × Nat × List Byte
  | [], v, k => (v, k, [])
  | b :: t, v, k => match digitOf b with
    | none => (v, k, b :: t)
    | some d => takeDigits t (10 * v + d) (k + 1)
/-- Hex digits with single underscores between them: their value, their count, and the rest. -/
def takeHex : List Byte → Nat → Nat → Nat × Nat × List Byte
  | [], v, k => (v, k, [])
  | b :: t, v, k => match hexOf b with
    | some d => takeHex t (16 * v + d) (k + 1)
    | none => match t with
      | c :: _ => if b = 0x5F ∧ 0 < k ∧ (hexOf c).isSome then takeHex t v k else (v, k, b :: t)
      | [] => (v, k, [b])
/-- The number a field spells: sign, digits with at most one point, or `0x` and hex digits, then a suffix (R92). -/
def litOf (t : Tok) : Option Lit :=
  let body := match t with
    | b :: r => if b = 0x2B ∨ b = 0x2D then r else t
    | [] => []
  let sign : Int := if t.head? = some 0x2D then -1 else 1
  match afterPre [0x30, 0x78] body with
  | some r =>
    let h := takeHex r 0 0
    if h.2.1 = 0 then none else (sufOf h.2.2).map fun x => { mant := sign * h.1, suffix := x }
  | none =>
    let a := takeDigits body 0 0
    let f := match a.2.2 with
      | b :: r => if b = 0x2E then takeDigits r a.1 0 else (a.1, 0, a.2.2)
      | [] => (a.1, 0, [])
    if a.2.1 + f.2.1 = 0 ∨ 10 ^ 19 ≤ f.1 then none
    else (sufOf f.2.2).map fun x => { mant := sign * f.1, decimals := f.2.1, suffix := x }
/-- A number of a key without a unit, rounded to the nearest whole step with halves away from zero; none where that is negative (R92). -/
def roundOf (t : Tok) : Option Nat := ((litOf t).bind litPlain).bind fun x => if 0 ≤ x then some x.toNat else none
/-- A whole number that is not negative and has no suffix. -/
def natOf (t : Tok) : Option Nat :=
  match litOf t with
  | some l => if l.suffix = none ∧ 0 ≤ l.mant ∧ l.mant % (10 ^ l.decimals : Nat) = 0 then some (l.mant / (10 ^ l.decimals : Nat)).toNat else none
  | none => none

/-! ## Addresses and ranges (R89 to R91) -/

/-- The objects that are words. -/
def objWords : List (String × Obj) :=
  [("UNIT", .unit), ("UNITS", .units), ("PEERS", .peers), ("SAFETY", .safety), ("TWIN", .twin), ("NET", .net), ("BANKS", .banks), ("TIME", .time),
    ("LINE", .line), ("FLASH", .tb .flash), ("SESSION", .session), ("SUPERVISOR", .supervisor), ("TACHO1", .head .tacho1), ("TACHO2", .head .tacho2),
    ("MARK", .head .mark), ("ZERO", .head .zero), ("RELL", .head .rell), ("RELR", .head .relr), ("LOOP", .head .loop), ("KEY", .head .key),
    ("WAKEIN", .head .wakein), ("WAKEOUT", .head .wakeout)]
/-- A channel's name. -/
def chanOf (t : Tok) : Option Chan := allChans.find? fun c => decide (ascii (chName c) = t)
/-- The unit part of an address, and what follows it: `U`, four digits, `/` (R89). -/
def unitPart (t : Tok) : Option Nat × Tok :=
  match afterPre [0x55] t with
  | some r => match decFixed 4 (r.take 4), r.drop 4 with
    | some n, b :: q => if b = 0x2F then (some n, q) else (none, t)
    | _, _ => (none, t)
  | none => (none, t)
/-- A numbered object: a name and its number in so many digits at most. -/
def numbered (name : String) (k : Nat) (t : Tok) : Option Nat :=
  (afterPre (ascii name) t).bind fun r => if r.length ≤ k then decOf r else none
/-- One station, `Snn` (R89). -/
def stOf (t : Tok) : Option Nat := (afterPre [0x53] t).bind (decFixed 2)
/-- The object one address names; an address in form that names nothing is `nothing`; no address in form gives none (R89). -/
def addrOf (t : Tok) : Option Obj :=
  match stOf (t.take 3), t.drop 3 with
  | some n, [] => some (.st n)
  | some n, b :: c =>
    if b ≠ 0x2F then none
    else match chanOf c with
      | some ch => some (.ch n ch)
      | none => if isWord c then some (.nothing (tokText t)) else none
  | none, _ =>
    match objWords.find? fun e => decide (ascii e.1 = t) with
    | some e => some e.2
    | none => match numbered "SL" 1 t, numbered "CAM" 2 t, numbered "SAFEOUT" 2 t, numbered "SAFEIN" 2 t with
      | some n, _, _, _ => some (.sl n)
      | _, some n, _, _ => some (.cam n)
      | _, _, some n, _ => some (.safeout n)
      | _, _, _, some n => some (.safein n)
      | none, none, none, none =>
        match (afterPre (ascii "AX") t).bind (decFixed 2), (afterPre [0x55] t).bind (decFixed 4), afterPre (ascii "BUS") t with
        | some n, _, _ => some (.tb (.ax n))
        | _, some n, _ => some (.unitNo n)
        | _, _, some [b] => if 0x41#8 ≤ b ∧ b ≤ 0x44#8 then some (.bus (b.toNat - 65)) else if isUp b then some (.nothing (tokText t)) else none
        | _, _, _ => if !t.isEmpty && t.all isUp then some (.nothing (tokText t)) else none
/-- One member of a list: stations, channels, ALL, or another object. -/
inductive Mem where
  | st (r : StRange)
  | ch (i : ChItem)
  | all
  | allCh (c : Chan)
  | obj (o : Obj)
  deriving DecidableEq, Repr
/-- An address that is no range. -/
def memOf (t : Tok) : Option Mem :=
  if t = ascii "ALL" then some .all
  else match (afterPre (ascii "ALL/") t).bind chanOf with
    | some c => some (.allCh c)
    | none => match addrOf t with
      | some (.st n) => some (.st { first := n, last := n })
      | some (.ch n c) => some (.ch (.over n n c))
      | some (.nothing x) => some (if (stOf (t.take 3)).isSome then .ch (.nothing x) else .obj (.nothing x))
      | some o => some (.obj o)
      | none => none
/-- The station and the channel's word of a channel address in form, whether or not the device has such a channel. -/
def chParts (t : Tok) : Option (Nat × Tok) :=
  match stOf (t.take 3), t.drop 3 with
  | some n, b :: c => if b = 0x2F ∧ isWord c then some (n, c) else none
  | _, _ => none
/-- The channels of one station from one to another, in the order of R90; a channel that no device has names nothing (R89). -/
def withinOf (n : Nat) (c d : Tok) : Option Mem :=
  let lost := fun (x : Tok) => some (Mem.ch (.nothing (stName n ++ "/" ++ tokText x)))
  match chanOf c, chanOf d with
  | some x, some y => if chCode x ≤ chCode y then some (.ch (.within n x y)) else none
  | none, _ => lost c
  | _, none => lost d
/-- A range; its ends differ in station or in channel, not in both, and stand in order (R90). -/
def rangeOf (a b : Tok) : Option Mem :=
  match stOf a, stOf b with
  | some n, some m => if n ≤ m then some (.st { first := n, last := m }) else none
  | _, _ => match chParts a, chParts b with
    | some (n, c), some (m, d) =>
      if c ≠ d then (if n = m then withinOf n c d else none)
      else if m < n then none
      else match chanOf c with
        | some x => some (.ch (.over n m x))
        | none => some (.ch (.nothing (tokText a)))
    | some (n, c), none => if isWord b then withinOf n c b else none
    | none, _ => none
/-- A list member with its unit part: an address or a range (R90, R91). -/
def memberOf (t : Tok) : Option (Option Nat × Mem) :=
  let p := unitPart t
  match splitAt 0x2D [] p.2 with
  | [a] => (memOf a).map fun m => (p.1, m)
  | [a, b] =>
    let q := unitPart b
    if q.1.isSome ∧ q.1 ≠ p.1 then none else (rangeOf a q.2).map fun m => (p.1, m)
  | _ => none
/-- The members of a list, each with its unit part, or what an E01 names: a bad range by itself, else the field (R90). -/
def membersOf (t : Tok) : Except Tok (List (Option Nat × Mem)) :=
  (splitAt 0x2C [] t).mapM fun a => match memberOf a with
    | some m => .ok m
    | none => .error (if (splitAt 0x2D [] a).length = 2 then a else t)
/-- The members of a list (R90). -/
def listOf (t : Tok) : Option (List (Option Nat × Mem)) := (membersOf t).toOption

/-! ## The other value forms (R93) -/

/-- An address as IPv4 writes it. -/
def ipOf (t : Tok) : Option Val :=
  match (splitAt 0x2E [] t).map decOf with
  | [some a, some b, some c, some d] => some (.ip a b c d)
  | _ => none
/-- A string: up to 64 characters in quotes. -/
def strOf (t : Tok) : Option (List Byte) :=
  match t with
  | b :: r => if b = 0x22 ∧ r.getLast? = some 0x22 ∧ r.length ≤ 65 ∧ (0x22 : Byte) ∉ r.dropLast then some r.dropLast else none
  | [] => none
/-- The system key: 32 hex digits with underscores between them (R344). -/
def skeyOf (t : Tok) : Option Nat :=
  let h := takeHex t 0 0
  if h.2.1 = 32 ∧ h.2.2 = [] then some h.1 else none
/-- A value written as a number: after its sign it begins with a digit or a point, so that a suffix outside the table makes it no value at
all (R92). -/
def numLike (t : Tok) : Bool :=
  match (match t with
    | b :: r => if b = 0x2B ∨ b = 0x2D then r else t
    | [] => []) with
  | b :: _ => (digitOf b).isSome || decide (b = 0x2E)
  | [] => false
/-- A station written with other than two digits (R89). -/
def oddStation (t : Tok) : Bool :=
  match afterPre [0x53] t with
  | some r => !r.isEmpty && r.all (fun b => (digitOf b).isSome) && decide (r.length ≠ 2)
  | none => false
/-- A value of a KEY=value field; some keys read a value of letters or digits as their word or object. Its unit part is that of the line's
addresses (R91 to R93). -/
def valOf (key t : Tok) : Option Val :=
  let word := if isWord t then some (Val.word (tokText t)) else none
  let named := (addrOf (unitPart t).2).map Val.obj
  let addr := match named with
    | some (.obj (.nothing _)) => none
    | v => v
  let any := if numLike t then ((litOf t).map Val.num) <|> ipOf t else addr <|> word <|> named <|> ((strOf t).map Val.str)
  if key = ascii "SKEY" then ((skeyOf t).map Val.hexkey) <|> any
  else if key = ascii "TLV" then word <|> any
  else if key = ascii "MASTER" then (match addr with
    | some (.obj .time) => some (.obj (.tb .time))
    | some (.obj .line) => some (.obj (.tb .line))
    | _ => any)
  else any

/-! ## What a verb takes (16 R484, R487) -/

/-- The kinds of value that a key of a verb takes. -/
inductive VK where
  | num | nat | words (l : List String) | station | unitNo | object | token | cmd | recType | any
  deriving DecidableEq, Repr
/-- A value's form: every kind but an embedded command is a value of R92 and R93. -/
def VK.formed (k : VK) (key t : Tok) : Bool :=
  match k with
  | .cmd => decide (t.head? = some 0x28 ∧ t.getLast? = some 0x29 ∧ (0x28 : Byte) ∉ t.drop 1)
  | .token => !t.isEmpty && t.all fun b => (hexOf b).isSome || decide (b = 0x5F)
  | .recType => !t.isEmpty && t.all fun b => isUp b || (digitOf b).isSome || decide (0x61#8 ≤ b ∧ b ≤ 0x7A#8 ∨ b = 0x2D)
  | _ => (valOf key t).isSome
/-- A value of the kind a key takes; another well-formed value is out of its range (R92, R93). -/
def VK.takes (k : VK) (key t : Tok) : Bool :=
  match k with
  | .num => (litOf t).isSome
  | .nat => (roundOf t).isSome
  | .words l => l.any fun w => decide (ascii w = t)
  | .station => (stOf t).isSome
  | .unitNo => match valOf key t with
    | some (.obj (.unitNo _)) => true
    | _ => false
  | .object => match valOf key t with
    | some (.obj _) => true
    | _ => false
  | .token => decide ((takeHex t 0 0).2.1 = 8 ∧ (takeHex t 0 0).2.2 = [])
  | .cmd => true
  | .recType => true
  | .any => true
/-- The verbs (16 R487). -/
inductive VName where
  | opn | cls | stop | resume | move | jog | ref | cam | lamp | out | prove | isolate | flash | set_ | get | ask
  | at_ | watch | show_ | cancel | budget | save | journal | pair | sleep | wake | reset | replay | live | mode | login
  deriving DecidableEq, Repr
/-- The motion keys of a line. -/
def motionKeys : List (String × VK) :=
  [("SPEED", .num), ("ACC", .num), ("DEC", .num), ("JERK", .num), ("PROFILE", .words ["TRAP", "SCURVE"])]
/-- The keys of JOURNAL READ (R457). -/
def journalKeys : List (String × VK) :=
  [("FROM", .nat), ("TO", .nat), ("SINCE", .num), ("UNTIL", .num), ("TYPE", .recType), ("STATION", .station), ("COUNT", .nat)]
/-- The keys of AT (16, "AT keys"). -/
def atKeys : List (String × VK) :=
  [("VALUE", .num), ("DIR", .words ["UP", "DOWN", "ANY"]), ("IFPAST", .words ["FIRE", "WAIT", "MISS"]), ("REPEAT", .words ["ON", "OFF"]), ("INTERVAL", .num),
    ("PERIOD", .num), ("PHASE", .num), ("HYST", .num), ("COUNT", .nat), ("USER", .nat), ("DO", .cmd)]
/-- The verbs of doors, motion, loads and events with the keys their lines may carry. -/
def verbKeysA : List (String × VName × List (String × VK)) :=
  [("OPEN", .opn, [("SIDE", .words ["L", "R"]), ("SELECT", .words ["AUTO", "ALL"])]), ("CLOSE", .cls, [("SIDE", .words ["L", "R"])]),
    ("STOP", .stop, [("MODE", .words ["RAMP", "HARD"])]), ("RESUME", .resume, []),
    ("MOVE", .move, ("POS", .num) :: ("DIST", .num) :: ("FOLLOW", .words ["PORT"]) :: ("FACT", .nat) :: motionKeys),
    ("JOG", .jog, ("DIST", .num) :: motionKeys), ("REF", .ref, [("LEARN", .nat)]),
    ("CAM", .cam, [("TABLE", .nat), ("MASTER", .object), ("OFFSET", .num)]), ("LAMP", .lamp, []), ("OUT", .out, []), ("PROVE", .prove, []),
    ("ISOLATE", .isolate, []), ("FLASH", .flash, [("PERIOD", .num), ("PHASE", .num), ("DUTY", .num)]), ("AT", .at_, atKeys),
    ("WATCH", .watch, [("RATE", .num)]), ("CANCEL", .cancel, [])]
/-- The other verbs; SET's keys are those of its objects. -/
def verbKeysB : List (String × VName × List (String × VK)) :=
  [("SET", .set_, []), ("GET", .get, []), ("ASK", .ask, []), ("SHOW", .show_, [("SLOT", .nat), ("FROM", .any), ("PT", .nat)]),
    ("BUDGET", .budget, [("PEAK", .num), ("EMAX", .num), ("GPEAK", .num), ("CAP", .num)]), ("SAVE", .save, []),
    ("JOURNAL", .journal, ("SNAP", .nat) :: ("LEN", .nat) :: journalKeys), ("PAIR", .pair, [("FROM", .unitNo)]), ("SLEEP", .sleep, []),
    ("WAKE", .wake, []), ("RESET", .reset, []), ("REPLAY", .replay, [("SESSION", .nat), ("SNAP", .nat), ("WINDOW", .num)]),
    ("LIVE?", .live, []), ("MODE", .mode, [("RCHECK", .words ["ON", "OFF"])]), ("LOGIN", .login, [("RESUME", .nat), ("TOKEN", .token)])]
/-- The verbs with the keys their lines may carry. -/
def verbKeys : List (String × VName × List (String × VK)) := verbKeysA ++ verbKeysB

/-! ## Reading -/

/-- The KEY=value fields of a line. -/
abbrev KVs := List (Tok × Tok)
/-- What a step of reading gives: a part of the command, or the word of an E01. -/
abbrev P (α : Type) := Except String α
/-- A key's value on the line. -/
def kv (kvs : KVs) (k : String) : Option Tok := (kvs.find? fun e => decide (e.1 = ascii k)).map (·.2)
/-- A key's number. -/
def kvLit (kvs : KVs) (k : String) : Option Lit := (kv kvs k).map fun t => (litOf t).getD { mant := 0 }
/-- A key's whole number. -/
def kvNat (kvs : KVs) (k : String) : Option Nat := (kv kvs k).map fun t => (roundOf t).getD 0
/-- A key has this word. -/
def kvIs (kvs : KVs) (k w : String) : Bool := decide (kv kvs k = some (ascii w))
/-- A key's word as a choice. -/
def kvWord {α : Type} (kvs : KVs) (k : String) (l : List (String × α)) : Option α :=
  (kv kvs k).bind fun t => (l.find? fun e => decide (ascii e.1 = t)).map (·.2)
/-- A field that breaks the form of its line (R484). -/
def bad {α : Type} (t : Tok) : P α := .error (tokText t)
/-- A form that must be met, else the word of an E01. -/
def must (b : Bool) (w : String) : P Unit := if b then .ok () else .error w
/-- No object field follows (R484). -/
def noMore : List Tok → P Unit
  | [] => .ok ()
  | t :: _ => bad t
/-- The first object field, else the verb is named (R484). -/
def first (verb : String) : List Tok → P (Tok × List Tok)
  | [] => .error verb
  | t :: r => .ok (t, r)
/-- Only these of the verb's keys belong to this form (R484). -/
def only (kvs : KVs) (l : List String) : P Unit :=
  match kvs.find? fun e => !l.any fun k => decide (ascii k = e.1) with
  | none => .ok ()
  | some e => bad e.1
/-- The members of a list as stations, where all of them are. -/
def stMembers (l : List (Option Nat × Mem)) : Option StSel :=
  match l.mapM (fun m : Option Nat × Mem => match m.2 with
    | .st r => some (some r)
    | .all => some none
    | _ => none) with
  | none => none
  | some [none] => some .all
  | some r => some (if none ∈ r then .withAll r else .items (r.filterMap id))
/-- A station selection (R90, R489). -/
def stsOf (t : Tok) : P StSel :=
  match membersOf t with
  | .ok l => match stMembers l with
    | some x => .ok x
    | none => bad t
  | .error w => bad w
/-- A channel selection; an address of another kind names no channel the verb takes (R90, R492). -/
def chsOf (t : Tok) : P ChSel :=
  match membersOf t with
  | .ok [(_, .allCh c)] => .ok (.all c)
  | .ok l =>
    match l.mapM (fun m : Option Nat × Mem => match m.2 with
      | .ch i => some i
      | .allCh c => some (.all c)
      | .st r => some (ChItem.nothing (stName r.first))
      | .obj o => some (.other o)
      | .all => none) with
    | some r => .ok (.items r)
    | none => bad t
  | .error w => bad w
/-- The objects of a SET or a member of WATCH (R495, R497). -/
def selOf (l : List (Option Nat × Mem)) : Option ObjSel :=
  match l with
  | [(_, .allCh c)] => some (.chs (.all c))
  | [(_, .obj o)] => some (.obj o)
  | l => match stMembers l with
    | some x => some (.sts x)
    | none => match l.mapM (fun m : Option Nat × Mem => match m.2 with | .ch i => some i | .allCh c => some (.all c) | _ => none) with
      | some r => some (.chs (.items r))
      | none => (l.mapM (fun m : Option Nat × Mem => match m.2 with
        | .st r => some (AddrItem.st r)
        | .ch i => some (.ch i)
        | .allCh c => some (.ch (.all c))
        | .all => some .all
        | .obj _ => none)).map ObjSel.mix
/-- The members of WATCH, each by itself (R495). -/
def watchSels (t : Tok) : P (List ObjSel) :=
  match membersOf t with
  | .ok l => match l.mapM fun m => selOf [m] with
    | some l => .ok l
    | none => bad t
  | .error w => bad w
/-- One object, which MARK and PLATFORM number in a second field (R505). -/
def objFields : List Tok → Option (Obj × List Tok)
  | t :: n :: r =>
    if (unitPart t).2 = ascii "MARK" then (match decOf n with | some k => some (.mark k, r) | none => none)
    else if (unitPart t).2 = ascii "PLATFORM" then (match decOf n with | some k => some (.plat k, r) | none => none)
    else (addrOf (unitPart t).2).map fun o => (o, n :: r)
  | [t] => (addrOf (unitPart t).2).map fun o => (o, [])
  | [] => none
/-- Exactly one station (R489). -/
def oneSt (t : Tok) : P Nat := match stOf (unitPart t).2 with | some n => .ok n | none => bad t
/-- One address. -/
def oneObj (t : Tok) : P Obj := match addrOf (unitPart t).2 with | some o => .ok o | none => bad t
/-- The keys of the tables (R504, R505), and PT. -/
def allKeys : List Key :=
  [.SCALE, .RATIO, .EDIR, .SDIR, .STEPW, .DIRS, .PROFILE, .SPEED, .ACC, .DEC, .JERK, .CREEP, .SDEC, .FERR, .INDEX, .REVCNT, .ITOL, .HOME, .HOMEDIR,
    .REFPOS, .REFMAX, .SLMIN, .SLMAX, .LIMNEG, .LIMPOS, .LIMSTOP, .FACT, .FGAP, .CAMLAG, .IENV, .ROLE, .SIDE, .CLOSEDSW, .LOCKSW, .EDGE, .STOWSW, .UNLOCK,
    .STEP, .STEPCAM, .STEPDEP, .STEPSTOW, .STEPT, .STOWT, .OPENPOS, .OSPEED, .CSPEED, .LOCKZONE, .EDGEMUTE, .OBSTARM, .MARGIN, .MARGINMAX, .PERSIST, .PERSISTMAX,
    .DRIFT, .DRIFTMAX, .LEARNMAX, .REOPEN, .RECLOSE, .RDWELL, .UNLOCKT, .LOCKT, .FINALT, .AUTOCLOSE, .DOORLAMP, .LAMPLOOP, .DPOS, .DWIDTH, .ITYPE, .FILTER, .TPW,
    .WIRE, .INRUSH, .SLEW, .MODE, .PWR, .UREF, .PWMF, .PPHASE, .ISET, .OLDET, .OLTHR, .OLT, .UNOM, .BUS, .PROVED, .PWIDTH, .ONTHR, .PTHR, .RESERVE,
    .FAILSAFE, .FSPERIOD, .FSPHASE, .DIMMIN, .ULOAD, .TEST, .OWDET, .OWT, .CNT, .GATE, .ZFREQ, .ZTIME, .COUNT, .TPULSE, .PEAK, .EWIN, .EMAX, .GROUP, .GPEAK,
    .CAP, .ENVK, .CRATECAP, .TDSTART, .TDFULL, .DERATEMIN, .SYSID, .SKEY, .SMTIMEOUT, .TYPE, .TO, .FROM, .IPADDR, .MASK, .GATEWAY, .PTPDOMAIN, .PTPROLE,
    .PRIO1, .PRIO2, .ANNINT, .ANNTO, .SYNCINT, .DELAYINT, .UTCOFF, .TLV, .RELSRC, .RELUNIT, .ZEROHOLD, .LOOPDELAY, .ORIENT, .SELMARGIN, .PRIOTAG, .PEERTO,
    .WAKEPULSE, .TWIN, .N, .PT, .INTERP, .WRAP, .X, .Y, .AUTORETURN, .SERVICE, .TACHO, .DPP, .DIR, .MARKTOL, .MARKWIN, .POS, .START, .END, .QUOTA, .IDLE, .HOLD, .VALUE]
/-- A key of the tables by its name. -/
def keyOf (t : Tok) : Option Key := allKeys.find? fun k => decide (ascii (keyText k) = t)
/-- The motion keys of a line. -/
def motionOf (kvs : KVs) : MotionKeys :=
  { speed := kvLit kvs "SPEED", acc := kvLit kvs "ACC", dec := kvLit kvs "DEC", jerk := kvLit kvs "JERK", profile := (kv kvs "PROFILE").map tokText }
/-- The keys and values of a SET line. -/
def setKvs (kvs : KVs) : P (List (Key × Val)) :=
  kvs.mapM fun e => match keyOf e.1, valOf e.1 e.2 with
    | some k, some v => .ok (k, v)
    | none, _ => bad e.1
    | _, none => bad (e.1 ++ 0x3D :: e.2)
/-- SET: the rows of the table that act at once are rows of their own (R498). -/
def setInstr (l : Line) (o : ObjSel) (kvs : List (Key × Val)) : Instr :=
  match o, kvs with
  | .obj .line, [(.POS, .num v)] => .setLinePos l v
  | .obj .time, [(.VALUE, .num v)] => .setTimeValue l v
  | .obj (.sl n), [(.SERVICE, .word "ON")] => .setService l n
  | .chs (.items [.over n m c]), [(.COUNT, .num v)] => if n = m then .setCount l n c v else .set l o kvs
  | _, _ => .set l o kvs
/-- The names of the record types, in code order, by the code's upper byte (R447). -/
def recNames : List (List String) :=
  [["lane-fault", "safe-state", "refusal", "command"], ["pool-full", "pool-available", "line-mark", "line-set", "line-lost"],
    ["axis-fault", "position-lost", "index-resync", "step-late", "cam-lag", "drift-limit"], ["door", "obstacle", "isolate", "backstop"],
    ["switch-trip", "io-fault", "train-line"], ["lamp-dark", "changeover", "lamp-clear", "return", "lamp-mismatch"],
    ["budget-wait-exceeded", "budget-conflict", "group-mismatch", "reservation-expired", "dim"],
    ["LOOP-test", "safety-message", "safety-message-reject"], ["path", "peer-silent", "conflict", "time-path", "time-step"],
    ["partner-silent", "custody-conflict", "attach", "attach-refused", "sleep", "sleep-aborted", "wake"],
    ["pointer", "snapshot-lost", "snap-none", "slice-lost", "slice-absent", "slice-return"],
    ["start", "hold-up", "loss", "bank-written", "store-conflict", "store-fault"]]
/-- A record type as a code or a name; another name gives no type of the table (R457). -/
def recCode (t : Tok) : Nat :=
  match natOf t with
  | some n => n
  | none => match (List.range recNames.length).findSome? fun g =>
      let l := recNames.getD g []
      let k := l.findIdx fun w => decide (ascii w = t)
      if k < l.length then some (256 * (g + 1) + k + 1) else none with
    | some n => n
    | none => 65536
/-- JOURNAL READ's keys (R457). -/
def queryOf (kvs : KVs) : JQuery :=
  let ns := fun k => (kvLit kvs k).bind fun v => litSteps .time 1 1 1 v
  { fromN := kvNat kvs "FROM", toN := kvNat kvs "TO", since := ns "SINCE", til := ns "UNTIL"
    type := (kv kvs "TYPE").map recCode, station := (kv kvs "STATION").bind stOf, count := (kvNat kvs "COUNT").getD 1000 }
/-- The tag of an object field `#n` (R89). -/
def hashOf (t : Tok) : Option Nat := (afterPre [0x23] t).bind fun r => if r.length ≤ 8 then decOf r else none
/-- ON or OFF. -/
def onOffOf (t : Tok) : P Bool := if t = ascii "ON" then .ok true else if t = ascii "OFF" then .ok false else bad t
/-- An engine's name. -/
def engineOf (t : Tok) : Option Engine := allEngines.find? fun e => decide (ascii (engName e) = t)
/-- The forms of doors and motion (R489). -/
def doorForm (l : Line) (v : VName) (verb : String) (os : List Tok) (kvs : KVs) : P Instr := do
  let (t, r) ← first verb os
  let side := kvWord kvs "SIDE" [("L", Side.l), ("R", Side.r)]
  match v with
  | .opn => noMore r; let x ← stsOf t; .ok (.opn l x side (kvWord kvs "SELECT" [("AUTO", true), ("ALL", false)]))
  | .cls => noMore r; let x ← stsOf t; .ok (.cls l x side)
  | .stop => noMore r; let x ← stsOf t; .ok (.stop l x (kvIs kvs "MODE" "HARD"))
  | .resume => noMore r; let x ← stsOf t; .ok (.resume l x)
  | .move =>
    noMore r
    let n ← oneSt t
    if (kv kvs "FOLLOW").isSome then only kvs ["FOLLOW", "FACT"]; .ok (.moveFollow l n (kvNat kvs "FACT"))
    else
      must (kv kvs "FACT").isNone "FACT"
      match kvLit kvs "POS", kvLit kvs "DIST" with
      | some _, some _ => .error "DIST"
      | some p, none => .ok (.move l n (.pos p) (motionOf kvs))
      | none, some d => .ok (.move l n (.dist d) (motionOf kvs))
      | none, none => .error verb
  | .jog =>
    noMore r
    let n ← oneSt t
    match kvLit kvs "DIST", kvLit kvs "SPEED" with
    | some d, _ => .ok (.jog l n (.dist d) (motionOf kvs))
    | none, some v => .ok (.jog l n (.speed v) { motionOf kvs with speed := none })
    | none, none => .error verb
  | .ref =>
    noMore r
    let n ← oneSt t
    .ok (match kvNat kvs "LEARN" with | some k => .refLearn l n k | none => .ref l n)
  | _ =>
    noMore r
    let n ← oneSt t
    match kvNat kvs "TABLE", (kv kvs "MASTER").bind (valOf (ascii "MASTER")) with
    | some k, some (.obj o) => .ok (.cam l n k o (kvLit kvs "OFFSET"))
    | some k, some _ => .ok (.cam l n k (.nothing "MASTER") (kvLit kvs "OFFSET"))
    | _, _ => .error verb
/-- The forms of loads, proving and isolation (R492). -/
def loadForm (l : Line) (v : VName) (verb : String) (os : List Tok) (kvs : KVs) : P Instr := do
  let (t, r) ← first verb os
  match v, r with
  | .flash, r =>
    noMore r
    let x ← chsOf t
    match kvLit kvs "PERIOD" with
    | some p => .ok (.flash l x p (kvLit kvs "PHASE") (kvLit kvs "DUTY"))
    | none => .error verb
  | .prove, [] => if (unitPart t).2 = ascii "LOOP" then .ok (.proveLoop l) else .error verb
  | .prove, w :: q =>
    noMore q
    let o ← oneObj t
    if w = ascii "LEARN" then .ok (.proveLearn l o) else if w = ascii "RETURN" then .ok (.proveReturn l o) else bad w
  | .isolate, r =>
    let x ← stsOf t
    match r with
    | [] => .ok (.isolateOn l x)
    | w :: q => do noMore q; let b ← onOffOf w; .ok (if b then .isolateOn l x else .isolateOff l x)
  | _, [] => .error verb
  | _, w :: q =>
    noMore q
    let x ← chsOf t
    let b ← onOffOf w
    .ok (if v = .lamp then .lamp l x b else .out l x b)
/-- SHOW's forms (R507, R508). -/
def showForm (l : Line) (os : List Tok) (kvs : KVs) : P Instr := do
  let (whole, r) ← first "SHOW" os
  let t := (unitPart whole).2
  let is := fun (x : String) => decide (t = ascii x)
  if is "SLICE" then
    let (u, q) ← first "SHOW" r
    noMore q
    only kvs []
    match addrOf (unitPart u).2 with
    | some (.sl n) => .ok (.show l (.slice n))
    | some o => .ok (.show l (.obj o))
    | none => bad u
  else if is "EVENT" then
    match r, kvNat kvs "SLOT" with
    | [], some n => do only kvs ["SLOT"]; .ok (.show l (.eventSlot n))
    | [], none => .error "SHOW"
    | u :: q, _ => do
      noMore q
      only kvs []
      match hashOf u with
      | some n => .ok (.show l (.eventTag n))
      | none => bad u
  else if is "SESSION" then
    match r with
    | [] => do only kvs []; .ok (.show l (.sessionN none))
    | u :: q =>
      if u = ascii "BUFFER" then do
        let (w, q) ← first "SHOW" q
        noMore q
        only kvs ["FROM"]
        let out ← if w = ascii "OUT" then .ok true else if w = ascii "IN" then .ok false else bad w
        match kv kvs "FROM" with
        | some u => .ok (.show l (.buffer out ((roundOf u).getD 65536)))
        | none => .error "SHOW"
      else do
        noMore q
        only kvs []
        match natOf u with
        | some n => .ok (.show l (.sessionN (some n)))
        | none => bad u
  else if is "NET" ∧ r.head? = some (ascii "PEERS") then
    noMore (r.drop 1)
    only kvs ["FROM"]
    match kv kvs "FROM" with
    | none => .ok (.show l (.netPeers 0))
    | some u => match valOf (ascii "FROM") u with
      | some (.obj (.unitNo n)) => .ok (.show l (.netPeers n))
      | _ => .ok (.show l (.netPeers 1024))
  else
    match objFields (t :: r) with
    | none => bad whole
    | some (o, q) =>
      noMore q
      match o, kv kvs "PT" with
      | .cam n, some _ => do only kvs ["PT"]; .ok (.show l (.camPoint n (kvNat kvs "PT")))
      | .cam n, none => do only kvs []; .ok (.show l (.camPoint n none))
      | o, _ => do only kvs []; .ok (.show l (.obj o))
/-- SET, GET, ASK, WATCH, CANCEL and BUDGET (R495 to R500). -/
def objForm (l : Line) (v : VName) (verb : String) (os : List Tok) (kvs : KVs) : P Instr := do
  let (t, r) ← first verb os
  match v with
  | .set_ =>
    let ks ← setKvs kvs
    must (!ks.isEmpty) verb
    let sel ← (match membersOf t with
      | .ok l => .ok (selOf l)
      | .error w => bad w : P (Option ObjSel))
    let two := decide ((unitPart t).2 = ascii "MARK" ∨ (unitPart t).2 = ascii "PLATFORM") && !r.isEmpty
    match (if two then (objFields os).map fun q => (ObjSel.obj q.1, q.2) else sel.map fun x => (x, r)) with
    | none => bad t
    | some (x, q) =>
      noMore q
      match x, ks with
      | .obj (.cam n), (.PT, .num p) :: more => .ok (setInstr l (.obj (.camPt n (if 0 ≤ p.mant ∧ p.decimals = 0 then p.mant.toNat else 1024))) more)
      | x, ks => .ok (setInstr l x ks)
  | .get =>
    match objFields os with
    | none => bad t
    | some (o, []) => let _ := o; .error verb
    | some (o, k :: q) =>
      noMore q
      let ks ← (splitAt 0x2C [] k).mapM fun x => match keyOf x with
        | some y => .ok y
        | none => bad x
      .ok (.get l o ks)
  | .ask =>
    noMore r
    let u := (unitPart t).2
    if u = ascii "UNITS" then .ok (.askUnits l) else if u = ascii "VERSION" then .ok (.askVersion l) else bad t
  | .watch => noMore r; let x ← watchSels t; .ok (.watch l x (kvLit kvs "RATE"))
  | .cancel =>
    noMore r
    if t = ascii "ALL" then .ok (.cancel l none)
    else match hashOf t with
      | some n => .ok (.cancel l (some n))
      | none => bad t
  | _ =>
    noMore r
    if (unitPart t).2 = ascii "CLEAR" then do only kvs []; .ok (.budgetClear l)
    else
      let o ← oneObj t
      must (!kvs.isEmpty) verb
      .ok (.budget l o (kvs.filterMap fun e => match keyOf e.1, litOf e.2 with
        | some k, some v => some (k, v)
        | some k, none => some (k, { mant := -1 })
        | none, _ => none))
/-- The forms of stores, pairing, power and sessions (R501, 16 "Session forms"). -/
def storeForm (l : Line) (v : VName) (verb : String) (os : List Tok) (kvs : KVs) : P Instr := do
  let w := fun (x : String) => decide (os.head? = some (ascii x))
  match v with
  | .save =>
    noMore (os.drop 1)
    if os.isEmpty then .ok (.save l) else if w "SAFETY" then .ok (.saveSafety l) else if w "BEGIN" then .ok (.saveBegin l)
    else if w "ABORT" then .ok (.saveAbort l) else bad (os.headD [])
  | .journal =>
    let (t, r) ← first verb os
    if w "READ" then
      only kvs ["FROM", "TO", "SINCE", "UNTIL", "TYPE", "STATION", "COUNT"]
      match r with
      | [] => .ok (.journalRead l (queryOf kvs))
      | u :: q => do noMore q; (if u = ascii "CUSTODY" then .ok (.journalReadCustody l (queryOf kvs)) else bad u)
    else if w "SNAPSHOT" then
      match r with
      | [] => do only kvs ["SNAP", "FROM", "LEN"]; .ok (.journalSnapshot l (kvNat kvs "SNAP") (kvNat kvs "FROM") (kvNat kvs "LEN"))
      | u :: q => do
        noMore q
        if u = ascii "LIST" then do only kvs []; .ok (.journalSnapshotList l)
        else if u = ascii "RELEASE" then do
          only kvs ["SNAP"]
          match kvNat kvs "SNAP" with
          | some n => .ok (.journalSnapshotRelease l n)
          | none => .error verb
        else bad u
    else bad t
  | .pair =>
    let (t, r) ← first verb os
    noMore r
    if w "ATTACH" then .ok (.pairAttach l ((kv kvs "FROM").bind fun u => (afterPre [0x55] u).bind decOf))
    else do
      only kvs []
      if w "RELEASE" then .ok (.pairRelease l)
      else match (afterPre [0x55] t).bind (decFixed 4) with
        | some n => .ok (.pair l n)
        | none => bad t
  | .sleep => noMore (os.drop 1); (if os.isEmpty ∨ w "SYSTEM" then .ok (.sleep l true) else if w "UNIT" then .ok (.sleep l false) else bad (os.headD []))
  | .wake => noMore os; .ok (.wake l)
  | .reset =>
    let (t, r) ← first verb os
    if w "UNIT" then do noMore r; .ok (.resetUnit l)
    else if w "POWER" then do noMore r; .ok (.resetPower l)
    else if w "SESSION" then
      match r with
      | [] => .ok (.resetSession l none)
      | u :: q => do noMore q; (match natOf u with | some n => .ok (.resetSession l (some n)) | none => bad u)
    else do
      let (u, q) ← first verb r
      noMore q
      if w "ENGINE" then (match engineOf u with | some e => .ok (.resetEngine l e) | none => bad u)
      else if w "SLICE" then (match numbered "SL" 1 u with | some n => .ok (.resetSlice l n) | none => bad u)
      else bad t
  | .replay =>
    noMore os
    match kvNat kvs "SESSION" with
    | some n => .ok (.replay l n (kvNat kvs "SNAP") (kvLit kvs "WINDOW"))
    | none => .error verb
  | .live => noMore os; .ok (if l.port = .supervisor then .liveSupervisorLine l else .live l)
  | .mode =>
    let (t, r) ← first verb os
    noMore r
    if w "TYPED" then do only kvs []; .ok (.modeTyped l)
    else if w "GEN" then .ok (.modeGen l (kvWord kvs "RCHECK" [("ON", true), ("OFF", false)]))
    else bad t
  | _ =>
    match os with
    | [] => match kvNat kvs "RESUME", kv kvs "TOKEN" with
      | some n, some t => .ok (.loginResume l n (BitVec.ofNat 32 (takeHex t 0 0).1))
      | _, _ => .error verb
    | t :: r => do
      noMore r
      only kvs []
      if w "SAFETY" then .ok (.loginSafety l) else if w "OFF" then .ok (.loginOff l) else if w "END" then .ok (.loginEnd l) else bad t
/-- The command that a verb's fields spell, AT apart. -/
def verbForm (l : Line) (v : VName) (verb : String) (os : List Tok) (kvs : KVs) : P Instr :=
  match v with
  | .opn | .cls | .stop | .resume | .move | .jog | .ref | .cam => doorForm l v verb os kvs
  | .lamp | .flash | .out | .prove | .isolate => loadForm l v verb os kvs
  | .show_ => showForm l os kvs
  | .set_ | .get | .ask | .watch | .cancel | .budget => objForm l v verb os kvs
  | _ => storeForm l v verb os kvs

/-- What the characters of a line spell: nothing, the word of an E01 (empty: no detail word), an unknown verb, a command, or a command one of
whose values is of the wrong kind for its key. -/
inductive Reading where
  | bad (w : String)
  | unknown
  | cmd (i : Instr)
  | wrong (k : String) (i : Instr)
  deriving DecidableEq, Repr
/-- A field's key and value, when it is a KEY=value field. -/
def kvField (t : Tok) : Option (Tok × Tok) :=
  let k := t.takeWhile (· ≠ 0x3D)
  if k.length < t.length then some (k, t.drop (k.length + 1)) else none
/-- A tag field in form (R94). -/
def tagFormed (t : Tok) : Bool := (hashOf t).isSome
/-- The form of an object field, whatever its verb: an address, a list, a word, a number, a tag, a list of keys (R89, R90). -/
def fieldFormed (t : Tok) : Bool :=
  (listOf t).isSome || (isWord t && !oddStation t) || (natOf t).isSome || (hashOf t).isSome || (splitAt 0x2C [] t).all fun x => isWord x && !oddStation x
/-- The fields of a line as object fields and KEY=value fields, or the field that breaks the order (R87, R484). -/
def sortFields (fs : List Tok) : P (List Tok × KVs) :=
  let os := fs.takeWhile fun t => (kvField t).isNone
  let ks := fs.drop os.length
  match ks.find? fun t => match kvField t with
    | some (k, v) => k.isEmpty || v.isEmpty || !isWord k
    | none => true with
  | some t => bad t
  | none => .ok (os, ks.filterMap kvField)
/-- The first key given twice (R484). -/
def twice : KVs → Option Tok
  | [] => none
  | e :: r => if r.any fun x => decide (x.1 = e.1) then some e.1 else twice r
/-- The keys of a line against its verb: a key it does not take, a value that is not in form, or none (R484, R92, R93). -/
def keysErr (ks : List (String × VK)) (kvs : KVs) : Option String :=
  kvs.findSome? fun e => match ks.find? fun k => decide (ascii k.1 = e.1) with
    | none => some (tokText e.1)
    | some k => if k.2.formed e.1 e.2 then none else some (tokText (e.1 ++ 0x3D :: e.2))
/-- The first value of a kind that its key does not take (R92, R93). -/
def kindBad (ks : List (String × VK)) (kvs : KVs) : Option String :=
  kvs.findSome? fun e => (ks.find? fun k => decide (ascii k.1 = e.1)).bind fun k => if k.2.takes e.1 e.2 then none else some k.1
/-- The command of a line's fields after its tag, where `doCmd` reads AT (R87, R484). -/
def readFields (doCmd : Line → List Tok → KVs → Reading) (l : Line) : List Tok → Reading
  | [] => .bad ""
  | v :: fs =>
    match sortFields fs with
    | .error w => .bad w
    | .ok (os, kvs) =>
      match verbKeys.find? fun e => decide (ascii e.1 = v) with
      | none =>
        match os.find? (fun t => !fieldFormed t), kvs.find? (fun e => (valOf e.1 e.2).isNone && !VK.formed .cmd e.1 e.2) with
        | some t, _ => .bad (tokText t)
        | none, some e => .bad (tokText (e.1 ++ 0x3D :: e.2))
        | none, none => .unknown
      | some (verb, name, ks) =>
        match twice kvs, (if name = .set_ then none else keysErr ks kvs) with
        | some k, _ => .bad (tokText k)
        | none, some w => .bad w
        | none, none =>
          if name = .at_ then (match doCmd l os kvs, kindBad ks kvs with
            | .cmd i, some k => .wrong k i
            | r, _ => r)
          else match verbForm l name verb os kvs, (if name = .set_ then none else kindBad ks kvs) with
            | .error w, _ => .bad w
            | .ok i, none => .cmd i
            | .ok i, some k => .wrong k i
/-- The units that the object of a line names; a word that is no address of this unit's counts only with a unit part (R89, R91). -/
def objUnits (t : Tok) : List (Option Nat × Tok) :=
  match listOf t with
  | some l => (l.filter fun m => m.1.isSome || (match m.2 with
    | .obj (.unitNo _) => false
    | .obj (.nothing _) => false
    | _ => true)).map fun m => (m.1, t)
  | none => if (unitPart t).1.isSome then [((unitPart t).1, t)] else []
/-- The unit part that another field carries: a qualifier word, or the value of a key. -/
def partUnit (whole t : Tok) : List (Option Nat × Tok) := if (unitPart t).1.isSome then [((unitPart t).1, whole)] else []
/-- The units that the fields of a line after its verb name, in the order written: its object, and what else carries a unit part; an object
without a unit part is this unit's (R91). -/
def unitsNamed : List Tok → List (Option Nat × Tok)
  | [] => []
  | t :: fs => (match kvField t with
      | some (_, v) => partUnit t v
      | none => objUnits t) ++ (fs.map fun u => match kvField u with
      | some (_, v) => partUnit u v
      | none => partUnit u u).flatten
/-- The fields of a line after its tag and its verb. -/
def bodyFields (chars : List Byte) : List Tok :=
  match splitFields false false [] chars with
  | t :: r => if t.head? = some 0x23 then r.drop 1 else r
  | [] => []
/-- The unit that a line's addresses name. -/
def unitOfText (chars : List Byte) : Option Nat := ((unitsNamed (bodyFields chars)).findSome? (·.1))
/-- An address whose unit is not that of the line's first (R91). -/
def mixedUnits (me : Option Nat) (chars : List Byte) : Option Tok :=
  let r := fun (u : Option Nat) => if u.isNone then me else u
  match unitsNamed (bodyFields chars) with
  | [] => none
  | e :: l => (l.find? fun x => decide (r x.1 ≠ r e.1)).map (·.2)

/-! ## AT, and the whole line -/

/-- The verb form of a line, where a DO or a REPLAY could spell it too. -/
def lineVerb : Instr → Option Verb
  | .opn _ sts side auto => some (.opn sts side auto)
  | .cls _ sts side => some (.cls sts side)
  | .stop _ sts hard => some (.stop sts hard)
  | .resume _ sts => some (.resume sts)
  | .isolateOn _ sts => some (.isolate sts true)
  | .isolateOff _ sts => some (.isolate sts false)
  | .move _ n t k => some (.move n t k)
  | .moveFollow _ n fact => some (.follow n fact)
  | .jog _ n t k => some (.jog n t k)
  | .ref _ n => some (.ref n)
  | .refLearn _ n k => some (.refLearn n k)
  | .cam _ n t m o => some (.cam n t m o)
  | .lamp _ chs on => some (.lamp chs on)
  | .flash _ chs p ph d => some (.flash chs p ph d)
  | .out _ chs on => some (.out chs on)
  | .proveLearn _ o => some (.proveLearn o)
  | .proveReturn _ o => some (.proveReturn o)
  | .proveLoop _ => some .proveLoop
  | .set _ sel kvs => some (.set sel kvs)
  | .setLinePos _ v => some (.setLinePos v)
  | .setTimeValue _ v => some (.setTimeValue v)
  | .setService _ n => some (.setService n)
  | .setCount _ n c v => some (.setCount n c v)
  | .get _ o ks => some (.get o ks)
  | .show _ o => some (.show o)
  | .askUnits _ => some .askUnits
  | .askVersion _ => some .askVersion
  | .watch _ objs rate => some (.watch objs rate)
  | .budget _ o kvs => some (.budget o kvs)
  | .budgetClear _ => some .budgetClear
  | .save _ => some .save
  | .saveSafety _ => some .saveSafety
  | .saveBegin _ => some .saveBegin
  | .saveAbort _ => some .saveAbort
  | .journalRead _ q => some (.journalRead false q)
  | .journalReadCustody _ q => some (.journalRead true q)
  | .journalSnapshotList _ => some .snapshotList
  | .journalSnapshot _ n a b => some (.snapshotRead n a b)
  | .journalSnapshotRelease _ n => some (.snapshotRelease n)
  | .pair _ n => some (.pair n)
  | .pairAttach _ u => some (.pairAttach u)
  | .pairRelease _ => some .pairRelease
  | .sleep _ b => some (.sleep b)
  | .wake _ => some .wake
  | .replay _ n a w => some (.replay n a w)
  | .live _ => some .live
  | .liveSupervisorLine _ => some .live
  | _ => none
/-- The line a command is, when it is one. -/
def lineOf : Instr → Option Line
  | .opn l _ _ _ => some l
  | .cls l _ _ => some l
  | .stop l _ _ => some l
  | .resume l _ => some l
  | .move l _ _ _ => some l
  | .moveFollow l _ _ => some l
  | .jog l _ _ _ => some l
  | .ref l _ => some l
  | .refLearn l _ _ => some l
  | .cam l _ _ _ _ => some l
  | .lamp l _ _ => some l
  | .flash l _ _ _ _ => some l
  | .out l _ _ => some l
  | .proveLearn l _ => some l
  | .proveReturn l _ => some l
  | .proveLoop l => some l
  | .isolateOn l _ => some l
  | .isolateOff l _ => some l
  | .set l _ _ => some l
  | .setLinePos l _ => some l
  | .setTimeValue l _ => some l
  | .setService l _ => some l
  | .setCount l _ _ _ => some l
  | .get l _ _ => some l
  | .show l _ => some l
  | .askUnits l => some l
  | .askVersion l => some l
  | .atEvent l _ => some l
  | .watch l _ _ => some l
  | .cancel l _ => some l
  | .budget l _ _ => some l
  | .budgetClear l => some l
  | .save l => some l
  | .saveSafety l => some l
  | .saveBegin l => some l
  | .saveAbort l => some l
  | .journalRead l _ => some l
  | .journalReadCustody l _ => some l
  | .journalSnapshotList l => some l
  | .journalSnapshot l _ _ _ => some l
  | .journalSnapshotRelease l _ => some l
  | .pair l _ => some l
  | .pairAttach l _ => some l
  | .pairRelease l => some l
  | .sleep l _ => some l
  | .wake l => some l
  | .resetSession l _ => some l
  | .resetEngine l _ => some l
  | .resetSlice l _ => some l
  | .resetUnit l => some l
  | .resetPower l => some l
  | .replay l _ _ _ => some l
  | .live l => some l
  | .liveSupervisorLine l => some l
  | .modeTyped l => some l
  | .modeGen l _ => some l
  | .loginSafety l => some l
  | .loginOff l => some l
  | .loginResume l _ _ => some l
  | .loginEnd l => some l
  | .unknownVerb l _ => some l
  | .commentLine l => some l
  | _ => none
/-- The timebase an AT names. -/
def tbOf (t : Tok) : Option TB :=
  match addrOf (unitPart t).2 with
  | some (.tb x) => some x
  | some .time => some .time
  | some .line => some .line
  | _ => none
/-- An AT line, with the command its DO embeds: no tag, no check, no AT within (R60, R494). -/
def readAt (l : Line) (os : List Tok) (kvs : KVs) : Reading :=
  match os, kv kvs "DO" with
  | [], _ => .bad "AT"
  | [_], none => .bad "AT"
  | t :: u :: _, _ => let _ := t; .bad (tokText u)
  | [t], some d =>
    match tbOf t with
    | none => .bad (tokText t)
    | some tb =>
      let text := (d.drop 1).dropLast
      let fs := splitFields false false [] text
      let at' := fun (v : Verb) => Instr.atEvent l
        { tb, value := kvLit kvs "VALUE", relative := decide ((kv kvs "VALUE").bind (·.head?) = some 0x2B)
          dir := kvWord kvs "DIR" [("UP", Dir.up), ("DOWN", .down), ("ANY", .any)]
          ifpast := kvWord kvs "IFPAST" [("FIRE", IfPast.fire), ("WAIT", .wait), ("MISS", .miss)], rep := kvIs kvs "REPEAT" "ON"
          interval := kvLit kvs "INTERVAL", period := kvLit kvs "PERIOD", phase := kvLit kvs "PHASE", hyst := kvLit kvs "HYST"
          count := kvNat kvs "COUNT", user := kvNat kvs "USER", doVerb := v, doText := text, doUnit := unitOfText text }
      match readFields (fun l _ _ => .cmd (.commentLine l)) l fs with
      | .bad w => .bad w
      | .unknown => .unknown
      | .wrong k i => .wrong k (at' ((lineVerb i).getD (.banned "")))
      | .cmd i => .cmd (at' ((lineVerb i).getD (.banned "")))
/-- What a line's characters spell (R87): a tag field first, where there is one. -/
def readText (l : Line) : Reading :=
  match splitFields false false [] l.chars with
  | [] => .bad ""
  | t :: fs => if t.head? = some 0x23 then (if tagFormed t then readFields readAt l fs else .bad (tokText t)) else readFields readAt l (t :: fs)
/-- An empty line, one of spaces alone, or a comment: a line whose first character other than a space begins a check is neither (R87). -/
def ignoredLine (l : Line) : Bool :=
  match l.chars.dropWhile (· = 0x20) with
  | [] => l.check.isNone && l.badCheck.isNone
  | b :: _ => decide (b = 0x3B)
/-- A line that arrived as raw characters: the part before its check, its check, and a `*` that four upper-case hex digits do not follow
(R87, R95, R96). -/
def splitCheck (raw : List Byte) : List Byte × Option W16 × Option (List Byte) :=
  let tail := raw.drop (raw.length - 5)
  let digits := tail.drop 1
  let upper := digits.all fun b => (hexOf b).isSome && !decide (0x61#8 ≤ b)
  if raw.length < 5 ∨ tail.head? ≠ some 0x2A ∨ digits.all (fun b => (hexOf b).isSome) = false then (raw, none, none)
  else if upper then (raw.take (raw.length - 5), some (BitVec.ofNat 16 (takeHex digits 0 0).1), none)
  else (raw.take (raw.length - 5), none, some tail)
/-- The command that a framed line's characters spell, whatever it is. -/
def lineCommand (l : Line) : Instr :=
  if ignoredLine l then .commentLine l
  else match readText l with
    | .cmd i => i
    | .wrong _ i => i
    | .bad w => .unknownVerb l (some w)
    | .unknown => .unknownVerb l none

end Sys2Proof.Machine
end

