-- ==== Sys2Proof/Machine/Interp.lean ====
section
/-! DEFINITION. The interpreter: the order of a line's tests, tag memory, the command record, safety authority, the relay to another
unit, and the supervisor line's subset (03 R85 to R124, 01 R32, 11 R375 to R378, 14 R448). -/

namespace Sys2Proof.Machine

open Sys2Proof

/-- What a verb form brings to the tests of R105 and to its execution. -/
structure Spec where
  verb : Verb
  /-- addresses to test at steps 7 and 8, in the order written -/
  objs : List Obj := []
  /-- further E03 tests: channel kinds and keys (step 7) -/
  kinds : State → Option Err := fun _ => none
  /-- further E04 tests (step 8) -/
  found : State → Option Err := fun _ => none
  /-- step 9 -/
  values : State → Option Err := fun _ => none
  /-- step 10: the form is marked S (R113) -/
  safety : Bool := false
  /-- session-block slots the operation takes; 0 for an immediate verb (R51) -/
  slots : State → Nat := fun _ => 0
  /-- the engine that carries the work out, refused with E50 while it is reset (R15) -/
  engine : Option Engine := none
  /-- step 13 -/
  ready : State → Option Err := fun _ => none
  /-- whether acceptance writes a command record (R448) -/
  logged : Bool := true
  /-- accepted on the supervisor line (R510) -/
  sup : Bool := false
  /-- takes no unit part (R487) -/
  local_ : Bool := false
  /-- the line is one that an open staging takes (R476) -/
  staged : State → Bool := fun _ => false
  /-- a verb of this device (step 6) -/
  known : Bool := true
  /-- the word of an E01 that the form of the line draws (R487, R494) -/
  form : Option String := none
  run : Ctx → State → State

/-! ## Text, tag, check -/

/-- The tag of a line and the text after its digits; none without a well-formed tag (R94). -/
def tagOf (chars : List Byte) : Option (Nat × List Byte) :=
  match chars.dropWhile (· = 0x20) with
  | [] => none
  | b :: t =>
    if b ≠ 0x23 then none else
    let r := takeDigits t 0 0
    if r.2.1 = 0 ∨ 8 < r.2.1 then none
    else match r.2.2 with
      | [] => some (r.1, [])
      | c :: u => if c = 0x20 then some (r.1, c :: u) else none
/-- A text with every SKEY value masked: `copy` characters are still to be copied, then the value is masked (R449). -/
def maskSkey : Nat → Bool → List Byte → List Byte
  | _, _, [] => []
  | k + 1, _, b :: t => b :: maskSkey k (decide (k = 0)) t
  | 0, true, b :: t => if b = 0x20 then b :: maskSkey 0 false t else 0x2D :: maskSkey 0 true t
  | 0, false, b :: t => if (b :: t).take 5 = ascii "SKEY=" then b :: maskSkey 4 false t else b :: maskSkey 0 false t
/-- A text without its trailing spaces. -/
def trimEnd (l : List Byte) : List Byte := (l.reverse.dropWhile (· = 0x20)).reverse
/-- A text with the dashes of every masked SKEY value as one: texts that differ only in the value of SKEY are the same (R117). -/
def oneDash : Nat → Bool → List Byte → List Byte
  | _, _, [] => []
  | k + 1, _, b :: t => b :: oneDash k (decide (k = 0)) t
  | 0, true, b :: t => if b = 0x2D then oneDash 0 true t else b :: oneDash 0 false t
  | 0, false, b :: t => if (b :: t).take 5 = ascii "SKEY=" then b :: oneDash 4 false t else b :: oneDash 0 false t
/-- A line's text: from after the tag's digits, or its start, up to the check (R117). -/
def lineText (l : Line) : List Byte :=
  trimEnd (maskSkey 0 false (match tagOf l.chars with
    | none => l.chars
    | some (_, t) => t))
/-- A line's tag. -/
def lineTag (l : Line) : Option Nat := (tagOf l.chars).map (·.1)

/-- The mode under which a line is read; the supervisor line takes a check or none (R96, R112). -/
def needsCheck (s : State) : Port → Bool
  | .session n => decide ((s.ses n).mode = .gen)
  | .supervisor => false
/-- A character a line may hold (R85). -/
def printable (b : Byte) : Bool := decide (0x20#8 ≤ b ∧ b ≤ 0x7E#8)
/-- Steps 1 to 3 of R105. -/
def earlyTests (l : Line) (s : State) : Option Err :=
  if 253 < l.chars.length + (if l.check.isSome ∨ l.badCheck.isSome then 5 else 0) then some { code := 11 }
  else if !l.chars.all printable || (decide (l.framed = .gen ∧ l.term ≠ .crlf)) then some { code := 1 }
  else match l.badCheck with
  | some b => some { code := 1, detail := .word (tokText b) }
  | none => match l.check with
    | none => if needsCheck s l.port then some { code := 10, detail := .word "missing" } else none
    | some c => if c = crc16 l.chars then none else some { code := 10 }

/-! ## Tag memory (R117 to R121) -/

/-- The tag memory of a port. -/
def tagsOf (s : State) : Port → List TagEntry
  | .session n => (s.ses n).tags
  | .supervisor => s.sup.tags
/-- A line enters tag memory; the oldest entry is dropped when there is no room (R112, R117). -/
def enterTag (p : Port) (e : TagEntry) (s : State) : State :=
  match p with
  | .session n => s.modSes n fun x => { x with tags := (e :: x.tags).take 16384 }
  | .supervisor => s.modSup fun u => { u with tags := (e :: u.tags).take 16 }

/-! ## Safety authority (R113 to R115) -/

/-- A line's sender holds safety authority for it; a network session's authorisation came within SMTIMEOUT before the line's final LF, at
the instant `at_` (R114, R115, R353). -/
def hasAuthority (l : Line) (at_ : Nat) (s : State) : Bool :=
  match l.port with
  | .supervisor => false
  | .session 0 => (s.ses 0).auth
  | .session n =>
    match lineTag l, l.check with
    | some t, some c => s.camp.auths.any fun a =>
        decide (a.session = n ∧ a.tag = t ∧ a.check = c.toNat ∧ a.at_ ≤ at_ ∧ at_ ≤ a.at_ + s.keyN .unit .SMTIMEOUT)
    | _, _ => false

/-- An authorisation is used at most once (R353). -/
def useAuthority (l : Line) (s : State) : State :=
  match l.port, lineTag l, l.check with
  | .session n, some t, some k => s.modCamp fun c => { c with auths := c.auths.filter fun a => !decide (a.session = n ∧ a.tag = t ∧ a.check = k.toNat) }
  | _, _, _ => s

/-! ## Steps 7 to 13 (R105) -/

/-- Quota, then free slots, then an event engine that is being reset (R15, R53). -/
def slotTests (p : Port) (k : Nat) (s : State) : Option Err :=
  match p with
  | .supervisor => none
  | .session n =>
    if k = 0 then none
    else if quotaOf s n < heldSlots s n + k then some { code := 12 }
    else if freeSlots s < k then some { code := 9 }
    else if s.engDown .evt then some (e50 .evt)
    else none
/-- A verb that the commit window refuses (R403). -/
def windowRefuses : Verb → Bool
  | .opn .. | .move .. | .follow .. | .jog .. | .ref .. | .refLearn .. | .cam .. | .resume .. => true
  | .isolate _ on => !on
  | _ => false
/-- Step 13: an engine that is being reset, the commit window of a sleep, then the verb's own conditions (R15, R403). -/
def stateTests (sp : Spec) (s : State) : Option Err :=
  let own := fun (s : State) => if s.slp.commit.isSome ∧ windowRefuses sp.verb then some { code := 6, detail := .word "SLEEP" } else sp.ready s
  match sp.engine with
  | some e => if s.engDown e then some (e50 e) else own s
  | none => own s
/-- Steps 7 to 9; an object of a head option that the unit lacks is not fitted, whatever the verb would take (R5). -/
def objectTests (sp : Spec) (s : State) : Option Err :=
  firstE03 sp.objs <|> optionE04 s sp.objs <|> sp.kinds s <|> firstE04 s sp.objs <|> sp.found s <|> sp.values s
/-- Steps 7 to 13 of R105, in their order; `auth` says whether the sender holds safety authority. -/
def lateTests (p : Port) (auth : Bool) (sp : Spec) (s : State) : Option Err :=
  objectTests sp s <|> (if sp.safety && !auth then some { code := 30 } else none) <|> slotTests p (sp.slots s) s <|> stateTests sp s

/-! ## Acceptance -/

/-- The command record of an accepted line (R448). -/
def commandRecord (p : Port) (tag : Option Nat) (text : List Byte) (s : State) : State :=
  record 0x0104 (le 2 text.length ++ text.take 90) { session := portByte p, tag } s
/-- A refused line's record, when Campion refused it or it lacked authority (R36). -/
def refusalRecord (p : Port) (tag : Option Nat) (e : Err) (s : State) : State :=
  if e.code = 7 then
    record 0x0103 (match e.detail with | .word w => pWord w | _ => []) { session := portByte p, tag } s
  else s
/-- A staged line that drew an error stays in the staging area as that error (R477). -/
def noteStaged (p : Port) (sp : Spec) (e : Err) (s : State) : State :=
  match p with
  | .supervisor => s
  | .session n => if sp.staged s then s.modSes n fun x => { x with staging := x.staging.map (· ++ [.inr e]), stagedLines := x.stagedLines + 1 } else s
/-- A verb form runs in a context: the tests of steps 7 to 13, then acceptance (R60, R105, R431). -/
def runSpec (c : Ctx) (auth : Bool) (sp : Spec) (s : State) : State :=
  match lateTests c.port auth sp s with
  | some e => finErr c e (noteStaged c.port sp e (refusalRecord c.port c.tag e s))
  | none =>
    let s := { s with accNo := s.accNo + 1 }
    sp.run { c with acc := s.accNo } (if sp.logged ∧ s.head.started then commandRecord c.port c.tag c.text s else s)

/-! ## The relay (R375 to R378) -/

/-- A line that names another unit: E04 where that unit is not to be had, else it takes a slot and is forwarded over the relay of
its session (R375 to R377). -/
def relayLine (l : Line) (u : Nat) (c : Ctx) (s : State) : State :=
  let p := s.peer u
  let e04 : Err := { code := 4, detail := .obj (.unitNo u) }
  if s.engDown .net then finErr c (e50 .net) s else
  if !p.known ∨ p.silent ∨ p.conflict then finErr c e04 s else
  match l.port with
  | .supervisor => finErr c e04 s
  | .session n =>
    match slotTests l.port 1 s with
    | some e => finErr c e s
    | none =>
      let old := s.net.relays.find? fun r => decide (r.near = n ∧ r.far = u)
      if old.isNone ∧ 256 ≤ s.net.relays.length then finErr c { code := 13 } s else
      let s := match old with
        | some _ => s
        | none => openRelay u (s.modNet fun x => { x with
            relays := x.relays ++ [{ id := x.nextRelay, near := n, far := u, own := 2 }], nextRelay := x.nextRelay + 1 })
      let rid := match s.net.relays.find? fun r => decide (r.near = n ∧ r.far = u) with
        | some r => r.id
        | none => 0
      let slot := (freeSlot s).getD 0
      let s := takeSlot slot (cmdEntry n c.tag c.text.length 0xFFFF .executing) s
      let s := s.modNet fun x => { x with relays := x.relays.map fun r =>
        if r.id = rid then { r with waiting := r.waiting ++ [(c.tag, slot)] } else r }
      let s := s.modSes n fun x => { x with
        heldBack := (if x.heldBack.getLast? = some (.line c.tag) then x.heldBack.dropLast else x.heldBack) ++ [.far rid c.tag] }
      transmit .session (some u) (framedLine l.chars (l.check.getD (crc16 l.chars))) s

/-! ## A line (R105) -/

/-- A line names another unit (R91). -/
def farUnit (l : Line) (s : State) : Option Nat :=
  match l.unit with
  | none => none
  | some u => if s.head.unit = some u then none else some u
/-- A session's line still waits for the return frames of the field outputs that it has set, and so for its first reply (R98, R102). -/
def awaits (s : State) : Bool := s.returns.any fun r => decide (r.ctx.port ≠ .supervisor) && r.ctx.within.isNone
/-- The interpreter can read a line of a session: it runs, the session's output buffer has room, every earlier local line, whatever its
session, has its first reply, and no line waits for its slot (R34, R98, R107, R421, R537). -/
def canRead (s : State) (n : Nat) : Bool :=
  !s.noTime .int && decide (outBytes (s.ses n).out < 65536) && !awaits s && !s.inbuf.any (·.asked)
/-- The event engine gets no core time while I/O beside it is being reset, and answers no slot request; one that is being reset itself is
refused with E50 (R13, R15, R537; DEDUCED, log entry 146). -/
def evtWaits (s : State) : Bool := s.noTime .evt && !s.engDown .evt
/-- The word of a line's E01 at step 5: its characters spell no form, its addresses name two units, a local verb has a unit part, or its
operands break the form (R87 to R93, R484, R487). -/
def formError (l : Line) (sp : Spec) (s : State) : Option String :=
  match readText l with
  | .bad w => some w
  | _ => match mixedUnits s.head.unit l.chars with
    | some t => some (tokText t)
    | none => if sp.local_ ∧ l.unit.isSome then some (unitText l.unit) else sp.form
/-- Step 6: the verb is one of this device, and of the supervisor line's subset there (R32, R88). -/
def verbKnown (l : Line) (sp : Spec) : Bool :=
  sp.known && !decide (readText l = .unknown) && (sp.sup || !decide (l.port = .supervisor))
/-- The tests of a line one of whose values is of the wrong kind for its key: E05 at step 9 (R92, R93). -/
def textSpec (l : Line) (sp : Spec) : Spec :=
  match readText l with
  | .wrong k _ => { sp with values := fun _ => some { code := 5, detail := .word k } }
  | _ => sp
/-- Two texts are the same but for the value of SKEY (R117). -/
def sameText (a b : List Byte) : Bool := decide (oneDash 0 false a = oneDash 0 false b)
/-- The reply to a tagged line that its session's tag memory holds: the final reply again, `dup` while it still runs, E21 for another text
(R117 to R119). -/
def tagReply (l : Line) (s : State) : Option Reply :=
  match lineTag l with
  | none => none
  | some t => ((tagsOf s l.port).find? (·.tag = t)).map fun e =>
      if !sameText e.text (lineText l) then { errR { code := 21 } with tag := some t }
      else match e.reply with
        | some r => { r with dup := true }
        | none => { colR "dup" with tag := some t }
/-- A line enters tag memory once its form is right (R117, R120). -/
def noteTag (l : Line) (s : State) : State :=
  match lineTag l with
  | none => s
  | some t => enterTag l.port { tag := t, text := lineText l } s
/-- Steps 6 to 13 of a line whose final LF came at the instant `at_`: the verb, the relay, and the verb form (R105). -/
def readOn (l : Line) (at_ : Nat) (sp : Spec) (c : Ctx) (s : State) : State :=
  if !verbKnown l sp then finErr c { code := 2 } s
  else match farUnit l s with
    | some u => if l.port = .supervisor then finErr c { code := 4, detail := .obj (.unitNo u) } s else relayLine l u c s
    | none => runSpec c (hasAuthority l at_ s) (textSpec l sp) (if sp.safety then useAuthority l s else s)
/-- A session's line passes the tests before step 12, needs a slot, and finds an event engine without core time: it waits for the answer to its
request (R105, R537). -/
def asksSlot (l : Line) (at_ : Nat) (sp : Spec) (s : State) : Bool :=
  evtWaits s && (earlyTests l s).isNone && (tagReply l s).isNone && (formError l sp s).isNone && verbKnown l sp && match farUnit l s with
    | some u => !s.engDown .net && (s.peer u).known && !(s.peer u).silent && !(s.peer u).conflict
    | none => decide (sp.slots s ≠ 0) && (objectTests (textSpec l sp) s).isNone && (!sp.safety || hasAuthority l at_ s)
/-- The turn of a session's line comes: its replies stand behind a relayed line's that has not come back (R34, R103). -/
def lineTurn (p : Port) (tag : Option Nat) (s : State) : State :=
  match p with
  | .session n => (s.worked .int).modSes n fun x => { x with heldBack := if x.heldBack.isEmpty then [] else x.heldBack ++ [.line tag] }
  | .supervisor => s
/-- A line is read: the tests of steps 1 to 5 in their order, then the rest (R34, R105). -/
def readLine (l : Line) (at_ : Nat) (sp : Spec) (s : State) : State :=
  let s := lineTurn l.port (lineTag l) s
  match earlyTests l s with
  | some e => send l.port { errR e with tag := lineTag l } s
  | none => match tagReply l s with
    | some r => sendUnder l.port (lineTag l) r s
    | none => match formError l sp s with
      | some w => send l.port { errR { code := 1, detail := if w = "" then .none else .word w } with tag := lineTag l } s
      | none => readOn l at_ sp { port := l.port, tag := lineTag l, text := lineText l } (noteTag l s)
/-- A line's characters as typed-mode editing leaves them: BS and DEL take the last one, NAK all, other control characters are dropped
(R99). -/
def editLine (chars : List Byte) : List Byte :=
  chars.foldl (fun t b =>
    if b = 0x08 ∨ b = 0x7F then t.dropLast else if b = 0x15 then [] else if b < 0x20 then t else t ++ [b]) []
/-- A line as the mode in force frames it on its arrival (R98, R99). -/
def framedIn (s : State) (l : Line) : Line :=
  match l.port with
  | .session n => if (s.ses n).mode = .typed then { l with framed := .typed, chars := editLine l.chars } else { l with framed := .gen }
  | .supervisor => l
/-- The bytes a line takes in an input buffer: its characters, its check and its terminator (R85, R95). -/
def lineBytes (l : Line) : Nat :=
  l.chars.length + (match l.check, l.badCheck with
    | some _, _ => 5
    | none, some b => 1 + b.length
    | none, none => 0) + (match l.term with
    | .crlf => 2
    | _ => 1)
/-- The bytes of a session's lines in its input buffer (R109). -/
def inBytes (s : State) (n : Nat) : Nat := ((s.inbuf.filter fun e => decide (e.ses = n) && !e.outside).map fun e => lineBytes e.line).sum
/-- A line of a network session finds no room in the 4 KiB of its input buffer, or lines before it wait outside that already (R109). -/
def noRoom (l : Line) (n : Nat) (s : State) : Bool :=
  decide (n ≠ 0) && (decide (4096 < inBytes s n + lineBytes l) || s.inbuf.any fun e => decide (e.ses = n) && e.outside)
/-- The console's input buffer holds 16 lines (R109). -/
def consoleFull (s : State) (n : Nat) : Bool := decide (n = 0 ∧ 16 ≤ (s.inbuf.filter (·.ses = n)).length)
/-- The turn of a line whose characters were lost comes: it is answered E01, without a tag (R109). -/
def lostLine (n : Nat) (s : State) : State := send (.session n) (errR { code := 1 }) (lineTurn (.session n) none s)
/-- The line of a session is in its buffer: it is read at once, or waits behind the lines that the interpreter reads before it. The console's
buffer holds 16 lines; the characters of another are discarded, and it is answered E01 when its turn comes (R34, R107, R109). One that waits
for its slot goes to the front (R537). -/
def lineComes (i : Instr) (l : Line) (n : Nat) (sp : Spec) (lost : Bool) (s : State) : State :=
  let e : InLine := { ses := n, line := l, cmd := i, at_ := s.now, lost }
  if canRead s n && s.inbuf.all (fun e => !canRead s e.ses) then
    if lost then lostLine n s
    else if asksSlot l s.now sp s then { s with inbuf := { e with asked := true } :: s.inbuf }
    else readLine l s.now sp s
  else { s with inbuf := s.inbuf ++ [e] }
/-- A line arrives on its port, or waits outside a full buffer. It is lost where nobody listens; an empty line or a comment gets no reply
(R87, R107, R109, R110). -/
def handleLine (i : Instr) (l : Line) (sp : Spec) (s : State) : State :=
  match l.port with
  | .supervisor => if ignoredLine l then s else readLine l s.now sp s
  | .session n =>
    if !s.head.started ∨ (s.ses n).st ≠ .opn then s
    else if noRoom l n s then { s with inbuf := s.inbuf ++ [{ ses := n, line := l, cmd := i, at_ := s.now, outside := true }] }
    else
      let l := framedIn s l
      let s := s.modSes n fun x => { x with lastLine := s.now }
      if ignoredLine l then s else lineComes i l n sp (consoleFull s n) s

end Sys2Proof.Machine
end

