-- ==== Sys2Proof/Machine/SliceOps.lean ====
section
/-! DEFINITION. Shared operations of a slice: a leaf set from its switches, the fail-safe latch, return to service, and the loss of
a link (05 R205, 07 R269, 13 R437 to R439, 15 R474). -/

namespace Sys2Proof.Machine

open Sys2Proof

/-- A leaf's state is set from its switches: CLOSED_LOCKED and referenced, or HELD with no kept target (R205). -/
def leafFromSwitches (n : Nat) (s : State) : State :=
  let s := s.modStn n fun t => { t with
    attempts := 0, kept := none, cause := "", obstacle := false, reopened := false, atZone := false
    step := if inOn s n .STOWSW then .stowed else .deployed
    learnedOpen := fineProfile (((commissioned s n).map (·.1)).getD []), learnedClose := fineProfile (((commissioned s n).map (·.2)).getD []), boundsOpen := [], boundsClose := [], boundTold := false }
  if bothMade s n then referenceSet n 0 none (setLeaf n .closedLocked s)
  else
    let s := loseReference n s
    let s := if (s.stn n).cycle.running then s else s.modStn n fun t => { t with cycle := newCycle s n }
    setLeaf n .held s

/-! ## Writes to the field side (R208, R293, R474) -/

/-- The position an object lies on. -/
def posOf : Obj → Option Nat
  | .st n => some (slotOf n)
  | .ch n _ => some (slotOf n)
  | .sl p => some p
  | _ => none
/-- PWR or ISET of a channel as Yarrow dims it, rounded down to its step (R316). -/
def dimmed (x : Switch) (v : Int) : Int := v * x.dim / 100
/-- A key's value as the field side is to have it: PWR and ISET of a dimmed channel come dimmed (R316). -/
def fieldForm (s : State) (o : Obj) (k : Key) (v : KVal) : KVal :=
  match o, k, v with
  | .ch n .la, .PWR, .i v | .ch n .la, .ISET, .i v => .i (dimmed (s.sw n .la) v)
  | .ch n .lb, .PWR, .i v | .ch n .lb, .ISET, .i v => .i (dimmed (s.sw n .lb) v)
  | _, _, _ => v
/-- A key of a slice's channel or station waits for its write to the field side (R208, R293). -/
def queueWrite (o : Obj) (k : Key) (v : KVal) (s : State) : State :=
  match o, posOf o with
  | .sl _, _ => s
  | _, none => s
  | _, some p => if (s.slc p).link then s.modSlc p fun x => { x with writes := x.writes ++ [((o, k), fieldForm s o k v)] } else s
/-- The keys in force of a slice's stations and channels wait for their writes (R208, R299). -/
def sendKeys (p : Nat) (s : State) : State :=
  forEach (s.cfg.plain ++ s.cfg.safety) (fun e s => if posOf e.1.1 = some p then queueWrite e.1.1 e.1.2 e.2 s else s) s
/-- The lines of a position held while its slice is of another type are applied (R474). -/
def applyHeld (p : Nat) (s : State) : State :=
  if (s.slc p).held then sendKeys p (s.modSlc p fun x => { x with held := false }) else s

/-! ## The latch and return to service -/

/-- A slice is fitted: enabled, identified and not declared absent (R41, R269). -/
def latchFitted (s : State) (p : Nat) : Bool := enabled s p && (s.slc p).typeLast.isSome && !(s.slc p).absent
/-- The safety configuration that latches are to hold: the one a SAVE SAFETY is writing, else the committed one (R269, R346). -/
def latchCfg (s : State) : KMap := (s.cfg.saving.map (·.keys)).getD s.cfg.safety
/-- The writes that rewrite a slice's latch: those keys of every load channel of its stations (R269). -/
def latchWrites (s : State) (p : Nat) : List ((Obj × Key) × KVal) :=
  (stationsOf p).flatMap fun n => [Chan.la, .lb].flatMap fun c =>
    (latchKeys.filter fun k => c = .la ∨ k ≠ .RESERVE).map fun k => ((.ch n c, k), kOf s (latchCfg s) (.ch n c) k)
/-- A latch holds the safety configuration it is to hold (R269). -/
def latchMatches (s : State) (p : Nat) : Bool := (latchWrites s p).all fun e => kOf s (s.slc p).latch e.1.1 e.1.2 = e.2
/-- A rewrite of a slice's latch begins: it is not verified until its read-back matches. A slice without a link cannot be written (R39 bit 9,
R269, R293). -/
def writeLatch (p : Nat) (s : State) : State :=
  let l := latchWrites s p
  s.modSlc p fun x =>
    if x.link then { x with latched := false, latchAt := some s.now, writes := x.writes ++ l } else { x with latched := false, latchAt := none }

/-- The type the loaded set gives a position admits the type read from it (R439, R475). -/
def typeMatches (s : State) (p : Nat) : Bool :=
  match (s.slc p).typeRead, cfgType s p with
  | some t, some c => decide (t = c)
  | some _, none => true
  | none, _ => false
/-- A slice's insertion counter has saturated (R28). -/
def saturated (s : State) (p : Nat) : Bool := match (s.slc p).ident with | some i => decide (i.2 = 0xFFFF#16) | none => false
/-- Every condition of R439 holds. -/
def mayReturn (s : State) (p : Nat) : Bool :=
  let x := s.slc p
  x.link && x.passed && x.latched && typeMatches s p
    && ((s.keyIs (.sl p) .AUTORETURN "ON" && !saturated s p) || x.service || (x.startUp && !saturated s p))
/-- Some fitted station of a position is out of service. -/
def anyOut (s : State) (p : Nat) : Bool := (stationsOf p).any fun n => (s.stn n).outOfService
/-- The stations of a slice return to service together (R439). -/
def returnService (p : Nat) (s : State) : State :=
  let s := forEach (stationsOf p) (fun n s =>
    let s := s.modStn n fun t => { t with outOfService := false, linkLost := false, failSafe := false }
    if isLeaf s n then leafFromSwitches n s else s) s
  let s := forEach (stationsOf p) (fun n s =>
    if isRole s n "STEP" ∧ unomSet s n then ask n .fd .on s else s) s
  let s := applyHeld p (s.modSlc p fun x => { x with startUp := false })
  record 0x0B06 [] { slice := p } (report [.sl p] (.sl p) [.w "service"] s)
/-- A slice whose conditions hold returns, once start-up is over (R439). -/
def tryReturn (p : Nat) (s : State) : State :=
  if mayReturn s p ∧ anyOut s p ∧ ¬ s.head.bit31 then returnService p s else s

/-- The charges on a lost station's feed go: its own move's, its part of a leaf's, and that of an OUT (R328). -/
def loseCharges (n : Nat) (s : State) : State :=
  s.modYar fun y => { y with charges := y.charges.filter fun c => decide (c.station ≠ n ∧ c.of ≠ n) }
/-- An axis of a lost slice: its train ends with the loaded interval, it is unreferenced (R141, R165). -/
def loseAxis (n : Nat) (s : State) : State :=
  let s := s.modAx n fun a => { a with ahead := [], motion := none, moving := a.loaded.isSome }
  resumeDone n (stopDone n (loseReference n (loseCharges n (endWait n s))))
/-- The slice's link is lost: its operations end, its leaves go to FAULT with cause `link`, its stations go out of service
(R437). -/
def loseLink (p : Nat) (s : State) : State :=
  let e : Err := { code := 40, detail := .obj (.sl p) }
  let s := s.modSlc p fun x => { x with link := false, lostAt := some s.now, latchAt := none, writes := [] }
  let s := endSliceOps p s
  let s := forEach (stationsOf p) (fun n s =>
    let s := loseAxis n s
    let s := s.modStn n fun t => { t with linkLost := true, outOfService := true, armed := false }
    let s := doorFailed n e "link" s
    bufSafe n (if isLeaf s n then faultLeaf n "link" e s else s)) s
  framesLost p e (record 0x0B04 [] { slice := p } s)

end Sys2Proof.Machine
end

