-- ==== Sys2Proof/Machine/Keys.lean ====
section
/-! DEFINITION. SET, GET and BUDGET: the tests of every key on every object, the values applied, clipping against the bounds, and
the staged set (16 R497 to R506 and the key tables' own chapters; 15 R475 to R478; 09 R319, R320). -/

namespace Sys2Proof.Machine

open Sys2Proof

/-- One assignment of a SET line: object, key, value as written. -/
abbrev Asg := Obj × Key × Val

/-- The point number a line for a cam table gives (R159). -/
def ptOf (kvs : List (Key × Val)) : Option Int :=
  match kvs.find? (·.1 = .PT) with
  | some (_, .num l) => litPlain l
  | _ => none
/-- SIDE=NONE of a platform, which removes its entry whatever else the line gives (R506). -/
def removes (a : Asg) : Bool :=
  match a with
  | (.plat _, .SIDE, .word "NONE") => true
  | _ => false
/-- The assignments of a line, in line order and then address order (R497), with the removal of a platform after what else its line gives
(R506); X and Y of a cam table are those of its point. -/
def asgs (objs : List Obj) (kvs : List (Key × Val)) : List Asg :=
  let l := (kvs.map fun e => objs.map fun o =>
    match o, e.1 with
    | .cam n, .X => (Obj.camPt n ((ptOf kvs).getD 0).toNat, e)
    | .cam n, .Y => (Obj.camPt n ((ptOf kvs).getD 0).toNat, e)
    | o, _ => (o, e)).flatten
  l.filter (!removes ·) ++ l.filter removes
/-- A key that is no configuration key but takes part in a SET line: PT of a cam table (R159), TWIN (R506). -/
def extraKey (o : Obj) (k : Key) : Bool :=
  match o, k with
  | .cam _, .PT => true
  | .unit, .TWIN => true
  | _, _ => false
/-- A key that no SET line takes (R484). -/
def lineKey : Key → Bool
  | .DIST | .FOLLOW | .TABLE | .MASTER | .OFFSET | .LEARN | .PERIOD | .PHASE | .DUTY | .IFPAST | .REPEAT | .INTERVAL | .HYST | .USER | .DO
  | .RATE | .SNAP | .WINDOW | .SELECT | .LEN => true
  | _ => false
/-- The first key of a line that its form does not take, or that stands there twice (R484). -/
def badKey (takes : Key → Bool) : List Key → List Key → Option Key
  | _, [] => none
  | seen, k :: l => if !takes k || decide (k ∈ seen) then some k else badKey takes (k :: seen) l
/-- The E01 of a line with keys: the verb where there is none, else the first key that should not be there (R484). -/
def keyForm (verb : String) (takes : Key → Bool) (l : List Key) : Option String :=
  if l.isEmpty then some verb else (badKey takes [] l).map keyText
/-- An action key (R498). -/
def actionKey (o : Obj) (k : Key) : Bool :=
  match o, k with
  | .sl _, .SERVICE => true
  | .line, .POS => true
  | .time, .VALUE => true
  | .ch _ _, .COUNT => true
  | .session, _ => true
  | _, _ => false

/-- A map with an assignment applied; a key set to its default stays listed, a platform's SIDE=NONE removes the entry (R506), a
smaller N discards the points beyond it (R159). -/
def putKey (m : KMap) (o : Obj) (k : Key) (v : KVal) : KMap :=
  match o, k, v with
  | .plat n, .SIDE, .w "NONE" => adel (adel (adel m (.plat n, .START)) (.plat n, .END)) (.plat n, .SIDE)
  | .mark n, .POS, .w _ => adel m (.mark n, .POS)
  | .cam n, .N, .i c => (aset m (o, k) v).filter fun e => match e.1.1 with
      | .camPt q i => decide (q ≠ n ∨ (i : Int) < c)
      | _ => true
  | _, _, _ => aset m (o, k) v
/-- The value an assignment gives, where its key takes it. -/
def asgVal (s : State) (a : Asg) : Option KVal := (keyRow s a.1 a.2.1).bind fun r => keyVal r a.2.2
/-- The state with the assignments written into the configuration and the candidate, for the tests of values that will be in force
together (R272, R302). -/
def afterSet (s : State) (l : List Asg) : State :=
  forEach l (fun a s =>
    match asgVal s a with
    | none => s
    | some v =>
      if actionKey a.1 a.2.1 then s
      else if isSafety s a.1 a.2.1 then s.modCfg fun c => { c with cand := some (putKey (c.cand.getD c.safety) a.1 a.2.1 v) }
      else s.modCfg fun c => { c with plain := putKey c.plain a.1 a.2.1 v }) s

/-! ## Steps 7 to 9 -/

/-- E03: the object lacks the key (R207, R245, R272). -/
def keyE03 (s' : State) (s : State) (a : Asg) : Option Err :=
  let e : Option Err := some { code := 3, detail := .obj a.1 }
  if extraKey a.1 a.2.1 then none
  else if (keyRow s a.1 a.2.1).isNone then e
  else match a.1, a.2.1 with
    | .ch n c, .PWIDTH => if s'.keyNext (.ch n c) .PROFILE = .w "FIL" then e else none
    | _, _ => none
/-- E04: the object, or a station named as the value of a key that takes one, is not fitted (R93, R166, R193). -/
def keyE04 (s : State) (a : Asg) : Option Err :=
  if !objFitted s a.1 then some { code := 4, detail := .obj a.1 }
  else match (keyRow s a.1 a.2.1).map (·.vt), a.2.2 with
    | some (VT.station _), Val.obj (Obj.st m) => if m < 64 ∧ ¬ stFitted s m then some { code := 4, detail := .obj (.st m) } else none
    | _, _ => match a with
      | (.st n, .ROLE, .word w) => if (w = "LEAF" ∨ w = "STEP") ∧ ¬ chFitted s n .ax then some { code := 4, detail := .obj (.ch n .ax) } else none
      | (.unit, .RELSRC, .word "LINES") => if s.fit.optT then none else some { code := 4, detail := .obj (.head .rell) }
      | _ => none
/-- Positions of the mark table. -/
def markTable (s : State) : List (Nat × Int) :=
  s.cfg.plain.filterMap fun e => match e with
    | ((.mark n, .POS), .i v) => some (n, v)
    | _ => none
/-- The mark table keeps its spacing (R81). -/
def marksApart (s : State) : Bool :=
  let t := markTable s
  let w := 2 * s.keyI .line .MARKWIN
  t.all fun a => t.all fun b => decide (a.1 = b.1) || decide (w < (a.2 - b.2).natAbs)
/-- An address is the network or broadcast address of a mask (R358). -/
def hostless (ip : Int) (mask : Nat) : Bool :=
  let host := ip % (2 ^ (32 - mask) : Nat)
  decide (host = 0 ∨ host = (2 ^ (32 - mask) : Nat) - 1)
/-- The default address of a unit (R358). -/
def defaultIp (u : Option Nat) : Nat :=
  match u with
  | none => ((10 * 256 + 80) * 256 + 3) * 256 + 254
  | some n => ((10 * 256 + 80) * 256 + (4 + n / 256)) * 256 + n % 256
/-- E05 of relations among keys, with the values in force, and with those that will be in force together (R81, R250, R358, R506). -/
def keyRel (keys : List Key) (s' : State) (o : Obj) (k : Key) : Option Err :=
  let e := fun (k : Key) => some ({ code := 5, detail := .key k } : Err)
  match o, k with
  | .unit, .TDSTART => if s'.keyNext .unit .TDSTART ≠ .unset ∧ kInt (s'.keyNext .unit .TDFULL) < kInt (s'.keyNext .unit .TDSTART) + 5 then e .TDSTART else none
  | .unit, .TDFULL => if kInt (s'.keyNext .unit .TDFULL) < kInt (s'.keyNext .unit .TDSTART) + 5 then e (if Key.TDSTART ∈ keys then .TDSTART else .TDFULL) else none
  | .unit, .IPADDR | .unit, .MASK =>
    let v : Int := match s'.key .unit .IPADDR with
      | .i v => v
      | _ => defaultIp s'.head.unit
    if hostless v (s'.keyN .unit .MASK) then e .IPADDR else none
  | .line, .MARKTOL => if s'.keyI .line .MARKWIN < 2 * s'.keyI .line .MARKTOL ∨ ¬ marksApart s' then e .MARKTOL else none
  | .line, .MARKWIN => if s'.keyI .line .MARKWIN < 2 * s'.keyI .line .MARKTOL then e (if Key.MARKTOL ∈ keys then .MARKTOL else .MARKWIN)
      else if marksApart s' then none else e .MARKWIN
  | .mark _, .POS => if marksApart s' then none else e .POS
  | .plat n, _ =>
    match aget s'.cfg.plain (.plat n, .START), aget s'.cfg.plain (.plat n, .END) with
    | some (.i x), some (.i y) => if y ≤ x then e .END else none
    | _, _ => none
  | .ch n c, _ =>
    let slow := fun (v : Key → KVal) => decide (v .PROVED = .w "ON" ∧ v .MODE = .w "CP" ∧ kInt (v .PWMF) < 1000)
    if (k = .PWMF ∨ k = .MODE ∨ k = .PROVED) ∧ (c = .la ∨ c = .lb) ∧ (slow (s'.key (.ch n c)) ∨ slow (s'.keyNext (.ch n c))) then e .PWMF else none
  | _, _ => none
/-- E05 of one assignment on its own, and of relations among keys; a staged line leaves those to its commit (R477, R506). -/
def keyE05 (keys : List Key) (alone : Bool) (s' s : State) (a : Asg) : Option Err :=
  let e := fun (k : Key) => some ({ code := 5, detail := .key k } : Err)
  match a.1, a.2.1 with
  | .unit, .TWIN => none
  | .cam n, .PT =>
    match a.2.2 with
    | .num l => match litPlain l with
      | none => e .PT
      | some i => if i < 0 then e .PT else match s'.key (.cam n) .N with
        | .i c => if c ≤ i then e .PT else none
        | _ => if 1024 ≤ i then e .PT else none
    | _ => e .PT
  | o, k => if (asgVal s a).isNone then e k else if alone then none else keyRel keys s' o k

/-! ## Step 13 -/

/-- The switch of a load or feed channel. -/
def chSw : Chan → Option Sw
  | .fd => some .fd
  | .la => some .la
  | .lb => some .lb
  | _ => none
/-- The inputs that door keys of a LEAF station name (R272). -/
def doorInputs (s : State) (n : Nat) : List Nat :=
  [Key.CLOSEDSW, .LOCKSW, .EDGE, .STOWSW].filterMap fun k => inputOf (s.keyNext (.st n) k)
/-- The first door input of a station whose TEST will be off (R166, R272). -/
def untested (s : State) (n : Nat) : Option Nat := (doorInputs s n).find? fun k => s.keyNext (.ch n (inChan k)) .TEST = .w "OFF"
/-- An axis has motion, waiting, held or coupled motion included (R128, R130). -/
def hasMotion (s : State) (n : Nat) : Bool := (s.ax n).motion.isSome || (s.ax n).moving || (s.stn n).wait.isSome
/-- The leaf is neither CLOSED_LOCKED nor ISOLATED. -/
def leafBusy (s : State) (n : Nat) : Bool := isLeaf s n && decide ((s.stn n).leaf ≠ .closedLocked ∧ (s.stn n).leaf ≠ .isolated)
/-- A door key of R167. -/
def doorKey (k : Key) : Bool := (stationRow "" k).isSome && !(k = .ROLE || k = .ITYPE || k = .FILTER || k = .TPW)
/-- The first channel, in station order and then channel order, that a configured type has and the fitted slice lacks (R440). -/
def lackedBy (s : State) (p : Nat) : Option Obj :=
  match (s.slc p).typeRead, cfgType s p with
  | some 2, some 1 => some (.ch (8 * p) .ax)
  | _, _ => none
/-- The refusals of SERVICE=ON (R440). -/
def serviceTest (s : State) (p : Nat) : Option Err :=
  let x := s.slc p
  if !x.link then some { code := 40, detail := .obj (.sl p) }
  else if !x.passed ∨ !x.latched then some { code := 6, detail := .obj (.sl p) }
  else if typeMatches s p then none
  else some { code := 4, detail := .obj ((lackedBy s p).getD (.sl p)) }

/-- E06, E04 and E40 of one assignment (the key tables' chapters). -/
def keyE06 (port : Port) (s' s : State) (a : Asg) : Option Err :=
  let e := fun (d : Detail) => some ({ code := 6, detail := d } : Err)
  match a.1, a.2.1 with
  | .unit, .TWIN => e (.key .TWIN)
  | .unit, _ => none
  | .cam n, k => if camUsed s n then e (.obj (.cam n)) else if k = .PT ∧ s'.key (.cam n) .N = .unset then e (.key .N) else none
  | .camPt n _, _ => if camUsed s n then e (.obj (.cam n)) else if s'.key (.cam n) .N = .unset then e (.key .N) else none
  | .session, .QUOTA => none
  | .session, k => if port = .session 0 then e (.key k) else none
  | .time, _ => if s.net.ptp.self ∨ s.net.ptp.gm = none then none else e (.obj .time)
  | .sl p, .SERVICE => serviceTest s p
  | .bus b, .GROUP => if s'.keyI (.bus b) .GROUP ≠ 0 ∧ s'.key (.bus b) .GPEAK = .unset then e (.key .GPEAK) else none
  | .ch n .ax, k => if hasMotion s n then e (.obj (.ch n .ax)) else if k = .REFPOS ∧ isRole s n "LEAF" then e (.obj (.ch n .ax)) else none
  | .ch n c, k =>
    match chSw c with
    | some w =>
      let self := e (.obj (.ch n c))
      let resLit := decide (w = .la) && hasReserve s n && lit s n .lb
      if (k = .WIRE ∨ k = .UNOM ∨ k = .MODE) ∧ lit s n w then self
      else if k = .BUS ∧ fdConducts s n then self
      else if (k = .PWIDTH ∨ k = .RESERVE ∨ (k = .PROFILE ∧ w ≠ .fd)) ∧ (lit s n w || resLit) then self
      else if k = .PROVED ∧ s'.keyNext (.ch n c) .PROVED = .w "ON" ∧ s'.keyNext (.ch n c) .ONTHR = .unset then e (.key .ONTHR)
      else if k = .PROVED ∧ s'.keyNext (.ch n c) .PROVED = .w "ON" ∧ s'.keyNext (.ch n c) .PTHR = .unset then e (.key .PTHR)
      else if k = .RESERVE ∧ s'.keyNext (.ch n .la) .RESERVE = .w "LB" ∧ ¬ (s'.keyNext (.ch n .la) .PROVED = .w "ON"
          ∧ s'.keyNext (.ch n .lb) .PROVED = .w "ON" ∧ s'.keyNext (.ch n .la) .PROFILE = s'.keyNext (.ch n .lb) .PROFILE
          ∧ s'.keyNext (.ch n .la) .MODE = s'.keyNext (.ch n .lb) .MODE) then e (.obj (.ch n .lb))
      else if k = .DIMMIN ∧ kInt (s'.keyNext (.ch n c) .DIMMIN) < 100
          ∧ ¬ (s'.keyNext (.ch n c) .PROVED = .w "OFF" ∧ s'.keyNext (.ch n c) .MODE ≠ .w "SWITCH") then self
      else none
    | none =>
      if k = .TEST ∧ s'.keyNext (.ch n c) .TEST = .w "OFF" ∧ s'.key (.st n) .ROLE = .w "LEAF" ∧ (doorInputs s' n).any (fun i => inChan i = c) then e (.obj (.ch n c))
      else if (k = .CNT ∨ k = .TEST) ∧ s'.key (.ch n c) .CNT ≠ .w "OFF" ∧ s'.key (.ch n c) .CNT ≠ .unset ∧ s'.keyNext (.ch n c) .TEST = .w "ON" then e (.obj (.ch n c))
      else none
  | .st n, .ROLE =>
    if hasMotion s n ∨ leafBusy s n then e (.obj (.st n))
    else if s'.key (.st n) .ROLE = .w "LEAF" then
      match untested s' n with
      | some i => e (.obj (.ch n (inChan i)))
      | none => none
    else none
  | .st n, k =>
    if doorKey k ∧ leafBusy s n then e (.obj (.st n))
    else if (k = .CLOSEDSW ∨ k = .LOCKSW ∨ k = .EDGE ∨ k = .STOWSW) ∧ s'.key (.st n) .ROLE = .w "LEAF" then
      match (inputOf (s'.keyNext (.st n) k)).filter (fun i => s'.keyNext (.ch n (inChan i)) .TEST = .w "OFF") with
      | some i => e (.obj (.ch n (inChan i)))
      | none => none
    else none
  | _, _ => none

/-! ## Clipping (R192, R320) -/

/-- The unit suffix in which a key's value is written in a reply, and how many of the key's steps make one unit. -/
def keyUnit : Key → String × Int
  | .MARGIN => ("mA", 1)
  | .PERSIST => ("ms", 1000)
  | .DRIFT => ("%", 1)
  | .SPEED => ("mm/s", 1000)
  | .ACC | .DEC => ("mm/s2", 1000)
  | .PWR => ("%", 1)
  | .ISET => ("mA", 10)
  | .PEAK | .GPEAK => ("A", 1000)
  | .EMAX => ("kJ", 1000)
  | .CAP => ("W", 1000)
  | _ => ("", 1)
/-- A key's value as a reply writes it. -/
def unitFld (name : String) (k : Key) (v : Int) : Fld :=
  let u := keyUnit k
  if v % u.2 = 0 then .kn name (v / u.2) u.1
  else .kw name ((if v < 0 then "-" else "") ++ dec (v.natAbs / u.2.natAbs) ++ "." ++ decPad (match u.2 with | 10 => 1 | _ => 3) (v.natAbs % u.2.natAbs) ++ u.1)
/-- The warning of a clip (R104). -/
def e71 (k : Key) (asked applied : Int) : Reply :=
  { pre := .bang, word := "E71", fields := [.w (keyText k), unitFld "asked" k asked, unitFld "applied" k applied] }
/-- The value a hardware loop lets through of an asked one, where it is less (R192, R320). -/
def clipOf (s : State) (o : Obj) (k : Key) (v : Int) : Option Int :=
  let least := fun (m : Int) => if m < v then some m else none
  match o, k with
  | .st n, .MARGIN => if s.key (.st n) .MARGINMAX = .unset then none else least (s.stK n .MARGINMAX)
  | .st n, .PERSIST => least (s.stK n .PERSISTMAX)
  | .st n, .DRIFT => least (s.stK n .DRIFTMAX)
  | .ch n .ax, .SPEED | .ch n .ax, .ACC | .ch n .ax, .DEC => least (derated s n v.toNat : Nat)
  | .ch n .la, .PWR | .ch n .la, .ISET => least (dimmed (s.sw n .la) v)
  | .ch n .lb, .PWR | .ch n .lb, .ISET => least (dimmed (s.sw n .lb) v)
  | _, _ => none
/-- A value of a clipped key as a record holds it: a current in 0.1 mA, a duration in us, an energy in uJ, any other in its key's unit (R446). -/
def pKey (k : Key) (v : Int) : List Byte :=
  match k with
  | .MARGIN | .PEAK | .GPEAK => pInt (10 * v)
  | .PERSIST | .ISET => pInt v
  | .EMAX => pInt (1000000 * v)
  | _ => pInt (v / (keyUnit k).2)
/-- A clip is kept in force and journalled (R192, R320). -/
def noteClip (o : Obj) (k : Key) (asked applied : Int) (hd : RecHd) (s : State) : State :=
  let s := s.modYar fun y => { y with clips := if (o, k) ∈ y.clips then y.clips else y.clips ++ [(o, k)] }
  let s := match o with
    | .st n => s.modStn n fun t => { t with cycle := { t.cycle with policyClip := t.cycle.policyClip || t.cycle.running } }
    | _ => s
  record 0x0702 (pKey k asked ++ pKey k applied) hd s
/-- A clip of a SET line is warned of as well (R104). -/
def clip (c : Ctx) (o : Obj) (k : Key) (asked applied : Int) (s : State) : State :=
  noteClip o k asked applied { session := portByte c.port, tag := c.tag } (say c (e71 k asked applied) s)
/-- The keys of a set that a hardware loop may hold: those it gives, and the bounded keys of the leaves, given or at their defaults (R347). -/
def clipKeys (s : State) : List (Obj × Key) :=
  (s.cfg.plain.map (·.1) ++ ((allStations.filter (isLeaf s)).map fun n => [(Obj.st n, Key.MARGIN), (.st n, .PERSIST), (.st n, .DRIFT)]).flatten).eraseDups
/-- A set in force is held under the hardware loops: a station's key above its ceiling takes the ceiling, any other clip only shows
(R192, R320; that a whole set is clipped without a warning is DEDUCED, log entry 104). -/
def clipSet (s : State) : State :=
  forEach (clipKeys s) (fun e s =>
    match clipOf s e.1 e.2 (kInt (s.key e.1 e.2)) with
    | none => s
    | some w => match e.1 with
      | .st _ => (noteClip e.1 e.2 (kInt (s.key e.1 e.2)) w {} s).modCfg fun g => { g with plain := putKey g.plain e.1 e.2 (.i w) }
      | _ => if e ∈ s.yar.clips then s else noteClip e.1 e.2 (kInt (s.key e.1 e.2)) w {} s) s

/-! ## Applying (R293, R345, R497, R498) -/

/-- An interval of 2^k s in us, k from -1 to 5. -/
def pow2us (k : Int) : Nat := if k < 0 then 500000 else 1000000 * 2 ^ k.toNat
/-- The PTP settings as the keys now give them. -/
def ptpKeysNow (s : State) : PtpKeys :=
  { domain := s.keyN .unit .PTPDOMAIN, masterCap := s.keyIs .unit .PTPROLE "MASTERCAP", prio1 := s.keyN .unit .PRIO1, prio2 := s.keyN .unit .PRIO2
    annInt := s.keyI .unit .ANNINT, annTo := s.keyN .unit .ANNTO, syncInt := s.keyI .unit .SYNCINT
    delayInt := s.keyN .unit .DELAYINT, utcOff := s.keyN .unit .UTCOFF }
/-- The PTP settings in force. -/
def State.ptp (s : State) : PtpKeys := s.net.ptp.keys.getD (ptpKeysNow s)
/-- The Announce intervals that have begun by now take the settings the keys of a state give (R369). -/
def agePtp (old s : State) : State :=
  let p := s.net.ptp
  let iv := pow2us s.ptp.annInt
  let base := if p.keys.isNone then s.head.startAt else p.keysAt
  if p.keys.isSome ∧ s.now < base + iv then s
  else
    let new := ptpKeysNow old
    s.modNet fun n => { n with ptp := { n.ptp with
      keys := some new, keysAt := base + iv * ((s.now - base) / iv), reselect := p.reselect || decide (p.keys.any (· ≠ new)) } }
/-- The reaction of the machine to a key that is now in force: a role makes a leaf (R205), and what the PTP keys were holds on to the next
Announce interval (R369). -/
def keyEffect (old : State) (o : Obj) (k : Key) (s : State) : State :=
  match o, k with
  | .unit, .PTPDOMAIN | .unit, .PTPROLE | .unit, .PRIO1 | .unit, .PRIO2 | .unit, .ANNINT | .unit, .ANNTO | .unit, .SYNCINT | .unit, .DELAYINT | .unit, .UTCOFF =>
    agePtp old s
  | .st n, .ROLE => if isLeaf s n ∧ ¬ isLeaf old n ∧ ¬ (s.stn n).outOfService then leafFromSwitches n s else s
  | _, _ => s
/-- LINE takes POS and becomes PROVISIONAL, with a line-set record, which carries POS (R82; DESIGN CHOICE, log entry 125); no event fires at
this jump (R71). -/
def setLinePos (v : Int) (s : State) : State :=
  record 0x0204 (pInt v) { engine := 3 } (toLineState .provisional (setLineMm v s))
/-- TIME takes a value, as a jump and with a time-step record of the offset that it removes (R71, R371, R373). -/
def setTime (v : Int) (s : State) : State :=
  let d := v - s.time
  record 0x0905 (pInst (-d)) { engine := 1 } (stepTime d s)
/-- An action key acts at once (R498). -/
def actNow (c : Ctx) (o : Obj) (k : Key) (v : KVal) (s : State) : State :=
  match o, k with
  | .sl p, _ => tryReturn p (s.modSlc p fun x => { x with newIns := false, service := true })
  | .line, _ => setLinePos (kInt v) s
  | .time, _ => setTime (kInt v) s
  | .ch n ch, _ => s.modInp n (chCode ch - 4) fun i => { i with count := BitVec.ofInt 32 (kInt v), undo := none }
  | .session, k =>
    match c.port with
    | .supervisor => s
    | .session n => s.modSes n fun x => match k with
      | .QUOTA => { x with quota := (kInt v).toNat }
      | .IDLE => { x with idle := (kInt v).toNat }
      | _ => { x with hold := (kInt v).toNat }
  | _, _ => s
/-- One assignment is applied (R192, R320, R345, R497, R498). -/
def applyAsg (c : Ctx) (a : Asg) (s : State) : State :=
  match a with
  | (o, k, v) =>
    match o, k, v with
    | .unit, .SKEY, .hexkey x => s.modCfg fun g => { g with candSkey := some x }
    | _, _, _ =>
      match asgVal s a with
      | none => s
      | some v =>
        if actionKey o k then actNow c o k v s
        else if isSafety s o k then s.modCfg fun g => { g with cand := some (putKey (g.cand.getD g.safety) o k v) }
        else
          let old := s
          let s := match clipOf s o k (kInt v) with
            | some w => clip c o k (kInt v) w s
            | none => s.modYar fun y => { y with clips := y.clips.filter (· ≠ (o, k)) }
          let v := match clipOf old o k (kInt v), o with
            | some w, .st _ => .i w
            | _, _ => v
          keyEffect old o k (queueWrite o k v (s.modCfg fun g => { g with plain := putKey g.plain o k v }))

/-- The text a staged line takes in the staging area. -/
def stagedLen (c : Ctx) : Nat := c.text.length
/-- The session of a port has staging open (R476). -/
def stagingOf (s : State) (p : Port) : Option (List (Sum ((Obj × Key) × KVal) Err)) :=
  match p with
  | .session n => (s.ses n).staging
  | .supervisor => none
/-- A line's non-safety configuration keys are staged (R476). -/
def stages (s : State) (p : Port) (l : List Asg) : Bool :=
  (stagingOf s p).isSome && l.any fun a => !isSafety s a.1 a.2.1 && !actionKey a.1 a.2.1

/-- The objects of a SET line; ALL with no member is E04 (R90). -/
def selErr (s : State) (sel : ObjSel) : Option Err :=
  allGone (objNone s sel) <|> firstE04 s (objSel s sel)
/-- Step 7 of a SET line; an object of a head option that the unit lacks is not fitted, whatever keys it would have (R5, R497). -/
def setKinds (sel : ObjSel) (kvs : List (Key × Val)) (s : State) : Option Err :=
  let objs := objSel s sel
  let l := asgs objs kvs
  firstE03 objs <|> optionE04 s objs <|> l.findSome? (keyE03 (afterSet s l) s)
/-- Step 8 of a SET line (R497). -/
def setFound (sel : ObjSel) (kvs : List (Key × Val)) (s : State) : Option Err :=
  let l := asgs (objSel s sel) kvs
  selErr s sel <|> l.findSome? (keyE04 s)
/-- Step 9 of a SET line. -/
def setValues (port : Port) (sel : ObjSel) (kvs : List (Key × Val)) (s : State) : Option Err :=
  let l := asgs (objSel s sel) kvs
  l.findSome? (keyE05 (kvs.map (·.1)) (stages s port l) (afterSet s l) s)
/-- Step 13 of a SET line; a staged line is not tested there, but may not mix (R476, R497). -/
def setReady (port : Port) (sel : ObjSel) (kvs : List (Key × Val)) (s : State) : Option Err :=
  let l := asgs (objSel s sel) kvs
  if (stagingOf s port).isSome ∧ l.any (fun a => isSafety s a.1 a.2.1) ∧ l.any (fun a => !isSafety s a.1 a.2.1) then
    some { code := 6, detail := .word "SAVE" }
  else if stages s port l then none
  else l.findSome? (keyE06 port (afterSet s l) s)
/-- SET takes effect: staged, or applied whole (R476, R497). -/
def runSet (sel : ObjSel) (kvs : List (Key × Val)) (c : Ctx) (s : State) : State :=
  let objs := objSel s sel
  let l := asgs objs kvs
  if stages s c.port l then
    match c.port with
    | .supervisor => s
    | .session n =>
      if 524220 < (s.ses n).stagedBytes + stagedLen c then finErr c { code := 5, detail := .word "SAVE" } s
      else
        let add := l.filterMap fun a => (asgVal s a).map fun v => (Sum.inl ((a.1, a.2.1), v) : Sum ((Obj × Key) × KVal) Err)
        fin c (eqR "set" [.w "staged"]) (s.modSes n fun x => { x with
          staging := x.staging.map (· ++ add), stagedBytes := x.stagedBytes + stagedLen c, stagedLines := x.stagedLines + 1 })
  else fin c (eqR "set" [.n objs.length]) (forEach l (applyAsg c) s)
/-- The specification of SET (R497). -/
def setSpec (port : Port) (sel : ObjSel) (kvs : List (Key × Val)) : Spec :=
  { verb := .set sel kvs, form := keyForm "SET" (fun k => !lineKey k) (kvs.map (·.1)), kinds := setKinds sel kvs, found := setFound sel kvs, values := setValues port sel kvs, ready := setReady port sel kvs, run := runSet sel kvs }
/-- A SET line is safety-relevant as a whole when it holds a safety key (R497). -/
def setSafety (s : State) (sel : ObjSel) (kvs : List (Key × Val)) : Bool :=
  (asgs (objSel s sel) kvs).any fun a => isSafety s a.1 a.2.1
/-- SET in a state: whether it is marked S depends on its keys (R113, R497). -/
def setSpecIn (s : State) (port : Port) (sel : ObjSel) (kvs : List (Key × Val)) : Spec :=
  { setSpec port sel kvs with
    safety := setSafety s sel kvs
    staged := fun s => let l := asgs (objSel s sel) kvs
      stages s port l && !l.any fun a => isSafety s a.1 a.2.1 }

/-! ## GET (R499) -/

/-- A key's value as GET returns it. -/
def getVal (s : State) (port : Port) (o : Obj) (k : Key) : KVal :=
  match o, k with
  | .unit, .SKEY => .w (if skeySet s then "set" else "unset")
  | .unit, .TWIN => match s.cfg.twin with | none => .w "NONE" | some u => .u u
  | .sl p, .SERVICE => .w (if anyOut s p then "OFF" else "ON")
  | .line, .POS => .i (lineMm s)
  | .time, .VALUE => .i s.time
  | .ch n c, .COUNT => .i ((s.stn n).inp (chCode c - 4)).count.toNat
  | .session, k =>
    match port with
    | .supervisor => .unset
    | .session n => .i (match k with | .QUOTA => (s.ses n).quota | .IDLE => (s.ses n).idle | _ => (s.ses n).hold)
  | _, _ => s.key o k
/-- Decimal digits of a fraction, until nothing is left, at most `fuel` of them. -/
def fracDigits : Nat → Nat → Nat → List Char
  | 0, _, _ => []
  | fuel + 1, r, den => if r = 0 then [] else Char.ofNat (48 + r * 10 / den) :: fracDigits fuel (r * 10 % den) den
/-- A quotient in decimal (R485). -/
def decText (num : Int) (den : Nat) : String :=
  let f := fracDigits 16 (num.natAbs % den) den
  (if num < 0 then "-" else "") ++ dec (num.natAbs / den) ++ (if f.isEmpty then "" else "." ++ String.ofList f)
/-- The suffix of a key's default unit (R486). -/
def unitSuffix : UK → Nat → String
  | .len, f => if f = 1 then "um" else "mm"
  | .speed, _ => "mm/s"
  | .acc, _ => "mm/s2"
  | .jerk, _ => "mm/s3"
  | .time, f => if f = 1 then "ns" else if f = 1000 then "us" else if f = 1000000 then "ms" else "s"
  | .cur, f => if f = 1000 then "mA" else "A"
  | .volt, _ => "V"
  | .slew, _ => "V/ms"
  | .power, _ => "W"
  | .freq, _ => "Hz"
  | .energy, _ => "kJ"
  | .temp, _ => "C"
  | .ratio, _ => "%"
  | .plain, _ => ""
/-- A value of a key in its default unit (R485, R486, R499). -/
def valText (r : Option KRow) (v : KVal) : String :=
  match v, (r.map KRow.vt : Option VT) with
  | .i n, some (.num k f0 sn sd _ _ _ _) => decText (n * sn) (sd * f0) ++ unitSuffix k f0
  | .i n, some (.ip _) => ipText n.toNat
  | .i n, some .cam => "CAM" ++ decI n
  | v, _ => kvalText v
/-- KEY=value of an object, as a field. -/
def keyFld (s : State) (o : Obj) (k : Key) (v : KVal) : Fld := .kw (keyText k) (valText (keyRow s o k) v)
/-- The specification of GET (R499). -/
def getSpec (port : Port) (o : Obj) (ks : List Key) : Spec :=
  { verb := .get o ks, objs := [o], logged := false
    form := keyForm "GET" (fun _ => true) ks <|> (ks[16]?).map keyText
    kinds := fun s => (ks.find? fun k => (keyRow s o k).isNone && !extraKey o k).map fun k => { code := 3, detail := .key k }
    run := fun c s => fin c (eqR "get" (.obj o :: ks.map fun k => keyFld s o k (getVal s port o k))) s }

/-! ## BUDGET (R319, R500) -/

/-- The least, the bound and the value of one BUDGET key, in mA, J or mW. -/
def budgetVal (s : State) (o : Obj) (k : Key) (l : Lit) : Option (Int × Int × Option Int) :=
  match o, k with
  | .bus b, .PEAK => some (1000, s.keyI (.bus b) .PEAK, litSteps .cur 1000000 1000 1 l)
  | .bus b, .GPEAK => some (1000, s.keyI (.bus b) .GPEAK, litSteps .cur 1000000 1000 1 l)
  | .bus b, .EMAX => some (1000, if s.keyI (.bus b) .EMAX = 0 then 100000000 else s.keyI (.bus b) .EMAX, litSteps .energy 1000000 1000 1 l)
  | .sl _, .CAP => some (1000, 48000, litSteps .power 1000 1 1 l)
  | .unit, .CAP => some (50000, s.keyI .unit .CRATECAP, litSteps .power 1000 1 1 l)
  | _, _ => none
/-- A policy value is put in force (R319). -/
def putBudget (o : Obj) (k : Key) (v : Nat) (s : State) : State :=
  match o, k with
  | .bus b, .PEAK => s.modBus b fun x => { x with peak := some v }
  | .bus b, .GPEAK => s.modBus b fun x => { x with gpeak := some v }
  | .bus b, .EMAX => s.modBus b fun x => { x with emax := some v }
  | .sl p, _ => s.modYar fun y => { y with sliceCap := tset y.sliceCap p (some v) }
  | .unit, _ => s.modYar fun y => { y with unitCap := some v }
  | _, _ => s
/-- One key of a BUDGET line: clipped to its bound with E71 (R319). -/
def budgetKey (c : Ctx) (o : Obj) (e : Key × Lit) (s : State) : State :=
  match budgetVal s o e.1 e.2 with
  | some (_, bound, some v) =>
    if bound < v then putBudget o e.1 bound.toNat (clip c o e.1 v bound s)
    else putBudget o e.1 v.toNat (s.modYar fun y => { y with clips := y.clips.filter (· ≠ (o, e.1)) })
  | _ => s
/-- The specification of BUDGET (R319, R500). -/
def budgetSpec (o : Obj) (kvs : List (Key × Lit)) : Spec :=
  { verb := .budget o kvs, objs := [o], engine := some .bud
    form := keyForm "BUDGET" (fun k => decide (k = .PEAK ∨ k = .EMAX ∨ k = .GPEAK ∨ k = .CAP)) (kvs.map (·.1))
    kinds := fun s => (kvs.find? fun e => (budgetVal s o e.1 e.2).isNone).map fun _ => { code := 3, detail := .obj o }
    values := fun s => kvs.findSome? fun e => match budgetVal s o e.1 e.2 with
      | some (lo, _, some v) => if v < lo then some { code := 5, detail := .key e.1 } else none
      | some (_, _, none) => some { code := 5, detail := .key e.1 }
      | none => none
    ready := fun s => match o with
      | .bus b => if kvs.any (fun e => decide (e.1 = .GPEAK)) && decide (groupOf s b = 0) then some { code := 6, detail := .key .GPEAK } else none
      | _ => none
    run := fun c s => fin c (eqR "budget" [.n 1]) (forEach kvs (budgetKey c o) s) }
/-- The policy values in force. -/
def policyCount (s : State) : Nat :=
  (s.bus.map fun e => e.2.peak.isSome.toNat + e.2.emax.isSome.toNat + e.2.gpeak.isSome.toNat).sum
    + (s.yar.sliceCap.map fun e => e.2.isSome.toNat).sum + s.yar.unitCap.isSome.toNat
/-- Every policy value is removed (R319). -/
def dropPolicy (s : State) : State :=
  let s := { s with bus := s.bus.map fun (e : Nat × BusSt) => (e.1, { e.2 with peak := none, emax := none, gpeak := none }) }
  s.modYar fun y => { y with
    sliceCap := [], unitCap := none, clips := y.clips.filter fun (c : Obj × Key) => decide (c.2 ≠ .PEAK ∧ c.2 ≠ .EMAX ∧ c.2 ≠ .GPEAK ∧ c.2 ≠ .CAP) }
/-- The specification of BUDGET CLEAR (R319, R500). -/
def budgetClearSpec : Spec :=
  { verb := .budgetClear, engine := some .bud
    run := fun c s => fin c (eqR "budget" [.w "clear", .n (policyCount s)]) (dropPolicy s) }

end Sys2Proof.Machine
end

