-- ==== Sys2Proof/Machine/KeyVerbs.lean ====
section
/-! DEFINITION. SET, GET, BUDGET, SHOW, ASK and WATCH as commands (16 R487 to R509; 03 R106). -/

namespace Sys2Proof.Machine

open Sys2Proof

/-! ## SHOW and ASK (R507, R508) -/

/-- Objects that SHOW answers for. -/
def showable : Obj → Bool
  | .unit | .safety | .twin | .net | .banks | .time | .line | .supervisor => true
  | .st _ | .ch _ _ | .bus _ | .cam _ | .camPt _ _ | .mark _ | .plat _ => true
  | .sl _ => false
  | _ => false
/-- The address that an E03 of a SHOW names. -/
def showName : ShowObj → Detail
  | .obj o => .obj o
  | .slice n => .obj (.sl n)
  | .eventTag t => .tag t
  | .eventSlot _ => .word "EVENT"
  | .sessionN _ => .obj .session
  | .buffer _ _ => .obj .session
  | .netPeers _ => .obj .net
  | .camPoint n _ => .obj (.cam n)
/-- The live operation of a session's tag, and its slot. -/
def tagSlot (s : State) (n t : Nat) : Option Nat :=
  match s.ops.find? fun o => decide (o.port = .session n ∧ o.tag = some t) && o.slot.isSome with
  | some o => o.slot
  | none => (s.net.relays.findSome? fun r => if r.near = n then (r.waiting.find? (·.1 = some t)).map (·.2) else none)
/-- The characters an output buffer holds, with their checks and terminators (R95, R98, R107). -/
def outText (l : List Reply) : List Byte :=
  (l.map fun r =>
    let b := ascii r.text
    b ++ (if r.checked then 0x2A :: (hexDigits 4 (crc16 b).toNat).map (fun ch => BitVec.ofNat 8 ch.toNat) else []) ++ [0x0D, 0x0A]).flatten
/-- The characters the lines waiting in a session's input buffer hold, with their checks and terminators (R95, R98, R109). -/
def inText (l : List InLine) : List Byte :=
  (l.map fun e =>
    e.line.chars ++ (match e.line.check, e.line.badCheck with
      | some w, _ => (0x2A : Byte) :: (hexDigits 4 w.toNat).map (fun ch => BitVec.ofNat 8 ch.toNat)
      | none, some t => (0x2A : Byte) :: t
      | none, none => ([] : List Byte)) ++ (match e.line.term with
      | .crlf => ([0x0D, 0x0A] : List Byte)
      | .lf => [0x0A]
      | .cr => [0x0D])).flatten
/-- 64 bytes of a session's own buffer: the lines waiting in it from its start. What the unused part of a buffer holds is a free value (log
entry 3). -/
def bufferBytes (s : State) (n : Nat) (out : Bool) (off : Nat) : List Byte × State :=
  let d := s.draw
  let t := if out then outText (s.ses n).out else inText (s.inbuf.filter fun e => decide (e.ses = n) && !e.outside)
  ((List.range 64).map fun i => match t[off + i]? with
    | some b => b
    | none => Config.inputBufferByte d.1 (off + i), d.2)
/-- An entry as SHOW EVENT gives it. -/
def entryFields (s : State) (slot : Nat) : List Fld := [.kn "slot" slot "", .hexb "entry" (entBytes (s.ent slot))]
/-- The fields of the peer table from a number on (R508). -/
def peerFields (s : State) (first : Nat) : List Fld :=
  match peerFrom s first with
  | none => [.w "none"]
  | some u =>
    let p := s.peer u
    [.kw "peer" (unitName u), .kw "ip" (ipText p.ip), .kw "serial" (serialText p.serial), .kw "paths" (peerPaths p), fBit "silent" p.silent,
      .kn "age" ((s.now - p.seenAt) / 1000) "ms", .kw "next" (match peerFrom s (u + 1) with | none => "none" | some v => unitName v)]
/-- SHOW (R507, R508, R510). -/
def showSpec (port : Port) (o : ShowObj) : Spec :=
  let e5 := some ({ code := 5, detail := .key .FROM } : Err)
  { verb := .show o, logged := false, sup := true
    objs := match o with
      | .obj x => [x]
      | .camPoint n _ => [.cam n]
      | _ => []
    kinds := fun _ =>
      let e3 : Option Err := some { code := 3, detail := showName o }
      if port = .supervisor ∧ o ≠ .obj .supervisor then e3
      else match o with
        | .obj x => if showable x then none else e3
        | .slice n => if n < 8 then none else e3
        | _ => none
    values := fun s => match o with
      | .eventSlot n => if n < 16384 then none else some { code := 5, detail := .word "SLOT" }
      | .sessionN (some n) => if n < 64 then none else some { code := 5, detail := .obj .session }
      | .buffer out off => if off < (if out then 65536 else 4096) then none else e5
      | .netPeers u => if u < 1024 then none else e5
      | .camPoint n (some i) => match s.key (.cam n) .N with
        | .i k => if (i : Int) < k then none else some { code := 5, detail := .key .PT }
        | _ => if i < 1024 then none else some { code := 5, detail := .key .PT }
      | _ => none
    ready := fun s => match o, port with
      | .eventTag t, .session n => if (tagSlot s n t).isSome then none else some { code := 6, detail := .tag t }
      | _, _ => none
    run := fun c s =>
      let me := portSession c.port
      match o with
      | .obj x => fin c (eqR "show" (.obj x :: showFields s x)) s
      | .slice n => (fin c (eqR "show" (.w "SLICE" :: .obj (.sl n) :: showFields s (.sl n))) s).modSlc n fun x => { x with crcSeen := false }
      | .eventTag t => fin c (eqR "show" (.w "EVENT" :: .w ("#" ++ dec t) :: entryFields s ((tagSlot s me t).getD 0))) s
      | .eventSlot n => fin c (eqR "show" (.w "EVENT" :: .kn "SLOT" n "" :: entryFields s n)) s
      | .sessionN n => fin c (eqR "show" (.obj .session :: sessFields s (n.getD me))) s
      | .buffer out off =>
        let b := bufferBytes s me out off
        fin c (eqR "show" [.obj .session, .w "BUFFER", .kn "from" off "", .hexb "data" b.1]) b.2
      | .netPeers u => fin c (eqR "show" (.obj .net :: .obj .peers :: peerFields s u)) s
      | .camPoint n none => fin c (eqR "show" (.obj (.cam n) :: showFields s (.cam n))) s
      | .camPoint n (some i) => fin c (eqR "show" (.obj (.cam n) :: showFields s (.camPt n i))) s }
/-- ASK UNITS. -/
def askUnitsSpec : Spec :=
  { verb := .askUnits, logged := false, run := fun c s => fin c (eqR "units" [.hex "cap" (capBits s)]) s }
/-- The software version as major.minor.patch.build. -/
def versionText : String :=
  let v := Config.softwareVersion.toNat
  String.intercalate "." [dec (v / 16777216), dec (v / 65536 % 256), dec (v / 256 % 256), dec (v % 256)]
/-- ASK VERSION. -/
def askVersionSpec : Spec :=
  { verb := .askVersion, logged := false
    run := fun c s => fin c (eqR "version" [.kw "sw" versionText, .kw "serial" (serialText s.head.serial)]) s }

/-! ## WATCH (R106, R495) -/

/-- An object that WATCH takes (R495). -/
def watchable : Obj → Bool
  | .st _ | .ch _ _ | .unit | .units | .peers | .sl _ | .bus _ | .line => true
  | _ => false
/-- The objects of a WATCH line after expansion, each once; PEERS stands for every peer. -/
def watchObjs (s : State) (l : List ObjSel) : List Obj := distinct (l.map (objSel s)).flatten
/-- The rate of a WATCH in ms. -/
def watchRate (r : Option Lit) : Option Int :=
  match r with
  | none => some 10
  | some l => match litSteps .time 1000000 1000000 1 l with
    | some v => if 1 ≤ v ∧ v ≤ 1000 then some v else none
    | none => none
/-- WATCH (R106, R495). -/
def watchSpec (l : List ObjSel) (rate : Option Lit) : Spec :=
  { verb := .watch l rate, logged := false, form := if l.isEmpty then some "WATCH" else none, slots := fun _ => 1
    found := fun s =>
      let o := watchObjs s l
      allGone (l.any (objNone s)) <|> firstE03 o <|> optionE04 s o <|> ((o.find? fun x => !watchable x).map fun x => { code := 3, detail := .obj x }) <|> firstE04 s o
    values := fun _ => if (watchRate rate).isNone then some { code := 5, detail := .key .RATE } else none
    run := fun c s =>
      let o := watchObjs s l
      let q := startOp c (.watch l rate) (.watch o (1000 * ((watchRate rate).getD 10).toNat) []) true s
      say c (colR "watching" [.n o.length]) q.2 }

/-! ## The lines of SET's own rows -/

/-- The values of SET LINE POS as a SET line. -/
def posKvs (v : Lit) : List (Key × Val) := [(.POS, .num v)]
/-- The specification of a SET line in the present state (R497). -/
def setLine (s : State) (l : Line) (sel : ObjSel) (kvs : List (Key × Val)) : Spec := setSpecIn s l.port sel kvs

/-! ## The commands -/

/-- SET. -/
def execSet (l : Line) (sel : ObjSel) (kvs : List (Key × Val)) (s : State) : Host.Outcome State Fault Refusal :=
  .next (settle s (handleLine (.set l sel kvs) l (setLine s l sel kvs) s))
/-- SET LINE POS. -/
def execSetLinePos (l : Line) (v : Lit) (s : State) : Host.Outcome State Fault Refusal :=
  .next (settle s (handleLine (.setLinePos l v) l (setLine s l (.obj .line) (posKvs v)) s))
/-- SET TIME VALUE. -/
def execSetTimeValue (l : Line) (v : Lit) (s : State) : Host.Outcome State Fault Refusal :=
  .next (settle s (handleLine (.setTimeValue l v) l (setLine s l (.obj .time) [(.VALUE, .num v)]) s))
/-- SET SLn SERVICE=ON. -/
def execSetService (l : Line) (n : Nat) (s : State) : Host.Outcome State Fault Refusal :=
  .next (settle s (handleLine (.setService l n) l (setLine s l (.obj (.sl n)) [(.SERVICE, .word "ON")]) s))
/-- SET Snn/INk COUNT. -/
def execSetCount (l : Line) (n : Nat) (c : Chan) (v : Lit) (s : State) : Host.Outcome State Fault Refusal :=
  .next (settle s (handleLine (.setCount l n c v) l (setLine s l (.obj (.ch n c)) [(.COUNT, .num v)]) s))
/-- GET. -/
def execGet (l : Line) (o : Obj) (ks : List Key) (s : State) : Host.Outcome State Fault Refusal :=
  .next (settle s (handleLine (.get l o ks) l (getSpec l.port o ks) s))
/-- SHOW. -/
def execShow (l : Line) (o : ShowObj) (s : State) : Host.Outcome State Fault Refusal :=
  .next (settle s (handleLine (.show l o) l (showSpec l.port o) s))
/-- ASK UNITS. -/
def execAskUnits (l : Line) (s : State) : Host.Outcome State Fault Refusal :=
  .next (settle s (handleLine (.askUnits l) l askUnitsSpec s))
/-- ASK VERSION. -/
def execAskVersion (l : Line) (s : State) : Host.Outcome State Fault Refusal :=
  .next (settle s (handleLine (.askVersion l) l askVersionSpec s))
/-- WATCH. -/
def execWatch (l : Line) (objs : List ObjSel) (rate : Option Lit) (s : State) : Host.Outcome State Fault Refusal :=
  .next (settle s (handleLine (.watch l objs rate) l (watchSpec objs rate) s))
/-- BUDGET. -/
def execBudget (l : Line) (o : Obj) (kvs : List (Key × Lit)) (s : State) : Host.Outcome State Fault Refusal :=
  .next (settle s (handleLine (.budget l o kvs) l (budgetSpec o kvs) s))
/-- BUDGET CLEAR. -/
def execBudgetClear (l : Line) (s : State) : Host.Outcome State Fault Refusal :=
  .next (settle s (handleLine (.budgetClear l) l budgetClearSpec s))

end Sys2Proof.Machine
end

