-- ==== Sys2Proof/Machine/SafetyOps.lean ====
section
/-! DEFINITION. What Campion computes: door-open permission, the evaluation set, the LOOP conditions, the station masks of the FD
elements, and the reactions that latch the safe state (05 R190 to R199; 10 R332 to R343; 01 R17 to R24). -/

namespace Sys2Proof.Machine

open Sys2Proof

/-! ## Frames and inputs as a lane reads them (R18, R168, R197, R280) -/

/-- A lane reads a slice: the last uplink frame was valid and is at most 400 us old, none since its last cycle was invalid, and the field side
is not in its fail-safe states (R18, R197, R297). -/
def laneSees (s : State) (x : Lane) (p : Nat) : Bool :=
  let q := s.laneSlc x p
  q.ok && !q.bad && !q.safe && (match q.at_ with | some t => decide (s.now ≤ t + 400) | none => false)
/-- An input is unknown to both lanes: a test fault stands on it in the judgement of a lane or of the field side, or the lanes dispute its
reading (R168, R280). -/
def inputDoubtful (s : State) (n k : Nat) : Bool :=
  let a := (s.laneStn .a n).inp k
  let b := (s.laneStn .b n).inp k
  !((s.stn n).inp k).faultTaps.isEmpty || (laneRuns s .a && !a.taps.isEmpty) || (laneRuns s .b && !b.taps.isEmpty)
    || (laneRuns s .a && laneRuns s .b && a.on != b.on)
/-- A door input is known to a lane: it reads the slice, and nothing makes the input doubtful. -/
def doorKnown (s : State) (x : Lane) (n : Nat) (k : Key) : Bool :=
  match swInput s n k with
  | none => true
  | some i => laneSees s x (slotOf n) && !inputDoubtful s n i
/-- A lane reads a door input active: known, and on (R168). -/
def laneOn (s : State) (x : Lane) (n : Nat) (k : Key) : Bool :=
  doorKnown s x n k && (match swInput s n k with | some i => ((s.laneStn x n).inp i).on | none => false)
/-- A station is unknown to a lane: its frames, a door input it needs, or its FD's sense path (R197, R338). -/
def stUnknown (s : State) (x : Lane) (n : Nat) : Bool :=
  !laneSees s x (slotOf n) || !doorKnown s x n .CLOSEDSW || !doorKnown s x n .LOCKSW || !doorKnown s x n .STOWSW
    || (s.laneSw x n .fd).senseFault
/-- A lane reads the leaf closed and locked (R194, R198). -/
def laneLocked (s : State) (x : Lane) (n : Nat) : Bool := laneOn s x n .CLOSEDSW && laneOn s x n .LOCKSW

/-! ## Safety message connections (R351, R352) -/

/-- The SAFEIN entry that lists a source and a type. -/
def safeIn (s : State) (src : Nat) (type : String) : Option Nat :=
  (List.range 16).find? fun k => decide (s.key (.safein k) .FROM = .u src ∧ s.key (.safein k) .TYPE = .w type)
/-- The type codes of safety messages. -/
def smType (t : String) : Nat := if t = "RELEASE" then 1 else if t = "LAMPS" then 2 else if t = "DOORS" then 3 else 4
/-- The source and type that a SAFEIN entry lists, as the number under which their connection is kept; 4096 for none. -/
def connKey (s : State) (k : Nat) : Nat :=
  match s.key (.safein k) .FROM, s.key (.safein k) .TYPE with
  | .u src, .w t => 4 * src + smType t - 1
  | _, _ => 4096
/-- The connection of an entry: of its source and type, whichever entry lists them (R351, R352). -/
def connOf (s : State) (k : Nat) : SafeConn := tget {} s.camp.conns (connKey s k)
/-- The safe content of a cyclic type: every bit of a release inactive, every station dark on both and not known, no station closed and locked
or known (R352). -/
def safeContent (type : String) : List Byte :=
  if type = "LAMPS" then List.replicate 16 0xFF#8 ++ List.replicate 24 0 else List.replicate 40 0
/-- A connection is valid: a message of it was accepted within the last SMTIMEOUT (R352). -/
def connValid (s : State) (c : SafeConn) : Bool := c.valid && !heldFor c.acceptedAt s.now (s.keyN .unit .SMTIMEOUT)
/-- The content that the lanes use of an entry's connection: its last message's while it is valid, else the safe content (R352). -/
def connContent (s : State) (k : Nat) : List Byte :=
  if connValid s (connOf s k) then (connOf s k).payload
  else safeContent (match s.key (.safein k) .TYPE with | .w t => t | _ => "")
/-- The SAFEIN entry of the release message (R193). -/
def relEntry (s : State) : Option Nat :=
  match s.key .unit .RELUNIT with
  | .u u => safeIn s u "RELEASE"
  | _ => none
/-- The connection that carries the release message (R193). -/
def relConn (s : State) : Option SafeConn :=
  (relEntry s).map (connOf s)
/-- A bit of the valid release message; inactive while the connection is not valid (R348, R352). -/
def relBit (s : State) (b : Nat) : Bool :=
  match relEntry s with
  | some k => ((connContent s k).getD 0 0).getLsbD b
  | none => false

/-! ## Door-open permission (R193) -/

/-- RELSRC takes the release from the train lines. -/
def byLines (s : State) : Bool := s.keyIs .unit .RELSRC "LINES"
/-- The Source condition. -/
def relSource (s : State) : Bool :=
  if byLines s then s.fit.optT else (match relConn s with | some c => connValid s c | none => false)
/-- ZERO has been active without a break since an instant (R193). -/
def zeroSince (s : State) : Option Nat :=
  if byLines s then (if s.camp.zero.active then some s.camp.zero.activeSince else none)
  else if relBit s 2 then s.camp.msgZeroSince else none
/-- The ZERO condition. -/
def zeroHeld (s : State) : Bool := heldFor (zeroSince s) s.now (s.keyN .unit .ZEROHOLD)
/-- A station's side is L. -/
def sideL (s : State) (n : Nat) : Bool := s.keyIs (.st n) .SIDE "L"
/-- The Side condition. -/
def sideReleased (s : State) (n : Nat) : Bool :=
  if byLines s then (if sideL s n then s.camp.rell.active else s.camp.relr.active) else relBit s (if sideL s n then 0 else 1)
/-- The Station condition in a lane's evaluation. -/
def stationFit (s : State) (x : Lane) (n : Nat) : Bool :=
  let t := s.stn n
  decide (t.leaf ≠ .isolated) && !t.outOfService && !(s.laneStn x n).backstop
/-- The first condition of door-open permission that does not hold in a lane's evaluation, in the table's order (R193). -/
def laneUnmet (s : State) (x : Lane) (n : Nat) : Option String :=
  if !relSource s then some "SOURCE"
  else if !zeroHeld s then some "ZERO"
  else if !sideReleased s n then some (if sideL s n then "RELL" else "RELR")
  else if !stationFit s x n then some "STATION"
  else if s.camp.safe then some "CAMPION"
  else none
/-- Door-open permission holds for a station in a lane's evaluation (R193). -/
def lanePermits (s : State) (x : Lane) (n : Nat) : Bool := (laneUnmet s x n).isNone
/-- The first condition unmet as Campion answers an OPEN: the table's first of the two lanes' (R193). -/
def unmet (s : State) (n : Nat) : Option String :=
  match laneUnmet s .a n, laneUnmet s .b n with
  | some a, some b => some (if b = "STATION" then b else a)
  | some a, none => some a
  | none, b => b
/-- Both lanes hold permission for a station (R193). -/
def permits (s : State) (n : Nat) : Bool := (unmet s n).isNone

/-! ## Lamps (R265, R335, R338) -/

/-- A lane takes a load channel as dark: its own verdict, a sense-path fault, or a standing mismatch (R17, R243, R338). -/
def laneDark (s : State) (x : Lane) (n : Nat) (w : Sw) : Bool :=
  let l := s.laneSw x n w
  l.dark || l.mismatch || l.senseFault
/-- A fault that makes a channel dark on both main and reserve: a standing mismatch, or a sense-path fault (R243, R338). -/
def channelFault (l : LaneLamp) : Bool := l.mismatch || l.senseFault
/-- A lane takes an indicator as dark on both main and reserve (R198, R243, R335, R338); a channel with no reserve counts on its own. -/
def darkBoth (s : State) (x : Lane) (n : Nat) (w : Sw) : Bool :=
  let t := s.laneStn x n
  if !proved s n w then false
  else if w = .la ∧ hasReserve s n then
    (laneDark s x n .la && laneDark s x n .lb) || t.noChange || channelFault t.la || channelFault t.lb
  else laneDark s x n w
/-- A channel is known to a lane: proved, frames valid, no sense-path fault (R348). -/
def lampKnown (s : State) (x : Lane) (n : Nat) (w : Sw) : Bool :=
  proved s n w && laneSees s x (slotOf n) && !(s.laneSw x n w).senseFault

/-! ## LOOP (R197 to R199) -/

/-- The evaluation set: LEAF stations of the loaded set that are not ISOLATED (R197). -/
def evalSet (s : State) : List Nat := allStations.filter fun n => isLeaf s n && decide ((s.stn n).leaf ≠ .isolated)
/-- The step condition of a station in a lane's evaluation (R198). -/
def stepLocked (s : State) (x : Lane) (n : Nat) : Bool := s.keyIs (.st n) .STEP "NONE" || laneOn s x n .STOWSW
/-- The indicator condition of a station in a lane's evaluation (R198). -/
def indicatorOk (s : State) (x : Lane) (n : Nat) : Bool :=
  if !s.keyIs (.st n) .LAMPLOOP "ON" then true
  else match doorLamp s n with
    | none => true
    | some w => !darkBoth s x n w
/-- Every LOOP condition holds in a lane's evaluation (R198). -/
def loopConds (s : State) (x : Lane) : Bool :=
  s.fit.optT && s.camp.a.driving && s.camp.b.driving && !s.camp.safe && !s.head.bit31 && !s.camp.loopFault
    && s.camp.test.isNone
    && (evalSet s).all fun n => laneLocked s x n && stepLocked s x n && !stUnknown s x n && indicatorOk s x n

/-! ## FD elements (R194, R195) -/

/-- A lane keeps its FD element of a LEAF station energised (R194). -/
def leafElement (s : State) (x : Lane) (n : Nat) : Bool :=
  (lanePermits s x n || !laneLocked s x n) && !(s.laneStn x n).backstop && decide ((s.stn n).leaf ≠ .isolated)
    && !(s.laneSw x n .fd).senseFault
/-- A lane keeps its FD element of a station energised (R194, R195, R338). -/
def wantElement (s : State) (x : Lane) (n : Nat) : Bool :=
  if !chFitted s n .fd then false
  else if isRole s n "LEAF" then leafElement s x n
  else if isRole s n "STEP" then (match servedLeaf s n with | some l => leafElement s x l && !(s.laneSw x n .fd).senseFault | none => false)
  else !(s.laneSw x n .fd).senseFault
/-- The station mask a lane computes for a slice: all zero while it drives nothing or the safe state is latched (R22, R23). -/
def laneMask (s : State) (x : Lane) (p : Nat) : Byte :=
  if (s.lane x).driving && !s.camp.safe then
    BitVec.ofNat 8 (((stationsOf p).map fun n => if wantElement s x n then 2 ^ (n % 8) else 0).sum)
  else 0
/-- A station's bit in the masks of the eight slices. -/
def laneBit (m : Tbl Byte) (n : Nat) : Bool := maskBit (tget 0 m (slotOf n)) n
/-- A lane's masks of the eight slices; a change of a station's bit is a change of command to its element (R334). -/
def setMasks (x : Lane) (s : State) : State :=
  let m := allSlices.map fun p => (p, laneMask s x p)
  s.modLane x fun l => { l with
    masks := m
    maskAt := allStations.map fun n => (n, if laneBit l.masks n = laneBit m n then tget 0 l.maskAt n else s.now) }
/-- Permission per station as a lane holds it (R193). -/
def setPermitted (x : Lane) (s : State) : State :=
  s.modLane x fun l => { l with
    permitted := BitVec.ofNat 64 (((evalSet s).map fun n => if lanePermits s x n then 2 ^ n else 0).sum) }

/-! ## Contacts and the safe state (R20, R22, R199, R334) -/

/-- A lane commands its LOOP contact; the contact follows (R199, R334). -/
def commandLoop (x : Lane) (on : Bool) (s : State) : State :=
  if (s.lane x).loop = on then s
  else s.modLane x fun l => { l with loop := on, loopAt := s.now, contact := on }
/-- A lane opens everything it drives (R20, R23). -/
def openAll (x : Lane) (s : State) : State :=
  let s := commandLoop x false (s.modLane x fun l => { l with holdSince := none })
  setMasks x s
/-- The causes of a lane record (14 R449 names them by word). -/
def lanePayload (cause : String) : List Byte := pWord cause
/-- The unit safe state is latched, once: every element and contact opens, a safe-state record is written, and no safety message is
sent any more (R20, R22, R337). -/
def enterSafe (cause : String) (s : State) : State :=
  if s.camp.safe then s
  else
    let s := s.modCamp fun c => { c with safe := true }
    let s := openAll .b (openAll .a s)
    record 0x0102 (lanePayload cause) { flags := 16 } s

end Sys2Proof.Machine
end

