-- ==== Sys2Proof/Machine/Traverse.lean ====
section
/-! DEFINITION. The traverse of a leaf: its samples and profiles, its end at OPENPOS and at the lock, and the order in which happenings
of one instant act (05 R175, R178, R184, R185, R187). -/

namespace Sys2Proof.Machine

open Sys2Proof

/-! ## Samples and profiles (R184, R185) -/

/-- The point of the profile at the leaf's position (R184). -/
def pointAt (s : State) (n : Nat) : Nat :=
  let op := openPos s n
  if op ≤ 0 then 0 else (clampI 0 511 ((s.ax n).pos * 512 / op)).toNat
/-- A sample of the feed current enters the running traverse. -/
def addPoint (k : Nat) (current : Int) : List (Nat × Int × Nat) → List (Nat × Int × Nat)
  | [] => [(k, current, 1)]
  | (j, v, c) :: t => if j = k then (j, v + current, c + 1) :: t else (j, v, c) :: addPoint k current t
/-- The measured point k: the mean of its samples (R185). -/
def measured (t : Station) (k : Nat) : Option Int :=
  (aget t.points k).map fun e => roundDiv e.1 (max 1 e.2)
/-- The traverse as 512 points; a point that no sample fell on takes the one before it (DESIGN CHOICE, log entry 43). -/
def measuredAll (t : Station) : List Int :=
  ((List.range 512).foldl (fun (r : List Int × Int) k =>
    let v := (measured t k).getD r.2
    (v :: r.1, v)) ([], (t.points.head?.map fun e => roundDiv e.2.1 (max 1 e.2.2)).getD 0)).1.reverse
/-- One point of the learned profile after an undisturbed traverse: l + (m - l)/64 within DRIFT of the commissioning point, in 2^-20 mA
(R185). -/
def driftPoint (drift l c m : Int) : Int :=
  let l := l + (m * profUnit - l) / 64
  clampI (c * profUnit * (100 - drift) / 100) (c * profUnit * (100 + drift) / 100) l
/-- A point stands on its bound (R185). -/
def onBound (drift l c : Int) : Bool :=
  decide (l = c * profUnit * (100 - drift) / 100 ∨ l = c * profUnit * (100 + drift) / 100)
/-- The learned profile takes its step after an undisturbed traverse; a point on its bound for 100 traverses is reported and recorded
once (R185). -/
def driftProfile (n : Nat) (opening : Bool) (s : State) : State :=
  match commissioned s n with
  | none => s
  | some c =>
    let t := s.stn n
    let com := if opening then c.1 else c.2
    let old := if opening then t.learnedOpen else t.learnedClose
    let drift := underCeiling s n .DRIFT .DRIFTMAX
    let new := (List.range com.length).map fun k => match measured t k with
      | none => old.getD k 0
      | some m => driftPoint drift (old.getD k 0) (com.getD k 0) m
    let runs := if opening then t.boundsOpen else t.boundsClose
    let runs := (List.range com.length).map fun k => if onBound drift (new.getD k 0) (com.getD k 0) then runs.getD k 0 + 1 else 0
    let tell := !t.boundTold && runs.any fun k => decide (100 ≤ k)
    let s := s.modStn n fun t =>
      let t := { t with boundTold := t.boundTold || tell }
      if opening then { t with learnedOpen := new, boundsOpen := runs } else { t with learnedClose := new, boundsClose := runs }
    if tell then
      record 0x0306 (pWord (if opening then "OPEN" else "CLOSE")) { station := n, engine := 4 } (report [.st n] (.st n) [.w "profile", .w "at", .w "limit"] s)
    else s
/-- A policy clip of the station's door speeds (R185, R320). -/
def speedClipped (s : State) (n : Nat) : Bool :=
  s.yar.clips.any fun e => decide (e.1 = .st n ∧ (e.2 = .OSPEED ∨ e.2 = .CSPEED))
/-- A traverse has ended at OPENPOS or the lock zone: a learning cycle keeps it, an undisturbed one moves the learned profile
(R184, R185). -/
def endTraverse (n : Nat) (opening : Bool) (s : State) : State :=
  let t := s.stn n
  let s := if t.learning.isSome then s.modStn n fun t => { t with traverses := t.traverses ++ [(opening, measuredAll t)] }
    else if t.clean ∧ ¬ speedClipped s n then driftProfile n opening s
    else s
  s.modStn n fun t => { t with clean := false, points := [] }

/-- The mean of a list. -/
def meanOf (l : List Int) : Int := roundDiv l.sum (max 1 l.length)
/-- The spread of a list. -/
def spreadOf (l : List Int) : Int := l.foldl max (l.headD 0) - l.foldl min (l.headD 0)
/-- The means of the traverses of one direction; none where a point's spread exceeds the larger of 20 % of its mean and 100 mA
(R184). -/
def learnMeans (l : List (List Int)) : Option (List Int) :=
  let at_ := fun (k : Nat) => l.map fun p => p.getD k 0
  if (List.range 512).all fun k => decide (5 * spreadOf (at_ k) ≤ max (meanOf (at_ k)) 500) then
    some ((List.range 512).map fun k => meanOf (at_ k))
  else none
/-- A REF LEARN has run its cycles: the candidate profile, or E06 PROFILE (R184). -/
def learnDone (n id : Nat) (s : State) : State :=
  let l := (s.stn n).traverses
  let pick := fun (b : Bool) => (l.filter fun e => e.1 == b).map (·.2)
  let s := s.modStn n fun t => { t with learning := none, traverses := [], points := [] }
  match learnMeans (pick true), learnMeans (pick false) with
  | some a, some b =>
    let s := s.modCfg fun c => { c with candProfiles := aset c.candProfiles n (a, b) }
    finOp id (eqR "ref" [.n 1, .kw "learned" "2x512"]) s
  | _, _ => failOp id { code := 6, detail := .key .PROFILE } s
/-- A learning leaf has closed: the next cycle, or the end (R184). -/
def learnNext (n : Nat) (s : State) : State :=
  match (s.stn n).learning with
  | none => s
  | some id =>
    match s.opOf id with
    | none => s
    | some o => match o.prog with
      | .learn m left =>
        if left ≤ 1 then learnDone n id s
        else beginWait n 4 .command true (s.modOp id fun o => { o with prog := .learn m (left - 1) })
      | _ => s

/-- A 250 us sample of the feed current of a leaf: its peak and energy in the cycle, the running traverse's point (R185, R450). A learning
cycle measures the points of the lock zone too, which an undisturbed traverse ends at (R184, R185). -/
def feedSample (n : Nat) (current : Int) (s : State) : State :=
  let t := s.stn n
  let s := s.modStn n fun t => { t with feed := current, feedSum := t.feedSum + current.toNat, feedCount := t.feedCount + 1 }
  if !isLeaf s n then s
  else
    let e := current.toNat * t.busU / 4000000
    match t.leaf with
    | .opening => s.modStn n fun t => { t with
        points := addPoint (pointAt s n) current t.points
        cycle := { t.cycle with peakOpen := max t.cycle.peakOpen current, energyOpen := t.cycle.energyOpen + e } }
    | .closing | .locking | .reversing =>
      let s := s.modStn n fun t => { t with
        cycle := { t.cycle with peakClose := max t.cycle.peakClose current, energyClose := t.cycle.energyClose + e } }
      if t.leaf = .closing ∨ (t.leaf = .locking ∧ t.learning.isSome) then s.modStn n fun t => { t with points := addPoint (pointAt s n) current t.points } else s
    | _ => s

/-! ## Ends of a move (R175) -/

/-- A leaf locks with both switches made: CLOSED_LOCKED, and the next learning cycle where one runs, which keeps its closing traverse
(R178, R184). -/
def lockDone (n : Nat) (s : State) : State :=
  let s := if (s.stn n).learning.isSome then endTraverse n false s else s
  learnNext n (settleAxis n (closeAndLock n s))
/-- A leaf in LOCKING whose switches are both made already is CLOSED_LOCKED (R175, R178). -/
def lockIfMade (n : Nat) (s : State) : State :=
  if (s.stn n).leaf = .locking ∧ bothMade s n then lockDone n s else s
/-- An opening leaf has reached OPENPOS: OPEN, and AUTOCLOSE starts (R175). -/
def openReached (n : Nat) (s : State) : State :=
  if isLeaf s n ∧ (s.stn n).leaf = .opening ∧ openPos s n ≤ (s.ax n).pos then
    let s := endTraverse n true s
    let s := unlockOut n false (setLeaf n .opn (disarm n s))
    let us := (s.stK n .AUTOCLOSE).toNat
    let s := if us = 0 ∨ (s.stn n).learning.isSome then s else slotTimer n 15 us (s.modStn n fun t => { t with autoT := some (afterUs us s) })
    let s := doorReached n (s.modStn n fun t => { t with kept := none })
    if (s.stn n).learning.isSome then beginWait n 4 .command false s else s
  else s
/-- An edge above EDGEMUTE while the leaf is CLOSING or LOCKING (R187); an unreferenced leaf is taken to stand above it (log entry 44). -/
def edgePresses (s : State) (n : Nat) : Bool :=
  let t := s.stn n
  isLeaf s n && inOn s n .EDGE && decide (t.leaf = .closing ∨ t.leaf = .locking)
    && (!t.axis.referenced || decide (stCounts s n .EDGEMUTE < t.axis.pos))
/-- A closing leaf stands at its lock zone boundary or inside it, and has not entered it (R175, R178). -/
def zoneDue (s : State) (n : Nat) : Bool :=
  decide (isLeaf s n ∧ (s.stn n).leaf = .closing ∧ (s.ax n).referenced ∧ (s.ax n).pos ≤ lockPos s n ∧ ¬ (s.stn n).atZone
    ∧ (s.ax n).motion.isSome ∧ (s.stn n).wait = none)
/-- UNLOCKT has expired; LOCKSW that has opened by then governs, as its row stands higher (R175). -/
def unlockExpires (n : Nat) (s : State) : State :=
  if isLeaf s n ∧ (s.stn n).leaf = .unlocking ∧ dueTime (s.stn n).unlockT s then
    if inOn s n .LOCKSW then faultLeaf n "unlock" (e06St n) (dropCharge n s) else lockOpens n s
  else s
/-- What stands higher in R175's table than a close or a loss of permission, and shows at its instant: an unlocking leaf's LOCKSW and
UNLOCKT, an opening leaf's OPENPOS (R175; log entry 123). -/
def ripe (n : Nat) (s : State) : State := openReached n (unlockExpires n s)

end Sys2Proof.Machine
end

