-- ==== Sys2Proof/Machine/Doors.lean ====
section
/-! DEFINITION. OPEN, CLOSE, STOP, RESUME and ISOLATE (05 R166 to R176, R200 to R203; 04 R152 to R154; 16 R489 to R491). -/

namespace Sys2Proof.Machine

open Sys2Proof

/-! ## Tests shared by the door commands (R167, R170, R176) -/

/-- The slice's link is lost or it is absent: the error that names it. -/
def sliceGone (s : State) (n : Nat) : Option Err :=
  if (s.slc (slotOf n)).link then none else some { code := 40, detail := .obj (.sl (slotOf n)) }
/-- The cause of a FAULT leaf still stands: its slice is away, its edge still presses after a backstop trip, its encoder fault is
still reported, or a trip of its feed cannot be cleared (R175, R190, R236). -/
def causeStands (s : State) (n : Nat) : Bool :=
  let t := s.stn n
  if t.cause = "link" then t.outOfService
  else if t.cause = "backstop" then laneOn s .a n .EDGE || laneOn s .b n .EDGE
  else if t.cause = "encoder" then t.encFault
  else !tripsClear s n .fd || t.fd.uvOff || t.fd.uvWait
/-- A session's motion runs, waits or is held on an axis. -/
def sessionMotion (s : State) (n : Nat) : Bool :=
  match (s.ax n).motion with
  | none => false
  | some m => m.op.isSome || (decide (m.kind = .move ∨ m.kind = .jog ∨ m.kind = .ref ∨ m.kind = .follow ∨ m.kind = .cam) && isLeaf s n)
/-- The first door key a leaf lacks (R167); its lengths need the axis scale (R45). -/
def lacksKey (s : State) (n : Nat) : Option Err :=
  let e := fun (k : Key) => some ({ code := 6, detail := .key k } : Err)
  if s.key (.st n) .OPENPOS = .unset then e .OPENPOS
  else if s.key (.st n) .MARGINMAX = .unset then e .MARGINMAX
  else if (commissioned s n).isNone then e .PROFILE
  else if !hasScale s n then e .SCALE
  else none
/-- The feed is off: the error that names it (R130), or its UNOM (R209). -/
def feedOff (s : State) (n : Nat) : Option Err :=
  if !unomSet s n then some { code := 6, detail := .key .UNOM }
  else if fdConducts s n then none
  else some { code := 6, detail := .obj (.ch n .fd) }
/-- A leaf's step station that has no UNOM, or no SCALE to turn its rates into steps: the error that names the key (R129, R209, R297). -/
def stepFeed (s : State) (n : Nat) : Option Err :=
  match stepStation s n with
  | none => none
  | some m => if !unomSet s m then some { code := 6, detail := .key .UNOM } else if hasScale s m then none else some { code := 6, detail := .key .SCALE }
/-- The leaf that a step station serves lets it move by itself (R490). -/
def stepFree (s : State) (n : Nat) : Bool :=
  match servedLeaf s n with
  | none => false
  | some l => decide ((s.stn l).leaf = .closedLocked ∨ (s.stn l).leaf = .held ∨ (s.stn l).leaf = .fault)
/-- A target toward which an active limit switch lies is refused (R150). -/
def towardLimit (s : State) (n : Nat) (target : Int) : Option Err :=
  if target ≠ (s.ax n).cmd ∧ limitActive s n (decide (target < (s.ax n).cmd)) then some (e06Ax n) else none
/-- A step station runs an earlier door command's move, which a later one takes over (R171). -/
def stepRuns (s : State) (n : Nat) : Bool :=
  (s.stn n).doorOp.isSome && (s.ax n).motion.any fun m => m.op.isNone && m.couple.isNone && decide (m.kind = .move)
/-- A door command may move a step station alone (R129, R130, R150, R166, R171, R173). -/
def stepTest (s : State) (n : Nat) (opening : Bool) : Option Err :=
  sliceGone s n <|> (if outOfService s n ∨ (stepTable s n).isNone ∨ ¬ stepFree s n then some (e06St n) else none)
    <|> (if hasScale s n then none else some { code := 6, detail := .key .SCALE })
    <|> (if !(s.ax n).referenced ∨ (hasMotion s n ∧ ¬ stepRuns s n) then some (e06Ax n) else none) <|> feedOff s n
    <|> (match stepGoal s n opening with
      | some y => towardLimit s n (countsToSteps s n y)
      | none => none)
/-- OPEN of a leaf: state, permission, reference, feed (R167, R170, R176, R180, R193). A closing leaf at its lock zone boundary, or at its
pressing edge, is that instant's LOCKING or REVERSING leaf (R175). -/
def openTest (s : State) (n : Nat) : Option Err :=
  if isRole s n "STEP" then stepTest s n true
  else if !isLeaf s n then some (e06St n)
  else
    let t := s.stn n
    let away := if t.outOfService then (sliceGone s n <|> some (e06St n)) else none
    let ends := zoneDue s n || edgePresses s n
    let state := decide (t.leaf = .closedLocked ∨ t.leaf = .opening ∨ t.leaf = .opn ∨ (t.leaf = .closing ∧ ¬ ends) ∨ t.leaf = .held)
    away <|> (if !state then some (e06St n) else none) <|> lacksKey s n
      <|> (if t.leaf ≠ .closedLocked ∧ ¬ t.axis.referenced then some (e06Ax n) else none)
      <|> (if sessionMotion s n then some (e06Ax n) else none)
      <|> (if t.leaf = .opn then none else (unmet s n).map fun w => ({ code := 7, detail := .word w } : Err))
      <|> (if t.leaf = .opn then none else feedOff s n <|> stepFeed s n <|> (if limitActive s n false then some (e06Ax n) else none))
/-- CLOSE of a leaf (R167, R170, R176). -/
def closeTest (s : State) (n : Nat) : Option Err :=
  if isRole s n "STEP" then stepTest s n false
  else if !isLeaf s n then some (e06St n)
  else
    let t := s.stn n
    let away := if t.outOfService then (sliceGone s n <|> some (e06St n)) else none
    away <|> (if t.leaf = .isolated ∨ (t.leaf = .fault ∧ causeStands s n) then some (e06St n) else none)
      <|> lacksKey s n <|> (if sessionMotion s n then some (e06Ax n) else none)
      <|> (if t.leaf = .closedLocked ∨ t.leaf = .unlocking then none
        else (if t.leaf = .fault then (if unomSet s n then none else some { code := 6, detail := .key .UNOM }) else feedOff s n)
          <|> stepFeed s n <|> (if limitActive s n true then some (e06Ax n) else none))

/-! ## SIDE and SELECT (R170, R200 to R202) -/

/-- The stations a door command can name by ALL (R489). -/
def allLeaves (s : State) (n : Nat) : Bool :=
  isLeaf s n && decide ((s.stn n).leaf ≠ .isolated) && !outOfService s n
/-- The station has the side a line asks for. -/
def sideIs (s : State) (n : Nat) (x : Option Side) : Bool :=
  match x with
  | none => true
  | some .l => sideL s n
  | some .r => !sideL s n
/-- The platforms that take part in selection: START, END in um, and whether the side is L (R200). -/
def platforms (s : State) : List (Int × Int × Bool) :=
  (List.range 512).filterMap fun k =>
    match aget s.cfg.plain (.plat k, .START), aget s.cfg.plain (.plat k, .END), aget s.cfg.plain (.plat k, .SIDE) with
    | some (.i a), some (.i b), some (.w x) => if x = "L" ∨ x = "R" then some (1000 * a, 1000 * b, decide (x = "L")) else none
    | _, _, _ => none
/-- A station is alongside a platform (R201). -/
def alongside (s : State) (n : Nat) : Bool :=
  let fwd := s.keyIs .unit .ORIENT "FWD"
  let line := 1000 * lineMm s
  let c := if fwd then line + s.stK n .DPOS else line - s.stK n .DPOS
  let left := if fwd then sideL s n else !sideL s n
  let w := s.stK n .DWIDTH
  let m := 2 * s.uK .SELMARGIN
  (platforms s).any fun p => decide (p.2.2 = left) && decide (2 * p.1 ≤ 2 * c - w - m) && decide (2 * c + w + m ≤ 2 * p.2.1)
/-- Some platform entry exists (R202). -/
def anyPlatform (s : State) : Bool :=
  s.cfg.plain.any fun e => match e.1.1 with
    | .plat _ => true
    | _ => false
/-- Selective release acts on an OPEN (R202). -/
def selects (s : State) (auto : Option Bool) : Bool := auto.getD (s.fit.optP && anyPlatform s)
/-- A rate key of an axis converts to what the axis can run at (R129, R140). -/
def rateFits (s : State) (n : Nat) (k : Key) : Bool :=
  match k with
  | .SPEED | .CREEP => speedOk s n (axRate s n k)
  | .JERK => !s.keyIs (.ch n .ax) .PROFILE "SCURVE" || jerkOk (axRate s n k)
  | _ => accOk (axRate s n k)
/-- The converted rates of an axis's own keys, of those a command runs with but does not carry (R129, R140). -/
def keyRates (s : State) (n : Nat) (l : List Key) : Option Err :=
  (l.find? fun k => hasScale s n && !rateFits s n k).map fun k => { code := 5, detail := .key k }
/-- Every interval of a plan fits the reload timer (R133). -/
def planErr (s : State) (n : Nat) (l : List Seg) : Option Err :=
  if hasScale s n then (planKey l).map fun k => { code := 5, detail := .key k } else none
/-- The stops from a speed, at a deceleration and at SDEC, fit the reload timer (R133). -/
def stopErr (s : State) (n v dec : Nat) : Option Err :=
  planErr s n (planStop (v * v) (stopSteps (v * v) dec) false)
    <|> planErr s n (planStop (v * v) (stopSteps (v * v) (axRate s n .SDEC)) false)
/-- Step 9 of a door command for one station: the rates that it and its step run with, and its plans (R129, R133, R140). -/
def doorRates (s : State) (n : Nat) (opening : Bool) : Option Err :=
  if isRole s n "STEP" then
    keyRates s n [.SPEED, .ACC, .DEC, .JERK] <|> (match stepGoal s n opening with
      | none => none
      | some y => planErr s n (planFor s n (stepMotion s n y) (countsToSteps s n y - (s.ax n).cmd)))
      <|> stopErr s n (axRate s n .SPEED) (axRate s n .DEC)
  else if !isLeaf s n ∨ !hasScale s n then none
  else
    let k : Key := if opening then .OSPEED else .CSPEED
    let m := leafMotion s n 10000 opening
    (if speedOk s n m.speed then none else some { code := 5, detail := .key k })
      <|> keyRates s n (if opening then [.ACC, .DEC, .JERK] else [.CREEP, .ACC, .DEC])
      <|> planErr s n (doorPlan s n m) <|> stopErr s n m.speed m.dec
      <|> (match stepStation s n with
        | none => none
        | some j => keyRates s j [.SPEED, .ACC, .DEC])
/-- The named stations of a door command, in address order. -/
def doorNamed (s : State) (x : StSel) : List Nat :=
  let l := stSel s (allLeaves s) x
  allStations.filter (· ∈ l)
/-- The stations an OPEN keeps (R170, R202). -/
def openKept (s : State) (x : StSel) (side : Option Side) (auto : Option Bool) : List Nat :=
  (doorNamed s x).filter fun n => sideIs s n side && (!selects s auto || alongside s n)
/-- The stations a CLOSE keeps. -/
def closeKept (s : State) (x : StSel) (side : Option Side) : List Nat := (doorNamed s x).filter fun n => sideIs s n side
/-- The addresses of a station selection as written. -/
def stObjs (x : StSel) : List Obj := (stWritten x).map Obj.st
/-- ALL that names nothing (R90, R489). -/
def allErr (s : State) (ok : Nat → Bool) (x : StSel) : Option Err := allGone (stNone s ok x)

/-! ## Parts of a door command -/

/-- A leaf that moves turns round: it takes the new state at once, stops at DEC, and is planned anew from standstill; a leaf that
stands waits for its admission (R142, R175, R306). -/
def turnLeaf (n : Nat) (opening : Bool) (why : Why) (s : State) : State :=
  let moving := (s.ax n).motion.isSome
  let s := disarm n (clearTimers n (leaveWait n s))
  let s := s.modStn n fun t => { t with why, atZone := false, reopened := false, clean := false, kept := some opening }
  let s := setLeaf n (if opening then .opening else .closing) s
  if moving then
    let s := s.modAx n fun a => { a with motion := a.motion.map fun m => { m with turn := some opening } }
    settleAxis n (rampStop n (axRate s n .DEC) .done s)
  else beginWait n (if opening then 2 else 1) why opening s
/-- A standing leaf asks for admission to open or close. -/
def askLeaf (n : Nat) (opening : Bool) (why : Why) (s : State) : State :=
  beginWait n (if opening then 2 else 1) why opening (s.modStn n fun t => { t with why })
/-- UNLOCKING is left before the leaf moves: UNLOCK off, and CLOSED_LOCKED with LOCKSW still made, else LOCKING under a close of its
own (R175, R176). -/
def abortUnlock (n : Nat) (why : Why) (s : State) : State :=
  let s := clearTimers n (unlockOut n false s)
  if inOn s n .LOCKSW then closeAndLock n s
  else askLeaf n false why (enterLocking n s)
/-- A door command takes a step station, from standstill or from an earlier one's move: that of the same goal goes on, another stops at DEC
and is planned anew from standstill (R142, R171). -/
def takeStep (n : Nat) (opening : Bool) (s : State) : State :=
  match (s.ax n).motion, stepGoal s n opening with
  | some m, some y =>
    let goal := some (countsToSteps s n y)
    if m.target = goal ∧ (m.phase = .running ∨ m.phase = .waiting) then s
    else if m.phase = .waiting ∨ m.phase = .held then moveStep n opening (leaveWait n s)
    else
      let s := s.modAx n fun a => { a with motion := some { m with target := goal, turn := some opening } }
      settleAxis n (rampStop n m.dec .done s)
  | _, _ => moveStep n opening s
/-- A station is taken over by a new door command: the earlier command's part is superseded, and its wait ends where the leaf stands outside
a move; a REF LEARN ends with E70; its reclose count and a backstop trip without an active edge end (R171, R176, R189, R190; REF LEARN:
DESIGN CHOICE, log entry 98). -/
def takeOver (id n : Nat) (s : State) : State :=
  let s := learnFails n { code := 70 } (doorFailed n { code := 70 } "superseded" s)
  let s := if (s.stn n).wait.isSome ∧ ¬ leafMoves (s.stn n).leaf ∧ isLeaf s n then resumeDone n (leaveWait n s) else s
  let s := s.modStn n fun t => { t with doorOp := some id, attempts := 0 }
  forEach [Lane.a, .b] (fun x s => s.modLaneStn x n fun t => { t with backstop := t.backstop && laneOn s x n .EDGE }) s
/-- OPEN begins on one station (R175, R176); a leaf that a limit switch has stopped on its way asks anew (R150). -/
def openPart (id n : Nat) (s : State) : State :=
  let s := takeOver id n s
  let stuck := fun (s : State) => (s.ax n).motion.isNone && (s.stn n).wait.isNone && !(s.stn n).atZone
  if isRole s n "STEP" then takeStep n true s
  else match (s.stn n).leaf with
    | .opn => doorReached n s
    | .opening => if stuck s then askLeaf n true .command s else s
    | .closing => turnLeaf n true .command s
    | _ => if (s.stn n).stepRefs then s else askLeaf n true .command s
/-- The command that closes enters the cycle's record (R450). -/
def noteClose (id n : Nat) (s : State) : State :=
  match s.opOf id with
  | none => s
  | some o => s.modStn n fun t => { t with cycle := { t.cycle with closeSession := portByte o.port, closeTag := o.tag } }
/-- CLOSE begins on one station (R175, R176); what stands higher in R175's table comes first. -/
def closePart (id n : Nat) (s : State) : State :=
  let s := noteClose id n (takeOver id n (ripe n s))
  let stuck := fun (s : State) => (s.ax n).motion.isNone && (s.stn n).wait.isNone && !(s.stn n).atZone
  if isRole s n "STEP" then takeStep n false s
  else match (s.stn n).leaf with
    | .closedLocked => doorReached n (endSearch n s)
    | .closing | .locking => if stuck s then askLeaf n false .command s else s
    | .reversing => s
    | .unlocking => abortUnlock n .command s
    | .opening => turnLeaf n false .command s
    | .fault =>
      askLeaf n false .command (askOn n .fd s)
    | _ => askLeaf n false .command s
/-- A door command starts on the stations it keeps: queued, skipped, then every part (R171). -/
def runDoor (v : Verb) (named kept : List Nat) (part : Nat → Nat → State → State) (c : Ctx) (s : State) : State :=
  let r := startOp c v (.door kept [] []) true s
  let s := say c (colR "queued" [.n kept.length]) r.2
  let skipped := named.filter (· ∉ kept)
  let s := match skipped.head? with
    | none => s
    | some f => say c (colR "skipped" [.n skipped.length, .obj (.st f)]) s
  finishDoor r.1 (forEach kept (part r.1) s)

/-- OPEN (R170 to R176, R200 to R202, R489). -/
def openSpec (sts : StSel) (side : Option Side) (auto : Option Bool) : Spec :=
  { verb := .opn sts side auto, objs := stObjs sts, engine := some .mot, slots := fun _ => 1
    found := fun s => allErr s (allLeaves s) sts
      <|> (if auto = some true ∧ ¬ s.fit.optP then some { code := 4, detail := .obj .line } else none)
    values := fun s => (openKept s sts side auto).findSome? fun n => doorRates s n true
    ready := fun s =>
      if selects s auto ∧ lineUncertain s then some { code := 6, detail := .obj .line }
      else if selects s auto ∧ (openKept s sts none auto).isEmpty then some { code := 6, detail := .word "PLATFORM" }
      else (openKept s sts side auto).findSome? (openTest s)
    run := fun c s => runDoor (.opn sts side auto) (doorNamed s sts) (openKept s sts side auto) openPart c s }
/-- CLOSE (R170 to R176, R489). -/
def closeSpec (sts : StSel) (side : Option Side) : Spec :=
  { verb := .cls sts side, objs := stObjs sts, engine := some .mot, slots := fun _ => 1
    found := fun s => allErr s (allLeaves s) sts
    values := fun s => (closeKept s sts side).findSome? fun n => doorRates s n false
    ready := fun s => (closeKept s sts side).findSome? (closeTest s)
    run := fun c s => runDoor (.cls sts side) (doorNamed s sts) (closeKept s sts side) closePart c s }

/-! ## STOP and RESUME (R152 to R154, R163, R175) -/

/-- A station carries an axis that a STOP can name. -/
def hasAxis (s : State) (n : Nat) : Bool := chFitted s n .ax
/-- The stations of a STOP or RESUME. -/
def axNamed (s : State) (x : StSel) : List Nat := (stSel s (hasAxis s) x).filter (hasAxis s)
/-- The axis addresses of a selection as written, which must be fitted. -/
def axObjs (x : StSel) : List Obj := (stWritten x).map fun n => Obj.ch n .ax
/-- An axis has motion that a STOP stops. -/
def stoppable (s : State) (n : Nat) : Bool :=
  match (s.ax n).motion with
  | some m => decide (m.phase ≠ .held)
  | none => false
/-- A leaf that STOP finds in a moving state, be it standing in its dwell, at the zone or in a wait, is HELD with its target kept, and
its reclose attempts end (R175, R189). -/
def stopLeaf (n : Nat) (s : State) : State :=
  let opening := decide ((s.stn n).leaf = .opening)
  let s := s.modStn n fun t => { t with attempts := s.keyN (.st n) .RECLOSE
                                        cycle := { t.cycle with disturbedOpen := t.cycle.disturbedOpen || opening, disturbedClose := t.cycle.disturbedClose || !opening } }
  holdLeaf n (some opening) (s.modAx n fun a => { a with motion := a.motion.map fun m => { m with turn := none } })
/-- How a motion ends that STOP reaches: one whose command has ended already, by a cancel, a fault or a limit, still only stops, as does the
search that an open has begun on a step (R480); a leaf's own is kept by its state; any other is held (R151, R152). -/
def stopEnding (s : State) (n : Nat) (m : Motion) : Ending :=
  if m.op.isNone ∧ (isLeaf s n ∨ m.kind = .ref ∨ (m.phase = .stopping ∧ m.ending ≠ some .hold)) then .done else .hold
/-- STOP reaches an axis: a leaf in its door cycle becomes HELD, a session's command is held (R152, R175). What has no motion reports it at
once. -/
def stopAxis (hard : Bool) (n : Nat) (s : State) : State :=
  let leaf := fun (s : State) => if isLeaf s n ∧ leafMoves (s.stn n).leaf then stopLeaf n s else s
  match (s.ax n).motion with
  | none => if isLeaf s n ∧ leafMoves (s.stn n).leaf then leafHeld n (stopLeaf n s) else s
  | some m =>
    if m.phase = .held then s
    else
      let e := stopEnding s n m
      let s := if m.op.isNone then leaf s else s
      let s := match m.op.bind s.opOf with
        | none => s
        | some o => releaseSlots o.segs (s.modOp o.id fun o => { o with segs := [] })
      let s := (leaveWait n s).modAx n fun a => { a with motion := a.motion.map fun m => { m with turn := none } }
      settleAxis n (if hard then hardStop n e s else rampStop n m.dec e s)
/-- STOP takes effect (R152). -/
def runStop (sts : StSel) (hard : Bool) (c : Ctx) (s : State) : State :=
  let l := (axNamed s sts).filter (stoppable s)
  let r := startOp c (.stop sts hard) (.stopping l l.length) true s
  let s := say c (colR "stopping" [.n l.length]) r.2
  let s := forEach (axNamed s sts) (stopAxis hard) s
  if l.isEmpty then finOp r.1 (eqR "stop" [.n 0]) s else s
/-- STOP (R152). -/
def stopSpec (sts : StSel) (hard : Bool) : Spec :=
  { verb := .stop sts hard, objs := axObjs sts, engine := some .mot, slots := fun _ => 1
    found := fun s => allErr s (hasAxis s) sts
    ready := fun s => (axNamed s sts).findSome? fun n => sliceGone s n
    run := runStop sts hard }

/-- A station holds a command, or a kept target, that RESUME takes up (R174, R491). -/
def resumable (s : State) (n : Nat) : Bool :=
  (isLeaf s n && decide ((s.stn n).leaf = .held) && (s.stn n).kept.isSome)
    || (match (s.ax n).motion with | some m => decide (m.phase = .held) | none => false)
/-- The segments a held command's new profile takes slots for: a coupling, a follower and a reference search need no new ones
(R139, R154, R163). -/
def resumeTypes (s : State) (n : Nat) : List Nat :=
  match (s.ax n).motion with
  | some m => if m.phase ≠ .held ∨ m.op.isNone ∨ m.couple.isSome ∨ m.follow.isSome ∨ m.kind = .ref then [] else planTypes m.scurve
  | none => []
/-- RESUME of one station: it waits for admission in the class of its motion (R154, R175). -/
def resumeAxis (n : Nat) (s : State) : State :=
  match (s.ax n).motion with
  | some m =>
    if m.phase ≠ .held then s
    else
      let s := match m.op with
        | none => s
        | some id => takeSegs id n (resumeTypes s n) (if m.after.isSome then [] else motionPlan s n m) s
      beginWait n m.cls .command false (s.modAx n fun a => { a with motion := some { m with phase := .waiting, ending := none, d := (s.stn n).derate } })
  | none => match (s.stn n).kept with
    | some opening => askLeaf n opening .command s
    | none => s
/-- The direction in which RESUME sets an axis going: true negative (R150, R153). -/
def resumeDir (s : State) (n : Nat) : Option Bool :=
  match (s.ax n).motion with
  | some m => motionDir s n m
  | none => (s.stn n).kept.map (!·)
/-- The refusals of RESUME for a station (R150; 16, "Door and motion forms"). -/
def resumeTest (s : State) (n : Nat) : Option Err :=
  if !resumable s n then none
  else sliceGone s n <|> (if outOfService s n then some (e06St n) else none) <|> feedOff s n
    <|> (if isLeaf s n ∧ (s.stn n).kept = some true ∧ ¬ (s.ax n).referenced ∧ (s.ax n).motion = none then some (e06Ax n) else none)
    <|> (match resumeDir s n with
      | some neg => if limitActive s n neg then some (e06Ax n) else none
      | none => none)
/-- RESUME takes effect (R154, R491). -/
def runResume (sts : StSel) (c : Ctx) (s : State) : State :=
  let l := (axNamed s sts).filter (resumable s)
  if l.isEmpty then fin c (eqR "resume" [.n 0]) s
  else
    let r := startOp c (.resume sts) (.resuming l l.length) true s
    forEach l resumeAxis (say c (colR "resuming" [.n l.length]) r.2)
/-- RESUME (R154, R491). -/
def resumeSpec (sts : StSel) : Spec :=
  { verb := .resume sts, objs := axObjs sts, engine := some .mot
    slots := fun s => 1 + ((axNamed s sts).map fun n => if resumable s n then (resumeTypes s n).length else 0).sum
    found := fun s => allErr s (hasAxis s) sts
    ready := fun s => (axNamed s sts).findSome? (resumeTest s)
    run := runResume sts }

/-! ## ISOLATE (R203) -/

/-- A leaf is taken out of the evaluation set: ISOLATED, no drive power, its motion ended HARD, its command's part failed, and an
isolate record names the session and the source of authority (R203). -/
def isolateLeaf (c : Ctx) (n : Nat) (s : State) : State :=
  if (s.stn n).leaf = .isolated then s else
  let s := s.modAx n fun a => { a with motion := a.motion.map fun m => { m with turn := none } }
  let s := setLeaf n .isolated (motionReply n (errR { code := 70 }) (uncoupleStep n (resumeFails n { code := 70 } (dropCharge n (endWait n s)))))
  let s := unlockOut n false (settleAxis n (hardStop n .done s))
  let s := match (s.stn n).learning with
    | none => s
    | some id => failOp id { code := 70 } s
  let s := s.modStn n fun t => { t with kept := none, atZone := false, reopened := false, learning := none }
  let s := doorFailed n { code := 70 } "isolated" s
  let s := setMasks .b (setMasks .a s)
  record 0x0403 (pNum (portByte c.port) ++ pWord (match c.port with | .session 0 => "KEY" | _ => "message")) { station := n, session := portByte c.port, tag := c.tag } s
/-- A leaf returns to the evaluation set, with its state set from its switches (R175, R203). -/
def unisolateLeaf (n : Nat) (s : State) : State :=
  if (s.stn n).leaf ≠ .isolated then s
  else if bothMade s n then referenceSet n 0 none (setLeaf n .closedLocked (s.modStn n fun t => { t with attempts := 0, cause := "" }))
  else setLeaf n .fault (s.modStn n fun t => { t with cause := "isolated" })
/-- The stations of an ISOLATE. -/
def isoNamed (s : State) (x : StSel) : List Nat := stSel s (fun n => isLeaf s n) x
/-- ISOLATE (R203). -/
def isolateSpec (sts : StSel) (on : Bool) : Spec :=
  { verb := .isolate sts on, objs := stObjs sts, safety := true
    found := fun s => allErr s (fun n => isLeaf s n) sts
    ready := fun s => (isoNamed s sts).findSome? fun n =>
      if !isLeaf s n then some (e06St n) else if on then none
      else sliceGone s n <|> (if (s.stn n).leaf = .isolated ∧ bothMade s n then (if unomSet s n then stepFeed s n else some { code := 6, detail := .key .UNOM }) else none)
    run := fun c s =>
      let l := isoNamed s sts
      fin c (eqR "isolate" [.n l.length]) (forEach l (fun n s => if on then isolateLeaf c n s else unisolateLeaf n s) s) }

/-! ## The commands -/

/-- OPEN. -/
def execOpn (l : Line) (sts : StSel) (side : Option Side) (auto : Option Bool) (s : State) : Host.Outcome State Fault Refusal :=
  .next (settle s (handleLine (.opn l sts side auto) l (openSpec sts side auto) s))
/-- CLOSE. -/
def execCls (l : Line) (sts : StSel) (side : Option Side) (s : State) : Host.Outcome State Fault Refusal :=
  .next (settle s (handleLine (.cls l sts side) l (closeSpec sts side) s))
/-- STOP. -/
def execStop (l : Line) (sts : StSel) (hard : Bool) (s : State) : Host.Outcome State Fault Refusal :=
  .next (settle s (handleLine (.stop l sts hard) l (stopSpec sts hard) s))
/-- RESUME. -/
def execResume (l : Line) (sts : StSel) (s : State) : Host.Outcome State Fault Refusal :=
  .next (settle s (handleLine (.resume l sts) l (resumeSpec sts) s))
/-- ISOLATE ON. -/
def execIsolateOn (l : Line) (sts : StSel) (s : State) : Host.Outcome State Fault Refusal :=
  .next (settle s (handleLine (.isolateOn l sts) l (isolateSpec sts true) s))
/-- ISOLATE OFF. -/
def execIsolateOff (l : Line) (sts : StSel) (s : State) : Host.Outcome State Fault Refusal :=
  .next (settle s (handleLine (.isolateOff l sts) l (isolateSpec sts false) s))

end Sys2Proof.Machine
end

