-- ==== Sys2Proof/Machine/Motions.lean ====
section
/-! DEFINITION. MOVE, follower, JOG, REF, REF LEARN and CAM: their tests, their plans, the reference search and their ends
(04 R128 to R131, R147 to R149, R155, R160 to R162; 05 R184, R191; 16 R489, R490). -/

namespace Sys2Proof.Machine

open Sys2Proof

/-! ## Positions and rates of a line (R45, R92, R128, R129) -/

/-- A position or distance in counts: without a suffix in counts, with a length suffix by SCALE (R45). -/
def litCounts (s : State) (n : Nat) (l : Lit) : Option Int :=
  match l.suffix with
  | none => litPlain l
  | some _ => if hasScale s n then litSteps .len 1 100000 (s.axK n .SCALE).toNat l else none
/-- A rate key's value in um: the line's, or the axis key's (R128). -/
def rateUm (s : State) (n : Nat) (k : Key) (l : Option Lit) : Option Int :=
  match l with
  | none => some (s.axK n k)
  | some x => match (axisRow k).bind fun r => keyVal r (.num x) with
    | some (.i v) => some v
    | _ => none
/-- The signed speed of a JOG line in um/s (16, "Door and motion keys"). -/
def jogUm (l : Lit) : Option Int :=
  match (axisRow .SPEED).bind fun r => keyVal r (.num { l with mant := (l.mant.natAbs : Int) }) with
  | some (.i v) => some (if l.mant < 0 then -v else v)
  | _ => none
/-- The profile shape of a line: S-curve or trapezoid; none for another word (R128). -/
def curved (s : State) (n : Nat) (k : MotionKeys) : Option Bool :=
  match k.profile with
  | none => some (s.keyIs (.ch n .ax) .PROFILE "SCURVE")
  | some w => if w = "TRAP" then some false else if w = "SCURVE" then some true else none
/-- A converted speed, or the key it fails (R129). -/
def speedErr (s : State) (n : Nat) (k : Key) (l : Option Lit) : Option Err :=
  match rateUm s n k l with
  | none => some { code := 5, detail := .key k }
  | some v => if hasScale s n && !(if k = .SPEED then speedOk s n (convRate s n v.toNat) else accOk (convRate s n v.toNat)) then some { code := 5, detail := .key k } else none
/-- Step 9 of a motion's rate keys. -/
def ratesErr (s : State) (n : Nat) (k : MotionKeys) : Option Err :=
  speedErr s n .SPEED k.speed <|> speedErr s n .ACC k.acc <|> speedErr s n .DEC k.dec
    <|> (match rateUm s n .JERK k.jerk with
      | none => some { code := 5, detail := .key .JERK }
      | some v => if hasScale s n ∧ curved s n k = some true ∧ ¬ jerkOk (convRate s n v.toNat) then some { code := 5, detail := .key .JERK } else none)
    <|> (if (curved s n k).isNone then some { code := 5, detail := .key .PROFILE } else none)

/-! ## Tests of step 13 (R129, R130, R150, R490) -/

/-- A session may move the axis of a station (R490). -/
def roleLets (s : State) (n : Nat) : Bool :=
  if isRole s n "LEAF" then decide ((s.stn n).leaf = .held) || (decide ((s.stn n).leaf = .fault) && !causeStands s n)
  else if isRole s n "STEP" then (servedLeaf s n).isNone || stepFree s n
  else true
/-- Away, out of service, role, scale, motion and feed (R129, R130, R490). -/
def axisTest (s : State) (n : Nat) : Option Err :=
  sliceGone s n <|> (if outOfService s n ∨ ¬ roleLets s n then some (e06St n) else none)
    <|> (if hasScale s n then none else some { code := 6, detail := .key .SCALE })
    <|> (if hasMotion s n then some (e06Ax n) else none) <|> feedOff s n
/-- Motion toward an active limit switch is refused (R150). -/
def limitTest (s : State) (n : Nat) (dist : Int) : Option Err :=
  if dist ≠ 0 ∧ limitActive s n (decide (dist < 0)) then some (e06Ax n) else none
/-- The reference search can be made (R147). -/
def searchTest (s : State) (n : Nat) : Option Err :=
  let neg := s.keyIs (.ch n .ax) .HOMEDIR "NEG"
  if s.keyIs (.ch n .ax) .HOME "NONE" then some { code := 6, detail := .key .HOME }
  else if s.keyIs (.ch n .ax) .INDEX "ON" ∧ s.key (.ch n .ax) .REVCNT = .unset then some { code := 6, detail := .key .REVCNT }
  else if limitActive s n neg then some (e06Ax n) else none
/-- A goal lies within the soft limits: a position in counts, or a distance from the commanded position, neither rounded (R149). -/
def softOk (s : State) (n : Nat) (g : Int × Bool) : Bool :=
  let r := s.axK n .RATIO
  let t := if g.2 then 65536 * (s.ax n).cmd + g.1 * r else g.1 * r
  decide (s.axK n .SLMIN * r ≤ t ∧ t ≤ s.axK n .SLMAX * r)

/-! ## Motions (R131, R136, R149) -/

/-- A motion with the rates of a line. -/
def lineMotion (s : State) (n : Nat) (kind : MKind) (k : MotionKeys) : Motion :=
  let r := fun (key : Key) (l : Option Lit) => convRate s n ((rateUm s n key l).getD 0).toNat
  { kind, cls := 4, speed := r .SPEED k.speed, acc := r .ACC k.acc, dec := r .DEC k.dec, jerk := r .JERK k.jerk
    scurve := (curved s n k).getD false
    asked := if kind = .move ∨ kind = .jog then (rateUm s n .SPEED k.speed).map (·.toNat) else none }
/-- The distance of a move line in counts, and whether it is relative. -/
def moveGoal (s : State) (n : Nat) (t : MoveTgt) : Option (Int × Bool) :=
  match t with
  | .pos l => (litCounts s n l).map fun v => (v, false)
  | .dist l => (litCounts s n l).map fun v => (v, true)
  | .speed _ => none
/-- The commanded target of a goal, microsteps; in whole microsteps too it does not pass a soft limit (R149). -/
def goalSteps (s : State) (n : Nat) (g : Int × Bool) : Int :=
  softClamp s n (if g.2 then (s.ax n).cmd + countsToSteps s n g.1 else countsToSteps s n g.1)
/-- E05 of a goal: out of range, or beyond a soft limit of a referenced axis (R149). -/
def goalErr (s : State) (n : Nat) (t : MoveTgt) : Option Err :=
  let k : Key := match t with
    | .pos _ => .POS
    | .dist _ => .DIST
    | .speed _ => .SPEED
  let lit := match t with
    | .pos l => l
    | .dist l => l
    | .speed l => l
  if lit.suffix.isSome ∧ ¬ hasScale s n then none
  else match moveGoal s n t with
    | none => some { code := 5, detail := .key k }
    | some g =>
      if !fits32 g.1 then some { code := 5, detail := .key k }
      else if (s.ax n).referenced ∧ hasScale s n ∧ ¬ softOk s n g then some { code := 5, detail := .key k }
      else none
/-- A motion is put on its axis and waits for admission (R131); a following-error or follower fault clears (R509 bit 2). -/
def putMotion (n : Nat) (m : Motion) (s : State) : State :=
  let s := s.modAx n fun a => { a with motion := some m, ferrSince := none, fault := if a.fault = some "follow" then none else a.fault }
  beginWait n m.cls .command false s
/-- A motion command is accepted: its slots, its acceptance line, and its wait for admission (R51, R131, R139). -/
def runMotion (v : Verb) (n : Nat) (m : Motion) (segs : List Seg) (types : List Nat) (r : Reply) (c : Ctx) (s : State) : State :=
  let q := startOp c v (.motion n) true s
  let s := say c r (takeSegs q.1 n types segs q.2)
  putMotion n { m with op := some q.1 } s

/-! ## The specifications -/

/-- The address a motion line names. -/
def axObj (n : Nat) : List Obj := [.ch n .ax]
/-- The motion of a MOVE line: to its target, or through a reference search first (R136, R148). -/
def moveMotion (s : State) (n : Nat) (t : MoveTgt) (k : MotionKeys) : Motion :=
  let g := (moveGoal s n t).getD (0, true)
  let m := lineMotion s n .move k
  if (s.ax n).referenced then { m with target := some (goalSteps s n g) } else { m with after := some g.1, afterRel := g.2 }
/-- The plan a motion starts with: its profile, or the rise of its search to CREEP (R136, R147). -/
def firstPlan (s : State) (n : Nat) (m : Motion) : List Seg :=
  if m.kind = .ref ∨ m.after.isSome then planOpen (axRate s n .CREEP) m.acc (s.keyIs (.ch n .ax) .HOMEDIR "NEG") true else motionPlan s n m
/-- The plans that a motion would make, tested at its acceptance: its first; the move after its search, from where the axis would stand
then; and a stop from its speed, at its deceleration and at SDEC (R133). -/
def plansErr (s : State) (n : Nat) (m : Motion) : Option Err :=
  let search := decide (m.kind = .ref) || m.after.isSome
  let v := if search then axRate s n .CREEP else m.speed
  let stop : Int := stopSteps (v * v) m.dec
  let from_ := countsToSteps s n (s.axK n .REFPOS) + (if s.keyIs (.ch n .ax) .HOMEDIR "NEG" then -stop else stop)
  planErr s n (firstPlan s n m)
    <|> (match m.after with
      | none => none
      | some g =>
        let d := countsToSteps s n g
        planErr s n (planFor s n m (if m.afterRel then d else d - from_)))
    <|> stopErr s n v m.dec
/-- MOVE (R129, R133, R136, R147 to R150). -/
def moveSpec (n : Nat) (t : MoveTgt) (k : MotionKeys) : Spec :=
  { verb := .move n t k, objs := axObj n, engine := some .mot
    slots := fun s => 1 + (planTypes ((curved s n k).getD false)).length
    values := fun s => goalErr s n t <|> ratesErr s n k <|> (if (s.ax n).referenced then none else keyRates s n [.CREEP])
      <|> plansErr s n (moveMotion s n t k)
    ready := fun s => axisTest s n <|> (if (s.ax n).referenced then
        limitTest s n (goalSteps s n ((moveGoal s n t).getD (0, true)) - (s.ax n).cmd) else searchTest s n)
    run := fun c s =>
      let m := moveMotion s n t k
      runMotion (.move n t k) n m (if (s.ax n).referenced then motionPlan s n m else []) (planTypes m.scurve) (colR "moving" [.n 1]) c s }
/-- MOVE FOLLOW=PORT (R155). -/
def followSpec (n : Nat) (fact : Option Nat) : Spec :=
  { verb := .follow n fact, objs := axObj n, engine := some .mot, slots := fun _ => 2
    values := fun _ => match fact with
      | some f => if f ∈ [1, 2, 4, 8, 16, 32, 64, 128, 256] then none else some { code := 5, detail := .key .FACT }
      | none => none
    ready := fun s => axisTest s n
    run := fun c s =>
      let f := fact.getD (s.axK n .FACT).toNat
      runMotion (.follow n fact) n { lineMotion s n .follow {} with follow := some { fact := f } } [] [5] (colR "moving" [.n 1]) c s }
/-- JOG (R129, R133, R148 to R150). -/
def jogSpec (n : Nat) (t : MoveTgt) (k : MotionKeys) : Spec :=
  let sp := match t with
    | .speed l => jogUm l
    | _ => some 0
  let k' : MotionKeys := match t with
    | .speed l => { k with speed := some { l with mant := (l.mant.natAbs : Int) } }
    | _ => k
  let goal := fun (s : State) => match t with
    | .speed _ => none
    | t => moveGoal s n t
  let motion := fun (s : State) =>
    let m := lineMotion s n .jog k'
    let m := if (s.ax n).referenced then m else { m with speed := min m.speed (axRate s n .CREEP) }
    match goal s with
    | some g => { m with target := some (goalSteps s n g), neg := decide (goalSteps s n g < (s.ax n).cmd) }
    | none => { m with neg := decide (sp.getD 0 < 0) }
  { verb := .jog n t k, objs := axObj n, engine := some .mot
    slots := fun s => 1 + (planTypes ((curved s n k).getD false)).length
    values := fun s => (match t with
        | .speed _ => if sp.isNone then some { code := 5, detail := .key .SPEED } else none
        | t => goalErr s n t) <|> ratesErr s n k' <|> (if (s.ax n).referenced then none else keyRates s n [.CREEP])
      <|> plansErr s n (motion s)
    ready := fun s => axisTest s n <|> limitTest s n (match (motion s).target with
        | some g => g - (s.ax n).cmd
        | none => if (motion s).neg then -1 else 1)
    run := fun c s => runMotion (.jog n t k) n (motion s) (motionPlan s n (motion s)) (planTypes (motion s).scurve) (colR "jogging" [.n 1]) c s }
/-- REF (R147). -/
def refSpec (n : Nat) : Spec :=
  { verb := .ref n, objs := axObj n, engine := some .mot, slots := fun _ => 1
    values := fun s => keyRates s n [.CREEP, .ACC, .DEC] <|> plansErr s n (lineMotion s n .ref {})
    ready := fun s => axisTest s n <|> searchTest s n
    run := fun c s => runMotion (.ref n) n (lineMotion s n .ref {}) [] [] (colR "referencing" [.n 1]) c s }
/-- CAM (R129, R133, R150, R159, R160, R162). -/
def camSpec (n table : Nat) (master : Obj) (offset : Option Lit) : Spec :=
  let tb : Option TB := match master with
    | .tb t => some t
    | .line => some .line
    | .time => some .time
    | _ => none
  let e5 := fun (k : Key) => some ({ code := 5, detail := .key k } : Err)
  let couple := fun (s : State) => ({ table, master := tb.getD .time, offset := (offset.bind litPlain).getD 0, t0 := s.time / 1000, target := (s.ax n).pos } : Couple)
  { verb := .cam n table master offset, objs := axObj n, engine := some .mot, slots := fun _ => 2
    found := fun s => match tb with
      | some t => if tbFitted s t then none else some { code := 4, detail := .obj master }
      | none => none
    values := fun s =>
      if 64 ≤ table then e5 .TABLE
      else match tb with
        | none => e5 .MASTER
        | some _ =>
          match offset.map litPlain with
          | some none => e5 .OFFSET
          | some (some v) => if fits32 v then tableErr s <|> rateErr s else e5 .OFFSET
          | none => tableErr s <|> rateErr s
    ready := fun s => axisTest s n
      <|> (if (camPoints s table).isNone then some { code := 6, detail := .obj (.cam table) } else none)
      <|> (if (s.ax n).referenced then none else some (e06Ax n))
      <|> (match tb with
        | some t => if couplesTo s n 64 t then some { code := 6, detail := .key .MASTER } else none
        | none => none)
      <|> towardLimit s n (countsToSteps s n (camTarget s n (couple s)))
    run := fun c s =>
      runMotion (.cam n table master offset) n { lineMotion s n .cam {} with couple := some (couple s) } [] [6] (colR "coupled") c s }
where
  /-- The slave runs at its own keys' rates (R161). -/
  rateErr (s : State) : Option Err :=
    keyRates s n [.SPEED, .ACC, .DEC] <|> planErr s n (planOpen (axRate s n .SPEED) (axRate s n .ACC) false false)
      <|> stopErr s n (axRate s n .SPEED) (axRate s n .DEC)
  /-- The checks made when a CAM names a table (R159). -/
  tableErr (s : State) : Option Err :=
    match camPoints s table with
    | none => none
    | some l =>
      if !rising l then some { code := 5, detail := .key .X }
      else if s.keyIs (.cam table) .WRAP "ON" ∧ (camEnds l).1.2 ≠ (camEnds l).2.2 then some { code := 5, detail := .key .Y }
      else none
/-- REF LEARN (R184, R191). -/
def refLearnSpec (n times : Nat) : Spec :=
  { verb := .refLearn n times, objs := axObj n, engine := some .mot, slots := fun _ => 1, safety := true
    values := fun s => (if 3 ≤ times ∧ times ≤ 16 then none else some { code := 5, detail := .key .LEARN })
      <|> doorRates s n true <|> doorRates s n false
    ready := fun s =>
      let t := s.stn n
      sliceGone s n <|> (if !isLeaf s n ∨ t.outOfService ∨ t.leaf ≠ .closedLocked ∨ t.wait.isSome ∨ t.learning.isSome then some (e06St n) else none)
        <|> (if s.key (.st n) .OPENPOS = .unset then some { code := 6, detail := .key .OPENPOS } else if !hasScale s n then some { code := 6, detail := .key .SCALE } else none)
        <|> (if (commissioned s n).isNone ∧ s.key (.st n) .LEARNMAX = .unset then some { code := 6, detail := .key .LEARNMAX } else none)
        <|> (if hasMotion s n then some (e06Ax n) else none) <|> feedOff s n <|> stepFeed s n <|> (if limitActive s n false then some (e06Ax n) else none)
    run := fun c s =>
      let q := startOp c (.refLearn n times) (.learn n times) true s
      let s := say c (colR "referencing" [.n 1]) q.2
      let s := s.modStn n fun t => { t with learning := some q.1, traverses := [], points := [] }
      beginWait n 4 .command true s }

/-! ## The reference search (R147, R148) -/

/-- The HOME input of an axis is active. -/
def homeActive (s : State) (n : Nat) : Bool :=
  match inputOf (s.key (.ch n .ax) .HOME) with
  | none => false
  | some k => ((s.stn n).inp k).on
/-- A MOVE goes on to its own target after its search, its plan written into its slots; a target beyond the soft limits ends it with E05, an
active limit switch on its way with E06 (R140, R148 to R150). -/
def moveAfter (n : Nat) (s : State) : State :=
  match (s.ax n).motion with
  | none => s
  | some m =>
    match m.after with
    | none => s
    | some g =>
      let t := goalSteps s n (g, m.afterRel)
      if !softOk s n (g, m.afterRel) then
        axisStops n (motionReply n (errR { code := 5, detail := .key (if m.afterRel then .DIST else .POS) }) s)
      else
        let m := { m with after := none, target := some t, phase := .running }
        let s := s.modAx n fun a => { a with motion := some m }
        if (motionDir s n m).any (limitActive s n) then axisStops n (motionReply n (errR (e06Ax n)) s)
        else
          let segs := motionPlan s n m
          setCourse n segs (fun m => m) (fillSegs n (planTypes m.scurve) segs s)
/-- The search has come to its end at standstill: REF gives its reply, a MOVE goes on (R147, R148). -/
def refDone (n : Nat) (s : State) : State :=
  match (s.ax n).motion with
  | none => s
  | some m =>
    if m.after.isSome then moveAfter n s
    else axisStops n (motionReply n (posReply "ref" (s.ax n).pos) s)
/-- The reference edge: the position becomes REFPOS, the search of a MOVE reports it, and the axis stops at DEC (R147, R148). -/
def refEdge (n : Nat) (s : State) : State :=
  let pos := s.axK n .REFPOS
  let s := referenceSet n pos (some pos) s
  let s := resumeDone n s
  match (s.ax n).motion with
  | none => s
  | some m =>
    let s := if m.after.isSome then motionSays n (colR "referenced" [.kn "pos" pos ""]) s else s
    if (s.ax n).loaded.isNone ∧ (s.ax n).ahead.isEmpty then refDone n s
    else setCourse n (planStop (loadedSpeedSq (s.ax n)) (stopSteps (loadedSpeedSq (s.ax n)) m.dec) (((s.ax n).loaded.map (·.neg)).getD false))
      (fun m => { m with phase := .refStop }) s
/-- The search runs at CREEP in HOMEDIR, with the speed factor of its admission (R147, R318). -/
def searchCourse (n : Nat) (ph : MPhase) (s : State) : State :=
  match (s.ax n).motion with
  | none => s
  | some m =>
    setCourse n (planOpen (withD s n m.d (axRate s n .CREEP)) (withD s n m.d m.acc) (s.keyIs (.ch n .ax) .HOMEDIR "NEG") true) (fun m => { m with phase := ph }) s
/-- HOME has become active: on to the index, or the reference edge itself (R147). -/
def homeReached (n : Nat) (s : State) : State :=
  if s.keyIs (.ch n .ax) .INDEX "ON" then
    let s := s.modAx n fun a => { a with motion := a.motion.map fun m => { m with phase := .toIndex, sinceHome := 0 } }
    if (s.ax n).loaded.isNone ∧ (s.ax n).ahead.isEmpty then searchCourse n .toIndex s else s
  else refEdge n s
/-- The search starts (R147). -/
def startSearch (n : Nat) (s : State) : State :=
  let s := s.modAx n fun a => { a with motion := a.motion.map fun m => { m with searched := 0, sinceHome := 0 } }
  if homeActive s n then homeReached n s else searchCourse n .toHome s

/-! ## Admission and end of a session's motion (R131, R136) -/

/-- A motion has made its last step on its target: the command gives its final reply (R136). -/
def moveDone (n : Nat) (s : State) : State :=
  match (s.ax n).motion with
  | none => s
  | some m =>
    match m.ending with
    | some (.limit _) => axisStops n s
    | _ =>
      if (s.stn n).doorOp.isSome ∧ m.op.isNone ∧ isRole s n "STEP" then doorReached n (axisStops n s)
      else axisStops n (motionReply n (posReply (motionWord m.kind) (s.ax n).pos) s)
/-- A MOVE or JOG whose SPEED exceeds the derated speed is admitted with the latter: its command is warned, and the clip is journalled
(R104, R318, R320; DEDUCED: its SPEED is that of its line, else the key's, log entry 137). -/
def speedTold (n : Nat) (m : Motion) (s : State) : State :=
  match m.asked, m.op.bind s.opOf with
  | some v, some o =>
    if derated s n v < v then
      record 0x0702 (pKey .SPEED v ++ pKey .SPEED (derated s n v : Nat)) { session := portByte o.port, tag := o.tag } (motionSays n (e71 .SPEED v (derated s n v : Nat)) s)
    else s
  | _, _ => s
/-- An admitted motion starts with the speed factor of its station (R131, R318); toward an active limit switch it ends with E06 instead
(R150). A resumed follower goes on with the microsteps it still owes (R154, R157; DESIGN CHOICE, log entry 96). -/
def startMotion (n : Nat) (s : State) : State :=
  let s := endWait n s
  match (s.ax n).motion with
  | none => s
  | some m =>
    let m := { m with d := (s.stn n).derate, phase := .running }
    let s := s.modAx n fun a => { a with motion := some m, moving := true }
    if (motionDir s n m).any (limitActive s n) then doorFailed n (e06Ax n) "limit" (axisStops n (resumeFails n (e06Ax n) (motionReply n (errR (e06Ax n)) s)))
    else
    let s := speedTold n m s
    match m.follow with
    | some f =>
      let base := if f.following then f.base else (s.ax n).cmd
      let owes := base + f.fact * f.net - (s.ax n).cmd
      let s := s.modAx n fun a => { a with motion := some { m with follow := some { f with following := true, last := none, owed := owes.natAbs, base } } }
      let s := motionSays n (colR "following") s
      if owes = 0 then s
      else setCourse n [{ typ := 5, num := 0, len := some owes.natAbs, v0q := 0, v1q := 0, neg := decide (owes < 0), last := true
                          span := some (nsTicks (1000 * s.axK n .FGAP).toNat) }] (fun m => m) s
    | none =>
      if m.couple.isSome then camUpdate n s
      else if m.kind = .ref ∨ m.after.isSome then startSearch n s
      else
        let segs := motionPlan s n m
        let e : Option Ending := if m.kind = .jog ∧ m.target = none ∧ (s.ax n).referenced then some (.limit (!m.neg)) else none
        let s := setCourse n segs (fun m => { m with ending := e }) s
        if planDone m ∧ segs.all (fun g => g.len = some 0) then moveDone n (resumeDone n s) else s

/-! ## The commands -/

/-- MOVE. -/
def execMove (l : Line) (n : Nat) (t : MoveTgt) (k : MotionKeys) (s : State) : Host.Outcome State Fault Refusal :=
  .next (settle s (handleLine (.move l n t k) l (moveSpec n t k) s))
/-- MOVE FOLLOW. -/
def execMoveFollow (l : Line) (n : Nat) (fact : Option Nat) (s : State) : Host.Outcome State Fault Refusal :=
  .next (settle s (handleLine (.moveFollow l n fact) l (followSpec n fact) s))
/-- JOG. -/
def execJog (l : Line) (n : Nat) (t : MoveTgt) (k : MotionKeys) (s : State) : Host.Outcome State Fault Refusal :=
  .next (settle s (handleLine (.jog l n t k) l (jogSpec n t k) s))
/-- REF. -/
def execRef (l : Line) (n : Nat) (s : State) : Host.Outcome State Fault Refusal :=
  .next (settle s (handleLine (.ref l n) l (refSpec n) s))
/-- REF LEARN. -/
def execRefLearn (l : Line) (n : Nat) (times : Nat) (s : State) : Host.Outcome State Fault Refusal :=
  .next (settle s (handleLine (.refLearn l n times) l (refLearnSpec n times) s))
/-- CAM. -/
def execCam (l : Line) (n : Nat) (table : Nat) (master : Obj) (offset : Option Lit) (s : State) : Host.Outcome State Fault Refusal :=
  .next (settle s (handleLine (.cam l n table master offset) l (camSpec n table master offset) s))

end Sys2Proof.Machine
end

