-- ==== Sys2Proof/Machine/Loads.lean ====
section
/-! DEFINITION. LAMP, FLASH, OUT and the forms of PROVE (06 R209, R236; 07 R246, R259 to R262, R267; 08 R284; 09 R301; 10 R342, R343;
16 R492, R493). -/

namespace Sys2Proof.Machine

open Sys2Proof

/-! ## Channels of a line -/

/-- The addresses of a channel selection as written. -/
def chObjs : ChSel → List Obj
  | .all _ => []
  | .items l => chItems l
/-- ALL that names nothing (R90). -/
def allChErr (s : State) (x : ChSel) : Option Err := allGone (chNone s x)
/-- A channel kind that the verb does not take: E03 naming the first such channel (R492). -/
def kindErr (s : State) (ok : Chan → Bool) (x : ChSel) : Option Err :=
  ((chSel s x).find? fun o => match o with
    | .ch _ c => !ok c
    | _ => true).map fun o => { code := 3, detail := .obj o }
/-- The load or feed channels of a selection. -/
def swSel (s : State) (x : ChSel) : List (Nat × Sw) :=
  (chSel s x).filterMap fun o => match o with
    | .ch n c => (chSw c).map fun w => (n, w)
    | _ => none
/-- A channel belongs to the door cycle of its station (R169). -/
def doorOwned (s : State) (n : Nat) (c : Chan) : Bool :=
  isLeaf s n && (match c with
    | .ax => true
    | .fd => true
    | .la => decide (doorLamp s n = some .la)
    | .lb => decide (doorLamp s n = some .lb)
    | .out0 => s.keyIs (.st n) .UNLOCK "OUT0"
    | .out1 => s.keyIs (.st n) .UNLOCK "OUT1" || stepOut1 s n
    | _ => false)
/-- The error that names a channel. -/
def e06Ch (n : Nat) (c : Chan) : Err := { code := 6, detail := .obj (.ch n c) }
/-- Away, out of service, or owned by the door cycle (R169, R297). -/
def channelTest (s : State) (n : Nat) (c : Chan) : Option Err :=
  sliceGone s n <|> (if outOfService s n then some (e06St n) else none)
    <|> (if doorOwned s n c then some (e06Ch n c) else none)
/-- An ON finds the clearing condition of every standing trip met (R236). -/
def onTest (s : State) (n : Nat) (w : Sw) : Option Err :=
  let a := actSw s n w
  if (s.sw n a).tripped && !tripsClear s n a then some (e06Ch n (swChan w)) else none
/-- A load channel may be commanded (R169, R246). -/
def loadTest (s : State) (e : Nat × Sw) : Option Err :=
  channelTest s e.1 (swChan e.2) <|> (if e.2 = .lb ∧ hasReserve s e.1 then some (e06Ch e.1 .lb) else none)
/-- A channel is being learned or returned (R260, R262). -/
def proving (s : State) (n : Nat) : Bool :=
  s.ops.any fun o => match o.prog with
    | .proveLearn m _ _ _ _ _ => m == n
    | .proveReturn m => m == n
    | _ => false

/-! ## LAMP and FLASH -/

/-- The slices of a selection, whose frames carry its states (R102). -/
def slotsOf (l : List Nat) : List Nat := (l.map slotOf).dedup
/-- LAMP (R209, R236, R493). -/
def lampSpec (chs : ChSel) (on : Bool) : Spec :=
  { verb := .lamp chs on, objs := chObjs chs, engine := some .lamp
    kinds := (kindErr · (fun c => decide (c = .la ∨ c = .lb)) chs)
    found := (allChErr · chs)
    ready := fun s => (swSel s chs).findSome? fun e => loadTest s e <|> (if on then onTest s e.1 e.2 else none)
    run := fun c s =>
      let l := swSel s chs
      awaitReturn c (eqR "lamp" [.n l.length]) (slotsOf (l.map (·.1)))
        (forEach l (fun e s => if on then askOn e.1 e.2 s else ask e.1 e.2 .off s) s) }
/-- PERIOD, PHASE and DUTY of a FLASH line (R267). -/
def flashOf (period : Lit) (phase duty : Option Lit) : Option Int × Option Int × Option Int :=
  (litSteps .time 1000000 1000000 1 period, (phase.map litPlain).getD (some 0), (duty.map litPlain).getD (some 128))
/-- The E05 of a FLASH line. -/
def flashErr (period : Lit) (phase duty : Option Lit) : Option Err :=
  let f := flashOf period phase duty
  let bad := fun (v : Option Int) (lo hi : Int) => match v with
    | some x => decide (x < lo ∨ hi < x)
    | none => true
  if bad f.1 250 4000 then some { code := 5, detail := .key .PERIOD }
  else if bad f.2.1 0 255 then some { code := 5, detail := .key .PHASE }
  else if bad f.2.2 1 255 then some { code := 5, detail := .key .DUTY }
  else none
/-- The flash a line asks for. -/
def flashVal (period : Lit) (phase duty : Option Lit) : Flash :=
  let f := flashOf period phase duty
  { period := (f.1.getD 250).toNat, phase := (f.2.1.getD 0).toNat, duty := (f.2.2.getD 128).toNat }
/-- The pulse width of a channel in 50 us steps (R247). -/
def pulseSteps (s : State) (n : Nat) (w : Sw) : Nat :=
  if s.keyIs (.ch n (swChan w)) .PROFILE "LED" then (s.swK n w .PWIDTH).toNat else 2
/-- The phases of a flash on a proved channel are long enough (R259). -/
def flashFits (s : State) (n : Nat) (w : Sw) (f : Flash) : Bool :=
  let on := roundDiv (f.duty * f.period) 256
  let off := f.period - on
  !proved s n w || (decide (22 ≤ on) && decide (43000 + 50 * pulseSteps s n w ≤ 1000 * off))
/-- FLASH (R246, R259, R267). -/
def flashSpec (chs : ChSel) (period : Lit) (phase duty : Option Lit) : Spec :=
  { verb := .flash chs period phase duty, objs := chObjs chs, engine := some .lamp
    kinds := (kindErr · (fun c => decide (c = .la ∨ c = .lb)) chs)
    found := (allChErr · chs)
    values := fun s => flashErr period phase duty
      <|> (if (swSel s chs).all (fun e => flashFits s e.1 e.2 (flashVal period phase duty)) then none else some { code := 5, detail := .key .DUTY })
    ready := fun s => (swSel s chs).findSome? (loadTest s)
    run := fun c s =>
      let l := swSel s chs
      awaitReturn c (eqR "flash" [.n l.length]) (slotsOf (l.map (·.1)))
        (forEach l (fun e s => ask e.1 e.2 (.flash (flashVal period phase duty)) s) s) }

/-! ## OUT -/

/-- A feed already carries the charge of an OUT. -/
def outCharged (s : State) (n : Nat) : Bool := outFeedOn s n && s.yar.charges.any fun c => decide (c.station = n) && c.byOut
/-- The charge of a feed switched on by OUT: IENV for as long as it is on (R301). -/
def outCharge (s : State) (n : Nat) : Charge :=
  { station := n, bus := busOfSt s n, cls := 4, env := [(s.axK n .IENV).toNat], started := some s.now, open_ := true, byOut := true }
/-- One channel of an OUT line (R169, R209, R236). -/
def outTest (s : State) (on : Bool) (o : Obj) : Option Err :=
  match o with
  | .ch n .fd =>
    channelTest s n .fd <|> (if !on then none
      else (if unomSet s n then none else some { code := 6, detail := .key .UNOM }) <|> onTest s n .fd)
  | .ch n c => channelTest s n c
  | _ => none
/-- The charges of the feeds that an OUT line switches on fit the peak test of each bus (R301). -/
def outBusTest (s : State) (l : List Obj) : Option Err :=
  let new := l.filterMap fun o => match o with
    | .ch n .fd => if outCharged s n then none else some (outCharge s n)
    | _ => none
  ([0, 1, 2, 3].find? fun b =>
    let mine := new.filter (·.bus = b)
    !mine.isEmpty && !peakTest s b (List.replicate (busSpan s b + 1) (mine.map fun c => envMax c.env).sum)).map fun b =>
      { code := 8, detail := .obj (.bus b) }
/-- One channel of an OUT line is driven (R284, R301). -/
def outDrive (on : Bool) (o : Obj) (s : State) : State :=
  match o with
  | .ch n .fd =>
    let s := s.modYar fun y => { y with charges := y.charges.filter fun c => decide (c.station ≠ n) || !c.byOut }
    if on then
      let s := s.modYar fun y => { y with charges := y.charges ++ [outCharge s n] }
      askOn n .fd s
    else ask n .fd .off s
  | .ch n c => askOut n (decide (c = .out1)) on s
  | _ => s
/-- The station of a channel. -/
def objStation : Obj → Option Nat
  | .ch n _ => some n
  | _ => none
/-- OUT (R209, R284, R301). -/
def outSpec (chs : ChSel) (on : Bool) : Spec :=
  { verb := .out chs on, objs := chObjs chs, engine := some .io
    kinds := (kindErr · (fun c => decide (c = .fd ∨ c = .out0 ∨ c = .out1)) chs)
    found := (allChErr · chs)
    ready := fun s => (chSel s chs).findSome? (outTest s on) <|> (if on then outBusTest s (chSel s chs) else none)
    run := fun c s =>
      let l := chSel s chs
      awaitReturn c (eqR "out" [.n l.length]) (slotsOf (l.filterMap objStation)) (forEach l (outDrive on) s) }

/-! ## PROVE -/

/-- The channels a PROVE LEARN learns: the named one or the indicator, and its reserve (R260). -/
def learnChannels (s : State) (o : Obj) : List (Nat × Bool) :=
  let withRes := fun (n : Nat) (w : Sw) => match w with
    | .la => if hasReserve s n then [(n, false), (n, true)] else [(n, false)]
    | _ => [(n, true)]
  match o with
  | .ch n .la => withRes n .la
  | .ch n .lb => withRes n .lb
  | .st n => match doorLamp s n with
    | some w => withRes n w
    | none => []
  | _ => []
/-- The channel is lit for its 2 s, and its samples are gathered anew (R260). -/
def lightLearn (n : Nat) (b : Bool) (s : State) : State :=
  ask n (chanSw b) .on (s.modLamp n (chanSw b) fun l => { l with litSum := 0, litCount := 0 })
/-- PROVE LEARN (R260). -/
def proveLearnSpec (o : Obj) : Spec :=
  { verb := .proveLearn o, objs := [o], engine := some .lamp, slots := fun _ => 1, safety := true
    kinds := fun _ => match o with
      | .ch _ c => if c = .la ∨ c = .lb then none else some { code := 3, detail := .obj o }
      | .st _ => none
      | _ => some { code := 3, detail := .obj o }
    ready := fun s =>
      let each := (learnChannels s o).findSome? fun e =>
        let x := s.sw e.1 (chanSw e.2)
        if lit s e.1 (chanSw e.2) ∨ x.isOn s.now ∨ x.tripped ∨ proving s e.1 then some (e06Ch e.1 (swChan (chanSw e.2))) else none
      match o with
      | .ch n c => channelTest s n c <|> each
      | .st n => sliceGone s n <|> (if outOfService s n ∨ ¬ isLeaf s n ∨ (s.stn n).leaf ≠ .closedLocked ∨ (doorLamp s n).isNone then some (e06St n) else none) <|> each
      | _ => none
    run := fun c s =>
      match learnChannels s o with
      | [] => s
      | (n, b) :: t =>
        let q := startOp c (.proveLearn o) (.proveLearn n (b :: t.map (·.2)) [] (some (s.now + 2000000)) [] 0) true s
        lightLearn n b (say c (colR "proving") q.2) }
/-- PROVE RETURN: the main's dark verdict stands, whether or not the reserve has taken over (R262, R264). -/
def proveReturnSpec (o : Obj) : Spec :=
  { verb := .proveReturn o, objs := [o], engine := some .lamp, slots := fun _ => 1
    kinds := fun _ => match o with
      | .ch _ .la => none
      | .st _ => none
      | _ => some { code := 3, detail := .obj o }
    ready := fun s =>
      let dark := fun (n : Nat) => (s.stn n).reserveInUse || (hasReserve s n && (s.stn n).la.lamp.dark)
      let changed := fun (n : Nat) => if dark n ∧ ¬ proving s n then none else some (e06Ch n .la)
      match o with
      | .ch n c => channelTest s n c <|> changed n
      | .st n => sliceGone s n <|> (if outOfService s n ∨ ¬ isLeaf s n ∨ doorLamp s n ≠ some .la then some (e06St n) else none) <|> changed n
      | _ => none
    run := fun c s =>
      let n := match o with
        | .ch n _ => n
        | .st n => n
        | _ => 0
      let q := startOp c (.proveReturn o) (.proveReturn n) true s
      say c (colR "proving") (q.2.modLamp n .la fun l => { l with returnDue := true }) }

/-- The readbacks of a LOOP test are judged: its record, and the command that waits for it (R343). -/
def loopJudged (cause : String) (openA openB ok : Bool) (op : Option Nat) (s : State) : State :=
  let s := record 0x0801 (pWord cause ++ pNum (!openA).toNat ++ pNum (!openB).toNat) { flags := 16 } s
  match op with
  | none => s
  | some id => finOp id (if ok then eqR "prove" [.n 1, .w "loop"] else errR { code := 6, detail := .obj (.head .loop) }) s
/-- A LOOP test ends with the readbacks of both auxiliary contacts (R342, R343). -/
def loopTestEnd (cause : String) (openA openB : Bool) (s : State) : State :=
  loopJudged cause openA openB (openA && openB) s.camp.testOp (s.modCamp fun c => { c with test := none, testOp := none })
/-- The forced LOOP test begins: both lanes open their contacts (R342). -/
def loopTestBegin (cause : String) (s : State) : State :=
  commandLoop .b false (commandLoop .a false (s.modCamp fun c => { c with
    test := some (cause, s.now), a := { c.a with holdSince := none }, b := { c.b with holdSince := none } }))
/-- A forced LOOP test begins; it runs once after a proof (R342). -/
def loopTestForced (cause : String) (s : State) : State := loopTestBegin cause (s.modCamp fun c => { c with forced := true })
/-- PROVE LOOP (R342, R343): with LOOP already open, as it is while a test runs, the readbacks are judged at once against the commands. -/
def proveLoopSpec : Spec :=
  { verb := .proveLoop, objs := [.head .loop], slots := fun _ => 1
    run := fun c s =>
      let q := startOp c .proveLoop .proveLoop true s
      let s := say c (colR "proving") q.2
      if s.camp.a.loop ∧ s.camp.b.loop then loopTestBegin "command" (s.modCamp fun x => { x with testOp := some q.1 })
      else
        let ok := (s.camp.a.contact == s.camp.a.loop) && (s.camp.b.contact == s.camp.b.loop)
        loopJudged "command" (!s.camp.a.contact) (!s.camp.b.contact) ok (some q.1) s }

/-! ## The commands -/

/-- LAMP. -/
def execLamp (l : Line) (chs : ChSel) (on : Bool) (s : State) : Host.Outcome State Fault Refusal :=
  .next (settle s (handleLine (.lamp l chs on) l (lampSpec chs on) s))
/-- FLASH. -/
def execFlash (l : Line) (chs : ChSel) (period : Lit) (phase duty : Option Lit) (s : State) : Host.Outcome State Fault Refusal :=
  .next (settle s (handleLine (.flash l chs period phase duty) l (flashSpec chs period phase duty) s))
/-- OUT. -/
def execOut (l : Line) (chs : ChSel) (on : Bool) (s : State) : Host.Outcome State Fault Refusal :=
  .next (settle s (handleLine (.out l chs on) l (outSpec chs on) s))
/-- PROVE LEARN. -/
def execProveLearn (l : Line) (o : Obj) (s : State) : Host.Outcome State Fault Refusal :=
  .next (settle s (handleLine (.proveLearn l o) l (proveLearnSpec o) s))
/-- PROVE RETURN. -/
def execProveReturn (l : Line) (o : Obj) (s : State) : Host.Outcome State Fault Refusal :=
  .next (settle s (handleLine (.proveReturn l o) l (proveReturnSpec o) s))
/-- PROVE LOOP. -/
def execProveLoop (l : Line) (s : State) : Host.Outcome State Fault Refusal :=
  .next (settle s (handleLine (.proveLoop l) l proveLoopSpec s))

end Sys2Proof.Machine
end

