-- ==== Sys2Proof/Machine/Restart.lean ====
section
/-! DEFINITION. Shared operations of recovery: the reset snapshot, the effects of an engine reset, what a restart of the head and a
loss of slice power leave (13 R420 to R432, 15 R469, 14 R460 to R465, 01 R9 to R15, 08 R299). -/

namespace Sys2Proof.Machine

open Sys2Proof

/-! ## Sessions at a reset -/

/-- The tag memory of a session is empty again (R122). -/
def clearTags (n : Nat) (s : State) : State := s.modSes n fun x => { x with tags := [] }
/-- The tag memory of every session is cleared (R122, R421). -/
def clearAllTags (s : State) : State := { s with sess := s.sess.map fun (e : Nat × Session) => (e.1, { e.2 with tags := [] }) }
/-- The staged lines of every session are discarded (R476). -/
def dropStaging (s : State) : State :=
  { s with sess := s.sess.map fun (e : Nat × Session) => (e.1, { e.2 with staging := none, stagedBytes := 0, stagedLines := 0, stagedTwin := none }) }
/-- The candidate safety configuration is discarded (R345). -/
def dropCandidate (s : State) : State :=
  s.modCfg fun c => { c with cand := none, candSkey := none, candProfiles := [] }
/-- A network session's connection has closed without LOGIN END: it is held for HOLD, or ends where HOLD is 0 (R111). -/
def dropConnection (n : Nat) (s : State) : State :=
  let x := s.ses n
  if x.st ≠ .opn then s
  else if x.hold = 0 then endSession n s
  else s.modSes n fun x => { x with st := .held, holdUntil := s.now + 1000000 * x.hold, typed := [], typedOver := false, afterCr := false }

/-! ## The snapshot (R425 to R428, R463 to R465) -/

/-- The pool items of a session, by slot: those of its operations carry their text (R426). -/
def snapItems (s : State) (n : Nat) : List SnapItem :=
  (s.pool.filter fun e => decide (sessFirst ≤ e.1 ∧ e.2.kind ≠ .free ∧ e.2.session = n)).map fun e =>
    match s.ops.find? fun o => decide (o.slot = some e.1) with
    | some o =>
      { slot := e.1, entry := e.2, acc := o.acc, verb := o.verb, text := o.text, port := o.port, stations := opStations s o
        doVerb := match o.prog with
          | .event v _ _ => some v
          | _ => none }
    | none =>
      let far := s.net.relays.any fun r => decide (r.near = n) && r.waiting.any fun w => decide (w.2 = e.1)
      { slot := e.1, entry := e.2, acc := 0, verb := .banned (if far then "REMOTE" else "TEXT"), text := [], port := .session n }
/-- 4-byte units of a text with its length byte (R464). -/
def textUnits (t : List Byte) : Nat := (t.length + 4) / 4
/-- Where the texts of a group's items start in its text area, in 4-byte units: FFFFH for an item without one, or whose text would start beyond
262,136 bytes (R426, R464). -/
def textStarts : Nat → List SnapItem → List Nat
  | _, [] => []
  | p, i :: t => if i.text.isEmpty ∨ 65534 < p then 65535 :: textStarts p t else p :: textStarts (p + textUnits i.text) t
/-- The bytes of the stored texts of a group's items, each on a 4-byte boundary (R464). -/
def textArea (l : List SnapItem) : List Byte :=
  (l.zip (textStarts 0 l)).flatMap fun e => if e.2 = 65535 then [] else padTo (4 * textUnits e.1.text) 0 (BitVec.ofNat 8 e.1.text.length :: e.1.text)
/-- The bytes of an item in its group: 72, and its text with its length byte, on a 4-byte boundary (R426, R464). -/
def itemBytes (i : SnapItem) : Nat := 72 + (if i.text.isEmpty then 0 else 4 * textUnits i.text)
/-- A 72-byte pool item: its entry, slot, the start of its text, and its acceptance number (R426). -/
def poolItem (e : PoolEntry) (slot start acc : Nat) : List Byte := entBytes e ++ le 2 slot ++ le 2 start ++ le 4 acc
/-- The newest 256 tag entries of a session. -/
def snapTags (s : State) (n : Nat) : List TagEntry := (s.ses n).tags.take 256
/-- The bytes of a session's group (R426, R464). -/
def groupBytes (s : State) (n : Nat) : Nat :=
  8 + 72 * (snapItems s n).length + (textArea (snapItems s n)).length + 8 * (snapTags s n).length
/-- Items in acceptance order up to a limit of bytes (R426). -/
def itemsUpTo : Nat → List SnapItem → List SnapItem
  | _, [] => []
  | room, i :: t => if itemBytes i ≤ room then i :: itemsUpTo (room - itemBytes i) t else []
/-- An item put among others in acceptance order. -/
def putByAcc (i : SnapItem) : List SnapItem → List SnapItem
  | [] => [i]
  | j :: t => if i.acc < j.acc then i :: j :: t else j :: putByAcc i t
/-- Items in acceptance order. -/
def byAcc (l : List SnapItem) : List SnapItem := l.foldl (fun a i => putByAcc i a) []
/-- Sessions that have a group: those open or held (R426). -/
def groupSessions (s : State) : List Nat := (List.range 64).filter fun n => decide ((s.ses n).st ≠ .free)
/-- The groups that fit whole in the space left, and those omitted (R426). -/
def fitGroups (s : State) : List Nat → Nat → List Nat × List Nat
  | [], _ => ([], [])
  | n :: t, room =>
    if groupBytes s n ≤ room then
      let r := fitGroups s t (room - groupBytes s n)
      (n :: r.1, r.2)
    else
      let r := fitGroups s t room
      (r.1, n :: r.2)
/-- A mask of sessions. -/
def sessMask (l : List Nat) : Nat := (l.eraseDups.map fun n => 2 ^ n).sum
/-- The rung's word (R417). -/
def rungWord (r : Nat) : String := match r with | 1 => "session" | 2 => "engine" | 3 => "slice" | 4 => "unit" | _ => "power"
/-- The bank for a snapshot: none where a session snapshot finds both pinned; whether a pinned one is lost (R427). -/
def snapBank (s : State) (full : Bool) : Option (Bool × Bool) :=
  let num := fun (x : Option Snapshot) => match x with | none => 0 | some q => q.num
  let pin := fun (x : Option Snapshot) => match x with | none => false | some q => q.pinned
  let newestA := decide (num s.store.snapB < num s.store.snapA)
  let target := newestA
  let tPin := if target then pin s.store.snapB else pin s.store.snapA
  let oPin := if target then pin s.store.snapA else pin s.store.snapB
  if !tPin then some (target, false)
  else if !oPin then some (!target, false)
  else if full then some (target, true) else none
/-- The content of a snapshot (R426, R463). -/
def snapContent (s : State) (rung object : Nat) (only : Option Nat) (suspect : List Nat) : Snapshot :=
  let num := s.store.snapNum + 1
  match only with
  | none =>
    let g := fitGroups s (groupSessions s) 851456
    { num, rung, object, full := true, at_ := s.time, len := 197120 + (g.1.map (groupBytes s)).sum, suspect, omitted := g.2
      items := (g.1.map (snapItems s)).flatten, groups := g.1, tags := g.1.map fun n => (n, snapTags s n)
      system := s.pool.filter fun e => decide (e.1 < sessFirst), pinned := true, unit := s.head.unit }
  | some n =>
    let room := 98304 - 512 - 64
    let whole := decide (groupBytes s n ≤ room)
    let items := byAcc (snapItems s n)
    let items := if whole then items else itemsUpTo (room - 8 - 8 * (snapTags s n).length) items
    { num, rung, object, full := false, at_ := s.time
      len := 512 + 64 + 8 + (items.map itemBytes).sum + 8 * (snapTags s n).length, suspect
      partialG := if whole then [] else [n], items, groups := [n], tags := [(n, snapTags s n)], unit := s.head.unit }
/-- A snapshot is written: the journal's buffer and index first, then the bank, then the pointer record; a pinned snapshot that is
overwritten is journalled as lost (R427, R428, R453, R456). The word of its number comes back. -/
def takeSnapshot (rung object : Nat) (objWord : String) (only : Option Nat) (suspect : List Nat) (s : State) : String × State :=
  let s := if s.noTime .jrn then s else writeIndex (flushJournal s)
  match snapBank s only.isNone with
  | none => ("none", s)
  | some (bankB, lost) =>
    let q := { snapContent s rung object only suspect with pointer := s.jrn.nextNum }
    let s := if lost then record 0x0B02 (pNum (if bankB then (s.store.snapB.map (·.num)).getD 0 else (s.store.snapA.map (·.num)).getD 0)) { engine := 7 } s else s
    let s := s.modStore fun x => if bankB then { x with snapB := some q, snapNum := q.num } else { x with snapA := some q, snapNum := q.num }
    let s := s.modHead fun h => { h with unread := true }
    (dec q.num, record 0x0B01 (pWord (rungWord rung) ++ pWord objWord ++ pNum q.num ++ pWord (if bankB then "B" else "A") ++ le 8 (sessMask suspect)) { engine := 7 } s)
/-- The sessions that held an operation of an engine (R429). -/
def suspects (s : State) (keep : Op → Bool) : List Nat :=
  (s.ops.filter fun o => o.slot.isSome && keep o).filterMap fun o => match o.port with
    | .session n => some n
    | .supervisor => none

/-! ## The engine rung (R421) -/

/-- Speedwell is reset: every motion ends with E50, every axis is unreferenced, a moving leaf is HELD, profiles restart, charges end
(R165, R328, R175, R432). Of the waits only that of a close which no command asked for goes on, to be tested and charged anew. -/
def resetMotion (s : State) : State :=
  let e := e50 .mot
  let l := s.ops.filter fun o => match o.prog with
    | .door .. | .motion _ | .learn .. | .stopping .. | .resuming .. => true
    | _ => false
  let s := forEach l (fun o s => failOp o.id e s) s
  forEach (s.st.map (·.1)) (fun n s =>
    let t := s.stn n
    let s := uncoupleStep n s
    let s := s.modAx n fun a => { a with ahead := [], motion := none, moving := a.loaded.isSome }
    let s := unreference n s
    let s := s.modYar fun y => { y with charges := y.charges.filter fun c => decide (c.of ≠ n) || c.byOut }
    let ends := !isLeaf s n || t.doorOp.isSome || t.learning.isSome || (t.wait.any fun w => decide (w.why = .command))
    let s := s.modStn n fun t => { t with
      doorOp := none, learning := none, wait := if ends then none else t.wait.map fun w => { w with tentative := none }
      learnedOpen := fineProfile (((commissioned s n).map (·.1)).getD []), learnedClose := fineProfile (((commissioned s n).map (·.2)).getD []), boundsOpen := [], boundsClose := [], boundTold := false }
    if isLeaf s n ∧ leafMoves t.leaf then
      let kept := some (decide (t.leaf = .opening))
      holdLeaf n kept s
    else s) s
/-- I/O is reset: LINE is LOST at 0, and the line-lost record carries the cause (R82; DESIGN CHOICE, log entry 125). -/
def resetIo (s : State) : State :=
  let s := toLineState .lost s
  let s := s.modLine fun _ => {}
  if s.fit.optP then record 0x0205 (pWord "reset") { engine := 3 } s else s
/-- Yarrow offers no move on a grouped bus before it has received 100 ms of group reports (R327, R381). -/
def awaitReports (s : State) : State :=
  forEach (List.range 4) (fun b s => s.modBus b fun x => { x with reportsSince := none, reportNeed := 100000 }) s
/-- The network engine is reset: connections close, the peer table restarts empty, group reports are awaited anew (R381; DEDUCED, log entry 147). -/
def resetNet (s : State) : State :=
  let s := forEach (List.range 64) (fun n s => if n = 0 then s else dropConnection n s) s
  let s := s.modNet fun x => { x with peers := [], window := [], groups := [] }
  awaitReports s
/-- The lamp engine is reset: drive current is not seen, so moving leaves stop with RAMP and are HELD (R15, R242). -/
def resetLamp (s : State) : State :=
  forEach (s.st.map (·.1)) (fun n s =>
    if isLeaf s n ∧ leafMoves (s.stn n).leaf then stopAxis false n s else s) s
/-- Teasel is reset: a bank write stops, and its command ends (R461). -/
def resetJournal (s : State) : State :=
  match s.store.write with
  | none => s
  | some w =>
    let s := s.modStore fun x => { x with write := none }
    match w.op with
    | none => s
    | some id => failOp id (e50 .jrn) s
/-- What an engine's reset does to the work (R421). -/
def engineEffect (e : Engine) (s : State) : State :=
  match e with
  | .int => s
  | .net => resetNet s
  | .evt => endPool s
  | .io => resetIo s
  | .mot => resetMotion s
  | .lamp => resetLamp s
  | .bud => dropPolicy s
  | .jrn => resetJournal s

/-! ## Slice power (R9, R10, R299, R422) -/

/-- A switch without power: off, its model at 1.00 when power returns (R10, R221, R224). -/
def darkSwitch (_ : Switch) : Switch := {}
/-- A slice's logic side loses power: its field side is unpowered, and every output off (R10). -/
def powerDownSlice (p : Nat) (s : State) : State :=
  let s := forEach (stationsOf p) (fun n s => s.modStn n fun t => { t with
    fd := darkSwitch t.fd, la := darkSwitch t.la, lb := darkSwitch t.lb, reserveInUse := false, out0 := {}, out1 := {}
    sensor := {}, inputs := [], feed := 0, feedSum := 0, feedCount := 0, feedMean := 0, field := 0, busU := 0, encFault := false, encNow := false, idxFault := false
    idxPos := none, idxRun := 0, tapRead := []
    axis := { t.axis with loaded := none, ahead := [], pulse := 0 } }) s
  let s := forEach [Lane.a, .b] (fun x s => forEach (stationsOf p) (fun n s => s.modLaneStn x n fun t =>
    { ({} : LaneStn) with overSince := t.overSince, edgeSince := t.edgeSince, backstop := t.backstop }) s) s
  { s.modSlc p fun x => { x with
      powered := false, passed := false, failed := false, keys := [], writes := [], writeSeq := 0, accepted := 0, failSafe := false, elemA := 0, elemB := 0, maskA := 0, maskB := 0
      maskAtA := none, maskAtB := none, downRef := none, downAt := none, flash := none, changed := false, up := [], stepQuiet := false } with
    reports := s.reports.filter fun r => slotOf r.station ≠ p }
/-- A slice's logic side is powered: its insertion counter advances, its keys are the latch's, its counts are 0; a switch
waits for its supply to stand at the restart level, its h at 1.00 (R27, R221, R28, R241, R299, R535). -/
def powerUpSlice (p : Nat) (s : State) : State :=
  let x := s.slc p
  if !enabled s p then s
  else match x.seated with
    | none => s
    | some m =>
      let m := { m with ins := if m.ins = 0xFFFF#16 then m.ins else m.ins + 1 }
      let wait := fun (x : Switch) => { x with uvWait := true, heat := 1000000000000, heatAt := s.now }
      let ins : Tbl Input := (List.range 4).map fun k => (k, { supply := true })
      let s := forEach (stationsOf p) (fun n s => s.modStn n fun t => { t with fd := wait t.fd, la := wait t.la, lb := wait t.lb, inputs := ins }) s
      s.modSlc p fun x => { x with
        seated := some m, powered := true, seen := true, typeRead := none, keys := x.latch, epoch := s.now
        downAt := some s.now, upRef := none, upAt := none, restoreAt := none }

/-! ## The head starts anew (R84, R164, R205, R423, R432, R441, R469) -/

/-- The us that the programming of a bank's set, header and CRC-32 ends after its write began, and those of its read-back; the erase at its
longest (R461; DESIGN CHOICE, log entry 14). -/
def writeUs (b : BankSet) : Nat := 400000 + ceilDiv ((setLen b + 68) * 1000000) 2097152
def readUs (b : BankSet) : Nat := ceilDiv ((setLen b + 68) * 1000000) 8388608
/-- The stores where power is lost: a bank under writing is valid once its CRC-32 is programmed; an attachment writes its two banks in turn
(R466). -/
def cutWrite (s : State) : Stores :=
  match s.store.write with
  | none => s.store
  | some w =>
    let first := decide (w.started + writeUs w.bank.set ≤ s.now)
    let second := w.both && decide (w.started + 2 * writeUs w.bank.set + readUs w.bank.set ≤ s.now)
    { s.store with
      bankA := if (if w.bankB then second else first) then w.bank else s.store.bankA
      bankB := if (if w.bankB then first else second) then w.bank else s.store.bankB }
/-- A station's head-side data at a restart of the head: what the field side holds stays; the step timebase starts anew, so the loaded
interval's edge is counted from it (R11, R141). -/
def restartStation (tick : Nat) (t : Station) : Station :=
  { ({} : Station) with
    fd := t.fd, la := t.la, lb := t.lb, reserveInUse := t.reserveInUse, inputs := t.inputs, out0 := t.out0, out1 := t.out1, sensor := t.sensor
    field := t.field, busU := t.busU, feed := t.feed, feedMean := t.feedMean, outOfService := true, failSafe := t.failSafe
    axis := { dirNeg := t.axis.dirNeg, dirHigh := t.axis.dirHigh, pos := t.axis.pos, cmd := t.axis.cmd
              loaded := t.axis.loaded.map fun i => { i with edge := i.edge - tick }, pulse := t.axis.pulse - tick } }
/-- A position's head-side data at a restart of the head: no pair is recorded, no type identified (R27, R535). -/
def restartSlice (x : Slice) : Slice :=
  { x with
    link := false, crcSeen := false, lostAt := none, absent := false, passed := false, failed := false, latched := false, newIns := false
    service := false, startUp := false, held := false, typeRead := none, typeLast := none, seen := x.powered && x.seated.isSome, recorded := none, ident := none
    down := [], recs := [], upRef := none, upAt := none, rounds := [], writes := [], writeSeq := 0, restoreAt := none, resetOp := none, heatFail := false, tested := false }
/-- A lane at a restart: its own store is kept (R356, R442). -/
def restartLane (l : LaneSt) : LaneSt := { store := l.store, profiles := l.profiles, skey := l.skey, storeUnit := l.storeUnit }
/-- The pool restarts empty: at head power-up every byte is 0, at a unit reset the left-over bytes stay (R57, R84). -/
def restartPool (cold : Bool) (s : State) : Tbl PoolEntry :=
  if cold then [] else s.pool.map fun (e : Nat × PoolEntry) => (e.1, e.2.released)
/-- The head is reset, or has just lost its power: volatile state goes, stores, slices, lanes' stores, the supervisor, the real-time
counter and the model's own counters stay (R84, R423, R432, R441, R442). Operations of the supervisor line go on. -/
def restartHead (cold : Bool) (cause : StartCause) (s : State) : State :=
  let z : State := {}
  { z with
    fit := s.fit
    clk := { s.clk with ppb := 0 }
    head := { powered := true, started := false, cause, bit31 := true, startAt := s.now, memRun := cold || s.head.memRun, memFail := !cold && s.head.memFail
              serial := s.head.serial, unread := s.head.unread, baud := s.head.baud }
    sup := s.sup
    pool := restartPool cold s
    ops := s.ops.filter fun o => decide (o.port = .supervisor)
    nextOp := s.nextOp, accNo := s.accNo
    st := s.st.map fun (e : Nat × Station) => (e.1, restartStation s.tick e.2)
    sl := s.sl.map fun (e : Nat × Slice) => (e.1, restartSlice e.2)
    camp := { a := restartLane s.camp.a, b := restartLane s.camp.b, safe := s.camp.safe }
    twin := { custody := s.twin.custody.map fun c => { c with partSeq := 0, part := [] } }
    jrn := { s.jrn with buf := [], queued := [] }
    store := { (if cold then cutWrite s else s.store) with loaded := none, bothLoaded := false, write := none }
    reports := s.reports.filter (·.silent)
    net := { tx := s.net.tx }
    free := s.free
    left := s.left
    pending := s.pending }
/-- Slice power, then head power, are removed (R9, R29, R514). -/
def powerOff (s : State) : State :=
  let s := forEach allSlices powerDownSlice s
  let s := restartHead true .power s
  s.modHead fun h => { h with powered := false }
/-- Head power comes back, then each enabled position's, in ascending order (R9, R30, R31). -/
def powerOn (cause : StartCause) (s : State) : State :=
  let s := restartHead true cause s
  forEach allSlices powerUpSlice s

end Sys2Proof.Machine
end

