-- ==== Sys2Proof/Machine/Stores.lean ====
section
/-! DEFINITION. Teasel's commands and the configuration banks: SAVE in its forms, JOURNAL in its forms and the flush of the write
buffer (14 R453 to R467; 15 R474 to R478; 10 R346). -/

namespace Sys2Proof.Machine

open Sys2Proof

/-! ## The lanes take up their elements (R24, R346, R356, R470) -/

/-- A lane may drive: tested, passed, with a valid configuration, and not given up (R23, R24, R356). -/
def laneFit (l : LaneSt) : Bool := l.tested && l.passed && l.configOk && !l.gaveUp
/-- The element test of every linked slice has been made (R470). -/
def elementsTested (s : State) : Bool := allSlices.all fun p => !(s.slc p).link || (s.slc p).tested
/-- Each lane that may drive takes up its elements once the element tests are made (R356, R470). -/
def takeUp (s : State) : State :=
  if !elementsTested s then s
  else
    let up := fun (x : Lane) (s : State) => if laneFit (s.lane x) && !(s.lane x).driving then s.modLane x fun l => { l with driving := true } else s
    up .b (up .a s)

/-! ## The set in force (R460, R478) -/

/-- The keys outside the safety configuration whose values differ from their defaults (R460). -/
def plainText (s : State) : KMap :=
  s.cfg.plain.filter fun e => match keyRow s e.1.1 e.1.2 with
    | some r => decide (r.dflt ≠ e.2)
    | none => true
/-- The content of a bank for the set in force (R460). -/
def setInForce (s : State) : BankSet :=
  { text := plainText s, twin := s.cfg.twin, safety := if s.camp.a.store.isSome then some s.cfg.safety else none, profiles := s.cfg.profiles }
/-- TWIN takes a value: with another one the pair is gone, and custody for the old partner is discarded (R384, R389). -/
def setTwin (u : Option Nat) (s : State) : State :=
  if s.cfg.twin = u then s
  else (s.modCfg fun c => { c with twin := u }).modTwin fun t => { t with
    formed := false, silent := false, asleep := false, hbAt := none, hbTwin := none, custody := none, refused := false, newerTold := false }
/-- A map of keys comes into force as the whole configuration outside the safety configuration (R474, R478). -/
def adoptPlain (m : KMap) (s : State) : State :=
  let old := s
  let s := s.modCfg fun c => { c with plain := m }
  let s := clipSet (s.modYar fun y => { y with clips := [] })
  let m := s.cfg.plain
  let changed := ((old.cfg.plain ++ m).map (·.1)).eraseDups.filter fun e => decide (kOf old old.cfg.plain e.1 e.2 ≠ kOf s m e.1 e.2)
  forEach changed (fun e s => keyEffect old e.1 e.2 (queueWrite e.1 e.2 (kOf s m e.1 e.2) s)) s

/-! ## Bank writes (R461) -/

/-- A store write is in progress. -/
def bankBusy (s : State) : Option Err := if s.store.write.isSome then some { code := 6, detail := .word "BANK" } else none
/-- The bank a write goes to: the one not loaded; B where both hold the loaded set (R461). -/
def nextBank (s : State) : Bool := if s.store.bothLoaded then true else match s.store.loaded with
  | some b => !b
  | none => false
/-- The sequence number of the next save: one above the larger of the unit's own and the one its partner holds for it (R392). -/
def nextSeq (s : State) : Nat := max (ownSeq s) s.twin.hbHeld + 1
/-- The sequence number of the next write would be 0 (R461). -/
def seqSpent (s : State) : Option Err := if 4294967296 ≤ nextSeq s then some { code := 6, detail := .word "BANK" } else none
/-- A set does not fit its bank (R461). -/
def tooLong (b : BankSet) : Option Err := if 524220 < setLen b then some { code := 5, detail := .word "SAVE" } else none
/-- A bank write begins: the target bank is erased first, so it is invalid until the write has ended (R461, R466). -/
def beginWrite (op : Option Nat) (cause session : Nat) (seq : Nat) (set : BankSet) (staged both : Bool) (s : State) : State :=
  let b := nextBank s
  let bank : Bank := { valid := true, unit := s.head.unit, seq, at_ := s.time, cause, session, set }
  s.modStore fun x => { x with
    write := some { bankB := b, bank, both, op, staged, started := s.now }
    bankA := if b then x.bankA else { x.bankA with valid := false }, bankB := if b then { x.bankB with valid := false } else x.bankB }

/-! ## The commit of a staged set (R477, R478) -/

/-- Every enabled position has linked or been declared absent; an empty one has nothing to wait for (R41, R477). -/
def positionsKnown (s : State) : Bool :=
  allSlices.all fun p => !enabled s p || (s.slc p).seated.isNone || (s.slc p).link || (s.slc p).absent || (s.slc p).typeLast.isSome
/-- The first LEAF station or axis that keeps a set from being committed (R346, R477). -/
def notStill (s : State) : Option Err :=
  (allStations.find? fun n => leafBusy s n || (chFitted s n .ax && hasMotion s n)).map e06St
/-- An object of a set is absent on the slice fitted in its position (R477). -/
def absentObj (s : State) (o : Obj) : Bool :=
  match o with
  | .ch n c => decide (typeCode s (slotOf n) ≠ 1) && (decide (c = .ax ∨ c = .fd) || decide (typeCode s (slotOf n) ≠ 2))
  | .st n => decide (typeCode s (slotOf n) ≠ 1 ∧ typeCode s (slotOf n) ≠ 2)
  | _ => false
/-- A position's slice differs from the type a set gives it (R475, R477). -/
def typeDiffers (s : State) (m : KMap) (p : Nat) : Bool :=
  let t := typeCode s p
  match setType m p with
  | some c => decide (c ≠ t)
  | none => decide (t ≠ 1 ∧ t ≠ 2)
/-- The comparison of each position of a set with the slice fitted there (R477). -/
def fitTest (s : State) (m : KMap) (objs : List Obj) : Option Err :=
  let on := fun (o : Obj) => match posOf o with
    | some p => typeDiffers s m p
    | none => false
  match objs.find? fun o => on o && absentObj s o with
  | some o => some { code := 4, detail := .obj o }
  | none => (objs.find? on).bind fun o => (posOf o).map fun p => { code := 4, detail := .obj (.sl p) }
/-- The values of a staging area, in staging order. -/
def stagedVals (l : List (Sum ((Obj × Key) × KVal) Err)) : KMap := l.filterMap fun e => match e with
  | .inl v => some v
  | .inr _ => none
/-- The staged lines as a map. -/
def stagedMap (l : List (Sum ((Obj × Key) × KVal) Err)) : KMap := (stagedVals l).foldl (fun m e => putKey m e.1.1 e.1.2 e.2) []
/-- The tests of a set against the state at its commit, in their order (R477). -/
def commitTests (p : Port) (errs : List Err) (vals m : KMap) (s : State) : Option Err :=
  let s' := s.modCfg fun c => { c with plain := m }
  errs.head? <|> (vals.findSome? fun e => keyE06 p s' s (e.1.1, e.1.2, .word "") <|> keyRel [] s' e.1.1 e.1.2)
    <|> fitTest s m (vals.map (·.1.1))
/-- The commit of a staged set is offered: it waits for the positions to be known, fails its tests and sets unit status bit 12, or
starts the bank write (R477, R478). -/
def commitStaged (id : Nat) (s : State) : State :=
  match s.opOf id with
  | none => s
  | some o =>
    match o.port with
    | .supervisor => s
    | .session n =>
      if !positionsKnown s then s
      else if (s.ses n).staging.isNone then failOp id { code := 70 } s
      else
        let l := (s.ses n).staging.getD []
        let m := stagedMap l
        let set : BankSet := { setInForce s with text := m, twin := (s.ses n).stagedTwin }
        let errs := l.filterMap fun e => match e with | .inl _ => none | .inr e => some e
        match commitTests o.port errs (stagedVals l) m s <|> bankBusy s <|> tooLong set with
        | some e => failOp id e (s.modHead fun h => { h with refused := true })
        | none => beginWrite (some id) 1 n (nextSeq s) set true false s
/-- The commits that waited for the positions are offered again (R477). -/
def retryCommits (s : State) : State :=
  forEach (s.ops.filter fun o => decide (o.prog = .save true) && (match s.store.write with | some w => decide (w.op ≠ some o.id) | none => true))
    (fun o s => commitStaged o.id s) s

/-! ## SAVE -/

/-- SAVE (R461, R477, R478). -/
def saveSpec : Spec :=
  { verb := .save, engine := some .jrn, slots := fun _ => 1, local_ := true
    ready := fun s => bankBusy s <|> seqSpent s
    run := fun c s =>
      let staged := (stagingOf s c.port).isSome
      if staged then
        match notStill s with
        | some e => finErr c e s
        | none =>
          let q := startOp c .save (.save true) true s
          commitStaged q.1 (say c (colR "saving") q.2)
      else
        match tooLong (setInForce s) with
        | some e => finErr c e s
        | none =>
          let q := startOp c .save (.save false) true s
          beginWrite (some q.1) 1 (portSession c.port) (nextSeq s) (setInForce s) false false (say c (colR "saving") q.2) }
/-- SAVE SAFETY (R346). -/
def saveSafetySpec : Spec :=
  { verb := .saveSafety, engine := some .jrn, slots := fun _ => 1, local_ := true, safety := true
    values := fun s => tooLong { setInForce s with safety := some (candOf s), profiles := candProfs s }
    ready := fun s => bankBusy s <|> seqSpent s <|> notStill s
    run := fun c s =>
      let q := startOp c .saveSafety (.saveSafety false) true s
      beginWrite (some q.1) 2 (portSession c.port) (nextSeq s) { setInForce s with safety := some (candOf s), profiles := candProfs s } false false
        (say c (colR "saving") q.2) }
/-- SAVE BEGIN (R476). -/
def saveBeginSpec : Spec :=
  { verb := .saveBegin, engine := some .jrn, slots := fun _ => 1, local_ := true
    ready := fun s => if s.sess.any (·.2.staging.isSome) then some { code := 6, detail := .word "BANK" } else none
    run := fun c s =>
      let s := match c.port with
        | .session n => s.modSes n fun x => { x with staging := some [], stagedBytes := 0, stagedLines := 0, stagedTwin := none }
        | .supervisor => s
      fin c (eqR "save" [.w "begin"]) (say c (colR "staging") s) }
/-- SAVE ABORT (R476, R501). -/
def saveAbortSpec : Spec :=
  { verb := .saveAbort, engine := some .jrn, slots := fun _ => 1, local_ := true
    ready := fun s => if s.ops.any (fun o => decide (o.prog = .save true)) then bankBusy s else none
    run := fun c s => match c.port with
      | .supervisor => s
      | .session n =>
        if (s.ses n).staging.isNone then finErr c { code := 6, detail := .word "SAVE" } s
        else
          let k := (s.ses n).stagedLines
          fin c (eqR "save" [.w "abort", .n k]) (say c (colR "aborting")
            (s.modSes n fun x => { x with staging := none, stagedBytes := 0, stagedLines := 0, stagedTwin := none })) }

/-! ## The end of a bank write (R346, R461, R478) -/

/-- A saved safety configuration is adopted by lanes and engines in one cycle: LOOP opens, changed field-side keys are written, and lanes
that had none may take up their elements after the element test (R346, R356, R470). -/
def adoptSafety (m : KMap) (prof : List (Nat × List Int × List Int)) (skey : Option Nat) (s : State) : State :=
  let old := s
  let fresh := !(s.camp.a.configOk && s.camp.b.configOk)
  let store := fun (l : LaneSt) => { l with store := some m, profiles := prof, skey := skey <|> l.skey, storeUnit := s.head.unit, configOk := true, holdSince := none }
  let s := s.modCamp fun c => { c with a := store c.a, b := store c.b }
  let s := commandLoop .b false (commandLoop .a false s)
  let s := clipSet (s.modCfg fun c => { c with safety := m, profiles := prof })
  let s := dropCandidate s
  let s := if s.key .unit .RELUNIT = old.key .unit .RELUNIT then s
    else s.modCamp fun c => { c with msgZeroSince := if relBit s 2 then some s.now else none }
  let changed := ((old.cfg.safety ++ m).map (·.1)).eraseDups.filter fun e => decide (kOf old old.cfg.safety e.1 e.2 ≠ kOf s m e.1 e.2)
  let s := forEach changed (fun e s =>
    let s := queueWrite e.1 e.2 (kOf s m e.1 e.2) s
    match e with
    | (.ch n c, .TEST) => if kOf s m (.ch n c) .TEST = .w "OFF" then clearTest n (chCode c - 4) s else s
    | _ => s) s
  let s := forEach (prof.filter fun e => decide (e ∉ old.cfg.profiles)) (fun e s =>
    s.modStn e.1 fun t => { t with learnedOpen := fineProfile e.2.1, learnedClose := fineProfile e.2.2, boundsOpen := [], boundsClose := [], boundTold := false }) s
  let s := if fresh then { s with sl := s.sl.map fun (e : Nat × Slice) => (e.1, { e.2 with tested := false }) } else s
  takeUp s
/-- A SAVE SAFETY goes on from its bank to the lanes' stores and the latches (R346). -/
def saveLatches (set : BankSet) (s : State) : State :=
  forEach allSlices writeLatch (s.modCfg fun c => { c with saving := some { keys := set.safety.getD [], profiles := set.profiles, skey := c.candSkey } })
/-- A SAVE SAFETY fails after its bank has been written with keys: no lane adopts, that bank is made invalid and the one before it is the loaded
one again, and the latches are rewritten with the committed configuration, which stays in force everywhere (R346, R461; DEDUCED, log
entry 108). -/
def unsave (m : KMap) (s : State) : State :=
  let s := s.modStore fun x => match x.loaded with
    | none => x
    | some b =>
      let other := if b then x.bankA.valid else x.bankB.valid
      if (if b then x.bankB else x.bankA).set.safety ≠ some m then x
      else { x with
        bankA := if b then x.bankA else { x.bankA with valid := false }, bankB := if b then { x.bankB with valid := false } else x.bankB
        loaded := if other then some (!b) else none, bothLoaded := false }
  forEach allSlices writeLatch ((s.modCfg fun c => { c with saving := none }).modHead fun h => { h with loaded := s.store.loaded.isSome })
/-- A SAVE SAFETY is adopted once the latch of every fitted slice has been read back; a slice whose latch cannot be written ends it with E60
(R269, R346). -/
def latchesDone (s : State) : State :=
  forEach (s.ops.filter fun o => decide (o.prog = .saveSafety true)) (fun o s =>
    match allSlices.find? (fun p => latchFitted s p && !(s.slc p).latched && (s.slc p).latchAt.isNone) with
    | some p => failOp o.id { code := 60, detail := .obj (.sl p) } (unsave ((s.cfg.saving.map (·.keys)).getD []) s)
    | none =>
      if allSlices.all fun p => !latchFitted s p || (s.slc p).latched then
        let s := match s.cfg.saving with
          | some w => adoptSafety w.keys w.profiles w.skey (s.modCfg fun c => { c with saving := none })
          | none => s
        finOp o.id (eqR "save" [.w "safety", .hex "crc" (safetyCrc s s.cfg.safety s.camp.a.skey s.cfg.profiles)]) s
      else s) s
/-- The word of a lane's store in E60 (DESIGN CHOICE, log entry 139). -/
def laneStoreWord : Lane → String
  | .a => "LANEA"
  | .b => "LANEB"
/-- A bank write has ended, with its read-back (R346, R461): the bank is the loaded one, or invalid; then the command that wrote it ends, or
goes on to the latches where the lanes' own stores have been read back as well. -/
def bankWritten (w : BankWrite) (read : StoreRead) (s : State) : State :=
  let s := s.modStore fun x => { x with write := none }
  if read = .bank then
    match w.op with
    | none => s
    | some id => failOp id { code := 60, detail := .word (if w.bankB then "B" else "A") } s
  else
    let s := s.modStore fun x => { x with
      bankA := if w.bankB ∧ ¬ w.both then x.bankA else w.bank, bankB := if w.bankB ∨ w.both then w.bank else x.bankB
      loaded := some w.bankB, bothLoaded := w.both }
    let s := record 0x0C04 (pNum w.bank.seq ++ pWord (if w.bankB then "B" else "A") ++ pNum w.bank.cause) { engine := 7, session := w.bank.session } s
    let s := s.modHead fun h => { h with loaded := true }
    match w.op.bind s.opOf with
    | none => s
    | some o =>
      match o.prog with
      | .saveSafety _ => match read with
        | .lane x => failOp o.id { code := 60, detail := .word (laneStoreWord x) } (unsave (w.bank.set.safety.getD []) s)
        | _ => latchesDone ((saveLatches w.bank.set s).modOp o.id fun q => { q with prog := .saveSafety true })
      | _ =>
        let s := if w.staged then
            let s := adoptPlain w.bank.set.text (setTwin w.bank.set.twin s)
            let s := s.modHead fun h => { h with refused := false }
            (match o.port with
              | .session n => s.modSes n fun x => { x with staging := none, stagedBytes := 0, stagedLines := 0, stagedTwin := none }
              | .supervisor => s)
          else s
        finOp o.id (eqR "save" [.kn "seq" w.bank.seq "", .hex "crc" (bankCrc w.bank)]) s

/-! ## JOURNAL READ (R457, R458) -/

/-- A record held in custody, or received from custody, as it is read: byte 18 bit 0 set, with its CRC-32 (R444, R458). -/
def markCustody (r : List Byte) : List Byte :=
  let b := (r.take 18) ++ [(r.getD 18 0) ||| 1] ++ slice r 19 105
  b ++ le 4 (crc32 b).toNat

/-- A record meets a query's keys. -/
def inQuery (q : JQuery) (num : Nat) (stamp : Int) (code station : Nat) (bad : Bool) : Bool :=
  (match q.fromN with | none => true | some a => decide (a ≤ num)) && (match q.toN with | none => true | some b => decide (num ≤ b))
    && (bad || ((match q.since with | none => true | some a => decide (a ≤ stamp)) && (match q.til with | none => true | some b => decide (stamp ≤ b))
      && (match q.type with | none => true | some c => decide (c = code)) && (match q.station with | none => true | some n => decide (n = station))))
/-- Bytes as upper-case hex digits. -/
def hexText (l : List Byte) : String := String.ofList ((l.map fun b => hexDigits 2 b.toNat).flatten)
/-- The two lines of a record, or the one of a bad place (R457). -/
def recLines (num : Nat) (bytes : List Byte) (bad : Bool) : List Reply :=
  if bad then [colR "rec" [.n num, .w "bad"]]
  else [colR "rec" [.n num, .w (hexText (bytes.take 64))], colR "rec" [.n num, .w "+", .w (hexText (bytes.drop 64))]]
/-- A record put among others by its number. -/
def putByNum (r : JRec) : List JRec → List JRec
  | [] => [r]
  | x :: t => if r.num < x.num then r :: x :: t else x :: putByNum r t
/-- The store's records in record-number order. -/
def byNum (s : State) : List JRec := (readable s).foldl (fun a r => putByNum r a) []
/-- The E05 and addresses of a query. -/
def queryErr (q : JQuery) : Option Err := if 1 ≤ q.count ∧ q.count ≤ 1000000 then none else some { code := 5, detail := .key .COUNT }
/-- The gap line where FROM lies before the oldest readable record (R457). -/
def gapLine (q : JQuery) (first : Option Nat) : List Reply :=
  match q.fromN, first with
  | some a, some f => if a < f then [colR "journal" [.w "gap", .kn "first" f ""]] else []
  | _, _ => []
/-! ## JOURNAL SNAPSHOT (R459, R463, R502) -/

/-- A snapshot by its number. -/
def snapOf (s : State) (n : Nat) : Option (Bool × Snapshot) :=
  match s.store.snapA, s.store.snapB with
  | some a, b => if a.num = n then some (false, a) else match b with
    | some b => if b.num = n then some (true, b) else none
    | none => none
  | none, some b => if b.num = n then some (true, b) else none
  | none, none => none
/-- The newest snapshot in the store. -/
def newestSnap (s : State) : Option (Bool × Snapshot) :=
  match s.store.snapA, s.store.snapB with
  | some a, some b => if a.num < b.num then some (true, b) else some (false, a)
  | some a, none => some (false, a)
  | none, some b => some (true, b)
  | none, none => none
/-- Ten digits as five BCD bytes. -/
def bcd5 (v : Nat) : List Byte := (List.range 5).map fun i => BitVec.ofNat 8 ((v / 100 ^ (4 - i) % 100) / 10 * 16 + v / 100 ^ (4 - i) % 10)
/-- Offsets and lengths of the sections (R426, R463). -/
def snapSections (q : Snapshot) : List (Nat × Nat) :=
  if q.full then [(0, 512), (512, 16384), (16896, 4096), (20992, 32768), (53760, 4096), (57856, 65536), (123392, 73728), (197120, q.len - 197120)]
  else [(0, 512), (0, 0), (512, 64), (0, 0), (0, 0), (0, 0), (0, 0), (576, q.len - 576)]
/-- Bytes 0 to 127 of the header (R463). -/
def snapHeader (s : State) (q : Snapshot) : List Byte :=
  ascii "GZSN" ++ [1, BitVec.ofNat 8 q.rung, BitVec.ofNat 8 q.object, if q.full then 1 else 0] ++ le 4 q.num ++ leI 8 q.at_
    ++ le 2 (q.unit.getD 65535) ++ bcd5 s.head.serial ++ [0] ++ le 4 q.len ++ ((snapSections q).map fun e => le 4 e.1 ++ le 4 e.2).flatten
    ++ le 8 (sessMask q.suspect) ++ le 8 (sessMask q.omitted) ++ le 8 (sessMask q.partialG) ++ le 8 q.pointer
/-- Section 7: the pool entries of the system block; they have no text and no acceptance number (R426; DESIGN CHOICE, log entry 145). -/
def systemBody (q : Snapshot) : List Byte := (List.range sessFirst).flatMap fun k => poolItem (tget {} q.system k) k 65535 0
/-- A session's group: its header, its pool items, its texts, its tag entries (R426, R464). -/
def groupBody (q : Snapshot) (n : Nat) : List Byte :=
  let items := q.items.filter (·.entry.session = n)
  let tags := tget [] q.tags n
  [BitVec.ofNat 8 n, if n ∈ q.partialG then 1 else 0] ++ le 2 items.length ++ le 2 tags.length ++ [0, 0]
    ++ ((items.zip (textStarts 0 items)).flatMap fun e => poolItem e.1.entry e.1.slot e.2 e.1.acc) ++ textArea items
    ++ tags.flatMap fun t => le 4 t.tag ++ le 4 (crc32 t.text).toNat
/-- A byte after the header: the pool items of the system block and the session groups as laid out; the sections whose bytes the manual does
not lay out are free values (R426, R464; log entry 3). -/
def snapBody (q : Snapshot) (i : Nat) : Byte :=
  let groups := if q.full then 197120 else 576
  if groups ≤ i then (q.groups.flatMap (groupBody q)).getD (i - groups) 0
  else if q.full ∧ 123392 ≤ i then (systemBody q).getD (i - 123392) 0
  else Config.snapshotByte q.num i
/-- Bytes 0 to 511 of a snapshot: the header, its checks, the pin (R463, R465). -/
def snapHead (s : State) (q : Snapshot) : List Byte :=
  let b := padTo 496 0 (snapHeader s q) ++ le 4 (crc32 ((List.range (q.len - 512)).map fun k => snapBody q (512 + k))).toNat
  b ++ le 4 (crc32 b).toNat ++ [if q.pinned then 0x5A else 0] ++ List.replicate 7 0xFF
/-- A byte of a snapshot. -/
def snapByte (s : State) (q : Snapshot) (i : Nat) : Byte :=
  if i < 128 then (snapHeader s q).getD i 0 else if i < 512 then (snapHead s q).getD i 0 else snapBody q i
/-- How far the bytes from 0 on have been read: `fuel` ranges are looked at. -/
def readTo (l : List (Nat × Nat)) : Nat → Nat → Nat
  | 0, p => p
  | fuel + 1, p => match l.find? fun r => decide (r.1 ≤ p ∧ p < r.2) with
    | none => p
    | some r => readTo l fuel r.2
/-- A part of a snapshot has been read; bit 21 clears when all of the newest has been (R459, R502). -/
def noteRead (bankB : Bool) (a b : Nat) (s : State) : State :=
  let upd := fun (q : Snapshot) => { q with read := (a, b) :: q.read }
  let s := s.modStore fun x => if bankB then { x with snapB := x.snapB.map upd } else { x with snapA := x.snapA.map upd }
  match newestSnap s with
  | none => s
  | some (_, q) => if q.len ≤ readTo q.read (q.read.length + 1) 0 then s.modHead fun h => { h with unread := false } else s
/-! ## Sending what is read (R107, R457) -/

/-- Lines of an operation leave while its session's output buffer has room; what waits comes back (R107). -/
def sendLines (o : Op) : List Reply → State → List Reply × State
  | [], s => ([], s)
  | r :: t, s =>
    let full := match o.port with
      | .session n => decide (65536 ≤ outBytes (s.ses n).out)
      | .supervisor => false
    if full then (r :: t, s) else sendLines o t (say o.ctx r s)
/-- A JOURNAL command sends what the output buffer takes, and ends with its last line; Teasel sends nothing while it is reset (R107, R457,
R459, R502). -/
def sendJournal (id : Nat) (s : State) : State :=
  match s.opOf id with
  | none => s
  | some o =>
    match o.prog with
    | .journal left k last part =>
      if s.noTime .jrn then s
      else
        let r := sendLines o left s
        let sent := left.length - r.1.length
        let s := match part with
          | some (b, a, e) => if 0 < sent then noteRead b a (min e (a + 64 * sent)) r.2 else r.2
          | none => r.2
        if r.1.isEmpty then
          finOp id (eqR "journal" (.n k :: (if part.isSome then [] else [.kn "last" (last.getD (newestRec s)) ""]))) s
        else s.modOp id fun o => { o with prog := .journal r.1 k last (part.map fun p => (p.1, min p.2.2 (p.2.1 + 64 * sent), p.2.2)) }
    | _ => s
/-- The JOURNAL commands of some ports go on. -/
def sendJournals (ok : Port → Bool) (s : State) : State :=
  forEach ((s.ops.filter fun o => ok o.port && match o.prog with
    | .journal .. => true
    | _ => false).map (·.id)) sendJournal s

/-- JOURNAL READ (R457). -/
def journalReadSpec (custody : Bool) (q : JQuery) : Spec :=
  { verb := .journalRead custody q, engine := some .jrn, slots := fun _ => 1, local_ := true, logged := false
    objs := match q.station with
      | some n => [.st n]
      | none => []
    values := fun _ => queryErr q
    ready := fun s => if custody ∧ s.twin.custody.isNone then some { code := 6, detail := .word "TWIN" } else none
    run := fun c s =>
      let l : List (Nat × List Byte × Bool) := if custody then
          ((((s.twin.custody.map (·.records)).getD []).filter fun r => inQuery q (fieldAt r 0 8) (unleI (slice r 8 8)) (fieldAt r 16 2) (fieldAt r 22 1) false).map
            fun r => (fieldAt r 0 8, markCustody r, false))
        else ((byNum s).filter fun r => inQuery q r.num r.stamp r.code r.station r.bad).map fun r => (r.num, recBytes r, r.bad)
      let first := if custody then ((s.twin.custody.bind fun x => x.records.head?).map fun r => fieldAt r 0 8)
        else (((byNum s).filter fun r => !r.bad).head?).map (·.num)
      let last := if custody then some (((s.twin.custody.bind fun x => x.records.getLast?).map fun r => fieldAt r 0 8).getD 0) else none
      let l := l.take q.count
      let r := startOp c (.journalRead custody q) (.journal (gapLine q first ++ (l.map fun e => recLines e.1 e.2.1 e.2.2).flatten) l.length last none) true s
      sendJournal r.1 (say c (colR "reading") r.2) }


/-- The E06 of a snapshot that is not there. -/
def noSnap : Err := { code := 6, detail := .word "SNAPSHOT" }
/-- The object word of a snapshot. -/
def snapObject (q : Snapshot) : String :=
  match q.rung with
  | 1 => dec q.object
  | 2 => match allEngines.find? fun e => engCode e = q.object with
    | some e => engName e
    | none => "none"
  | 3 => "SL" ++ dec q.object
  | _ => "none"
/-- JOURNAL SNAPSHOT LIST (R459). -/
def snapshotListSpec : Spec :=
  { verb := .snapshotList, engine := some .jrn, slots := fun _ => 1, local_ := true, logged := false
    run := fun c s =>
      let row := fun (b : String) (x : Option Snapshot) => match x with
        | none => colR "snap" [.kw "bank" b, .w "empty"]
        | some q => colR "snap" [.kw "bank" b, .kn "n" q.num "", .kw "rung" (rungWord q.rung), .kw "obj" (snapObject q), fBit "pinned" q.pinned, .kn "len" q.len ""]
      fin c (eqR "journal" [.n 2]) (say c (row "B" s.store.snapB) (say c (row "A" s.store.snapA) (say c (colR "reading") s))) }
/-- The lines of a part of a snapshot: 64 bytes each (R502). -/
def snapLines (s : State) (q : Snapshot) : Nat → Nat → Nat → List Reply
  | 0, _, _ => []
  | fuel + 1, a, b =>
    if b ≤ a then []
    else
      let k := min 64 (b - a)
      colR "snap" [.n a, .w (hexText ((List.range k).map fun i => snapByte s q (a + i)))] :: snapLines s q fuel (a + k) b
/-- JOURNAL SNAPSHOT (R459, R502). -/
def snapshotReadSpec (snap start len : Option Nat) : Spec :=
  let pick := fun (s : State) => match snap with
    | some n => snapOf s n
    | none => newestSnap s
  { verb := .snapshotRead snap start len, engine := some .jrn, slots := fun _ => 1, local_ := true, logged := false
    values := fun _ =>
      if 1048576 < start.getD 0 then some { code := 5, detail := .key .FROM }
      else if 1048576 < len.getD 0 then some { code := 5, detail := .key .LEN } else none
    ready := fun s => if (pick s).isNone then some noSnap else none
    run := fun c s => match pick s with
      | none => s
      | some (b, q) =>
        let a := start.getD 0
        let e := match len with
          | some n => min q.len (a + n)
          | none => q.len
        let r := startOp c (.snapshotRead snap start len) (.journal (snapLines s q 16385 a e) (e - a) none (some (b, a, e))) true s
        sendJournal r.1 (say c (colR "reading") r.2) }
/-- JOURNAL SNAPSHOT RELEASE (R427, R459). -/
def snapshotReleaseSpec (n : Nat) : Spec :=
  { verb := .snapshotRelease n, engine := some .jrn, slots := fun _ => 1, local_ := true, logged := false
    ready := fun s => if (snapOf s n).isNone then some noSnap else none
    run := fun c s =>
      let upd := fun (q : Snapshot) => if q.num = n then { q with pinned := false } else q
      fin c (eqR "journal" [.w "release", .n n]) (say c (colR "reading") (s.modStore fun x => { x with snapA := x.snapA.map upd, snapB := x.snapB.map upd })) }

/-! ## The commands -/

/-- SAVE. -/
def execSave (l : Line) (s : State) : Host.Outcome State Fault Refusal := .next (settle s (handleLine (.save l) l saveSpec s))
/-- SAVE SAFETY. -/
def execSaveSafety (l : Line) (s : State) : Host.Outcome State Fault Refusal :=
  .next (settle s (handleLine (.saveSafety l) l saveSafetySpec s))
/-- SAVE BEGIN. -/
def execSaveBegin (l : Line) (s : State) : Host.Outcome State Fault Refusal :=
  .next (settle s (handleLine (.saveBegin l) l saveBeginSpec s))
/-- SAVE ABORT. -/
def execSaveAbort (l : Line) (s : State) : Host.Outcome State Fault Refusal :=
  .next (settle s (handleLine (.saveAbort l) l saveAbortSpec s))
/-- JOURNAL READ. -/
def execJournalRead (l : Line) (q : JQuery) (s : State) : Host.Outcome State Fault Refusal :=
  .next (settle s (handleLine (.journalRead l q) l (journalReadSpec false q) s))
/-- JOURNAL READ CUSTODY. -/
def execJournalReadCustody (l : Line) (q : JQuery) (s : State) : Host.Outcome State Fault Refusal :=
  .next (settle s (handleLine (.journalReadCustody l q) l (journalReadSpec true q) s))
/-- JOURNAL SNAPSHOT LIST. -/
def execJournalSnapshotList (l : Line) (s : State) : Host.Outcome State Fault Refusal :=
  .next (settle s (handleLine (.journalSnapshotList l) l snapshotListSpec s))
/-- JOURNAL SNAPSHOT. -/
def execJournalSnapshot (l : Line) (snap start len : Option Nat) (s : State) : Host.Outcome State Fault Refusal :=
  .next (settle s (handleLine (.journalSnapshot l snap start len) l (snapshotReadSpec snap start len) s))
/-- JOURNAL SNAPSHOT RELEASE. -/
def execJournalSnapshotRelease (l : Line) (n : Nat) (s : State) : Host.Outcome State Fault Refusal :=
  .next (settle s (handleLine (.journalSnapshotRelease l n) l (snapshotReleaseSpec n) s))
end Sys2Proof.Machine
end

