-- ==== Sys2Proof/Machine/Twins.lean ====
section
/-! DEFINITION. The twin link: PAIR in its forms, twin frames, custody of a partner's set and journal, attachment, and the end of a bank
write (12 R383 to R398, 14 R461). -/

namespace Sys2Proof.Machine

open Sys2Proof

/-! ## Twin frames (R386) -/

/-- A unit that may take part in twin traffic: a valid number, no conflict, the network engine running (R357, R381, R386). -/
def twinUp (s : State) : Bool := takesPart s && !s.net.conflict
/-- A twin frame goes to a unit (R386). -/
def sendTwin (type dst index : Nat) (payload : List Byte) (set : Option BankSet) (s : State) : State :=
  if !twinUp s then s
  else
    let b := le 2 (s.head.unit.getD 65535) ++ le 2 dst ++ le 1 type ++ [1] ++ le 2 payload.length ++ le 4 s.twin.seq ++ leI 8 s.time
      ++ le 4 index ++ payload
    transmit .twin (some dst) (b ++ le 4 (crc32 b).toNat) (s.modTwin fun t => { t with seq := t.seq + 1 }) set
/-- A twin frame's source and payload, where it is one of a type for this unit, with a correct CRC and an unseen sequence number (R386). -/
def readTwin (type : Nat) (f : List Byte) (s : State) : Option (Nat × Nat × List Byte) :=
  let n := f.length
  let src := fieldAt f 0 2
  if takesPart s ∧ 28 ≤ n ∧ fieldAt f (n - 4) 4 = (crc32 (f.take (n - 4))).toNat ∧ s.head.unit = some (fieldAt f 2 2) ∧ fieldAt f 4 1 = type
      ∧ fieldAt f 6 2 + 28 = n ∧ fieldAt f 8 4 ∉ tget [] s.twin.seen src then
    some (src, fieldAt f 20 4, slice f 24 (n - 28))
  else none
/-- A frame is taken: its sequence number is kept, and the network engine has delivered one (R386, R414). -/
def takeTwin (f : List Byte) (s : State) : State :=
  (s.modTwin fun t => { t with seen := tset t.seen (fieldAt f 0 2) (fieldAt f 8 4 :: tget [] t.seen (fieldAt f 0 2)) }).worked .net
/-- A received frame of a type acts with its source, block index and payload. -/
def onTwin (type : Nat) (f : List Byte) (act : Nat → Nat → List Byte → State → State) (s : State) : State :=
  match readTwin type f s with
  | none => s
  | some (src, i, p) => act src i p (heardPeer src (takeTwin f s))
/-- A twin report to every session (R107). -/
def twinSays (fields : List Fld) (s : State) : State := sendAll (tilR "twin" fields) s

/-! ## Custody (R388 to R392) -/

/-- Custody is held for a unit. -/
def custodyOf (s : State) (u : Nat) : Option Custody := s.twin.custody.filter (·.unit = u)
/-- The newest record number held for a unit. -/
def heldRec (s : State) (u : Nat) : Nat := (((custodyOf s u).bind fun c => c.records.getLast?).map fun r => fieldAt r 0 8).getD 0
/-- Blocks of a set (R386). -/
def setBlocks (b : BankSet) : Nat := ceilDiv (setLen b) 1024
/-- The lowest number not in a list, from k on; `fuel` numbers are tried. -/
def lowestMissing (l : List Nat) : Nat → Nat → Nat
  | 0, k => k
  | fuel + 1, k => if k ∈ l then lowestMissing l fuel (k + 1) else k
/-- The pair is formed now: a heartbeat that names this unit came within 500 ms, and neither unit is in a number conflict; unit status bit 9
goes on reading 1 while the partner is silent (R384). -/
def pairStands (s : State) : Bool :=
  s.twin.formed && !s.net.conflict && (match s.cfg.twin with
    | some u => !(s.peer u).conflict
    | none => false) && (match s.twin.hbAt with
    | some t => decide (s.now < t + 500000)
    | none => false)
/-- The next configuration block wanted from the partner; 0xFFFF_FFFF for none (R390, R392). -/
def wantedBlock (s : State) (u : Nat) : Nat :=
  let held := ((custodyOf s u).map (·.seq)).getD 0
  if pairStands s ∧ s.cfg.twin = some u ∧ held < s.twin.hbSeq then
    let part := match custodyOf s u with
      | some c => if c.partSeq = s.twin.hbSeq then c.part else []
      | none => []
    lowestMissing part (part.length + 1) 0
  else 4294967295
/-- A heartbeat's payload (R386, R393). -/
def heartbeat (s : State) (u : Nat) (sleeping : Bool) : List Byte :=
  let own := if setLoaded s then s.cfg.twin else none
  le 2 (own.getD 65535) ++ [BitVec.ofNat 8 ((setLoaded s).toNat + 2 * (!setLoaded s).toNat + 4 * sleeping.toNat), 0] ++ le 4 (ownSeq s)
    ++ le 4 (ownCrc s).toNat ++ le 8 (newestRec s) ++ le 4 (((custodyOf s u).map (·.seq)).getD 0) ++ le 4 (wantedBlock s u) ++ le 8 (heldRec s u)
/-- A heartbeat goes to the twin, once it stands in the peer table; an unattached unit names no twin, and its heartbeats go to no unit
in particular (R387, R393; log entry 41). -/
def sendHeartbeat (sleeping : Bool) (s : State) : State :=
  match s.cfg.twin with
  | some u => if (s.peer u).known then sendTwin 1 u 0 (heartbeat s u sleeping) none s else s
  | none => if setLoaded s then s else sendTwin 1 65535 0 (heartbeat s 65535 sleeping) none s
/-- The pair forms, and a PAIR that waited for it ends (R384, R385). -/
def formPair (u : Nat) (s : State) : State :=
  let s := s.modTwin fun t => { t with formed := true, refused := false }
  forEach (s.ops.filter fun o => match o.prog with
      | .pairing v _ => decide (v = u)
      | _ => false) (fun o s => finOp o.id (eqR "pair" [.obj (.unitNo u), .w "formed"]) s) s
/-- A unit refuses the pair, once (R384). -/
def pairRefused (u : Nat) (s : State) : State :=
  let s := s.modTwin fun t => { t with formed := false, custody := t.custody.filter (·.unit ≠ u) }
  if s.twin.refused then s else twinSays [.obj (.unitNo u), .w "refuses"] (s.modTwin fun t => { t with refused := true })
/-- The partner holds a newer set for this unit than the unit's own (R392). -/
def custodyNewer (s : State) : State :=
  if s.twin.formed ∧ ownSeq s < s.twin.hbHeld then
    if s.twin.newerTold then s
    else
      let s := twinSays [.w "custody", .w "newer", .kn "seq" s.twin.hbHeld ""] (s.modTwin fun t => { t with newerTold := true })
      record 0x0A02 (pNum s.twin.hbHeld) { engine := 7 } s
  else s.modTwin fun t => { t with newerTold := false }
/-- A heartbeat has come (R384, R387, R389, R390, R392). -/
def heartbeatFrom (u : Nat) (p : List Byte) (s : State) : State :=
  if s.cfg.twin ≠ some u ∨ p.length < 36 then s
  else
    let tw := fieldAt p 0 2
    let flags := fieldAt p 2 1
    let back := s.twin.silent
    let s := s.modTwin fun t => { t with
      hbAt := some s.now, silent := false, asleep := false, hbTwin := if tw < 1024 then some tw else none, hbFlags := flags, hbSeq := fieldAt p 4 4
      hbCrc := BitVec.ofNat 32 (fieldAt p 8 4), hbRec := fieldAt p 12 8, hbHeld := fieldAt p 20 4, hbWant := fieldAt p 24 4, hbHeldRec := fieldAt p 28 8
      sendFrom := if t.sendTo.isNone then none else t.sendFrom, sentRec := if t.sendTo.isNone then fieldAt p 28 8 else t.sentRec
      custody := t.custody.map fun c => if c.partSeq ≠ 0 ∧ c.partSeq ≠ fieldAt p 4 4 then { c with partSeq := 0, part := [] } else c }
    let s := if back then twinSays [.obj (.unitNo u), .w "back"] s else s
    if some tw = s.head.unit then
      custodyNewer (if (s.peer u).conflict ∨ s.net.conflict ∨ s.twin.formed then s else formPair u s)
    else if tw < 1024 then pairRefused u s
    else if flags / 2 % 2 = 1 ∨ s.twin.formed then s
    else pairRefused u s

/-! ## Sending blocks (R391, R394) -/

/-- Bytes of a block of a set. -/
def blockBytes (seq : Nat) (b : BankSet) (i : Nat) : List Byte :=
  (List.range (min 1024 (setLen b - 1024 * i))).map fun k => Config.bankByte (bankNums { valid := true, seq, set := b }) (1024 * i + k)
/-- The unit's own records newer than a number, oldest first, none older than the newest less 4,095 (R391). -/
def ownNewer (s : State) (n : Nat) : List (List Byte) :=
  ((byNum s).filter fun r => !r.bad && decide (n < r.num ∧ newestRec s < r.num + 4096)).map recBytes
/-- One frame of type 4 or 5 to the unit that pulled, or to the partner: configuration blocks first (R391, R394). -/
def sendBlock (s : State) : State :=
  match s.twin.sendTo with
  | some u =>
    match custodyOf s u with
    | none => s.modTwin fun t => { t with sendTo := none, sendFrom := none }
    | some c =>
      match s.twin.sendFrom, c.set with
      | some i, some b =>
        if i < setBlocks b then (sendTwin 4 u i (blockBytes c.seq b i) (some b) s).modTwin fun t => { t with sendFrom := some (i + 1) }
        else s.modTwin fun t => { t with sendFrom := none }
      | _, _ =>
        let l := (c.records.filter fun r => decide (s.twin.sentRec < fieldAt r 0 8)).take 8
        match l.getLast? with
        | none => s.modTwin fun t => { t with sendTo := none, sendFrom := none }
        | some z => (sendTwin 5 u 0 l.flatten none s).modTwin fun t => { t with sentRec := fieldAt z 0 8 }
  | none =>
    match s.cfg.twin, loadedBank s with
    | some u, some b =>
      if !pairStands s then s
      else
        let i := match s.twin.sendFrom with
          | some k => k
          | none => s.twin.hbWant
        if s.twin.hbHeld < b.seq ∧ i < setBlocks b.set then
          (sendTwin 4 u i (blockBytes b.seq b.set i) (some b.set) s).modTwin fun t => { t with sendFrom := some (i + 1) }
        else
          let l := (ownNewer s (max s.twin.sentRec s.twin.hbHeldRec)).take 8
          match l.getLast? with
          | none => s
          | some z => (sendTwin 5 u 0 l.flatten none s).modTwin fun t => { t with sentRec := fieldAt z 0 8 }
    | _, _ => s

/-! ## Attachment (R394 to R397) -/

/-- An operation PAIR ATTACH in progress, with the unit it names. -/
def attachOp (s : State) : Option (Nat × Option Nat) :=
  s.ops.findSome? fun o => match o.prog with
    | .attaching u _ => some (o.id, u)
    | _ => none
/-- The unit may pull a set now: it is unattached and has not suspended attachment, or a PAIR ATTACH asks for it (R394, R396, R397). -/
def mayPull (s : State) (src : Nat) : Bool :=
  match attachOp s with
  | some (_, none) => true
  | some (_, some u) => u == src
  | none => !s.head.loaded && !s.twin.suspended
/-- A record from its 128 bytes (R444). -/
def recOf (b : List Byte) : JRec :=
  let t := fieldAt b 24 4
  { num := fieldAt b 0 8, stamp := unleI (slice b 8 8), code := fieldAt b 16 2, flags := fieldAt b 18 1, unit := fieldAt b 20 2, station := fieldAt b 22 1
    session := fieldAt b 23 1, tag := if 2147483648 ≤ t then some (t % 134217728) else none, chan := fieldAt b 28 1, slice := fieldAt b 29 1
    engine := fieldAt b 30 1, payload := slice b 32 92 }
/-- The pulled set has come whole, and the records with it (R395). -/
def pullWhole (s : State) : Bool :=
  match s.twin.offer, s.twin.pulled with
  | some (seq, crc, _, _, newest), some b =>
    decide (lowestMissing s.twin.blocks (s.twin.blocks.length + 1) 0 = setBlocks b) && decide (setCrc seq b = crc)
      && decide (newest ≤ (((s.twin.records.getLast?).map fun r => fieldAt r 0 8).getD 0))
  | _, _ => false
/-- A pulled set is refused: reported, journalled, attachment suspended (R396). -/
def attachRefused (e : Err) (s : State) : State :=
  let s := twinSays ([.w "attach", .w "refused", .w (errWord e.code)] ++ e.detail.fld) s
  let s := record 0x0A04 (pWord (errWord e.code) ++ (match e.detail with | .obj o => pObj o | .word w => pWord w | _ => [])) { engine := 7 } s
  let s := s.modTwin fun t => { t with suspended := true, pullFrom := none, offer := none, blocks := [], pulled := none, records := [] }
  match attachOp s with
  | none => s
  | some (id, _) => failOp id e s
/-- A pulled set that is whole is tested and written into both banks, once every position is known (R395, R396, R477). -/
def tryAttach (s : State) : State :=
  match s.twin.offer, s.twin.pulled with
  | some (seq, _, _, _, _), some b =>
    if !pullWhole s ∨ !positionsKnown s ∨ s.store.write.isSome then s
    else match commitTests .supervisor [] b.text b.text s with
      | some e => attachRefused e s
      | none => beginWrite ((attachOp s).map (·.1)) (if (attachOp s).isSome then 4 else 3) 255 seq b false true s
  | _, _ => s
/-- The commits and attachments that waited for the positions are offered again (R477). -/
def offerCommits (s : State) : State := tryAttach (retryCommits s)
/-- The pulled set has been written: it is loaded, its safety image becomes the candidate where the lanes hold none, the records enter the
journal, and the attachment is reported (R395). -/
def attached (w : BankWrite) (s : State) : State :=
  let src := s.twin.pullFrom.getD 65535
  let recs := s.twin.records
  let s := adoptPlain w.bank.set.text (setTwin w.bank.set.twin s)
  let s := s.modHead fun h => { h with loaded := true, refused := false }
  let s := if safetyValid s then s
    else match w.bank.set.safety with
      | some m => s.modCfg fun c => { c with cand := some m, candProfiles := w.bank.set.profiles }
      | none => s
  let s := forEach recs (fun r s => placeRec 4096 { recOf r with flags := (recOf r).flags ||| 1 } s) s
  let newest := ((recs.getLast?).map fun r => fieldAt r 0 8).getD 0
  let s := s.modJrn fun j => { j with nextNum := max j.nextNum (newest + 1) }
  let s := record 0x0A03 (pObj (.unitNo src) ++ pNum w.bank.seq ++ pNum recs.length) { engine := 7 } s
  let s := twinSays [.w "attached", .obj (.unitNo src), .kn "seq" w.bank.seq "", .kn "records" recs.length ""] s
  let s := s.modTwin fun t => { t with pullFrom := none, offer := none, blocks := [], pulled := none, records := [], suspended := false }
  match w.op with
  | none => s
  | some id => finOp id (eqR "pair" [.w "attach", .kn "seq" w.bank.seq "", .kn "records" recs.length ""]) s
/-- A bank write ends with its read-back: of a save, or of an attachment (R395, R461). -/
def writeEnds (w : BankWrite) (read : StoreRead) (s : State) : State :=
  if w.both ∧ read ≠ .bank then
    let s := s.modStore fun x => { x with write := none, bankA := w.bank, bankB := w.bank, loaded := some false, bothLoaded := true }
    attached w (record 0x0C04 (pNum w.bank.seq ++ pWord "B" ++ pNum w.bank.cause) { engine := 7 }
      (record 0x0C04 (pNum w.bank.seq ++ pWord "A" ++ pNum w.bank.cause) { engine := 7 } s))
  else bankWritten w read s

/-! ## PAIR (R385, R397, R398) -/

/-- A unit without a valid number: E04 (R357). -/
def noNumber (s : State) (o : Obj) : Option Err := if s.head.unit.isNone then some { code := 4, detail := .obj o } else none
/-- PAIR Unnnn (R383, R385, R476). -/
def pairSpec (port : Port) (n : Nat) : Spec :=
  { verb := .pair n, engine := some .net, slots := fun _ => 1, local_ := true, objs := [.unitNo n]
    found := fun s => noNumber s (.unitNo n)
    values := fun s => if s.head.unit = some n then some { code := 5, detail := .key .TWIN } else none
    ready := fun s => if (stagingOf s port).isSome then none
      else match s.cfg.twin with
        | some u => if u = n then none else some { code := 6, detail := .obj (.unitNo u) }
        | none => none
    staged := fun s => (stagingOf s port).isSome
    run := fun c s =>
      match stagingOf s c.port, c.port with
      | some _, .session k => fin c (eqR "pair" [.w "staged"]) (s.modSes k fun x => { x with
          stagedTwin := some n, stagedLines := x.stagedLines + 1, stagedBytes := x.stagedBytes + c.text.length })
      | _, _ =>
        let q := startOp c (.pair n) (.pairing n (s.now + 10000000)) true s
        let s := setTwin (some n) (say c (colR "pairing" [.obj (.unitNo n)]) q.2)
        if s.twin.formed then finOp q.1 (eqR "pair" [.obj (.unitNo n), .w "formed"]) s else s }
/-- PAIR ATTACH (R397). -/
def pairAttachSpec (source : Option Nat) : Spec :=
  { verb := .pairAttach source, engine := some .net, slots := fun _ => 1, local_ := true
    objs := match source with
      | some u => [.unitNo u]
      | none => []
    found := fun s => noNumber s .unit
    ready := fun s => bankBusy s <|> (if (attachOp s).isSome then some { code := 6, detail := .word "BANK" } else none) <|> notStill s
    run := fun c s =>
      let q := startOp c (.pairAttach source) (.attaching source (s.now + 10000000)) true s
      say c (colR "attaching") (q.2.modTwin fun t => { t with
        suspended := false, pullFrom := none, offer := none, blocks := [], pulled := none, records := [] }) }
/-- PAIR RELEASE (R398). -/
def pairReleaseSpec : Spec :=
  { verb := .pairRelease, engine := some .net, slots := fun _ => 1, local_ := true
    found := fun s => noNumber s .unit
    run := fun c s =>
      match s.cfg.twin with
      | none => fin c (eqR "pair" [.w "release"]) s
      | some u =>
        let q := startOp c .pairRelease (.releasing u (s.now + 1000000) (s.now + 60000000)) true s
        sendTwin 6 u 0 [] none (setTwin none (say c (colR "releasing") q.2)) }

/-! ## The commands -/

/-- PAIR Unnnn. -/
def execPair (l : Line) (n : Nat) (s : State) : Host.Outcome State Fault Refusal :=
  .next (settle s (handleLine (.pair l n) l (pairSpec l.port n) s))
/-- PAIR ATTACH. -/
def execPairAttach (l : Line) (source : Option Nat) (s : State) : Host.Outcome State Fault Refusal :=
  .next (settle s (handleLine (.pairAttach l source) l (pairAttachSpec source) s))
/-- PAIR RELEASE. -/
def execPairRelease (l : Line) (s : State) : Host.Outcome State Fault Refusal :=
  .next (settle s (handleLine (.pairRelease l) l pairReleaseSpec s))
/-- A heartbeat is sent (R387, R393). -/
def execHeartbeatSend (s : State) : Host.Outcome State Fault Refusal := .next (settle s (sendHeartbeat false s))
/-- A heartbeat arrives (R384). -/
def execHeartbeatReceived (f : NetFrame) (s : State) : Host.Outcome State Fault Refusal :=
  .next (settle s (receive f.via (fun s => onTwin 1 f.bytes (fun u _ p s => heartbeatFrom u p s) s) s))
/-- No heartbeat has come for 500 ms: the partner is silent (R387). -/
def execPartnerSilent (s : State) : Host.Outcome State Fault Refusal :=
  .next (settle s (match s.cfg.twin with
    | some u =>
      if s.head.started ∧ heldFor s.twin.hbAt s.now 500000 ∧ ¬ s.twin.silent then
        let asleep := decide (s.twin.hbFlags / 4 % 2 = 1)
        let s := s.modTwin fun t => { t with silent := true, asleep }
        record 0x0A01 (pObj (.unitNo u) ++ pWord (if asleep then "asleep" else "silent")) { engine := 1 } (twinSays [.obj (.unitNo u), .w (if asleep then "asleep" else "silent")] s)
      else s
    | none => s))
/-- Custody is offered to an unattached partner, once a second (R394). -/
def execOfferSend (s : State) : Host.Outcome State Fault Refusal :=
  .next (settle s (match s.twin.custody with
    | some c =>
      match c.set with
      | some b =>
        let needs := decide (s.twin.hbFlags / 2 % 2 = 1 ∧ s.cfg.twin = some c.unit) || ((s.peer c.unit).known && !(s.peer c.unit).status.getLsbD 11)
        let late : Bool := match s.twin.offerAt with
          | none => true
          | some t => decide (t + 1000000 ≤ s.now)
        if needs ∧ late then
          let num := fun (r : Option (List Byte)) => (r.map fun x => fieldAt x 0 8).getD 0
          sendTwin 2 c.unit 0 (le 4 c.seq ++ le 4 (setCrc c.seq b).toNat ++ le 4 (setLen b) ++ le 8 (num c.records.head?) ++ le 8 (num c.records.getLast?)) none
            (s.modTwin fun t => { t with offerAt := some s.now })
        else s
      | none => s
    | none => s))
/-- An offer arrives: an unattached unit, or one that attaches, pulls; it pulls again where 5 s have passed without a block (R394). -/
def execOfferReceived (f : NetFrame) (s : State) : Host.Outcome State Fault Refusal :=
  .next (settle s (receive f.via (fun s => onTwin 2 f.bytes (fun u _ p s =>
    let again : Bool := match s.twin.pullFrom with
      | none => true
      | some v => decide (s.twin.frameAt + 5000000 ≤ s.now) && decide (v = u)
    if mayPull s u ∧ again ∧ 28 ≤ p.length ∧ s.store.write.isNone then
      sendTwin 3 u 0 (le 4 (fieldAt p 0 4)) none (s.modTwin fun t => { t with
        pullFrom := some u, offer := some (fieldAt p 0 4, BitVec.ofNat 32 (fieldAt p 4 4), fieldAt p 8 4, fieldAt p 12 8, fieldAt p 20 8)
        blocks := [], pulled := none, records := [], frameAt := s.now })
    else s) s) s))
/-- A pull arrives: the held set and records are sent under the rate of R391 (R394). -/
def execPullReceived (f : NetFrame) (s : State) : Host.Outcome State Fault Refusal :=
  .next (settle s (receive f.via (fun s => onTwin 3 f.bytes (fun u _ p s =>
    match custodyOf s u with
    | some c => if c.seq = fieldAt p 0 4 ∧ c.set.isSome then s.modTwin fun t => { t with sendTo := some u, sendFrom := some 0, sentRec := 0 } else s
    | none => s) s) s))
/-- The frames of one 100 ms are sent: at most 64 of types 4 and 5 (R391). -/
def execTwinBlockSend (s : State) : Host.Outcome State Fault Refusal :=
  .next (settle s (if heldFor (some (s.twin.blocksAt.getD 0)) s.now (if s.twin.blocksAt.isSome then 100000 else 0) then
    forEach (List.range 64) (fun _ s => sendBlock s) (s.modTwin fun t => { t with blocksAt := some s.now }) else s))
/-- A configuration block arrives: it is assembled into custody or into the set that is pulled (R390, R395). -/
def execConfigurationBlock (f : NetFrame) (whole : BankSet) (s : State) : Host.Outcome State Fault Refusal :=
  .next (settle s (receive f.via (fun s => onTwin 4 f.bytes (fun u i _ s =>
    if s.twin.pullFrom = some u then
      tryAttach (s.modTwin fun t => { t with blocks := if i ∈ t.blocks then t.blocks else i :: t.blocks, pulled := some whole, frameAt := s.now })
    else if s.cfg.twin = some u ∧ pairStands s ∧ ((custodyOf s u).map (·.seq)).getD 0 < s.twin.hbSeq then
      let c := (custodyOf s u).getD { unit := u }
      let part := if c.partSeq = s.twin.hbSeq then c.part else []
      let part := if i ∈ part then part else i :: part
      let c := { c with partSeq := s.twin.hbSeq, part }
      let c := if lowestMissing part (part.length + 1) 0 = setBlocks whole ∧ setCrc s.twin.hbSeq whole = s.twin.hbCrc then
          { c with seq := s.twin.hbSeq, set := some whole, partSeq := 0, part := [] } else c
      s.modTwin fun t => { t with custody := some c }
    else s) s) s))
/-- A journal block arrives: the newest 4,096 records are kept in custody, or go with the set that is pulled (R391, R395). -/
def execJournalBlock (f : NetFrame) (s : State) : Host.Outcome State Fault Refusal :=
  .next (settle s (receive f.via (fun s => onTwin 5 f.bytes (fun u _ p s =>
    let l := (List.range (p.length / 128)).map fun k => slice p (128 * k) 128
    let fresh := fun (have_ : List (List Byte)) => l.filter fun r => decide ((((have_.getLast?).map fun x => fieldAt x 0 8).getD 0) < fieldAt r 0 8)
    if s.twin.pullFrom = some u then
      tryAttach (s.modTwin fun t => { t with records := t.records ++ fresh t.records, frameAt := s.now })
    else if s.cfg.twin = some u ∧ pairStands s then
      let c := (custodyOf s u).getD { unit := u }
      let recs := c.records ++ fresh c.records
      s.modTwin fun t => { t with custody := some { c with records := recs.drop (recs.length - 4096) } }
    else s) s) s))
/-- A release arrives from the partner (R398). -/
def execReleaseReceived (f : NetFrame) (s : State) : Host.Outcome State Fault Refusal :=
  .next (settle s (receive f.via (fun s => onTwin 6 f.bytes (fun u _ _ s =>
    if s.cfg.twin = some u then
      sendTwin 7 u 0 [] none (twinSays [.obj (.unitNo u), .w "released"] (s.modTwin fun t => { t with formed := false, custody := t.custody.filter (·.unit ≠ u) }))
    else s) s) s))
/-- A release acknowledgement arrives (R398). -/
def execReleaseAcknowledgement (f : NetFrame) (s : State) : Host.Outcome State Fault Refusal :=
  .next (settle s (receive f.via (fun s => onTwin 7 f.bytes (fun u _ _ s =>
    forEach (s.ops.filter fun o => match o.prog with
      | .releasing v _ _ => decide (v = u)
      | _ => false) (fun o s => finOp o.id (eqR "pair" [.w "release"]) s) s) s) s))
/-- A PAIR whose pair has not formed within 10 s ends as pending (R385). -/
def execPairPendingTimeout (s : State) : Host.Outcome State Fault Refusal :=
  .next (settle s (forEach s.ops (fun o s => match o.prog with
    | .pairing u d => if d ≤ s.now then finOp o.id (eqR "pair" [.obj (.unitNo u), .w "pending"]) s else s
    | _ => s) s))
/-- A PAIR ATTACH that has had no offer within 10 s ends (R397). -/
def execAttachOfferTimeout (s : State) : Host.Outcome State Fault Refusal :=
  .next (settle s (forEach s.ops (fun o s => match o.prog with
    | .attaching _ d => if d ≤ s.now ∧ s.twin.offer.isNone then failOp o.id { code := 6, detail := .word "TWIN" } s else s
    | _ => s) s))
/-- A release frame is sent again every second, for 60 s (R398). -/
def execReleaseFrameRetry (s : State) : Host.Outcome State Fault Refusal :=
  .next (settle s (forEach s.ops (fun o s => match o.prog with
    | .releasing u next d =>
      if d ≤ s.now then finOp o.id (eqR "pair" [.w "release", .w "unacked"]) s
      else if next ≤ s.now then sendTwin 6 u 0 [] none (s.modOp o.id fun o => { o with prog := .releasing u (next + 1000000) d })
      else s
    | _ => s) s))
/-- A bank write ends with its read-back (R461). -/
def execBankWriteComplete (read : StoreRead) (s : State) : Host.Outcome State Fault Refusal :=
  .next (settle s (match s.store.write with
    | none => s
    | some w => if s.head.powered ∧ ¬ s.noTime .jrn then writeEnds w read s else s))

end Sys2Proof.Machine
end

