-- ==== Sys2Proof/Machine/Groups.lean ====
section
/-! DEFINITION. Budget frames and what a unit sends of its own reservations (09 R323 to R327). -/

namespace Sys2Proof.Machine

open Sys2Proof

/-- A leave frame of each grouped bus (R325). -/
def leaveGroups (s : State) : State :=
  forEach [0, 1, 2, 3] (fun b s => sendBudget b 6 0 0 0 s.time 0 s) s

end Sys2Proof.Machine
end

