-- ==== Sys2Proof/Machine/Sleep.lean ====
section
/-! DEFINITION. Sleep and wake: the vote, the commit window, the power-down, the wake sources and the boot (12 R399 to R410). -/

namespace Sys2Proof.Machine

open Sys2Proof

/-! ## Wake (R403, R406, R408) -/

/-- This unit's number as a frame gives it. -/
def ownUnit (s : State) : Nat := s.head.unit.getD 65535
/-- The vote fails: the coordinator's SLEEP ends with E06 naming the lowest elector that has not voted ready (R401). -/
def dropVote (s : State) : State :=
  match s.slp.vote with
  | none => s
  | some v =>
    let s := s.modSlp fun x => { x with vote := none }
    match v.op with
    | none => s
    | some id =>
      let missing := v.electors.filter (· ∉ v.ready)
      failOp id { code := 6, detail := match (missing.foldl (fun a u => match a with | none => some u | some m => some (min m u)) (none : Option Nat)) with
        | some u => .obj (.unitNo u)
        | none => .obj (.unitNo v.coord) } s
/-- The wake latch takes a cause (R407). -/
def latchWake (host remote : Bool) (s : State) : State :=
  s.modSup fun u => { u with latch := true, host := u.host || host, remote := u.remote || remote }
/-- A wake source reaches the head (R403, R404): a vote fails, a sleep is cancelled, or after the commit instant the latch is set. -/
def wakeHead (bit : Nat) (word : String) (s : State) : State :=
  if s.slp.reached then latchWake (decide (word = "host")) (decide (word ≠ "host")) s
  else if s.slp.commit.isSome then abortSleep (ownUnit s) [word] (sendWake bit s)
  else if s.slp.vote.isSome then dropVote (sendWake bit s)
  else s
/-- The words of the wake causes. -/
def latchWords (host remote local_ : Bool) : List String :=
  (if host then ["host"] else []) ++ (if remote then ["remote"] else []) ++ (if local_ then ["local"] else [])
/-- WAKE (R408). -/
def wakeSpec (port : Port) : Spec :=
  { verb := .wake, slots := fun _ => 1, local_ := true, sup := true, engine := if port = .supervisor then none else some .net
    run := fun c s =>
      if s.sup.st ≠ .awake ∧ port = .supervisor then
        let s := latchWake true false s
        let deadline := match s.sup.st, s.sup.bootAt with
          | .boot, some t => t + 30000000
          | _, _ => 0
        let q := startOp c .wake (.waking deadline) false s
        say c (colR "waking") q.2
      else if s.slp.reached then fin c (eqR "wake" [.w "latched"]) (latchWake true false s)
      else if s.slp.commit.isSome ∨ s.slp.vote.isSome then fin c (eqR "wake" [.kw "cause" "host"]) (wakeHead 1 "host" s)
      else fin c (eqR "wake" [.w "awake"]) s }

/-! ## The vote (R399 to R402) -/

/-- The commit window begins: the instant goes to the crate supervisor (R403, R404). -/
def enterCommit (instant : Int) (s : State) : State :=
  let s := s.modSlp fun x => { x with commit := some instant }
  s.modSup fun u => { u with commitAt := some (s.now + ((instant - s.time) / 1000).toNat) }
/-- Every elector has voted ready: the commit is sent, and SLEEP ends (R401). -/
def commitVote (v : Vote) (s : State) : State :=
  let instant := s.time + 2000000000
  let s := if v.electors.length = 1 then s else sendSleep 4 v.coord v.number instant 0 0 v.electors s
  let s := enterCommit instant s
  match v.op with
  | none => s
  | some id => finOp id (eqR "sleep" [.n v.electors.length, .kn "instant" instant ""]) s
/-- The coordinator counts the votes. -/
def countVotes (s : State) : State :=
  match s.slp.vote with
  | none => s
  | some v =>
    if s.slp.commit.isSome ∨ v.coord ≠ ownUnit s then s
    else if v.electors.all (· ∈ v.ready) then commitVote v s
    else if v.notReady.isEmpty then s
    else dropVote (sendWake 8 s)
/-- The coordinator's own vote: ready as soon as it is, within 100 ms; a vote that has not come then counts as not ready (R401). -/
def ownVote (s : State) : State :=
  match s.slp.vote with
  | none => s
  | some v =>
    if v.coord ≠ ownUnit s ∨ v.voted ∨ s.slp.commit.isSome then s
    else if notReady s = 0 then
      countVotes (s.modSlp fun x => { x with vote := x.vote.map fun v => { v with voted := true, ready := v.coord :: v.ready } })
    else if notReady s = 2 ∧ s.now ≤ v.at_ + 100000 then s
    else countVotes (s.modSlp fun x => { x with vote := x.vote.map fun v => { v with voted := true, notReady := v.coord :: v.notReady } })
/-- The electorate of SLEEP SYSTEM (R399). -/
def electorate (s : State) : List Nat :=
  ownUnit s :: ((s.net.peers.filter fun e => e.2.known && !e.2.silent && !e.2.conflict).map (·.1)).filter (· ≠ ownUnit s)
/-- SLEEP (R399 to R401). -/
def sleepSpec (system : Bool) : Spec :=
  { verb := .sleep system, slots := fun _ => 1, local_ := true, engine := some .net
    found := fun s => if system then noNumber s .unit else none
    ready := fun s => if s.slp.vote.isSome ∨ s.slp.reached ∨ s.slp.commit.isSome then some { code := 6, detail := .word "SLEEP" } else none
    run := fun c s =>
      let q := startOp c (.sleep system) .sleeping true s
      let electors := if system then electorate s else [ownUnit s]
      let num := s.slp.number + 1
      let s := q.2.modSlp fun x => { x with
        number := num, vote := some { coord := ownUnit s, number := num, electors, at_ := s.now, op := some q.1 } }
      let s := if electors.length = 1 then s else sendSleep 1 (ownUnit s) num s.time 0 0 electors s
      ownVote (say c (colR "voting" [.n electors.length]) s) }

/-! ## Sleep frames (R401, R402, R405) -/

/-- A sleep frame with a correct CRC and an unseen sequence number (R405). -/
def sleepFrame (f : List Byte) (s : State) : Bool :=
  s.head.started && s.head.unit.isSome && !s.engDown .net && decide (f.length = 156) && decide (fieldAt f 152 4 = (crc32 (f.take 152)).toNat)
    && decide (fieldAt f 20 4 ∉ tget [] s.slp.seen (fieldAt f 0 2)) && decide (some (fieldAt f 0 2) ≠ s.head.unit)
/-- A sleep frame is taken; it acts once for each vote number and type (R401, R405). -/
def onSleep (types : List Nat) (f : List Byte) (act : State → State) (s : State) : State :=
  if !sleepFrame f s ∨ fieldAt f 2 1 ∉ types then s
  else
    let key := (fieldAt f 4 2, fieldAt f 6 4, fieldAt f 2 1 + 16 * fieldAt f 0 2)
    let seen := decide (key ∈ s.slp.acted)
    let s := s.modSlp fun x => { x with
      seen := tset x.seen (fieldAt f 0 2) (fieldAt f 20 4 :: tget [] x.seen (fieldAt f 0 2)), acted := if seen then x.acted else key :: x.acted }
    let s := heardPeer (fieldAt f 0 2) (s.worked .net)
    if seen then s else act s
/-- This unit is in the electorate a frame gives (R402). -/
def elected (f : List Byte) (s : State) : Bool :=
  match s.head.unit with
  | none => false
  | some u => (f.getD (24 + u / 8) 0).getLsbD (u % 8)
/-- The electors a frame gives. -/
def electorsOf (f : List Byte) : List Nat := (List.range 1024).filter fun u => (f.getD (24 + u / 8) 0).getLsbD (u % 8)
/-- A propose: this unit leaves a vote of a higher coordinator, ignores one of a higher coordinator than its own, and votes (R401, R402). -/
def proposed (f : List Byte) (s : State) : State :=
  let x := fieldAt f 4 2
  let ignore : Bool := !elected f s || s.slp.commit.isSome || s.slp.reached
    || (match s.slp.vote with | some v => decide (v.coord < x) | none => false)
  if ignore then s
  else
    let s := match s.slp.vote with
      | some v => if v.coord = x then s else match v.op with
        | some id => failOp id { code := 6, detail := .obj (.unitNo x) } s
        | none => s
      | none => s
    let bits := notReady s
    let s := s.modSlp fun y => { y with vote := some {
      coord := x, number := fieldAt f 6 4, electors := electorsOf f, at_ := s.now, voted := true, notReady := if bits = 0 then [] else [ownUnit s] } }
    sendSleep (if bits = 0 then 2 else 3) x (fieldAt f 6 4) s.time 0 bits [] s
/-- A vote reaches the coordinator (R401). -/
def voteCame (f : List Byte) (s : State) : State :=
  match s.slp.vote with
  | none => s
  | some v =>
    if v.coord ≠ ownUnit s ∨ fieldAt f 4 2 ≠ v.coord ∨ fieldAt f 6 4 ≠ v.number ∨ fieldAt f 0 2 ∉ v.electors then s
    else
      let u := fieldAt f 0 2
      countVotes (s.modSlp fun x => { x with vote := some (if fieldAt f 2 1 = 2 then { v with ready := u :: v.ready } else { v with notReady := u :: v.notReady }) })
/-- The words of a frame's cause bits. -/
def causeWords (b : Nat) : List String :=
  (if b % 2 = 1 then ["host"] else []) ++ (if b / 2 % 2 = 1 then ["remote"] else []) ++ (if b / 4 % 2 = 1 then ["local"] else [])
    ++ (if b / 8 % 2 = 1 then ["vote"] else [])

/-! ## Power-down and boot (R404, R407, R409) -/

/-- The head's part of the commit instant (R404). -/
def reachCommit (s : State) : State :=
  let s := s.modSlp fun x => { x with reached := true, vote := none }
  let s := flushOut (sendAll (tilR "closing" [.w "SLEEP"]) s)
  let s := forEach ((List.range 64).filter (0 < ·)) (fun n s => if (s.ses n).st = .free then s else endSession n s) s
  let s := sendHeartbeat true (leaveGroups s)
  let s := record 0x0A05 (pInst (s.slp.commit.getD 0)) { engine := 7 } s
  let s := writeIndex (flushJournal s)
  s.modSup fun u => { u with st := .pending }
/-- The supervisor removes slice power and head power: the crate is asleep; a latch that is set already makes it wait before it boots (R404,
R407). -/
def fallAsleep (s : State) : State :=
  (powerOff s).modSup fun u => { u with st := .asleep, commitAt := none, downAt := if u.latch then some s.now else none, bootAt := none }
/-- The value of WAKEPULSE with the head unpowered: that of the newest valid bank, else the default (R409). -/
def storedPulse (s : State) : Nat :=
  let a := s.store.bankA
  let b := s.store.bankB
  let newest := if a.valid ∧ ¬ (b.valid ∧ a.seq < b.seq) then some a else if b.valid then some b else none
  match newest.bind fun k => aget k.set.text (.unit, .WAKEPULSE) with
  | some (.i n) => n.toNat
  | _ => 2000000

/-! ## The commands -/

/-- SLEEP. -/
def execSleep (l : Line) (system : Bool) (s : State) : Host.Outcome State Fault Refusal :=
  .next (settle s (handleLine (.sleep l system) l (sleepSpec system) s))
/-- WAKE. -/
def execWake (l : Line) (s : State) : Host.Outcome State Fault Refusal :=
  .next (settle s (handleLine (.wake l) l (wakeSpec l.port) s))
/-- A propose arrives (R401). -/
def execProposeReceived (f : NetFrame) (s : State) : Host.Outcome State Fault Refusal :=
  .next (settle s (receive f.via (fun s => onSleep [1] f.bytes (proposed f.bytes) s) s))
/-- A vote arrives (R401). -/
def execVoteReceived (f : NetFrame) (s : State) : Host.Outcome State Fault Refusal :=
  .next (settle s (receive f.via (fun s => onSleep [2, 3] f.bytes (voteCame f.bytes) s) s))
/-- 1 s has passed since the propose with a vote missing (R401). -/
def execVoteTimeout (s : State) : Host.Outcome State Fault Refusal :=
  .next (settle s (match s.slp.vote with
    | some v => if v.coord = ownUnit s ∧ s.slp.commit.isNone ∧ v.at_ + 1000000 ≤ s.now then dropVote (sendWake 8 s) else s
    | none => s))
/-- 1.5 s have passed since the propose with neither commit nor wake: an elector that voted ready sends a wake frame, and each leaves the vote
(R401; one that voted not-ready: DESIGN CHOICE, log entry 103). -/
def execElectorDeadline (s : State) : Host.Outcome State Fault Refusal :=
  .next (settle s (match s.slp.vote with
    | some v => if v.coord ≠ ownUnit s ∧ s.slp.commit.isNone ∧ v.at_ + 1500000 ≤ s.now then dropVote (if v.notReady.isEmpty then sendWake 8 s else s) else s
    | none => s))
/-- A commit arrives (R403). -/
def execCommitReceived (f : NetFrame) (s : State) : Host.Outcome State Fault Refusal :=
  .next (settle s (receive f.via (fun s => onSleep [4] f.bytes (fun s => match s.slp.vote with
    | some v =>
      if elected f.bytes s ∧ v.coord = fieldAt f.bytes 4 2 ∧ v.number = fieldAt f.bytes 6 4 ∧ s.slp.commit.isNone then
        enterCommit (unleI (slice f.bytes 10 8)) s else s
    | none => s) s) s))
/-- A wake frame arrives: before the commit instant it cancels the sleep, after it the latch is set (R403, R404). -/
def execWakeFrameReceived (f : NetFrame) (s : State) : Host.Outcome State Fault Refusal :=
  .next (settle s (receive f.via (fun s => onSleep [5] f.bytes (fun s =>
    if s.slp.reached then latchWake false true s
    else if s.slp.commit.isSome then abortSleep (fieldAt f.bytes 0 2) (causeWords (fieldAt f.bytes 18 1)) s
    else dropVote s) s) s))
/-- The commit instant comes: the head closes its sessions, flushes and signals the supervisor (R404). -/
def execCommitInstant (s : State) : Host.Outcome State Fault Refusal :=
  .next (settle s (match s.slp.commit with
    | some t => if t ≤ s.time ∧ s.head.powered ∧ ¬ s.slp.reached then reachCommit s else s
    | none => s))
/-- The supervisor powers down: on the head's signal, at the instant by its own timer where the head has reset, or 500 ms after it (R404). -/
def execSupervisorCommitFallback (s : State) : Host.Outcome State Fault Refusal :=
  .next (settle s (match s.sup.commitAt with
    | some t =>
      let own := s.slp.commit.isNone && decide (t ≤ s.now)
      if s.sup.st = .pending ∨ own ∨ t + 500000 ≤ s.now then fallAsleep s else s
    | none => s))
/-- The supervisor samples WAKEIN, at `u` mV; becoming active after its 20 ms filter is a remote wake source (R288, R406, R407). -/
def execWakein (u : Nat) (s : State) : Host.Outcome State Fault Refusal :=
  let x := lineSample s 20000 u s.sup.wakein
  let rises := x.on && !s.sup.wakein.on
  let s1 := s.modSup fun u => { u with wakein := x }
  .next (settle s (if !rises then s1
    else if s1.sup.st = .awake then (if s1.head.started then wakeHead 2 "remote" s1 else s1)
    else latchWake false true s1))
/-- The supervisor leaves ASLEEP with the latch set: WAKEOUT pulses, head and slices are powered (R407, R409). -/
def execBoot (s : State) : Host.Outcome State Fault Refusal :=
  let settled : Bool := match s.sup.downAt with
    | some t => decide (t + 200000 ≤ s.now)
    | none => true
  .next (settle s (if s.sup.st = .asleep ∧ s.sup.latch ∧ settled ∧ s.sup.goodSince.isSome then
      let pulse := storedPulse s
      let s := powerOn .wake s
      let s := s.modSup fun u => { u with
        st := .boot, bootAt := some s.now, wakeout := if (u.host || u.local_) && decide (0 < pulse) then some (s.now + pulse) else u.wakeout }
      { s with ops := s.ops.map fun o => match o.prog with
        | .waking 0 => { o with prog := .waking (s.now + 30000000) }
        | _ => o }
    else s))
/-- WAKEPULSE has passed (R409). -/
def execWakepulseEnd (s : State) : Host.Outcome State Fault Refusal :=
  .next (settle s (if due s.sup.wakeout s.now then s.modSup fun u => { u with wakeout := none } else s))
/-- 30 s after BOOT unit status bit 31 has not cleared (R408). -/
def execWakeBootTimeout (s : State) : Host.Outcome State Fault Refusal :=
  .next (settle s (forEach s.ops (fun o s => match o.prog with
    | .waking d => if 0 < d ∧ d ≤ s.now ∧ s.head.bit31 then failOp o.id { code := 6, detail := .obj .unit } s else s
    | _ => s) s))

/-- Teasel writes out its buffer when it holds 32 records, when its oldest record is 100 ms old, or while the hold-up runs; not while it is
being reset (R15, R453, R454). A sleep's coordinator that waited for it votes (R401). -/
def execJournalFlush (s : State) : Host.Outcome State Fault Refusal :=
  let ready := decide (32 ≤ s.jrn.buf.length) || (!s.jrn.buf.isEmpty && (decide (s.jrn.bufSince + 100000 ≤ s.now) || s.sup.lowSince.isSome))
  .next (settle s (if ready ∧ s.head.powered ∧ ¬ s.noTime .jrn then ownVote (flushJournal s) else s))

end Sys2Proof.Machine
end

