-- ==== Sys2Proof/Machine/Verbs.lean ====
section
/-! DEFINITION. LIVE?, and the specification of every verb form that an AT can embed or a REPLAY can run again (13 R413 to R415; 02 R60,
R67; 13 R431). -/

namespace Sys2Proof.Machine

open Sys2Proof

/-! ## LIVE? (R413 to R415) -/

/-- An axis that Speedwell could fill up now (R414). -/
def wantsFill (a : Axis) : Bool :=
  match a.motion with
  | none => false
  | some m => !(decide (m.phase = .waiting ∨ m.phase = .held) || planDone m) && decide (a.ahead.length < 64)
/-- Work an engine could take up at once (R414). What arrives is taken up by the command that brings it, so the network, I/O, lamp and
Yarrow engines have none waiting (log entry 12). -/
def pendingWork (s : State) : Engine → Nat
  | .int => (s.inbuf.filter fun e => !e.outside).length
  | .evt => s.crossings.length
  | .mot => (s.st.filter fun e => wantsFill e.2.axis).length
  | .jrn => s.jrn.queued.length
  | _ => 0
/-- An engine's name in a LIVE? reply. -/
def liveName : Engine → String
  | .int => "int"
  | .net => "net"
  | .evt => "evt"
  | .io => "io"
  | .mot => "mot"
  | .lamp => "lamp"
  | .bud => "bud"
  | .jrn => "jrn"
/-- The eight fields of R413. -/
def liveFields (s : State) : List Fld :=
  allEngines.map fun e => .kw (liveName e) (if s.engDown e then "reset" else hex32 (s.eng e).ctr ++ "/" ++ dec (pendingWork s e))
/-- LIVE? on a session, and as the crate supervisor answers it (R413, R415). -/
def liveSpec (port : Port) : Spec :=
  { verb := .live, logged := false, sup := true
    run := fun c s =>
      match port with
      | .session _ => fin c (eqR "live" (liveFields s)) s
      | .supervisor =>
        let st := Fld.kw "sup" (supWord s.sup.st)
        fin c (eqR "live" (if !s.head.powered then [.kw "head" "off", st]
          else if !s.head.started then [.kw "head" "silent", st]
          else [.kw "head" "on", st] ++ liveFields s)) s }

/-! ## Verb forms -/

/-- Verbs that DO refuses (R60). -/
def doRefuses : Verb → Bool
  | .event _ => true
  | .reset => true
  | .pair _ | .pairAttach _ | .pairRelease => true
  | .banned _ => true
  | _ => false
/-- Verbs that REPLAY skips beside those (R431). -/
def replaySkips : Verb → Bool
  | .save | .saveSafety | .saveBegin | .saveAbort | .sleep _ | .wake | .replay .. => true
  | .journalRead .. | .snapshotList | .snapshotRead .. | .snapshotRelease _ => true
  | .event _ => false
  | v => doRefuses v
/-- The tests of REPLAY, without what it does: REPLAY SESSION, SNAP and WINDOW (R431). -/
def replayHead (sess : Nat) (snap : Option Nat) (window : Option Lit) : Spec :=
  { verb := .replay sess snap window, local_ := true, slots := fun _ => 1
    values := fun _ =>
      if 64 ≤ sess then some { code := 5, detail := .obj .session }
      else match window with
        | none => none
        | some l => match litNs 1000000000 l with
          | some v => if 1000000000 ≤ v ∧ v ≤ 600000000000 then none else some { code := 5, detail := .key .WINDOW }
          | none => some { code := 5, detail := .key .WINDOW }
    run := fun _ s => s }
/-- The specification of a verb form in a state, REPLAY's effect apart (R60, R67, R431). -/
def verbSpec0 (s : State) (port : Port) : Verb → Spec
  | .opn sts side auto => openSpec sts side auto
  | .cls sts side => closeSpec sts side
  | .stop sts hard => stopSpec sts hard
  | .resume sts => resumeSpec sts
  | .move n t k => moveSpec n t k
  | .follow n f => followSpec n f
  | .jog n t k => jogSpec n t k
  | .ref n => refSpec n
  | .refLearn n k => refLearnSpec n k
  | .cam n t m o => camSpec n t m o
  | .lamp x on => lampSpec x on
  | .flash x p ph d => flashSpec x p ph d
  | .out x on => outSpec x on
  | .proveLearn o => proveLearnSpec o
  | .proveReturn o => proveReturnSpec o
  | .proveLoop => proveLoopSpec
  | .isolate x on => isolateSpec x on
  | .set sel kvs => setSpecIn s port sel kvs
  | .setLinePos v => setSpecIn s port (.obj .line) (posKvs v)
  | .setTimeValue v => setSpecIn s port (.obj .time) [(.VALUE, .num v)]
  | .setService n => setSpecIn s port (.obj (.sl n)) [(.SERVICE, .word "ON")]
  | .setCount n c v => setSpecIn s port (.obj (.ch n c)) [(.COUNT, .num v)]
  | .get o ks => getSpec port o ks
  | .show o => showSpec port o
  | .askUnits => askUnitsSpec
  | .askVersion => askVersionSpec
  | .watch l r => watchSpec l r
  | .budget o kvs => budgetSpec o kvs
  | .budgetClear => budgetClearSpec
  | .save => saveSpec
  | .saveSafety => saveSafetySpec
  | .saveBegin => saveBeginSpec
  | .saveAbort => saveAbortSpec
  | .journalRead b q => journalReadSpec b q
  | .snapshotList => snapshotListSpec
  | .snapshotRead a b c => snapshotReadSpec a b c
  | .snapshotRelease n => snapshotReleaseSpec n
  | .sleep b => sleepSpec b
  | .wake => wakeSpec port
  | .live => liveSpec port
  | .pair n => pairSpec port n
  | .pairAttach u => pairAttachSpec u
  | .pairRelease => pairReleaseSpec
  | .replay n a w => replayHead n a w
  | .event t => { verb := .event t, run := fun _ s => s }
  | .reset => { verb := .reset, run := fun _ s => s }
  | .banned t => { verb := .banned t, run := fun _ s => s }

/-! ## The commands -/

/-- LIVE?. -/
def execLive (l : Line) (s : State) : Host.Outcome State Fault Refusal :=
  .next (settle s (handleLine (.live l) l (liveSpec l.port) s))
/-- LIVE? on the supervisor line. -/
def execLiveSupervisorLine (l : Line) (s : State) : Host.Outcome State Fault Refusal :=
  .next (settle s (handleLine (.liveSupervisorLine l) l (liveSpec l.port) s))

end Sys2Proof.Machine
end

