-- ==== Sys2Proof/Machine/Events.lean ====
section
/-! DEFINITION. AT, CANCEL, the firing and re-arming of events, and the merged reports of WATCH (02 R44 to R77; 16 R494 to R496; 03 R106). -/

namespace Sys2Proof.Machine

open Sys2Proof

/-! ## The trigger of an AT line (R44 to R48, 16 "AT keys") -/

/-- The time-like timebases. -/
def timeLike : TB → Bool
  | .time | .flash => true
  | _ => false
/-- A value of a timebase as written, in its unit (R44, R45). -/
def tbLit (s : State) (t : TB) (l : Lit) : Option Int :=
  match t with
  | .ax n => (litCounts s n l).filter fits32
  | .line => (litSteps .len 1000 1000 1 l).filter fits32
  | .time => (litSteps .time 1 1 1 l).filter fits64
  | .flash => (litSteps .time 1000 1000 1 l).filter fits64
/-- The direction's code of R58. -/
def dirCode (t : TB) : Option Dir → Nat
  | some .up => 1
  | some .down => 2
  | some .any => 3
  | none => if timeLike t then 1 else 3
/-- IFPAST's code of R58; its default under R62. -/
def pastCode (t : TB) : Option IfPast → Nat
  | some .fire => 0
  | some .wait => 1
  | some .miss => 2
  | none => match t with
    | .ax _ => 1
    | .line => 2
    | _ => 0
/-- PERIOD in ms and PHASE of a periodic trigger (R48). -/
def periodOf (a : AtArgs) : Option (Int × Int) :=
  match a.period.map (litSteps .time 1000000 1000000 1), (a.phase.map litPlain).getD (some 0) with
  | some (some p), some ph => some (p, ph)
  | _, _ => none
/-- The first FLASH value after now on a phase grid (R48). -/
def nextPhase (s : State) (periodMs phase : Int) : Int :=
  let p := 1000 * periodMs
  let off := roundDiv (phase * p) 256
  s.flash + (p - (s.flash - off) % p)
/-- The value a relative trigger is added to: TIME in ns, before the grid (R46). -/
def tbNow (s : State) (t : TB) : Int := if t = .time then s.time else tbValue s t
/-- The trigger value of an AT line, none where it has none that fits (R45, R46, R48). -/
def triggerOf (s : State) (a : AtArgs) : Option Int :=
  match a.value with
  | some l =>
    let v := tbLit s a.tb l
    if a.relative then v.bind fun x => if fits64 (tbNow s a.tb + x) then some (tbNow s a.tb + x) else none else v
  | none => (periodOf a).map fun q => nextPhase s q.1 q.2
/-- HYST of an AT line: 4 counts on AX, 100 mm on LINE (R65). -/
def hystOf (s : State) (a : AtArgs) : Option Int :=
  match a.hyst with
  | none => some (match a.tb with | .line => 100 | _ => 4)
  | some l => tbLit s a.tb l
/-- Bytes 16 to 23 of the entry (R58). -/
def auxOf (s : State) (a : AtArgs) : Nat :=
  match a.tb with
  | .time => ((a.interval.bind (litNs 1000000)).getD 0).toNat
  | .flash => (1000 * ((periodOf a).map (·.1)).getD 0).toNat
  | _ => ((hystOf s a).getD 0).toNat

/-- The key that makes an AT line ill-formed (R494). -/
def atForm (l : Line) (a : AtArgs) : Option String :=
  let t := a.tb
  if a.value.isSome ∧ a.period.isSome then some "PERIOD"
  else if a.value.isNone ∧ a.period.isNone then some "VALUE"
  else if a.period.isSome ∧ t ≠ .flash then some "PERIOD"
  else if a.phase.isSome ∧ (t ≠ .flash ∨ a.period.isNone) then some "PHASE"
  else if a.interval.isSome ∧ (t ≠ .time ∨ ¬ a.rep) then some "INTERVAL"
  else if a.hyst.isSome ∧ timeLike t then some "HYST"
  else if a.count.isSome ∧ ¬ a.rep then some "COUNT"
  else match a.doUnit with
    | some u => if l.unit = some u then none else some "DO"
    | none => none
/-- Step 9 of an AT line's own keys. -/
def atValues (s : State) (a : AtArgs) : Option Err :=
  let e := fun (k : Key) => some ({ code := 5, detail := .key k } : Err)
  let outside : Option Int → Int → Int → Bool := fun v lo hi => match v with
    | some x => decide (x < lo ∨ hi < x)
    | none => true
  let mmNoScale : Bool := match a.tb, a.value with
    | .ax n, some l => l.suffix.isSome && !hasScale s n
    | _, _ => false
  if a.value.isSome ∧ (a.relative ∧ ¬ timeLike a.tb) then e .VALUE
  else if a.period.isSome ∧ outside ((a.period.bind (litSteps .time 1000000 1000000 1))) 250 4000 then e .PERIOD
  else if a.phase.isSome ∧ outside (a.phase.bind litPlain) 0 255 then e .PHASE
  else if (triggerOf s a).isNone ∧ ¬ mmNoScale then e .VALUE
  else if timeLike a.tb ∧ dirCode a.tb a.dir ≠ 1 then e .DIR
  else if a.interval.isSome ∧ outside (a.interval.bind (litNs 1000000)) 1000000 86400000000000 then e .INTERVAL
  else if a.rep ∧ a.tb = .time ∧ a.interval.isNone then e .INTERVAL
  else if a.rep ∧ a.tb = .flash ∧ a.period.isNone then e .REPEAT
  else if a.hyst.isSome ∧ outside (hystOf s a) 1 100000 then e .HYST
  else if 4294967295 < a.count.getD 0 then e .COUNT
  else if 4294967295 < a.user.getD 0 then e .USER
  else none

/-! ## Arming (R59 to R62) -/

/-- What an entry is armed with. -/
structure Arm where
  tb : TB
  trigger : Int
  dir : Nat
  ifpast : Nat
  rep : Bool
  periodic : Bool
  aux : Nat
  limit : Nat
  user : Option Nat
  dv : Verb
  textLen : Nat

/-- The entry of an armed event: bytes 0 to 39 and 44 to 47, and the user word when the line carries one (R59). -/
def armEntry (a : Arm) (sess : Nat) (tag : Option Nat) (st : ESt) (e : PoolEntry) : PoolEntry :=
  { e with
    kind := .event, st, session := sess, system := false, suspect := false, tb := BitVec.ofNat 8 (tbCode a.tb), dir := a.dir
    ifpast := a.ifpast, rep := a.rep, flagged := false, periodic := a.periodic, tag := tag.getD 0, tagged := tag.isSome
    trigger := a.trigger, aux := a.aux, limit := a.limit, firings := 0, lastFire := 0
    user := match a.user with
      | some u => BitVec.ofNat 32 u
      | none => e.user
    textLen := a.textLen, next := 0xFFFF }
/-- The station whose axis a verb moves. -/
def verbStation : Verb → Nat
  | .move n _ _ | .follow n _ | .jog n _ _ | .cam n _ _ _ => n
  | _ => 0
/-- The types of the k segments an event reserves for its embedded command (R51, R139, R140). -/
def verbTypes (v : Verb) (k : Nat) : List Nat :=
  match v with
  | .follow .. => [5]
  | .cam .. => [6]
  | _ => if k = 3 then planTypes false else if k = 7 then planTypes true else List.replicate k 0
/-- An event is armed in its slot, which its embedded command will use; the segment slots that command will need are reserved and chained
to it; its answer, and IFPAST's judgement (R51, R52, R59, R61, R62). -/
def armEvent (a : Arm) (more : Nat) (c : Ctx) (s : State) : State :=
  let q := startOp c (.event a.tb) (.event a.dv (tbValue s a.tb) []) true s
  let s := q.2
  let slot := ((s.opOf q.1).bind (·.slot)).getD 0
  let held := tbUncertain s a.tb
  let tag := if c.within.isSome then none else c.tag
  let s := (dropRow slot s).modEnt slot (armEntry a (portSession c.port) tag (if held then .held else .armed))
  let r := takeSlots .segment .segPending (portSession c.port) tag more s
  let s := r.2.modOp q.1 fun o => { o with segs := r.1 }
  let s := match r.1 with
    | f :: _ => s.modEnt slot fun e => { e with next := f }
    | [] => s
  let s := writeSegs (verbStation a.dv) r.1 (slotSegs (verbTypes a.dv more) []) s
  let s := say c (colR (if held then "held" else "armed") [.kn "slot" slot ""]) s
  if held ∨ ¬ beyond a.dir (tbValue s a.tb) a.trigger then s
  else match a.ifpast with
    | 0 => joinRow { at_ := s.now, slot, tb := a.tb, value := tbValue s a.tb, late := true } s
    | 1 => s
    | _ => finOp q.1 (eqR "missed") s
/-- The address a timebase is written as. -/
def tbObj (t : TB) : Obj := .tb t
/-- AT (R60 to R62). `emb` is the specification of the embedded command in the present state. -/
def atSpec (l : Line) (a : AtArgs) (emb : Spec) : Spec :=
  { verb := .event a.tb, objs := tbObj a.tb :: emb.objs, form := atForm l a <|> emb.form, known := emb.known
    kinds := emb.kinds, found := emb.found
    values := fun s => atValues s a <|> emb.values s
    slots := fun s => 1 + (emb.slots s - 1)
    ready := fun s =>
      if doRefuses a.doVerb ∨ emb.safety then some { code := 6, detail := .key .DO }
      else match a.tb, a.value with
        | .ax n, some v => if v.suffix.isSome ∧ ¬ hasScale s n then some { code := 6, detail := .key .SCALE } else none
        | _, _ => none
    run := fun c s => armEvent
      { tb := a.tb, trigger := (triggerOf s a).getD 0, dir := dirCode a.tb a.dir, ifpast := pastCode a.tb a.ifpast, rep := a.rep, periodic := a.period.isSome
        aux := auxOf s a, limit := a.count.getD 0, user := a.user, dv := a.doVerb, textLen := a.doText.length } (emb.slots s - 1) c s }

/-! ## Firing (R64 to R69) -/

/-- An embedded command runs as if its session had sent it now; the slots it needs are its event's (R51, R67). -/
def runEmbedded (vs : State → Port → Verb → Spec) (o : Op) (dv : Verb) (i : Nat) (s : State) : State :=
  let sp := { vs s o.port dv with slots := fun _ => 0, logged := false }
  let auth := match o.port with
    | .session n => decide (n = 0) && (s.ses n).auth
    | .supervisor => false
  runSpec { port := o.port, tag := o.tag, within := some (o.id, i), text := o.text } auth sp s
/-- One crossing is handed on: a session's event fires, or one of the door cycle's own, in a leaf's slot (R64 to R67, R172). A REPEAT on TIME
or FLASH whose next trigger lies behind already, as when IFPAST=FIRE arms it in the past, fires once more for it, late (DESIGN CHOICE, log
entry 124). -/
def fire (vs : State → Port → Verb → Spec) (door : Nat → Nat → State → State) (x : Crossing) (s : State) : State :=
  let e := s.ent x.slot
  if e.st ≠ .armed ∨ e.tb.toNat ≠ tbCode x.tb then s
  else if e.kind = .system then
    door (x.slot / 16) (x.slot % 16) s
  else match opAt s x.slot with
    | none => s
    | some o =>
      match o.prog with
      | .event dv base fired =>
        let i := e.firings + 1
        let last := !e.rep || (decide (0 < e.limit) && decide (e.limit ≤ i))
        let st : ESt := if last then .executing else if timeLike x.tb then .armed else .rearm
        let trigger := if !last ∧ timeLike x.tb then e.trigger + e.aux else e.trigger
        let s := s.modEnt x.slot fun e => { e with firings := i, lastFire := s.time, flagged := x.late || x.jump, st, trigger }
        let s := s.modOp o.id fun o => { o with prog := .event dv base ((i, x.value, x.late, x.jump) :: fired) }
        let s := s.worked .evt
        let s := if e.rep then s else say o.ctx (firedReport x.tb x.value x.late x.jump none) s
        let s := if st = .armed ∧ trigger ≤ tbValue s x.tb then
            joinRow { x with place := x.place.map fun _ => jumpPlace x.tb true trigger } s else s
        runEmbedded vs o dv i s
      | _ => s
/-- The first of the row of crossings is handed on (R68, R69). -/
def fireHead (vs : State → Port → Verb → Spec) (door : Nat → Nat → State → State) (s : State) : State :=
  match s.crossings with
  | [] => s
  | x :: rest => fire vs door x { s with crossings := rest }
/-- Every crossing that waits for an event of these operations, none the door cycle's own, is handed on before a CANCEL acts (R70). -/
def fireFor (vs : State → Port → Verb → Spec) (l : List Nat) (s : State) : State :=
  let mine := s.crossings.filter (·.slot ∈ l)
  forEach mine (fire vs fun _ _ s => s) { s with crossings := s.crossings.filter (·.slot ∉ l) }
/-- The timebase has moved beyond the trigger by HYST against the event's direction (R65). -/
def backBeyond (e : PoolEntry) (v : Int) : Bool :=
  match e.dir with
  | 1 => decide (v ≤ e.trigger - e.aux)
  | 2 => decide (e.trigger + e.aux ≤ v)
  | _ => decide (e.aux ≤ (v - e.trigger).natAbs)

/-! ## CANCEL (R496, R503) -/

/-- The operations a CANCEL names. -/
def cancelled (s : State) (n : Nat) (tag : Option Nat) : List Op :=
  (sessionOps s n).filter fun o => match tag with
    | none => true
    | some t => decide (o.tag = some t)
/-- The far unit of a relayed line that a CANCEL names (R377). -/
def relayedTo (s : State) (n : Nat) (tag : Option Nat) : Option Nat :=
  tag.bind fun t => (s.net.relays.find? fun r => decide (r.near = n) && r.waiting.any (·.1 = some t)).map (·.far)
/-- CANCEL (R70, R377, R496). -/
def cancelSpec (vs : State → Port → Verb → Spec) (l : Line) (tag : Option Nat) : Spec :=
  { verb := .banned "CANCEL", local_ := true
    run := fun c s =>
      let n := portSession c.port
      match relayedTo s n tag with
      | some u => relayLine l u c s
      | none =>
        let s := fireFor vs ((cancelled s n tag).filterMap (·.slot)) s
        let r := (cancelled s n tag).foldl (fun r o =>
          let q := cancelOp o.id r.2
          (if q.1 then r.1 + 1 else r.1, q.2)) (0, s)
        fin c (eqR "cancel" [.n (r.1 : Nat)]) r.2 }

/-! ## The commands -/

/-- A REPEAT event on AX or LINE is re-armed (R65). -/
def execEventRearm (slot : Nat) (s : State) : Host.Outcome State Fault Refusal :=
  let e := s.ent slot
  .next (settle s (match opAt s slot with
    | none => s
    | some o =>
      if e.kind = .event ∧ e.st = .rearm ∧ ¬ s.noTime .evt ∧ ¬ timeLike (opTb o) ∧ backBeyond e (tbValue s (opTb o)) then
        s.modEnt slot fun e => { e with st := .armed }
      else s))
/-- A RATE interval of a watched object ends: the merged report goes out (R106). -/
def execWatchRateInterval (slot : Nat) (o : Obj) (s : State) : Host.Outcome State Fault Refusal :=
  .next (settle s (match opAt s slot with
    | none => s
    | some w =>
      match w.prog with
      | .watch objs rate marks =>
        match marks.find? (·.1 = o) with
        | some (_, at_, k) =>
          if 0 < k ∧ at_ + rate ≤ s.now then
            say w.ctx (watchReply s o k) (s.modOp w.id fun x => { x with prog := .watch objs rate ((o, s.now, 0) :: marks.filter (·.1 ≠ o)) })
          else s
        | none => s
      | _ => s))

end Sys2Proof.Machine
end

