-- ==== Sys2Proof/Machine/Recovery.lean ====
section
/-! DEFINITION. The reset ladder, REPLAY, and the commands that need the verb forms of both: AT, CANCEL and the firing of an event
(13 R417 to R434; 02 R60, R63 to R70). -/

namespace Sys2Proof.Machine

open Sys2Proof

/-! ## Resets that meet (R418) -/

/-- A start-up after a RESET UNIT is in progress. -/
def unitResets (s : State) : Bool := s.head.powered && s.head.bit31 && decide (s.head.cause = .unit)
/-- A RESET POWER is in progress: its 2 s without power, or the start-up after them. -/
def powerResets (s : State) : Bool := s.sup.offUntil.isSome || (s.head.powered && s.head.bit31 && decide (s.head.cause = .resetPwr))
/-- A RESET SLICE of a position is in progress. -/
def sliceResets (s : State) (p : Nat) : Bool := (s.slc p).restoreAt.isSome || (s.slc p).resetOp.isSome
/-- The error that names a rung in progress. -/
def e50w (w : String) : Err := { code := 50, detail := .word w }
/-- What a RESET of a rung, 1 session to 5 power, meets: the rung in progress whose scope contains it, or none (R418). -/
def resetMeets (s : State) (rung : Nat) (slicePos : Option Nat) : Option Err :=
  if powerResets s then some (e50w "POWER")
  else if unitResets s ∧ rung ≤ 4 then some (e50w "UNIT")
  else if rung < 3 then
    match allSlices.find? (sliceResets s) with
    | some p => some (e50w ("SL" ++ dec p))
    | none => s.head.resetting.map fun e => e50w (engName e)
  else if rung = 3 then
    match slicePos with
    | some p => if sliceResets s p then some (e50w ("SL" ++ dec p)) else none
    | none => none
  else none
/-- A wider reset ends the narrower resets' operations with E70 (R418). -/
def cutNarrower (rung : Nat) (s : State) : State :=
  forEach (s.ops.filter fun o => match o.prog with
      | .resetting w _ _ => decide (w = "engine") || (decide (3 < rung) && decide (w = "slice"))
      | _ => false) (fun o s => failOp o.id { code := 70 } s) s
/-- The step 13 of a RESET: an unpowered head takes no form but RESET POWER, which a sleeping supervisor refuses (R407, R418). -/
def resetTest (port : Port) (rung : Nat) (slicePos : Option Nat) (s : State) : Option Err :=
  let asleep := decide (s.sup.st = .asleep ∨ s.sup.st = .pending)
  if port = .supervisor ∧ rung = 5 ∧ asleep then some { code := 6, detail := .word "SLEEP" }
  else (if rung = 5 then resetMeets s rung slicePos else none)
    <|> (if s.head.powered then resetMeets s rung slicePos else some { code := 6, detail := .obj .unit })
/-- The specification that the forms of RESET share: local, on both kinds of port, without a slot (R51, R418). -/
def resetSpec (port : Port) (rung : Nat) (slicePos : Option Nat) (run : Ctx → State → State) : Spec :=
  { verb := .reset, sup := true, local_ := true, ready := resetTest port rung slicePos, run }
/-- The acceptance line of a RESET (R419). -/
def resettingR (rung : Nat) (o : Option Fld) : Reply := colR "resetting" (.w (rungWord rung) :: o.toList)
/-- The final reply of a RESET (R419). -/
def resetR (rung : String) (o : Option Fld) (snap : String) : Reply := eqR "reset" (.w rung :: o.toList ++ [.kw "snap" snap])
/-- The RESET operations of a rung end with their final reply (R419). -/
def endReset (rung : String) (p : Op → Bool) (s : State) : State :=
  forEach (s.ops.filter p) (fun o s => match o.prog with
    | .resetting w f snap => if w = rung then finOp o.id (resetR w f snap) s else s
    | _ => s) s

/-! ## The session rung (R420) -/

/-- RESET SESSION: its session snapshot, then its operations, tag memory, quota, authority and suspect flag (R420, R432, R476). -/
def runResetSession (n : Nat) (c : Ctx) (s : State) : State :=
  let f := some (Fld.n n)
  let s := say c (resettingR 1 f) s
  let q := takeSnapshot 1 n (dec n) (some n) [] s
  let s := (cancelAll n q.2).2
  let s := clearTags n s
  let s := s.modSes n fun x => { x with
    quota := 1024, auth := false, suspect := false, staging := none, stagedBytes := 0, stagedLines := 0, stagedTwin := none }
  fin c (resetR "session" f q.1) (dropCandidate s)
/-- RESET SESSION (R417, R420). -/
def resetSessionSpec (port : Port) (n : Option Nat) : Spec :=
  let k := n.getD (portSession port)
  { resetSpec port 1 none (runResetSession k) with
    values := fun _ => if k < 64 then none else some { code := 5, detail := .obj .session } }

/-! ## The engine rung (R421) -/

/-- The sessions suspect at an engine's reset: those with a pool operation that it carries out, the event engine every one; and those of whom
a work item stands in its queues: lines that wait to be read, lines that a relay carries (R77, R429). -/
def suspectsAt (e : Engine) (s : State) : List Nat :=
  let far := (s.net.relays.filter fun r => !r.waiting.isEmpty).map (·.near)
  ((suspects s fun o => decide (e = .evt ∨ verbEngine o.verb = e)) ++ match e with
    | .int => s.inbuf.map (·.ses)
    | .net | .evt => far
    | _ => []).eraseDups
/-- RESET ENGINE: a full snapshot, what every engine reset does, and the engine's own effect; it lasts until the engine runs again
(R421, R428, R429). -/
def runResetEngine (e : Engine) (c : Ctx) (s : State) : State :=
  let f := some (Fld.w (engName e))
  let s := say c (resettingR 2 f) s
  let sus := suspectsAt e s
  let hold := fun (s : State) => s.modHead fun h => { h with resetting := some e }
  let s := if e = .jrn then hold s else s
  let q := takeSnapshot 2 (engCode e) (engName e) none sus s
  let s := markSuspect sus q.2
  let s := dropStaging (dropCandidate (clearAllTags s))
  let s := engineEffect e (if e = .evt then hold s else s)
  let r := startOp c .reset (.resetting "engine" f q.1) false s
  (hold r.2).modEng e fun x => { x with ctr := 0, op := some r.1 }
/-- RESET ENGINE (R417, R421). -/
def resetEngineSpec (port : Port) (e : Engine) : Spec := resetSpec port 2 none (runResetEngine e)

/-! ## The slice rung (R422) -/

/-- RESET SLICE: a full snapshot, then the position's logic power is gone for 200 ms (R422). -/
def runResetSlice (p : Nat) (c : Ctx) (s : State) : State :=
  let f := some (Fld.obj (.sl p))
  let s := say c (resettingR 3 f) s
  let sus := suspects s (opHits s p)
  let q := takeSnapshot 3 p ("SL" ++ dec p) none sus (cutNarrower 3 s)
  let s := dropPolicy (dropStaging (dropCandidate (clearAllTags q.2)))
  let r := startOp c .reset (.resetting "slice" f q.1) false s
  (powerDownSlice p r.2).modSlc p fun x => { x with restoreAt := some (s.now + 200000), resetOp := some r.1 }
/-- RESET SLICE (R417, R422). -/
def resetSliceSpec (port : Port) (p : Nat) : Spec := { resetSpec port 3 (some p) (runResetSlice p) with objs := [.sl p] }
/-- A RESET SLICE ends: the slice has passed its self-test and its latch is verified (R417, R419). -/
def sliceResetEnd (p : Nat) (s : State) : State :=
  let x := s.slc p
  match x.resetOp with
  | none => s
  | some id =>
    if x.passed ∧ x.latched then
      let s := s.modSlc p fun x => { x with resetOp := none }
      endReset "slice" (fun o => decide (o.id = id)) s
    else s
/-- A RESET SLICE whose slice is declared absent ends with E40 (R419). -/
def sliceResetFails (p : Nat) (s : State) : State :=
  match (s.slc p).resetOp with
  | none => s
  | some id => failOp id { code := 40, detail := .obj (.sl p) } (s.modSlc p fun x => { x with resetOp := none })

/-! ## The unit and power rungs (R423, R424, R434) -/

/-- Before the head goes: open tagged operations end with E50 UNIT, and every session hears that it closes (R419, R434). -/
def closeAll (s : State) : State :=
  let l := s.ops.filter fun o => o.tag.isSome && o.within.isNone && (match o.prog with | .resetting .. => false | _ => true)
    && decide (o.port ≠ .supervisor)
  flushOut <| sendAll (tilR "closing" [.w "RESET"]) (forEach l (fun o s => cutOp o.id (e50w "UNIT") s) s)
/-- The sessions that hold any operation: suspect in a header of the unit and power rungs (R429). -/
def allHolders (s : State) : List Nat := suspects s fun _ => true
/-- RESET UNIT: a full snapshot, the leave frame, the replies; then the head is reset, and the pool-full state with it (R56, R423). On a session the final reply is sent before
that; on the supervisor line when the reset line is released (R419). -/
def runResetUnit (c : Ctx) (s : State) : State :=
  let s := say c (resettingR 4 none) { s with poolFull := false }
  let q := takeSnapshot 4 0 "none" none (allHolders s) (cutNarrower 4 s)
  let s := leaveGroups q.2
  let s := if c.port = .supervisor then (startOp c .reset (.resetting "unit" none q.1) false s).2 else fin c (resetR "unit" none q.1) s
  restartHead false .unit (flushJournal (closeAll s))
/-- RESET UNIT (R417, R423). -/
def resetUnitSpec (port : Port) : Spec := resetSpec port 4 none runResetUnit
/-- RESET POWER: a full snapshot where the head can give one, then 2 s without power (R30, R424). -/
def runResetPower (c : Ctx) (s : State) : State :=
  let s := say c (resettingR 5 none) { s with poolFull := false }
  let able := s.head.powered && s.head.started
  let q := if able then takeSnapshot 5 0 "none" none (allHolders s) (cutNarrower 5 s) else ("none", cutNarrower 5 s)
  let s := if able then leaveGroups q.2 else q.2
  let s := if c.port = .supervisor then (startOp c .reset (.resetting "power" none q.1) false s).2 else fin c (resetR "power" none q.1) s
  let s := if able then flushJournal (closeAll s) else s
  (powerOff s).modSup fun u => { u with offUntil := some (s.now + 2000000), snap := q.1, snapNone := u.snapNone || !able }
/-- RESET POWER (R417, R424). -/
def resetPowerSpec (port : Port) : Spec := resetSpec port 5 none runResetPower

/-! ## REPLAY (R431) -/

/-- The snapshot a REPLAY names: by number, or the newest pinned one. -/
def replaySnap (s : State) (n : Option Nat) : Option Snapshot :=
  match n with
  | some k => (snapOf s k).map (·.2)
  | none =>
    match s.store.snapA.filter (·.pinned), s.store.snapB.filter (·.pinned) with
    | some a, some b => if a.num < b.num then some b else some a
    | some a, none => some a
    | none, b => b
/-- The lines of a session's group, in acceptance order: pool items of kinds 1 and 2. -/
def replayItems (q : Snapshot) (sess : Nat) : List SnapItem :=
  byAcc (q.items.filter fun i => decide (i.entry.session = sess ∧ (i.entry.kind = .command ∨ i.entry.kind = .event)))
/-- The specification under which an item's line runs: an AT is armed anew from its entry, with its absolute trigger (R431). -/
def itemSpec (s : State) (port : Port) (i : SnapItem) : Spec :=
  match i.verb, i.doVerb with
  | .event t, some dv =>
    let emb := verbSpec0 s port dv
    let e := i.entry
    { verb := .event t, objs := tbObj t :: emb.objs, kinds := emb.kinds, found := emb.found, values := emb.values, slots := fun s => 1 + (emb.slots s - 1)
      run := fun c s => armEvent
        { tb := t, trigger := e.trigger, dir := e.dir, ifpast := e.ifpast, rep := e.rep, periodic := e.periodic, aux := e.aux, limit := e.limit
          user := some e.user.toNat, dv, textLen := e.textLen } (emb.slots s - 1) c s }
  | v, _ => verbSpec0 s port v
/-- Why a line is skipped (R431). -/
def skipReason (i : SnapItem) (sp : Spec) : Option String :=
  if sp.safety then some "SAFETY"
  else if i.verb = .banned "REMOTE" then some "REMOTE"
  else if i.verb = .banned "TEXT" then some "TEXT"
  else if replaySkips i.verb then some "VERB"
  else if i.text.isEmpty then some "TEXT" else none
/-- One line of a REPLAY runs, or is skipped; nothing runs once the REPLAY has ended (R431). -/
def replayLine (id : Nat) (c : Ctx) (e : SnapItem × Nat) (s : State) : State :=
  match s.opOf id with
  | none => s
  | some _ =>
    let i := e.2 + 1
    let sp := itemSpec s c.port e.1
    match skipReason e.1 sp with
    | some w => send c.port { colR "replay" [.n i, .w "skipped", .w w] with tag := c.tag } s
    | none =>
      let auth := match c.port with
        | .session n => decide (n = 0) && (s.ses n).auth
        | .supervisor => false
      let s := s.modOp id fun o => match o.prog with
        | .replaying k ended ch d n => { o with prog := .replaying k ended (i :: ch) d n }
        | _ => o
      runSpec { port := c.port, within := some (id, i), text := e.1.text } auth sp s
/-- Every line of a REPLAY has been started: where all of them have ended, it ends (R431). -/
def replayStarted (id : Nat) (s : State) : State :=
  match s.opOf id with
  | none => s
  | some o => match o.prog with
    | .replaying k ended ch d n =>
      let ch := ch.filter (· ≠ 0)
      if ch.isEmpty then finOp id (eqR "replay" [.n k, .kn "ended" ended "", .kn "cut" 0 ""]) (s.modSes n fun x => { x with suspect := false })
      else s.modOp id fun o => { o with prog := .replaying k ended ch d n }
    | _ => s
/-- The window of a REPLAY in us. -/
def replayWindow (w : Option Lit) : Nat :=
  match w with
  | none => 10000000
  | some l => ((litNs 1000000000 l).getD 0).toNat / 1000
/-- REPLAY (R431). -/
def replaySpec (sess : Nat) (snap : Option Nat) (window : Option Lit) : Spec :=
  { replayHead sess snap window with
    ready := fun s => match replaySnap s snap with
      | none => some noSnap
      | some q => if sess ∈ q.omitted then some noSnap else if sess ∈ q.groups then none else some { code := 6, detail := .obj .session }
    run := fun c s =>
      match replaySnap s snap with
      | none => s
      | some q =>
        let l := replayItems q sess
        let r := startOp c (.replay sess snap window) (.replaying l.length 0 [0] (s.now + replayWindow window) sess) true s
        let s := say c (colR "replaying" (.n l.length :: (if sess ∈ q.partialG then [.w "partial"] else []))) r.2
        replayStarted r.1 (forEach l.zipIdx (replayLine r.1 c) s) }
/-- The specification of every verb form (R60, R67). -/
def verbSpec (s : State) (port : Port) (v : Verb) : Spec :=
  match v with
  | .replay n a w => replaySpec n a w
  | v => verbSpec0 s port v
/-- The window of a REPLAY has passed: what still runs is cancelled, each with E70 within the replay (R431). -/
def replayExpires (o : Op) (s : State) : State :=
  match o.prog with
  | .replaying k ended ch d n =>
    let s := s.modOp o.id fun o => { o with prog := .replaying k ended (0 :: ch) d n }
    let s := forEach (childrenOf s o.id) (fun c s => (cancelOp c.id s).2) s
    finOp o.id (eqR "replay" [.n k, .kn "ended" ended "", .kn "cut" ch.length ""]) (s.modSes n fun x => { x with suspect := false })
  | _ => s

/-! ## The commands -/

/-- RESET SESSION. -/
def execResetSession (l : Line) (n : Option Nat) (s : State) : Host.Outcome State Fault Refusal :=
  .next (settle s (handleLine (.resetSession l n) l (resetSessionSpec l.port n) s))
/-- RESET ENGINE. -/
def execResetEngine (l : Line) (e : Engine) (s : State) : Host.Outcome State Fault Refusal :=
  .next (settle s (handleLine (.resetEngine l e) l (resetEngineSpec l.port e) s))
/-- RESET SLICE. -/
def execResetSlice (l : Line) (n : Nat) (s : State) : Host.Outcome State Fault Refusal :=
  .next (settle s (handleLine (.resetSlice l n) l (resetSliceSpec l.port n) s))
/-- RESET UNIT. -/
def execResetUnit (l : Line) (s : State) : Host.Outcome State Fault Refusal :=
  .next (settle s (handleLine (.resetUnit l) l (resetUnitSpec l.port) s))
/-- RESET POWER. -/
def execResetPower (l : Line) (s : State) : Host.Outcome State Fault Refusal :=
  .next (settle s (handleLine (.resetPower l) l (resetPowerSpec l.port) s))
/-- REPLAY. -/
def execReplay (l : Line) (sess : Nat) (snap : Option Nat) (window : Option Lit) (s : State) : Host.Outcome State Fault Refusal :=
  .next (settle s (handleLine (.replay l sess snap window) l (replaySpec sess snap window) s))
/-- The window of a REPLAY passes (R431). -/
def execReplayWindowExpiry (s : State) : Host.Outcome State Fault Refusal :=
  .next (settle s (forEach (s.ops.filter fun o => match o.prog with
    | .replaying _ _ _ d _ => decide (d ≤ s.now)
    | _ => false) replayExpires s))
/-- AT. -/
def execAtEvent (l : Line) (a : AtArgs) (s : State) : Host.Outcome State Fault Refusal :=
  .next (settle s (handleLine (.atEvent l a) l (atSpec l a (verbSpec s l.port a.doVerb)) s))
/-- CANCEL. -/
def execCancel (l : Line) (tag : Option Nat) (s : State) : Host.Outcome State Fault Refusal :=
  .next (settle s (handleLine (.cancel l tag) l (cancelSpec verbSpec l tag) s))
/-- The supervisor restores a position's logic power 200 ms after a RESET SLICE removed it (R422); with no slice there the reset ends
with E40. -/
def execSlicePowerRestore (p : Fin 8) (s : State) : Host.Outcome State Fault Refusal :=
  .next (settle s (if due (s.slc p).restoreAt s.now ∧ s.head.powered then
      let s := powerUpSlice p s
      if (s.slc p).seated.isNone then sliceResetFails p (s.modSlc p fun x => { x with restoreAt := none }) else s
    else s))

end Sys2Proof.Machine
end

