-- ==== Sys2Proof/Machine/Power.lean ====
section
/-! DEFINITION. Crate power, the start of the head, its tests, and the end of start-up (01 R9 to R31, 14 R454 to R462, 15 R469 to R475,
17 R514, 10 R356, 11 R357, R358, 12 R393, R395, R410). -/

namespace Sys2Proof.Machine

open Sys2Proof

/-! ## Sessions open (R108) -/

/-- A token as eight hex digits. -/
def tokenText (v : W32) : String :=
  String.ofList (hexDigits 4 (v.toNat / 65536)) ++ "_" ++ String.ofList (hexDigits 4 (v.toNat % 65536))
/-- A session opens with its transport's mode, a new token and `~hello` (R108). -/
def openSession (n : Nat) (mode : Mode) (s : State) : State :=
  let d := s.draw
  let token := Config.sessionToken d.1
  let s := d.2.modSes n fun _ => { st := .opn, mode, token, lastLine := s.now }
  send (.session n) (tilR "hello" [.kn "session" n "", .kw "unit" (unitText s.head.unit), .kw "mode" (modeWord mode), .kw "token" (tokenText token)]) s

/-! ## Power (R29 to R31, R514) -/

/-- 16.8 V, in mV (R29). -/
def inputFloor : Nat := 16800
/-- The crate input has fallen below 16.8 V: the hold-up begins; Teasel writes a hold-up record and its buffer (R454, R514). The measured
value is free. -/
def inputLow (s : State) : State :=
  if s.sup.lowSince.isSome then s
  else
    let d := s.draw
    let s := d.2.modSup fun u => { u with lowSince := some s.now, goodSince := none, vin := (Config.freeInt d.1).toNat % inputFloor }
    if !s.head.powered ∨ !s.head.started then s
    else
      let s := record 0x0C02 [] { engine := 7 } s
      if s.noTime .jrn then s else flushJournal s
/-- The hold-up has ended: slice power, then head power, are removed; a supervisor that was to fall asleep is asleep (R29, R407, R514). -/
def holdUpEnds (s : State) : State :=
  (powerOff s).modSup fun u => if u.st = .pending then { u with st := .asleep, commitAt := none, downAt := if u.latch then some s.now else none } else { u with commitAt := none }
/-- The input is back: a supervisor that was without it for more than 1 s restarts from its non-volatile state (R407, R514). -/
def inputBack (s : State) : State :=
  match s.sup.lowSince with
  | none => s
  | some t =>
    let d := s.draw
    let long := decide (t + 1000000 < s.now)
    let s := d.2.modSup fun u => { u with lowSince := none, goodSince := some s.now, vin := inputFloor + (Config.freeInt d.1).toNat }
    if !long then s
    else
      let s := s.modSup fun u => { u with tags := [], out := [], offUntil := none, wakeout := none, powerOp := none, downAt := none }
      { s with ops := s.ops.filter fun o => decide (o.port ≠ .supervisor) }
/-- Power may be restored: the crate is not asleep, a RESET POWER's 2 s have passed, the input has stood for 0.1 s (R30, R31, R514). -/
def mayRestore (s : State) : Bool :=
  !s.head.powered && decide (s.sup.st ≠ .asleep) && heldFor s.sup.goodSince s.now 100000
    && (match s.sup.offUntil with | none => true | some t => decide (t ≤ s.now))
/-- Power is restored in the order of R9; a RESET POWER on the supervisor line ends (R30, R31, R419). -/
def restorePower (s : State) : State :=
  let cause : StartCause := if s.sup.offUntil.isSome then .resetPwr else if s.sup.st = .boot then .wake else .power
  let s := (powerOn cause s).modSup fun u => { u with offUntil := none }
  endReset "power" (fun o => decide (o.port = .supervisor)) s

/-! ## Head start (R357, R459, R462, R469) -/

/-- Ones among the k low bits of a number. -/
def onesIn : Nat → Nat → Nat
  | 0, _ => 0
  | k + 1, v => v % 2 + onesIn k (v / 2)
/-- The unit number of a coding plug: 10 number bits and an odd parity bit (R357). -/
def plugUnit (plug : Nat) : Option Nat := if onesIn 11 plug % 2 = 1 then some (plug % 1024) else none
/-- The cause word of a start record (R459). -/
def startWord : StartCause → String
  | .power => "POWER"
  | .unit => "UNIT"
  | .resetPwr => "RESETPWR"
  | .wake => "WAKE"
/-- A bank is valid for the unit (R462). -/
def bankOk (s : State) (b : Bank) : Bool := b.valid && s.head.unit.isSome && decide (b.unit = s.head.unit)
/-- The bank that is loaded: the higher sequence number, A on a tie (R462). -/
def chooseBank (s : State) : Option Bool :=
  match bankOk s s.store.bankA, bankOk s s.store.bankB with
  | true, true => some (decide (s.store.bankA.seq < s.store.bankB.seq))
  | true, false => some false
  | false, true => some true
  | false, false => none
/-- The newest record number found in the store. -/
def newestFound (s : State) : Nat := s.jrn.store.foldl (fun a e => max a e.2.num) 0
/-- Records found after the last indexed block (R456, R459). -/
def beyondIndex (s : State) : Nat :=
  let last := match s.jrn.indexA, s.jrn.indexB with
    | some (a, x), some (b, y) => some (if a < b then y else x)
    | some (_, x), none => some x
    | none, some (_, y) => some y
    | none, none => none
  match last with
  | none => s.jrn.store.length
  | some b => (s.jrn.store.reverse.takeWhile fun e => decide (blockOf e.1 ≠ b)).length
/-- The address, mask and gateway of the keys come into force (R358). -/
def takeAddress (s : State) : State :=
  s.modNet fun x => { x with
    ip := match s.key .unit .IPADDR with
      | .i v => v.toNat
      | _ => defaultIp s.head.unit
    mask := s.keyN .unit .MASK, gateway := s.keyN .unit .GATEWAY }
/-- The loaded bank's set is applied (R462, R474); Teasel notes two banks that conflict. -/
def loadSet (s : State) : State :=
  let a := s.store.bankA
  let b := s.store.bankB
  let s := if bankOk s a && bankOk s b && decide (a.seq = b.seq ∧ bankCrc a ≠ bankCrc b) then
      record 0x0C05 (pNum a.seq) { engine := 7 } s else s
  match chooseBank s with
  | none => s
  | some w =>
    let k := if w then b else a
    let both := bankOk s a && bankOk s b && decide (a.seq = b.seq ∧ bankCrc a = bankCrc b)
    let s := s.modStore fun x => { x with loaded := some w, bothLoaded := both }
    let s := s.modCfg fun c => { c with plain := k.set.text, twin := k.set.twin }
    s.modHead fun h => { h with loaded := true }
/-- A wake ends here: the latch is read and cleared, a wake record lists the causes, the supervisor is AWAKE (R407, R410). -/
def readLatch (s : State) : State :=
  let words := latchWords s.sup.host s.sup.remote s.sup.local_
  let had := s.sup.latch
  let s := s.modSup fun u => { u with st := if u.st = .boot then .awake else u.st, latch := false, host := false, remote := false, local_ := false }
  let s := s.modHead fun h => { h with wakeCauses := if had then String.intercalate "," words else "" }
  if had then record 0x0A07 (words.flatMap pWord) { engine := 1 } s else s
/-- The head starts: plug, console, latch, journal, bank, address, safety sequence numbers (R357, R410, R459, R462, R469, R350). -/
def startHead (plug : Nat) (s : State) : State :=
  let s := s.modHead fun h => { h with started := true, unit := plugUnit plug }
  let s := s.modJrn fun j => { j with nextNum := newestFound s + 1 }
  let s := openSession 0 .typed s
  let s := if s.sup.snapNone then record 0x0B03 [] { engine := 7 } (s.modSup fun u => { u with snapNone := false }) else s
  let s := readLatch s
  let found := newestFound s
  let s := loadSet s
  let s := record 0x0C01 (pWord (startWord s.head.cause) ++ pNum found ++ pNum (beyondIndex s) ++ pNum s.jrn.badPlaces.length
    ++ pWord (match s.store.loaded with | none => "none" | some false => "A" | some true => "B") ++ pNum (ownSeq s)) { engine := 7 } s
  let s := takeAddress s
  let d := s.draw
  let s := d.2.modCamp fun c => { c with
    a := { c.a with seq := [(1, Config.firstSequence d.1), (2, Config.firstSequence (d.1 + 1)), (3, Config.firstSequence (d.1 + 2))] }
    b := { c.b with seq := [(1, Config.firstSequence d.1), (2, Config.firstSequence (d.1 + 1)), (3, Config.firstSequence (d.1 + 2))] } }
  let s := { s with free := s.free + 2 }
  endReset "unit" (fun o => decide (o.port = .supervisor)) s

/-! ## The lanes' start-up (R24, R356, R395, R432) -/

/-- A lane's stored safety configuration is there and belongs to the unit (R356, R393). -/
def laneStoreOk (s : State) (x : Lane) : Bool := (s.lane x).store.isSome && decide ((s.lane x).storeUnit = s.head.unit)
/-- The lane-fault record (R23). -/
def laneFaultRec (x : Lane) (cause : String) (s : State) : State :=
  record 0x0101 (pWord (match x with | .a => "A" | .b => "B") ++ pWord cause) { flags := 16 } s
/-- Both lanes have ended their self-tests, and the cross-lane link begins: the safe state is let go where both passed (R22, R432); the committed safety configuration comes
into force, or, while the lanes hold none, the bank's image becomes the candidate (R356, R395). -/
def lanesTested (s : State) : State :=
  let bank := loadedBank s
  let s := s.modCamp fun c => { c with a := { c.a with peerAt := s.now }, b := { c.b with peerAt := s.now } }
  let s := if s.camp.a.passed ∧ s.camp.b.passed then s.modCamp fun c => { c with safe := false } else s
  if safetyValid s then
    let s := s.modCfg fun c => { c with
      safety := s.camp.a.store.getD [], profiles := s.camp.a.profiles }
    takeUp (forEach allSlices writeLatch (clipSet s))
  else match bank with
    | some b => match b.set.safety with
      | some m => s.modCfg fun c => { c with cand := some m, candProfiles := b.set.profiles }
      | none => s
    | none => s
/-- The lanes' copies of the safety configuration are equal, with the profiles and SKEY (R344, R356). -/
def storesEqual (c : Campion) : Bool := decide (c.a.store = c.b.store ∧ c.a.profiles = c.b.profiles ∧ c.a.skey = c.b.skey)
/-- A lane's start-up self-test and its configuration check end (R24, R356). -/
def laneTested (x : Lane) (passed equal : Bool) (s : State) : State :=
  let valid := equal && laneStoreOk s x && storesEqual s.camp
  let ok := passed && valid
  let s := s.modLane x fun l => { l with tested := true, passed, configOk := valid, gaveUp := l.gaveUp || !passed }
  let s := if passed then s else laneFaultRec x "SELFTEST" s
  let s := if passed && !ok then laneFaultRec x "CONFIG" s else s
  if s.camp.a.tested ∧ s.camp.b.tested then lanesTested s else s

/-! ## The end of start-up (R472, R473, R439) -/

/-- Every powered position has linked and been identified, or has been declared absent (R41, R469). -/
def positionsDone (s : State) : Bool :=
  allSlices.all fun p => let x := s.slc p
    !enabled s p || x.seated.isNone || x.absent || (x.link && (x.passed || x.failed) && x.tested) || (!x.powered && x.restoreAt.isSome)
/-- Every start-up test has passed, or failed with an outcome that lets bit 31 clear (R473). -/
def startDone (s : State) : Bool :=
  s.head.powered && s.head.started && s.head.bit31 && !s.head.memRun && !s.head.memFail && s.camp.a.tested && s.camp.b.tested && positionsDone s
/-- Bit 31 clears: slices with a start-up link return to service, leaves are set from their switches, and a WAKE on the supervisor line
ends (R27, R205, R408, R439). -/
def finishStart (s : State) : State :=
  let s := s.modHead fun h => { h with bit31 := false }
  let s := forEach allSlices tryReturn s
  forEach (s.ops.filter fun o => match o.prog with
    | .waking _ => true
    | _ => false) (fun o s => finOp o.id (eqR "wake" [.kw "cause" s.head.wakeCauses]) s) s

/-! ## The commands -/

/-- The crate input falls below 16.8 V. -/
def execCrateInputLow (s : State) : Host.Outcome State Fault Refusal := .next (settle s (inputLow s))
/-- The hold-up of 10 ms has passed with the input still low (R29, R514). -/
def execHoldUpEnd (s : State) : Host.Outcome State Fault Refusal :=
  .next (settle s (if heldFor s.sup.lowSince s.now 10000 ∧ s.head.powered then holdUpEnds s else s))
/-- The crate input stands at or above 16.8 V again. -/
def execCrateInputReturn (s : State) : Host.Outcome State Fault Refusal := .next (settle s (inputBack s))
/-- The supervisor restores power (R30, R31). -/
def execPowerRestore (s : State) : Host.Outcome State Fault Refusal := .next (settle s (if mayRestore s then restorePower s else s))
/-- The head starts, with the reading of its coding plug (R357, R469). -/
def execHeadStart (plug : Fin 2048) (s : State) : Host.Outcome State Fault Refusal :=
  .next (settle s (if s.head.powered ∧ ¬ s.head.started then startHead plug.val s else s))
/-- The element test of a linked slice: for each lane, bit n says that both readbacks of station n were as commanded (R470). A lane that keeps
its elements de-energised takes no part; a mismatch latches the safe state (R20, R334). -/
def execElementTest (p : Fin 8) (readA readB : Byte) (s : State) : Host.Outcome State Fault Refusal :=
  let bad := (laneFit s.camp.a && decide (readA ≠ 0xFF#8)) || (laneFit s.camp.b && decide (readB ≠ 0xFF#8))
  .next (settle s (if s.head.started ∧ (s.slc p).link ∧ ¬ (s.slc p).tested ∧ s.camp.a.tested ∧ s.camp.b.tested then
      takeUp (if bad then enterSafe "ELEMENT" (s.modSlc p fun x => { x with tested := true }) else s.modSlc p fun x => { x with tested := true })
    else s))
/-- The memory test of a cold start ends (R471, R473). -/
def execHeadMemoryTestEnd (passed : Bool) (s : State) : Host.Outcome State Fault Refusal :=
  .next (settle s (if s.head.memRun ∧ s.head.powered ∧ s.head.started then s.modHead fun h => { h with memRun := false, memFail := !passed } else s))
/-- Every start-up test has ended: unit status bit 31 clears (R469, R473). -/
def execStartUpComplete (s : State) : Host.Outcome State Fault Refusal := .next (settle s (if startDone s then finishStart s else s))
/-- A lane's start-up self-test and its check of the stored safety configuration end (R24, R356); only here a latched safe state is let go. -/
def execLaneSelfTestEnd (x : Lane) (passed configEqual : Bool) (s : State) : Host.Outcome State Fault Refusal :=
  .next (settleWith true s (if s.head.powered ∧ s.head.started ∧ ¬ (s.lane x).tested then laneTested x passed configEqual s else s))

end Sys2Proof.Machine
end

