-- ==== Sys2Proof/Machine/Timebases.lean ====
section
/-! DEFINITION. LINE: tacho edges, reference marks and their two tiers, tacho faults (02 R78 to R83). -/

namespace Sys2Proof.Machine

open Sys2Proof

/-- REPEAT events of a timebase that a jump has moved beyond their HYST are re-armed (R71). -/
def rearmJump (t : TB) (s : State) : State :=
  let l := s.pool.filter fun e => decide (e.2.kind = .event ∧ e.2.st = .rearm ∧ e.2.tb.toNat = tbCode t) && backBeyond e.2 (tbValue s t)
  forEach l (fun e s => s.modEnt e.1 fun x => { x with st := .armed }) s
/-- The circuit of a -P input. -/
def LineTb.pulseIn (l : LineTb) : PulseIn → LineIn
  | .tacho1 => l.t1
  | .tacho2 => l.t2
  | .mark => l.t3
/-- The circuit of a -P input changes. -/
def LineTb.setPulseIn (l : LineTb) (i : PulseIn) (x : LineIn) : LineTb :=
  match i with
  | .tacho1 => { l with t1 := x }
  | .tacho2 => { l with t2 := x }
  | .mark => { l with t3 := x }
/-- The I/O engine counts: -P is fitted, the head runs, the engine is not being reset (R82). -/
def lineRuns (s : State) : Bool := s.fit.optP && s.head.started && !s.engDown .io
/-- LINE's value in um is kept within the 32 bits of its value in mm (R44, R72). -/
def wrapUm (um : Int) : Int := 1000 * wrap32 (um / 1000) + um % 1000
/-- An entry of the mark table lies within MARKWIN of LINE. -/
def nearMark (s : State) (k : Nat) : Bool :=
  match aget s.cfg.plain (.mark k, .POS) with
  | some (.i m) => decide ((lineMm s - m).natAbs < s.keyI .line .MARKWIN)
  | _ => false
/-- LINE advances by half microns: the events it crosses, and the marks it passes (R79, R82). -/
def lineAdvance (half : Int) (s : State) : State :=
  let b0 := lineMm s
  let v := s.line.half + half
  let raw := (s.line.um + v / 2) / 1000
  let s := s.modLine fun l => { l with um := wrapUm (l.um + v / 2), half := v % 2 }
  let b1 := lineMm s
  if b0 = b1 then s
  else
    let over_ := (markTable s).filter fun m => decide ((b0 < m.2 ∧ m.2 ≤ b1) ∨ (m.2 < b0 ∧ b1 ≤ m.2))
    let s := if s.line.st = .certain then s.modLine fun l => { l with passed := (over_.map (·.1)).filter (· ∉ l.passed) ++ l.passed } else s
    let s := s.modLine fun l => { l with
      passed := l.passed.filter fun k => k ∉ l.matched || nearMark s k, matched := l.matched.filter (nearMark s) }
    travelled .line b0 raw s
/-- A tacho edge (R78 to R80): QUAD counts every edge in its phase order's direction, DUAL the rising ones in DIR's. -/
def tachoCount (second rising forward : Bool) (s : State) : State :=
  let dpp : Int := s.keyI .line .DPP
  if s.keyIs .line .TACHO "QUAD" then lineAdvance (if forward then 2 * dpp else -(2 * dpp)) s
  else if !rising then s
  else
    let d := if s.keyIs .line .DIR "REV" then -dpp else dpp
    let s := s.modLine fun l => if second then { l with run2 := l.run2 + 1, run1 := 0 } else { l with run1 := l.run1 + 1, run2 := 0 }
    let s := s.modLine fun l =>
      let t := l.travel + dpp.toNat
      { l with travel := t, recent := (t, second) :: l.recent.filter fun e => t < e.1 + 40000000 }
    match s.line.only with
    | none => lineAdvance d s
    | some x => if x = second then lineAdvance (2 * d) s else s
/-- Two counts differ by more than 3 % of the larger (R80). -/
def countsDiffer (a b : Nat) : Bool := decide (3 * max a b < 100 * (max a b - min a b))
/-- The input that DUAL still counts on, where the other has gone silent: false TACHO1 (R80). -/
def soleInput (s : State) : Option Bool :=
  if 50 < s.line.run1 then some false else if 50 < s.line.run2 then some true else none
/-- The mean of DUAL is in doubt (R80). -/
def dualDoubt (s : State) : Bool :=
  (soleInput s).isSome || (decide (40000000 ≤ s.line.travel)
    && countsDiffer (s.line.recent.filter (!·.2)).length (s.line.recent.filter (·.2)).length)

/-! ## Reference marks (R82) -/

/-- The entry of the mark table nearest to LINE; of two as near, the lower entry. -/
def nearest (s : State) : Option (Nat × Int) :=
  (markTable s).foldl (fun a m => match a with
    | none => some m
    | some b =>
      let d := (lineMm s - m.2).natAbs
      let e := (lineMm s - b.2).natAbs
      if d < e ∨ (d = e ∧ m.1 < b.1) then some m else some b) none
/-- The line-mark record: the table position, LINE as it was, the error, and what became of the mark (R82, R446; the word's spelling and
place are a DESIGN CHOICE, log entry 87). -/
def markRecord (word : String) (e line pos : Int) (s : State) : State :=
  record 0x0203 (pInt pos ++ pInt line ++ pInt e ++ pWord word) { engine := 3 } s
/-- An entry has been matched. -/
def matchMark (k : Nat) (s : State) : State :=
  s.modLine fun l => { l with matched := if k ∈ l.matched then l.matched else k :: l.matched, passed := l.passed.filter (· ≠ k) }
/-- A mark pulse (R71, R82). -/
def markCame (s : State) : State :=
  let line := lineMm s
  let tol := s.keyI .line .MARKTOL
  let win := s.keyI .line .MARKWIN
  match nearest s with
  | none => markRecord "discarde" 0 line 0 (if s.line.st = .certain then toLineState .provisional s else s)
  | some (k, m) =>
    let e := line - m
    let a : Int := e.natAbs
    match s.line.st with
    | .certain =>
      if a ≤ tol then
        let s := matchMark k (setLineMm m s)
        (rearmJump .line (crossed .line line m true false (markRecord "tier1" e line m s)))
      else if a ≤ win then markRecord "tier2" e line m (matchMark k (setLineMm m (toLineState .provisional s)))
      else markRecord "tier2" e line m (toLineState .provisional s)
    | .provisional =>
      if a ≤ tol then
        let s := setLineMm m (markRecord "confirme" e line m s)
        (toLineState .certain (s.modLine fun l => { l with matched := [k], passed := [], only := none, run1 := 0, run2 := 0, recent := [], travel := 0 }))
      else if a ≤ win then markRecord "tier2" e line m (matchMark k (setLineMm m s))
      else markRecord "discarde" e line m s
    | .lost => markRecord "discarde" e line m s

/-! ## The commands -/

/-- A sample of a -P input (R288): filters of 5 us and 200 us; a filtered edge of a tacho counts, a filtered pulse of MARK is due to be matched.
In QUAD the edge has the direction that its place in the phase order gives it (R78). -/
def pulseSample (i : PulseIn) (u : Nat) (forward : Bool) (s : State) : State :=
  let was := s.line.pulseIn i
  let x := lineSample s (match i with | .mark => 200 | _ => 5) u was
  let s := s.modLine fun l => l.setPulseIn i x
  if x.on = was.on then s
  else match i with
    | .mark => s.modLine fun l => { l with markDue := l.markDue || x.on }
    | i => tachoCount (decide (i = .tacho2)) x.on forward s
/-- A sample of TACHO1, TACHO2 or MARK, which may complete a counted edge (R79, R288). -/
def execTachoEdge (i : PulseIn) (u : Nat) (forward : Bool) (s : State) : Host.Outcome State Fault Refusal :=
  .next (settle s (if lineRuns s then pulseSample i u forward s else s))
/-- Both QUAD inputs change at once: LINE is LOST, its value kept, and the line-lost record carries the cause (R78, R82; DESIGN CHOICE, log
entry 125). -/
def execTachoFault (s : State) : Host.Outcome State Fault Refusal :=
  .next (settle s (if lineRuns s ∧ s.keyIs .line .TACHO "QUAD" then record 0x0205 (pWord "tacho") { engine := 3 } (toLineState .lost s) else s))
/-- DUAL's counts disagree, or one input is silent: LINE is PROVISIONAL and goes on with the input that still counts (R80). -/
def execTachoDualMismatch (s : State) : Host.Outcome State Fault Refusal :=
  .next (settle s (if lineRuns s ∧ s.keyIs .line .TACHO "DUAL" ∧ dualDoubt s then
      let x := soleInput s
      let s := s.modLine fun l => { l with only := x }
      if s.line.st = .certain then toLineState .provisional s else s
    else s))
/-- A mark pulse that the filter of MARK has passed (R82, R288). -/
def execMarkPulse (s : State) : Host.Outcome State Fault Refusal :=
  .next (settle s (if lineRuns s ∧ s.line.markDue then markCame (s.modLine fun l => { l with markDue := false }) else s))
/-- LINE has passed a table position by MARKWIN with no mark matched to it (R82). -/
def execMarkMissed (entry : Nat) (s : State) : Host.Outcome State Fault Refusal :=
  .next (settle s (if lineRuns s ∧ s.line.st = .certain ∧ entry ∈ s.line.passed ∧ ¬ nearMark s entry then
      let s := s.modLine fun l => { l with passed := l.passed.filter (· ≠ entry) }
      markRecord "missed" (lineMm s - s.keyI (.mark entry) .POS) (lineMm s) (s.keyI (.mark entry) .POS) (toLineState .provisional s)
    else s))

end Sys2Proof.Machine
end

