-- ==== Sys2Proof/Machine/AxisEvents.lean ====
section
/-! DEFINITION. What happens at an axis: encoder and index, emitted steps, faults, limits, the follower's coarse steps, the cam's
updates, and the end of a motion (04 R126, R127, R135, R141 to R163). -/

namespace Sys2Proof.Machine

open Sys2Proof

/-! ## What an axis watches (R145, R162) -/

/-- Since when the following error exceeds FERR (R145); in LOCKING no such fault is raised (R178). -/
def ferrWatch (n : Nat) (s : State) : State :=
  let a := s.ax n
  let far := decide (s.axK n .FERR * s.axK n .RATIO < (a.pos * s.axK n .RATIO - a.cmd * 65536).natAbs)
  s.modAx n fun a => { a with ferrSince := sinceOf a.ferrSince (far && decide ((s.stn n).leaf ≠ .locking ∨ ¬ isLeaf s n)) s.now }
/-! ## Losing the reference, ending a coupling (R73, R162, R163) -/

/-- A slave's coupling ends by itself: E06, a stop at SDEC, and a cam-lag record (R162). -/
def camLost (n : Nat) (s : State) : State :=
  match (s.ax n).motion.bind (·.couple) with
  | none => s
  | some c =>
    let s := rampStop n (axRate s n .SDEC) .done (motionFails n s)
    record 0x0305 (pInt c.target ++ pInt (s.ax n).pos) (hdCh n .ax) s
/-- An axis becomes unreferenced: its events are held, its own coupling ends, its slaves hold (R73, R162, R163). -/
def axisUnref (n : Nat) (s : State) : State :=
  if (s.ax n).referenced then loseReference n (camLost n s) else unreference n s
/-- An axis has moving motion: neither waiting nor held. -/
def inMotion (s : State) (n : Nat) : Bool :=
  match (s.ax n).motion with
  | none => (s.ax n).loaded.isSome
  | some m => decide (m.phase ≠ .waiting ∧ m.phase ≠ .held)
/-- A leaf in one of the four driven states goes to FAULT at an axis fault (R175). -/
def leafFaults (n : Nat) (cause : String) (e : Err) (s : State) : State :=
  if isLeaf s n ∧ leafMoves (s.stn n).leaf then
    faultLeaf n cause e (s.modAx n fun a => { a with motion := a.motion.map fun m => { m with turn := none } })
  else s
/-- A fault of an axis stops it: its motion's command ends, the leaf goes to FAULT, the fault stands in status bit 2, and an axis-fault
record is written (R144, R145). -/
def axisFault (n : Nat) (hard : Bool) (word kind : String) (code : Nat) (s : State) : State :=
  let s := motionFails n s
  let s := if hard then hardStop n .done s else rampStop n (axRate s n .SDEC) .done s
  let s := stepFails n (e06Ax n) word (leafFaults n word (e06Ax n) s)
  let s := s.modAx n fun a => { a with fault := some word }
  record code (pWord kind ++ pInt (s.ax n).pos) (hdCh n .ax) s
/-- The position is lost: the axis stops at SDEC, is unreferenced, and reports it; a leaf that opens, closes or reverses is HELD with
its target kept (R146, R175). -/
def positionLost (n : Nat) (s : State) : State :=
  let t := s.stn n
  let pos := t.axis.pos
  let s := motionFails n s
  let s := rampStop n (axRate s n .SDEC) .done s
  let s := if isLeaf s n ∧ leafMoves t.leaf then
      let s := s.modAx n fun a => { a with motion := a.motion.map fun m => { m with turn := none } }
      let s := if t.leaf = .locking then s else standHeld n (some (decide (t.leaf = .opening))) s
      learnFails n (e06Ax n) (doorFailed n (e06Ax n) "position" s)
    else stepFails n (e06Ax n) "position" s
  let s := axisUnref n s
  let s := report [.ch n .ax, .st n] (.ch n .ax) [.w "position", .w "lost"] s
  settleAxis n (record 0x0302 (pInt pos) (hdCh n .ax) s)
/-- The slice of a station answers on its step lane. -/
def laneUp (s : State) (n : Nat) : Bool := chFitted s n .ax && (s.slc (slotOf n)).link

/-! ## Encoder and index (R126, R144 to R147) -/

/-- The push rule has let go of the next interval: what waits is timed anew from now (R178). -/
def retime (n : Nat) (s : State) : State :=
  let a := s.ax n
  match a.ahead with
  | i :: _ =>
    if a.loaded.isSome ∨ s.tick ≤ i.edge ∨ ¬ pushOk s n i then s
    else
      let d := s.tick + i.ticks - i.edge
      loadNext n (s.modAx n (delayAhead d))
  | [] => s
/-- A reference search counts its travel, and fails after REFMAX, or without an index after the HOME edge (R147). -/
def searchCount (n : Nat) (s : State) : State :=
  match (s.ax n).motion with
  | none => s
  | some m =>
    if m.phase ≠ .toHome ∧ m.phase ≠ .toIndex then s
    else
      let m := { m with searched := m.searched + 1, sinceHome := m.sinceHome + 1 }
      let s := s.modAx n fun a => { a with motion := some m }
      if s.axK n .REFMAX ≤ m.searched ∨ (m.phase = .toIndex ∧ s.axK n .REVCNT + s.axK n .ITOL < m.sinceHome) then
        settleAxis n (rampStop n m.dec .done (motionFails n s))
      else s
/-- The field side's index check counts the travel since the last index pulse: too much of it is a fault (R336). -/
def idxTravel (n : Nat) (s : State) : State :=
  let key := fieldOf s (slotOf n) (.ch n .ax)
  s.modStn n fun t =>
    let run := t.idxRun + 1
    { t with
      idxRun := run, encNow := false
      idxFault := t.idxFault || (decide (key .INDEX = .w "ON" ∧ key .REVCNT ≠ .unset) && t.idxPos.isSome
        && decide (kInt (key .REVCNT) + kInt (key .ITOL) < (run : Int))) }
/-- The field side checks an index pulse against the last one plus or minus REVCNT: beyond ITOL it is a fault, within it the fault is over
(R336). -/
def idxCheck (n : Nat) (s : State) : State :=
  let key := fieldOf s (slotOf n) (.ch n .ax)
  s.modStn n fun t =>
    let pos := t.axis.pos
    let bad := match t.idxPos with
      | none => t.idxFault
      | some q =>
        let e := (pos - q).natAbs
        if key .INDEX = .w "ON" ∧ key .REVCNT ≠ .unset then decide ((kInt (key .ITOL)) < (((e : Int) - kInt (key .REVCNT)).natAbs : Int)) else false
    { t with idxPos := some pos, idxRun := 0, idxFault := bad }
/-- An encoder edge: one count in the direction of EDIR; what the position governs follows it (R126, R69). -/
def encoderCount (n : Nat) (up : Bool) (s : State) : State :=
  let b0 := (s.ax n).pos
  let b1 := if up = s.keyIs (.ch n .ax) .EDIR "NORM" then b0 + 1 else b0 - 1
  let s := s.modAx n fun a => { a with pos := wrap32 b1, sinceIdx := a.sinceIdx + 1 }
  stepReached n (searchCount n (retime n (ferrWatch n (camStands n (travelled (.ax n) b0 b1 s)))))
/-- The position that an index pulse should stand at (R146). -/
def indexExpected (s : State) (n : Nat) (idx : Int) : Int :=
  let r := s.axK n .REVCNT
  idx + roundDiv ((s.ax n).pos - idx) r.toNat * r
/-- An index pulse (R146, R147, R179). -/
def indexSeen (n : Nat) (s : State) : State :=
  let a := s.ax n
  if a.motion.any (fun m => decide (m.phase = .toIndex)) then refEdge n s
  else if !s.keyIs (.ch n .ax) .INDEX "ON" ∨ !a.referenced then s
  else match a.idx with
    | none => s.modAx n fun a => { a with idx := some a.pos, sinceIdx := 0 }
    | some x =>
      if s.key (.ch n .ax) .REVCNT = .unset then s
      else
        let want := indexExpected s n x
        let e := a.pos - want
        if e = 0 then s.modAx n fun a => { a with sinceIdx := 0 }
        else if s.axK n .ITOL < e.natAbs then positionLost n s
        else
          let s := s.modAx n fun a => { a with pos := wrap32 want, sinceIdx := 0 }
          let s := s.modStn n fun t => { t with cycle := { t.cycle with resync := t.cycle.running } }
          let s := rearmJump (.ax n) (if fits32 want then crossed (.ax n) a.pos want true false s else s)
          record 0x0303 (pInt (wrap32 want) ++ pInt e) (hdCh n .ax) s

/-! ## Emitted steps (R127, R141) -/

/-- The loaded interval completes: its edge changes the commanded position, and the next interval is loaded (R126, R141). The first
edge of a move starts its charge and ends the wait of a RESUME (R154, R304). -/
def emitStep (n : Nat) (s : State) : State :=
  match (s.ax n).loaded with
  | none => s
  | some i =>
    let first := (s.ax n).motion.any fun m => !m.moving
    let s := s.modAx n fun a => { a with
      loaded := none, cmd := if i.neg then a.cmd - 1 else a.cmd + 1, dirNeg := i.neg, dirHigh := dirLevel s n i.neg
      pulse := i.edge + nsTicks (s.axK n .STEPW).toNat
      motion := a.motion.map fun m => { m with moving := true } }
    let s := if first then resumeDone n (startCharge n s) else s
    loadNext n (ferrWatch n s)

/-! ## Limits (R150, R151) -/

/-- The axis runs toward a limit. -/
def runsToward (s : State) (n : Nat) (neg : Bool) : Bool :=
  let a := s.ax n
  match a.loaded with
  | some i => decide (i.neg = neg) || (match a.ahead.getLast? with | some j => decide (j.neg = neg) | none => false)
  | none => match a.motion.bind (·.segs.head?) with
    | some g => decide (g.neg = neg)
    | none => false
/-- A limit switch has become active: an axis that runs toward it stops, HARD or at SDEC, and its command ends (R150, R151). -/
def limitHit (n : Nat) (positive : Bool) (s : State) : State :=
  if !inMotion s n ∨ ¬ runsToward s n (!positive) then s else limitStops n positive s

/-! ## The follower (R155 to R158) -/

/-- Microsteps that wait in the run-ahead buffer or the plan, as runs of one direction, oldest first. -/
def addRun (l : List (Bool × Nat)) (neg : Bool) (k : Nat) : List (Bool × Nat) :=
  if k = 0 then l
  else match l.getLast? with
    | some (d, j) => if d = neg then l.dropLast ++ [(d, j + k)] else l ++ [(neg, k)]
    | none => [(neg, k)]
/-- The microsteps a follower owes and has not loaded (R157). -/
def owedRuns (a : Axis) : List (Bool × Nat) :=
  let l := a.ahead.foldl (fun l i => addRun l i.neg 1) []
  match a.motion with
  | none => l
  | some m => match m.segs with
    | [] => l
    | g :: rest => rest.foldl (fun l g => addRun l g.neg (g.len.getD 0)) (addRun l g.neg (g.len.getD 0 - m.k))
/-- Runs as segments: all but the last at the shortest interval, the last spread evenly over a window (R157, R158). -/
def runSegs (w : Nat) : List (Bool × Nat) → Nat → List Seg
  | [], _ => []
  | [(d, k)], j => [{ typ := 0, num := j, len := some k, v0q := 0, v1q := 0, neg := d, last := true, span := some w }]
  | (d, k) :: t, j => { typ := 0, num := j, len := some k, v0q := 0, v1q := 0, neg := d, span := some 0 } :: runSegs w t (j + 1)
/-- Microsteps from the end of what is owed to the soft limit of a direction; none on an unreferenced axis (R149). -/
def softRoom (s : State) (n : Nat) (runs : List (Bool × Nat)) (neg : Bool) : Option Nat :=
  if !(s.ax n).referenced then none
  else
    let at_ := runs.foldl (fun (p : Int) r => if r.1 then p - r.2 else p + r.2) (cmdAt (s.ax n))
    let lim := limitSteps s n neg
    some (if neg then at_ - lim else lim - at_).toNat
/-- The last run before a soft limit: spread evenly, unless at that speed the axis could no longer stop at DEC in the room behind it; then
slower, so that it still can, down to standstill on the limit itself (R149). -/
def limitRun (v0q dec acc : Nat) (g : Seg) (room : Nat) : List Seg :=
  let k := g.len.getD 0
  let w := max 1 (g.span.getD 1)
  let v := k * rateUnit * tickHz / w
  let uq := 2 * dec * room * rateUnit
  if v * v ≤ uq then [g]
  else if uq < v0q then [{ g with typ := 2, span := none, v0q, v1q := uq }]
  else if room = 0 then trapFrom 0 v acc dec k g.neg
  else [{ g with span := some (k * rateUnit * tickHz / max 1 (isqrt uq)) }]
/-- The follower ends with E06 (R155, R158). -/
def followEnds (n : Nat) (s : State) : State :=
  let s := motionFails n s
  settleAxis n (s.modAx n fun a => { a with motion := a.motion.map fun m => { m with phase := .stopping, ending := some .done } })
/-- A coarse edge (R149, R150, R155, R157, R158). An edge that comes while a STOP holds the follower is not honoured, and counts in
`skipped=` as those before the report do (DESIGN CHOICE, log entry 121). -/
def coarseEdge (n : Nat) (neg : Bool) (t : Nat) (s : State) : State :=
  let a := s.ax n
  match a.motion with
  | none => s
  | some m =>
    match m.follow with
    | none => s
    | some f =>
      if m.phase = .waiting ∨ m.phase = .held ∨ !f.following then s.modAx n fun a => { a with skipped := a.skipped + 1 }
      else if m.phase ≠ .running then s
      else if limitActive s n neg then limitStops n (!neg) s
      else
        let gap := nsTicks (1000 * s.axK n .FGAP).toNat
        let period := match f.last with
          | none => gap
          | some l => if gap < t - l then gap else t - l
        let old := owedRuns a
        let room := softRoom s n old neg
        let k := match room with
          | none => f.fact
          | some r => min f.fact r
        let runs := addRun old neg k
        let owed := (old.map (·.2)).sum + f.fact
        let f := { f with last := some t, owed, neg, net := if neg then f.net - 1 else f.net + 1 }
        let s := s.modAx n fun a => { a with motion := some { m with follow := some f } }
        if 16 * f.fact < owed then
          let s := hardStop n .done (motionFails n s)
          let s := leafFaults n "follow" (e06Ax n) (s.modAx n fun a => { a with fault := some "follow" })
          settleAxis n s
        else
          let base := match a.loaded with
            | some i => i.edge
            | none => t
          let even := runSegs (t + period - base) runs 0
          let segs := match room, even.getLast? with
            | some r, some g => even.dropLast ++ limitRun (if even.length = 1 then loadedSpeedSq a else 0) (axRate s n .DEC) (axRate s n .ACC) g (r - k)
            | _, _ => even
          let s := s.modAx n fun a => { a with
            ahead := [], moving := true
            motion := a.motion.map fun m => { m with segs, k := 0, t0 := base * subTick, lastEdge := base } }
          let s := loadNext n (refill n s)
          if k < f.fact then followEnds n s else s

/-- A feed that does not conduct ends motion at once: the train, the command with E06 naming it, and the cycle of a leaf that is driven, be
it in its dwell or at the zone for its step (R130, R175). -/
def feedLost (n : Nat) (s : State) : State :=
  if (inMotion s n ∨ (isLeaf s n ∧ leafMoves (s.stn n).leaf)) ∧ ¬ fdConducts s n then
    let e : Err := { code := 6, detail := .obj (.ch n .fd) }
    let s := motionReply n (errR e) s
    settleAxis n (stepFails n e "feed" (leafFaults n "feed" e (hardStop n .done s)))
  else s

/-! ## The rows -/

/-- ENCODER_EDGE (R126). -/
def execEncoderEdge (n : Nat) (up : Bool) (s : State) : Host.Outcome State Fault Refusal :=
  .next (settle s (if laneUp s n then encoderCount n up (idxTravel n s) else s))
/-- ENCODER_FAULT (R144): the field side's fault bit stands until it counts an edge again (DESIGN CHOICE, log entry 130). -/
def execEncoderFault (n : Nat) (k : EncFault) (s : State) : Host.Outcome State Fault Refusal :=
  .next (settle s (if laneUp s n then
    settleAxis n (axisUnref n (axisFault n false "encoder" (match k with | .illegal => "illegal" | .loss => "loss") 0x0301 (s.modStn n fun t => { t with encNow := true }))) else s))
/-- FOLLOWING_ERROR (R145). -/
def execFollowingError (n : Nat) (s : State) : Host.Outcome State Fault Refusal :=
  .next (settle s (if laneUp s n ∧ heldFor (s.ax n).ferrSince s.now 5000 ∧ (s.ax n).fault ≠ some "follow" ∧ !s.engDown .mot then
    settleAxis n (axisFault n true "follow" "follow" 0x0301 s) else s))
/-- INDEX_PULSE (R146, R147, R179, R336). -/
def execIndexPulse (n : Nat) (s : State) : Host.Outcome State Fault Refusal :=
  .next (settle s (if laneUp s n then
    let s := idxCheck n s
    if s.engDown .mot then s else indexSeen n s
    else s))
/-- INDEX_MISSING (R146). -/
def execIndexMissing (n : Nat) (s : State) : Host.Outcome State Fault Refusal :=
  .next (settle s (if laneUp s n ∧ s.keyIs (.ch n .ax) .INDEX "ON" ∧ (s.ax n).referenced ∧ (s.ax n).idx.isSome
      ∧ s.key (.ch n .ax) .REVCNT ≠ .unset ∧ s.axK n .REVCNT + s.axK n .ITOL < (s.ax n).sinceIdx then
    positionLost n s else s))
/-- LIMIT_SWITCH (R150). -/
def execLimitSwitch (n : Nat) (positive : Bool) (s : State) : Host.Outcome State Fault Refusal :=
  .next (settle s (if laneUp s n ∧ limitActive s n (!positive) then limitHit n positive s else s))
/-- HELD_POSITION_DRIFT (R153). -/
def execHeldPositionDrift (n : Nat) (s : State) : Host.Outcome State Fault Refusal :=
  .next (settle s (match (s.ax n).motion with
    | some m =>
      if m.phase = .held ∧ s.axK n .FERR < ((s.ax n).pos - m.heldPos).natAbs then
        (stepFails n (e06Ax n) "position" (motionFails n s)).modAx n fun a => { a with motion := none }
      else s
    | none => s))
/-- FD_OFF_DURING_MOTION (R130). -/
def execFdOffDuringMotion (n : Nat) (s : State) : Host.Outcome State Fault Refusal := .next (settle s (feedLost n s))
/-- STEP_LANE_SILENCE (R127, R298): the run-ahead buffers are discarded, and no further step of these motions is emitted, whatever re-plans
them. -/
def execStepLaneSilence (p : Nat) (s : State) : Host.Outcome State Fault Refusal :=
  .next (settle s (forEach (stationsOf p) (fun n s => if chFitted s n .ax then cutTrain n s else s)
    (s.modSlc p fun x => { x with stepQuiet := true })))
/-- COARSE_STEP_EDGE (R155 to R158): the edge's stamp is the present tick and a part of a microsecond. -/
def execCoarseStepEdge (n : Nat) (positive : Bool) (sub : Nat) (s : State) : Host.Outcome State Fault Refusal :=
  .next (settle s (if laneUp s n then coarseEdge n (!positive) (s.tick + sub) s else s))
/-- CAM_MASTER_UPDATE (R161, R163). -/
def execCamMasterUpdate (n : Nat) (s : State) : Host.Outcome State Fault Refusal :=
  .next (settle s (camUpdate n s))
/-- CAM_LAG_EXCEEDED (R162). -/
def execCamLagExceeded (n : Nat) (s : State) : Host.Outcome State Fault Refusal :=
  .next (settle s (match (s.ax n).motion.bind (·.couple) with
    | some c => if heldFor c.lagSince s.now 20000 then settleAxis n (camLost n (modCouple n (fun c => { c with lagSince := none, engaged := false }) s)) else s
    | none => s))
/-- MOTION_COMPLETE (R136, R147): the last step of the plan has been made, on the commanded target. A closing leaf's drive goes on
pressing (R178); a coupling and a follower have no end of their own. -/
def execMotionComplete (n : Nat) (s : State) : Host.Outcome State Fault Refusal :=
  .next (settle s (
    let a := s.ax n
    match a.motion with
    | none => s
    | some m =>
      if a.loaded.isSome ∨ ¬ a.ahead.isEmpty ∨ ¬ planDone m ∨ m.couple.isSome ∨ m.follow.isSome ∨ m.kind = .doorClose then s
      else if m.phase = .refStop then refDone n s
      else if m.phase ≠ .running then s
      else if m.target.isSome ∧ m.target ≠ some a.cmd then s
      else if m.kind = .doorOpen ∨ m.kind = .reopen then standstill n s
      else moveDone n s))
/-- AXIS_STANDSTILL (R143, R152). -/
def execAxisStandstill (n : Nat) (s : State) : Host.Outcome State Fault Refusal :=
  .next (settle s (
    let a := s.ax n
    match a.motion with
    | some m => if m.phase = .stopping ∧ stands s n then standstill n s else s
    | none => if a.moving ∧ stands s n then standstill n s else s))
/-- STEP_LATE (R135): one record for a second in which intervals were stretched. -/
def execStepLate (s : State) : Host.Outcome State Fault Refusal :=
  .next (settle s (
    let k := (s.st.map fun e => e.2.axis.lateNow).sum
    if k = 0 then s
    else
      let s := { s with st := s.st.map fun e => (e.1, { e.2 with axis := { e.2.axis with lateNow := 0 } }) }
      record 0x0304 (pNum k) { engine := 4 } s))
/-- STEP_EDGE (R126, R141): the loaded interval has run out. -/
def execStepEdge (n : Nat) (s : State) : Host.Outcome State Fault Refusal :=
  .next (settle s (match (s.ax n).loaded with
    | some i => if i.edge ≤ s.tick then emitStep n s else s
    | none => s))

end Sys2Proof.Machine
end

