-- ==== Sys2Proof/Machine/DoorEvents.lean ====
section
/-! DEFINITION. What happens in the door cycle: unlocking, travel, the lock zone, locking, obstacles, the step, permission, and the
learning of profiles (05 R169 to R196). -/

namespace Sys2Proof.Machine

open Sys2Proof

/-! ## Starting an admitted move (R175, R178, R304) -/

/-- The first open of a leaf whose motorised step is unreferenced runs the step's reference search, before UNLOCK is driven (R147, R480). A
search that cannot be made fails at once. -/
def searchStep (n m : Nat) (s : State) : State :=
  let s := s.modStn n fun t => { t with stepRefs := true }
  if (s.ax m).motion.isSome ∨ (searchTest s m).isSome ∨ ¬ fdConducts s m then s
  else
    startSearch m (s.modAx m fun a => { a with
      moving := true, motion := some { lineMotion s m .ref {} with cls := 2, phase := .running, d := (s.stn m).derate } })
/-- An admitted open leaves CLOSED_LOCKED, once its step is referenced (R175, R480). -/
def leaveLocked (n : Nat) (s : State) : State :=
  match stepStation s n with
  | none => beginUnlock n s
  | some m => if (s.ax m).referenced then beginUnlock n s else searchStep n m s
/-- An admitted leaf move starts (R175): an open from CLOSED_LOCKED unlocks first; a close inside the lock zone is LOCKING; motion toward an
active limit switch is refused (R150). The wait it had enters the cycle's record (R450). -/
def startLeaf (n : Nat) (w : Wait) (s : State) : State :=
  let t := s.stn n
  let waited := s.now - w.since
  let s := (endWait n s).modStn n fun t => { t with admD := t.derate }
  if limitActive s n (!w.opening) then
    resumeFails n (e06Ax n) (dropCharge n (learnFails n (e06Ax n) (doorFailed n (e06Ax n) "limit" s)))
  else
  let s := s.modStn n fun t => { t with
    why := w.why
    cycle := { t.cycle with
      policyClip := t.cycle.policyClip || speedClipped s n
      waitOpen := if w.opening then waited else t.cycle.waitOpen, waitClose := if w.opening then t.cycle.waitClose else waited } }
  if w.opening then
    if t.leaf = .closedLocked then leaveLocked n s
    else beginOpening n (s.modStn n fun t => { t with clean := false, cycle := { t.cycle with disturbedOpen := true } })
  else
    let s := s.modStn n fun x => { x with
      clean := decide (t.leaf = .opn)
      cycle := { x.cycle with disturbedClose := x.cycle.disturbedClose || decide (t.leaf ≠ .opn), recloses := x.cycle.recloses + (if w.why = .reclose then 1 else 0), autoClose := x.cycle.autoClose || decide (w.why = .autoclose) } }
    if t.leaf = .fault ∧ t.axis.referenced ∧ t.axis.pos ≤ lockPos s n then lockIfMade n (beginClosing n (enterLocking n s))
    else beginClosing n s

/-! ## Stops of the cycle -/

/-- A leaf goes to FAULT from a driven state, its drive stopped at SDEC (R175); its charge stays until standstill (R307). -/
def leafTrips (n : Nat) (cause : String) (s : State) : State :=
  let s := if (s.ax n).motion.isSome then rampStop n (axRate s n .SDEC) .done s else dropCharge n s
  settleAxis n (faultLeaf n cause (e06St n) s)
/-- The lock zone entry of a closing leaf: LOCKING with the step STOWED, else it stops there (R178, R183). No key gives a deceleration for
CREEP: the leaf stops from CREEP at the axis DEC (DESIGN CHOICE, log entry 122). -/
def zoneEntry (n : Nat) (s : State) : State :=
  let s := if (s.stn n).learning.isSome then s else endTraverse n false s
  if stepOk s n then lockIfMade n (enterLocking n s)
  else rampStop n (axRate s n .DEC) .done (disarm n (s.modStn n fun t => { t with atZone := true }))
/-- CLOSEDSW has made in LOCKING: FINALT ends and LOCKT starts (R178). -/
def closedMakes (n : Nat) (s : State) : State :=
  if (s.stn n).closedMade then s else lockIfMade n (closedIsMade n s)
/-- One 250 us sample of force detection: armed in CLOSING, always in OPENING, never while a profile is learned (R184, R186). While the lamp engine is being reset, no
drive current is seen (R15). -/
def forceSample (n : Nat) (current : Int) (s : State) : State :=
  if s.engDown .lamp then s else
  let s := feedSample n current s
  let t := s.stn n
  if !isLeaf s n ∨ t.learning.isSome then s
  else
    let opening := decide (t.leaf = .opening)
    if ¬ opening ∧ ¬ (t.leaf = .closing ∧ t.armed) then s.modStn n fun t => { t with forceSince := none }
    else
      let limit := forceLimit s n opening
      let s := s.modStn n fun t => { t with forceSince := sinceOf t.forceSince (decide (limit < current)) s.now }
      if heldFor (s.stn n).forceSince s.now (underCeiling s n .PERSIST .PERSISTMAX).toNat then
        if opening then
          let s := openReached n s
          if (s.stn n).leaf = .opening then openingObstacle n current limit s else s
        else closingObstacle n "FORCE" current limit s
      else s
/-- A closing obstacle found otherwise than by force; a REF LEARN it disturbs ends (R184, R187, R188). -/
def otherObstacle (n : Nat) (cause : String) (s : State) : State :=
  closingObstacle n cause (s.stn n).feed (forceLimit s n false) (learnFails n (e06St n) s)
/-- A door command's failure by permission, and the close it brings (R175, R196); what stands higher in R175's table comes first. -/
def permissionGone (n : Nat) (s : State) : State :=
  let s := ripe n s
  let t := s.stn n
  let fails := fun (s : State) => learnFails n (e06St n) (doorFailed n (e06St n) "permission" s)
  let mark := fun (s : State) => s.modStn n fun t => { t with cycle := { t.cycle with permissionClose := true } }
  match t.leaf with
  | .unlocking => abortUnlock n .permission (dropCharge n (fails (mark s)))
  | .opening => turnLeaf n false .permission (fails (mark s))
  | .opn => match t.wait with
    | some w => if w.opening then askLeaf n false .permission (fails (mark (leaveWait n s))) else s
    | none => askLeaf n false .permission (fails (mark s))
  | _ => match t.wait with
    | some w => if w.opening then fails (leaveWait n s) else s
    | none => s

/-! ## What the door cycle's own events bring (R42, R172, R175) -/

/-- LOCKT has expired after CLOSEDSW with LOCKSW open (R175). -/
def lockExpires (n : Nat) (s : State) : State :=
  if isLeaf s n ∧ (s.stn n).leaf = .locking ∧ dueTime (s.stn n).lockT s ∧ ¬ inOn s n .LOCKSW then leafTrips n "lock" s else s
/-- FINALT has expired without CLOSEDSW (R175, R188). -/
def finalExpires (n : Nat) (s : State) : State :=
  if isLeaf s n ∧ (s.stn n).leaf = .locking ∧ dueTime (s.stn n).finalT s ∧ ¬ inOn s n .CLOSEDSW then
    settleAxis n (otherObstacle n "FINAL" s) else s
/-- RDWELL has ended: the leaf asks to reclose (R175, R189). -/
def dwellEnds (n : Nat) (s : State) : State :=
  if isLeaf s n ∧ (s.stn n).leaf = .reversing ∧ dueTime (s.stn n).rdwell s then
    askLeaf n false .reclose (sysDrop n 7 (s.modStn n fun t => { t with rdwell := none, attempts := t.attempts + 1 }))
  else s
/-- STOWT has run out before STOWSW made (R183). -/
def stowExpires (n : Nat) (s : State) : State :=
  if isLeaf s n ∧ (s.stn n).leaf = .closing ∧ dueTime (s.stn n).stowT s ∧ ¬ inOn s n .STOWSW then leafTrips n "step" s else s
/-- AUTOCLOSE has expired (R175). -/
def autoCloses (n : Nat) (s : State) : State :=
  if isLeaf s n ∧ (s.stn n).leaf = .opn ∧ dueTime (s.stn n).autoT s then
    let s := sysDrop n 15 (s.modStn n fun t => { t with autoT := none })
    if (s.stn n).wait = none then askLeaf n false .autoclose s else s
  else s
/-- A closing leaf has reached its lock zone; an edge that presses at this instant governs (R175, R178, R183). -/
def zoneReached (n : Nat) (s : State) : State :=
  if zoneDue s n then
    if edgePresses s n then settleAxis n (otherObstacle n "EDGE" s) else zoneEntry n s
  else s
/-- OUT1 drives the step out as the leaf passes STEPDEP going up (R181, R182). -/
def stepOut1Deploys (n : Nat) (s : State) : State :=
  if isLeaf s n ∧ stepOut1 s n ∧ ((s.stn n).leaf = .opening ∨ (s.stn n).leaf = .reversing) ∧ (s.ax n).referenced
      ∧ stCounts s n .STEPDEP ≤ (s.ax n).pos ∧ ¬ (s.stn n).buf.out1 then
    askOut n true true (sysDrop n 4 (s.modStn n fun t => { t with
      step := .deploying, stepSince := s.now, stowT := none, stepT := some (afterUs (s.stK n .STEPT).toNat s) }))
  else s
/-- OUT1 lets the step in as the leaf passes STEPSTOW going down; STOWT runs (R181, R182). -/
def stepOut1Stows (n : Nat) (s : State) : State :=
  if isLeaf s n ∧ stepOut1 s n ∧ (s.stn n).leaf = .closing ∧ (s.ax n).pos ≤ stCounts s n .STEPSTOW ∧ (s.stn n).buf.out1 then
    askOut n true false (sysDrop n 5 (beginStow n (s.modStn n fun t => { t with stepT := none })))
  else s
/-- STEPT has elapsed since OUT1 on, with STOWSW open (R182). -/
def stepOut1Deployed (n : Nat) (s : State) : State :=
  if isLeaf s n ∧ stepOut1 s n ∧ (s.stn n).step = .deploying ∧ dueTime (s.stn n).stepT s ∧ ¬ inOn s n .STOWSW then
    s.modStn n fun t => { t with step := .deployed, stepT := none, cycle := { t.cycle with deploy := some (s.now - t.stepSince) } }
  else s
/-- An event of the door cycle's own fires in a leaf's slot (R69, R172). -/
def doorFires (n off : Nat) (s : State) : State :=
  let s := (sysDrop n off s).worked .evt
  match off with
  | 1 => lockExpires n (unlockExpires n s)
  | 2 => zoneReached n s
  | 3 => s.modStn n fun t => { t with armed := true, forceSince := none }
  | 4 => stepOut1Deploys n s
  | 5 => stepOut1Stows n s
  | 7 => stowExpires n (dwellEnds n (finalExpires n s))
  | 15 => autoCloses n s
  | _ => s

/-! ## The rows -/

/-- LOCKSW_OPENS (R175, R177, R181). -/
def execLockswOpens (n : Nat) (s : State) : Host.Outcome State Fault Refusal :=
  .next (settle s (if isLeaf s n ∧ (s.stn n).leaf = .unlocking ∧ ¬ inOn s n .LOCKSW then
    lockOpens n s else s))
/-- UNLOCKT_EXPIRY (R175). -/
def execUnlocktExpiry (n : Nat) (s : State) : Host.Outcome State Fault Refusal :=
  .next (settle s (unlockExpires n s))
/-- LOCKZONE_PASSED_UP (R175, R177). -/
def execLockzonePassedUp (n : Nat) (s : State) : Host.Outcome State Fault Refusal :=
  .next (settle s (if isLeaf s n ∧ (s.stn n).leaf = .opening ∧ lockPos s n ≤ (s.ax n).pos then unlockOut n false s else s))
/-- OPENPOS_REACHED (R175). -/
def execOpenposReached (n : Nat) (s : State) : Host.Outcome State Fault Refusal :=
  .next (settle s (openReached n s))
/-- LOCK_ZONE_ENTRY (R175, R178, R183). -/
def execLockZoneEntry (n : Nat) (s : State) : Host.Outcome State Fault Refusal :=
  .next (settle s (zoneReached n s))
/-- CLOSEDSW_MAKES (R178, R180): on an unreferenced leaf it is the lock zone entry as well. -/
def execClosedswMakes (n : Nat) (s : State) : Host.Outcome State Fault Refusal :=
  .next (settle s (if isLeaf s n ∧ inOn s n .CLOSEDSW then
    let t := s.stn n
    if t.leaf = .locking then closedMakes n s
    else if t.leaf = .closing ∧ ¬ t.axis.referenced ∧ ¬ t.atZone ∧ t.axis.motion.isSome then
      let s := zoneEntry n (s.modStn n fun t => { t with clean := false })
      if (s.stn n).leaf = .locking then closedMakes n s else s
    else s
    else s))
/-- LOCKSW_MAKES (R175, R178, R179). -/
def execLockswMakes (n : Nat) (s : State) : Host.Outcome State Fault Refusal :=
  .next (settle s (if isLeaf s n ∧ (s.stn n).leaf = .locking ∧ (s.stn n).closedMade ∧ bothMade s n then lockDone n s else s))
/-- LOCKT_EXPIRY (R175). -/
def execLocktExpiry (n : Nat) (s : State) : Host.Outcome State Fault Refusal :=
  .next (settle s (lockExpires n s))
/-- FINALT_EXPIRY (R175, R188). -/
def execFinaltExpiry (n : Nat) (s : State) : Host.Outcome State Fault Refusal :=
  .next (settle s (finalExpires n s))
/-- FORCE_OBSTACLE (R175, R186, R189): one 250 us sample of the feed current. -/
def execForceObstacle (n : Nat) (current : Int) (s : State) : Host.Outcome State Fault Refusal :=
  .next (settle s (if laneUp s n then settleAxis n (forceSample n current s) else s))
/-- EDGE_OBSTACLE (R175, R187, R189). -/
def execEdgeObstacle (n : Nat) (s : State) : Host.Outcome State Fault Refusal :=
  .next (settle s (
    let s := if (s.stn n).closedMade then lockIfMade n s else s
    if edgePresses s n then settleAxis n (otherObstacle n "EDGE" s) else s))
/-- REOPEN_COMPLETE (R175, R189): the dwell begins, or the leaf is HELD with its attempts used up. -/
def execReopenComplete (n : Nat) (s : State) : Host.Outcome State Fault Refusal :=
  .next (settle s (
    let t := s.stn n
    if isLeaf s n ∧ t.leaf = .reversing ∧ t.reopened ∧ t.rdwell = none ∧ t.wait = none then
      if t.attempts < s.keyN (.st n) .RECLOSE then
        let us := (s.stK n .RDWELL).toNat
        slotTimer n 7 us (s.modStn n fun t => { t with rdwell := some (afterUs us s) })
      else doorFailed n (e06St n) "obstacle" (holdLeaf n (some false) s)
    else s))
/-- RDWELL_EXPIRY (R175, R189): the leaf asks to reclose. -/
def execRdwellExpiry (n : Nat) (s : State) : Host.Outcome State Fault Refusal :=
  .next (settle s (dwellEnds n s))
/-- AUTOCLOSE_EXPIRY (R175). -/
def execAutocloseExpiry (n : Nat) (s : State) : Host.Outcome State Fault Refusal :=
  .next (settle s (autoCloses n s))
/-- FORCED_OPEN (R175). -/
def execForcedOpen (n : Nat) (s : State) : Host.Outcome State Fault Refusal :=
  .next (settle s (
    let t := s.stn n
    if isLeaf s n ∧ t.leaf = .closedLocked ∧ ¬ bothMade s n ∧ t.doorOp = none ∧ t.learning = none ∧ t.wait = none then faultLeaf n "forced" (e06St n) s
    else s))
/-- STEP_DEPLOY (R181, R182): OUT1 drives the step out as the leaf passes STEPDEP. -/
def execStepDeploy (n : Nat) (s : State) : Host.Outcome State Fault Refusal :=
  .next (settle s (stepOut1Deploys n s))
/-- STEP_STOW (R181, R182): OUT1 lets the step in as the leaf passes STEPSTOW; STOWT runs. -/
def execStepStow (n : Nat) (s : State) : Host.Outcome State Fault Refusal :=
  .next (settle s (stepOut1Stows n s))
/-- STEPT_EXPIRY (R182). -/
def execSteptExpiry (n : Nat) (s : State) : Host.Outcome State Fault Refusal :=
  .next (settle s (stepOut1Deployed n s))
/-- STOWSW_MAKES (R182, R183): a leaf that waits at the lock zone for its step goes on. -/
def execStowswMakes (n : Nat) (s : State) : Host.Outcome State Fault Refusal :=
  .next (settle s (
    let t := s.stn n
    if isLeaf s n ∧ inOn s n .STOWSW then
      let s := s.modStn n fun t => { t with
        step := .stowed, stowT := none, stepT := none, cycle := if t.step = .stowing then { t.cycle with stow := some (s.now - t.stepSince) } else t.cycle }
      let s := if t.finalT = none ∧ t.rdwell = none then sysDrop n 7 s else s
      if t.atZone ∧ t.leaf = .closing then lockIfMade n (askLeaf n false t.why (enterLocking n s)) else s
    else s))
/-- STOWT_EXPIRY (R183). -/
def execStowtExpiry (n : Nat) (s : State) : Host.Outcome State Fault Refusal :=
  .next (settle s (stowExpires n s))
/-- PERMISSION_LOST (R175, R196). -/
def execPermissionLost (n : Nat) (s : State) : Host.Outcome State Fault Refusal :=
  .next (settle s (if isLeaf s n ∧ ¬ permits s n then permissionGone n s else s))

/-- EVENT_FIRE (R68, R69): the first of the row of crossings is handed on, a session's event or one of the door cycle's own. -/
def execEventFire (s : State) : Host.Outcome State Fault Refusal :=
  .next (settle s (if s.noTime .evt ∨ ¬ s.head.started then s else fireHead verbSpec doorFires s))

end Sys2Proof.Machine
end

