-- ==== Sys2Proof/Machine/Yarrow.lean ====
section
/-! DEFINITION. Yarrow at work: the admission tick, waits that end, dimming and its restoration, derating, and the group protocol
(09 R300 to R329). -/

namespace Sys2Proof.Machine

open Sys2Proof

/-! ## The measured bus (R307, R313) -/

/-- The measured current of a bus: the 250 us samples of its stations' feeds as 1 ms means, mA (R307). -/
def measuredBus (s : State) (b : Nat) : Nat :=
  (s.st.map fun e => if busOfSt s e.1 = b then e.2.feedMean else 0).sum
/-- The energy of one millisecond on a bus, nJ (R313). -/
def busEnergy (s : State) (b : Nat) : Nat :=
  (s.st.map fun e => if busOfSt s e.1 = b then e.2.feedMean * e.2.busU else 0).sum
/-- The millisecond's feed samples become their mean; without a sample the latest one stands (R307). -/
def meanFeeds (s : State) : State :=
  forEach (s.st.map (·.1)) (fun n s => s.modStn n fun t => { t with
    feedMean := if t.feedCount = 0 then t.feed.toNat else t.feedSum / t.feedCount, feedSum := 0, feedCount := 0 }) s
/-- The losses of the millisecond join those of the last second (R314). -/
def noteLosses (s : State) : State :=
  let old := fun (k : Nat) => (tget [] s.yar.losses k).filter fun e => decide (s.now < e.1 + 1000000)
  let now_ := fun (n : Nat) (w : Sw) =>
    let l := lossNow s n w
    (lossIdx n w, (if l = 0 then [] else [(s.now, l)]) ++ old (lossIdx n w))
  s.modYar fun y => { y with losses := ((s.st.map fun e => [now_ e.1 .la, now_ e.1 .lb, now_ e.1 .fd]).flatten).filter fun e => !e.2.isEmpty }
/-- A bus takes its measured current; what exceeds its charge is unexplained for 1,000 ms (R307). -/
def measureBus (b : Nat) (s : State) : State :=
  let m := measuredBus s b
  let e := busEnergy s b
  let over_ := m - busBin s b 0
  let win := 1000 * s.keyN (.bus b) .EWIN
  s.modBus b fun x => { x with
    meas := m
    energy := (if e = 0 then [] else [(s.now, e)]) ++ x.energy.filter fun q => decide (s.now ≤ q.1 + win)
    unexplained := (if over_ = 0 then [] else [(over_, s.now + 1000000)]) ++ x.unexplained.filter fun q => decide (s.now < q.2) }

/-! ## Candidates (R301, R303, R305, R308) -/

/-- A waiting move as it is offered: its class, its station and wait, and the charges it would make. -/
structure Cand where
  n : Nat
  w : Wait
  charges : List Charge
  deriving DecidableEq, Repr

/-- A motion without an end of its own: a continuous jog that no soft limit ends, a search, a follower, a coupling (R301, R312). -/
def endless (s : State) (n : Nat) (m : Motion) : Bool :=
  m.follow.isSome || m.couple.isSome || decide (m.kind = .ref) || m.after.isSome || (m.target.isNone && !(s.ax n).referenced)
/-- The direction in which a motion without an end of its own draws on a leaf's profile: a jog's; a search's, and after it the move it was
made for; of a follower and a coupling none is known (R147, R303). -/
def endlessDir (s : State) (n : Nat) (m : Motion) : Option Bool :=
  if m.follow.isSome || m.couple.isSome || m.after.isSome then none
  else if m.kind = .ref then some (!s.keyIs (.ch n .ax) .HOMEDIR "NEG")
  else some (!m.neg)
/-- The charges of a waiting move: its own, and its motorised step's (R303, R305). -/
def candCharges (s : State) (n : Nat) (w : Wait) : List Charge :=
  let bus := busOfSt s n
  match (s.ax n).motion with
  | some m =>
    if m.phase = .waiting then
      let m := { m with d := (s.stn n).derate }
      if endless s n m then [{ station := n, bus, cls := w.cls, env := [envTop s n (endlessDir s n m)], open_ := true }]
      else
        let segs := motionPlan s n m
        let neg := decide ((segs.head?.map (·.neg)) = some true)
        [{ station := n, bus, cls := w.cls, env := envelope s n (!neg) segs (cmdAt (s.ax n)) neg }]
    else leafCharges s n w.cls w.opening (leafMotion s n (s.stn n).derate w.opening)
  | none => leafCharges s n w.cls w.opening (leafMotion s n (s.stn n).derate w.opening)
/-- An object is one of a heat test: a slice or the unit (R315). -/
def heatObj : Obj → Bool
  | .sl _ | .unit => true
  | _ => false
/-- The field side has yet to report a dimmed PWR or ISET of an object's channels (R316). -/
def dimWaits (s : State) (o : Obj) : Bool :=
  allSlices.any fun p => (match o with | .sl q => p == q | _ => true) && (s.slc p).writes.any fun e => match e.1 with
    | (.ch n _, .PWR) | (.ch n _, .ISET) => decide (slotOf n = p)
    | _ => false
/-- A wait that a tick may offer: not tentative, a leaf that leaves FAULT has its feed, and the dimming made for it has been reported (R236,
R316, R322). -/
def offered (s : State) (n : Nat) (w : Wait) : Bool :=
  w.tentative.isNone && !(match w.failed with | some o => heatObj o && dimWaits s o | none => false) && !((s.stn n).leaf = .fault && isLeaf s n && !fdConducts s n)
/-- The moves that wait, in a tick's order: by class, by the instant each began to wait, by station (R308). -/
def putCand (x : Nat × Wait) : List (Nat × Wait) → List (Nat × Wait)
  | [] => [x]
  | y :: l => if x.2.cls < y.2.cls ∨ (x.2.cls = y.2.cls ∧ x.2.since < y.2.since) then x :: y :: l else y :: putCand x l
/-- The waiting moves in order. -/
def waiting (s : State) : List (Nat × Wait) :=
  (s.st.filterMap fun e => e.2.wait.map fun w => (e.1, w)).foldl (fun l x => putCand x l) []

/-! ## Tests (R312 to R315, R321) -/

/-- A grouped bus has had the group reports it wants (R327, R329). -/
def groupHeard (s : State) (b : Nat) : Bool :=
  groupOf s b = 0 || heldFor (s.busOf b).reportsSince s.now (s.busOf b).reportNeed
/-- The first test a candidate fails, by its object (R308, R309): what a leaf and its step charge on one bus, group or slice counts together
(R305). -/
def failedTest (s : State) (c : Cand) : Option Obj :=
  let onBus := fun (b : Nat) => c.charges.filter (·.bus = b)
  let bus := c.charges.find? fun x => !peakTest s x.bus ((onBus x.bus).foldl (fun l y => addEnv l (testEnv s y)) [])
  let energy := c.charges.find? fun x => !energyTest s x.bus (onBus x.bus)
  let inGroup := fun (g : Nat) => ((c.charges.filter (groupOf s ·.bus = g)).map fun y => envMax y.env).sum
  let group := c.charges.find? fun x => !groupTest s (groupOf s x.bus) (inGroup (groupOf s x.bus))
  let heat := decide (2 ≤ c.w.cls)
  let slice := if heat then c.charges.find? fun x => !sliceTest s (slotOf x.station) c.charges else none
  let crate := heat && !(decide (crateHeat s + (c.charges.map fun x => moveHeat x.env).sum ≤ crateCap s))
  (bus.map fun x => Obj.bus x.bus) <|> (energy.map fun x => Obj.bus x.bus) <|> (group.map fun x => Obj.bus x.bus)
    <|> (slice.map fun x => Obj.sl (slotOf x.station)) <|> (if crate then some .unit else none)
/-- A candidate draws on an object (R309). -/
def drawsOn (c : Cand) (o : Obj) : Bool :=
  match o with
  | .bus b => c.charges.any fun x => x.bus == b
  | .sl p => decide (2 ≤ c.w.cls) && c.charges.any fun x => slotOf x.station == p
  | _ => decide (2 ≤ c.w.cls)

/-! ## Dimming (R316, R317) -/

/-- The number an object has among the dims: a slice's own, 8 for the unit. -/
def heatIdx : Obj → Nat
  | .sl p => p
  | _ => 8
/-- The load channels of an object. -/
def heatChans (o : Obj) : List (Nat × Sw) :=
  ((match o with | .sl p => stationsOf p | _ => allStations).map fun n => [(n, Sw.la), (n, Sw.lb)]).flatten
/-- Its dimmable channels (R316). -/
def dimChans (s : State) (o : Obj) : List (Nat × Sw) := (heatChans o).filter fun x => chFitted s x.1 (swChan x.2) && dimmable s x.1 x.2
/-- The fraction a channel goes to under the fractions of its slice and of the unit (R316). -/
def dimOf (s : State) (n : Nat) (w : Sw) : Nat :=
  let f := min (tget 100 s.yar.dims (slotOf n)) (tget 100 s.yar.dims 8)
  if dimmable s n w then max f (s.swK n w .DIMMIN).toNat else 100
/-- A channel is dimmed, or raised again: its PWR or ISET is written to the field side (R208, R316). Of each dimming and of the full
restoration its watchers hear of it, and a dim record is written (R317). -/
def setDim (x : Nat × Sw) (s : State) : State :=
  let f := dimOf s x.1 x.2
  let old := (s.sw x.1 x.2).dim
  if f = old then s
  else
    let s := s.modSw x.1 x.2 fun q => { q with dim := f }
    let k := if s.keyIs (.ch x.1 (swChan x.2)) .MODE "CC" then Key.ISET else .PWR
    let s := queueWrite (.ch x.1 (swChan x.2)) k (s.key (.ch x.1 (swChan x.2)) k) s
    if f < old ∨ f = 100 then
      let c := swChan x.2
      record 0x0705 (pNum f) (hdCh x.1 c) (reportCh x.1 c [.w "dimmed", .kn "f" f "%"] s)
    else s
/-- An object takes a fraction (R316). -/
def dimTo (o : Obj) (f : Nat) (s : State) : State :=
  let s := s.modYar fun y => { y with dims := tset y.dims (heatIdx o) f }
  forEach (dimChans s o) setDim s
/-- The prediction of an object (R314). -/
def heatOf (s : State) (o : Obj) : Nat := match o with | .sl p => sliceHeat s p | _ => crateHeat s
/-- The cap of an object (R315). -/
def capOf (s : State) (o : Obj) : Nat := match o with | .sl p => sliceCap s p | _ => crateCap s
/-- The prediction of an object with its dimmable channels at a fraction. -/
def heatAt (s : State) (o : Obj) (f : Nat) : Nat :=
  let l := dimChans s o
  heatOf s o - (l.map fun x => chanHeat s x.1 x.2).sum + (l.map fun x => lossAt s x.1 x.2 f).sum
/-- The largest whole percent, at least every DIMMIN, that lets a heat fit; none where no such fraction exists (R316). -/
def dimFraction (s : State) (o : Obj) (heat : Nat) : Option Nat :=
  let low := (dimChans s o).foldl (fun a x => max a (s.swK x.1 x.2 .DIMMIN).toNat) 1
  ((List.range 101).reverse.filter fun f => decide (low ≤ f)).find? fun f => decide (heatAt s o f + heat ≤ capOf s o)
/-- A failed heat test dims the object's channels so that every move that waits on it would fit (R316). -/
def dimFor (o : Obj) (heat : Nat) (s : State) : State :=
  if (dimChans s o).isEmpty then s
  else match dimFraction s o heat with
    | some f => if f < tget 100 s.yar.dims (heatIdx o) then dimTo o f s else s
    | none => dimTo o 1 s

/-! ## The tick (R308, R309) -/

/-- A move is admitted: it starts (R131, R175). -/
def admitMove (n : Nat) (w : Wait) (s : State) : State :=
  match (s.ax n).motion with
  | some m => if m.phase = .waiting then startMotion n s else startLeaf n w s
  | none => startLeaf n w s
/-- A passed candidate is charged; on a grouped bus it is tentative for 20 ms (R304, R322). -/
def charge (c : Cand) (s : State) : State :=
  let start := s.time + 20000000
  let r := chargeAll 2 start c.charges s
  let s := r.2
  match r.1.findSome? (·.res) with
  | some (id, _) => s.modStn c.n fun t => { t with wait := t.wait.map fun w => { w with tentative := some (id, start) } }
  | none => admitMove c.n c.w s
/-- A leaf may still make the move it waits for: an unreferenced leaf opens only from CLOSED_LOCKED (R180). -/
def stillFit (s : State) (n : Nat) (w : Wait) : Bool :=
  let t := s.stn n
  (match t.axis.motion with | some m => decide (m.phase = .waiting) | none => false)
    || !w.opening || decide (t.leaf = .closedLocked) || t.axis.referenced
/-- The heat that the moves of a list would bring to an object (R316). -/
def waitHeat (s : State) (o : Obj) (l : List (Nat × Wait)) : Nat :=
  (l.map fun x =>
    let c : Cand := { n := x.1, w := x.2, charges := candCharges s x.1 x.2 }
    if drawsOn c o then (match o with | .sl p => heatOn p c.charges | _ => (c.charges.map fun q => moveHeat q.env).sum) else 0).sum
/-- The waiting moves are offered in turn; a move that fails blocks its object for the rest of the tick (R308, R309). -/
def offerAll : List (Nat × Wait) → List Obj → State → State
  | [], _, s => s
  | (n, w) :: l, blocked, s =>
    if !offered s n w then offerAll l blocked s
    else if !stillFit s n w then offerAll l blocked (doorFailed n (e06Ax n) "position" (resumeFails n (e06Ax n) (endWait n s)))
    else
      let c : Cand := { n, w, charges := candCharges s n w }
      if blocked.any (drawsOn c) || !(c.charges.all fun x => groupHeard s x.bus) then offerAll l blocked s
      else match failedTest s c with
        | none => offerAll l blocked (charge c s)
        | some o =>
          let s := s.modStn n fun t => { t with wait := t.wait.map fun w => { w with failed := some o } }
          let s := match o with
            | .sl _ | .unit => dimFor o (waitHeat s o ((n, w) :: l)) s
            | _ => s
          offerAll l (o :: blocked) s
/-- Some move waits on an object. -/
def waitsOn (s : State) (o : Obj) : Bool := s.st.any fun e => match e.2.wait with
  | some w => decide (w.failed = some o)
  | none => false
/-- The bits and the times that heat leaves behind a tick (R315, R317). -/
def heatMarks (s : State) : State :=
  let s := forEach allSlices (fun p s => s.modSlc p fun x => { x with heatFail := waitsOn s (.sl p) || decide (sliceCap s p ≤ sliceHeat s p) }) s
  let s := s.modYar fun y => { y with crateFail := waitsOn s .unit || decide (crateCap s ≤ crateHeat s) }
  forEach (List.range 9) (fun k s =>
    let o : Obj := if k = 8 then .unit else .sl k
    s.modYar fun y => { y with
      freeSince := if waitsOn s o then tdel y.freeSince k else if y.freeSince.any (·.1 = k) then y.freeSince else tset y.freeSince k s.now }) s
/-- Yarrow may admit (R327 to R329). -/
def mayAdmit (s : State) : Bool :=
  s.head.started && s.head.loaded && !s.head.bit31 && !s.noTime .bud && !s.noTime .mot
/-- The multicast groups of this unit, 239.80.x.y as 256 x + y: the two of every unit and those of its grouped buses (R366). -/
def wantedGroups (s : State) : List Nat := [1, 2] ++ (([0, 1, 2, 3].map (groupOf s)).filter (· ≠ 0)).eraseDups.map (256 + ·)
/-- An IGMPv2 message for a group: 22 a membership report, 23 a leave. -/
def igmp (type group : Nat) (s : State) : State :=
  transmit .igmp none ([BitVec.ofNat 8 type, 0] ++ le 2 0 ++ [239, 80, BitVec.ofNat 8 (group / 256), BitVec.ofNat 8 group]) s
/-- Groups left and joined since the last tick (R366). -/
def joinGroups (s : State) : State :=
  let want := wantedGroups s
  if ¬ s.head.started ∨ s.engDown .net ∨ s.net.groups = want then s
  else
    let s := forEach (s.net.groups.filter (· ∉ want)) (igmp 23) s
    let s := forEach (want.filter (· ∉ s.net.groups)) (igmp 22) s
    s.modNet fun n => { n with groups := want }
/-- One tick (R308): the measured currents, then the waiting moves. -/
def tick (s : State) : State :=
  let s := forEach [0, 1, 2, 3] measureBus (noteLosses (meanFeeds s))
  let s := if mayAdmit s then offerAll (waiting s) [] s else s
  (heatMarks (joinGroups s)).worked .bud

/-! ## Waits that end (R310) -/

/-- The longest wait of a class, us (R300). -/
def longestWait : Nat → Option Nat
  | 1 => some 2000000
  | 2 => some 5000000
  | 3 => some 5000000
  | _ => none
/-- A move has waited longer than its class may (R310). One that has failed no test names the unit while bit 31 is set, else its bus (DESIGN
CHOICE, log entry 136). -/
def waitEnds (n : Nat) (w : Wait) (s : State) : State :=
  let t := s.stn n
  let o := w.failed.getD (if s.head.bit31 then .unit else .bus (busOfSt s n))
  let e : Err := { code := 8, detail := .obj o }
  let rec_ := fun (s : State) => record 0x0701 (pObj o ++ pNum w.cls ++ pDur (s.now - w.since)) { station := n, engine := 6 } s
  if w.why = .permission ∨ w.why = .autoclose then
    let s := s.modStn n fun t => { t with wait := t.wait.map fun w => { w with reported := true } }
    rec_ (report [.st n] (.st n) [.w "budget", .w "E08", .obj o] s)
  else
    let s := rec_ (resumeFails n e (endWait n (dropCharge n s)))
    match t.axis.motion with
    | some m =>
      if m.phase = .waiting then doorFailed n e "budget" ((motionReply n (errR e) s).modAx n fun a => { a with motion := none, moving := false })
      else doorFailed n e "budget" s
    | none =>
      let s := if leafMoves t.leaf then holdLeaf n (some w.opening) s else s
      doorFailed n e "budget" s

/-! ## Derating (R318) -/

/-- The temperature that sets a station's D: the 10 s mean, or the latest reading until 10 s of history exist, 0.1 C (R318, R329). -/
def derateTemp (s : State) (n : Nat) : Option Int :=
  let t := s.stn n
  let l := t.dies.filter fun e => decide (s.now ≤ e.1 + 10000000)
  match l with
  | [] => none
  | e :: _ =>
    if heldFor t.diesFrom s.now 10000000 then some (roundDiv (l.map (·.2)).sum l.length) else some e.2
/-- Every station takes its speed factor (R318). -/
def derateAll (s : State) : State :=
  forEach allStations (fun n s => match derateTemp s n with
    | none => s
    | some t => s.modStn n fun x => { x with derate := factorD s t }) s

/-! ## Groups (R321 to R326) -/

/-- A report of each grouped bus (R321). -/
def groupReport (s : State) : State :=
  forEach [0, 1, 2, 3] (fun b s => sendBudget b 1 0 (baseCurrent s b) 0 s.time 0 s) s
/-- A tentative move is withdrawn: its charge goes with a release, and it waits on (R322). -/
def withdraw (n : Nat) (s : State) : State :=
  (dropCharge n s).modStn n fun t => { t with wait := t.wait.map fun w => { w with tentative := none } }
/-- A station's move charges a bus of a group. -/
def chargesIn (s : State) (n g : Nat) : Bool := s.yar.charges.any fun c => decide (c.of = n ∧ groupOf s c.bus = g) && !c.byOut
/-- Another's tentative frame and this unit's tentative moves of the group do not fit together: ours of the higher class, or of equal
class on the higher unit, is withdrawn (R322). -/
def conflictTest (g src cls : Nat) (s : State) : State :=
  forEach (s.st.filterMap fun e => match e.2.wait with
      | some w => if w.tentative.isSome then some (e.1, w) else none
      | none => none) (fun x s =>
    if !chargesIn s x.1 g || decide (groupCharge s g ≤ groupPeak s g) then s
    else if cls < x.2.cls ∨ (cls = x.2.cls ∧ src < ownUnit s) then withdraw x.1 s
    else s) s
/-- The number under which a member's bus is kept. -/
def memberKey (src bus : Nat) : Nat := 4 * src + bus
/-- A member has been heard on a group (R325). -/
def heardMember (src : Nat) (s : State) : State :=
  s.modYar fun y => { y with members := y.members.map fun e => if e.1 / 4 = src then (e.1, { e.2 with seenAt := s.now }) else e }
/-- What is known of a member's bus. -/
def memberBus (s : State) (src bus g : Nat) : Member := tget { group := g, base := 0, seenAt := 0, gpeak := 0 } s.yar.members (memberKey src bus)
/-- A frame of any type but leave carries its member's GPEAK; one that differs from this unit's own is journalled once (R321, R326). -/
def takeGpeak (src bus g gpeak : Nat) (s : State) : State :=
  let s := s.modYar fun y => { y with members := tset y.members (memberKey src bus) { memberBus s src bus g with seenAt := s.now, gpeak } }
  forEach (ownBuses s g) (fun b s =>
    if gpeak ≠ (ownGpeak s b + 50) / 100 * 100 ∧ ¬ (s.busOf b).mismatchTold then
      record 0x0703 (pInt (10 * ownGpeak s b) ++ pInt (10 * gpeak)) { engine := 6 } (s.modBus b fun x => { x with mismatchTold := true })
    else s) s
/-- A report frame: the member's base current in its group (R321). -/
def takeReport (src bus g base : Nat) (s : State) : State :=
  let old := memberBus s src bus g
  let hist := (s.now, base) :: old.hist.filter fun h => decide (s.now ≤ h.1 + 5000000)
  let s := s.modYar fun y => { y with members := tset y.members (memberKey src bus) { old with group := g, base, hist } }
  forEach (ownBuses s g) (fun b s => s.modBus b fun x => { x with reportsSince := some (x.reportsSince.getD s.now) }) s
/-- A reservation of a member is taken or renewed (R322, R323). -/
def takeReserve (r : Reserve) (s : State) : State :=
  s.modYar fun y => { y with reserves := y.reserves.filter (fun q => decide (q.source ≠ r.source ∨ q.id ≠ r.id)) ++ [r] }
/-- A member's reservation is dropped. -/
def dropReserve (src id : Nat) (s : State) : State :=
  s.modYar fun y => { y with reserves := y.reserves.filter fun q => decide (q.source ≠ src ∨ q.id ≠ id) }
/-- A sequence number has been seen from a source; at most 64 are remembered (R326). -/
def seenSeq (t : Tbl (List Nat)) (src seq : Nat) : Bool := (tget [] t src).any (· == seq)
/-- A sequence number is remembered. -/
def noteSeq (t : Tbl (List Nat)) (src seq : Nat) : Tbl (List Nat) := tset t src ((seq :: tget [] t src).take 64)
/-- A budget frame (R326). -/
def budgetFrame (b : List Byte) (s : State) : State :=
  let src := fieldAt b 0 2
  let g := fieldAt b 2 1
  let type := fieldAt b 3 1
  let id := fieldAt b 4 4
  let cur := 100 * fieldAt b 8 2
  let cls := fieldAt b 10 1
  let bus := fieldAt b 11 1
  let time := unleI (slice b 12 8)
  let dur := fieldAt b 20 4
  let gpeak := 100 * fieldAt b 24 2
  let seq := fieldAt b 26 2
  if b.length ≠ 32 ∨ fieldAt b 28 4 ≠ (crc32 (b.take 28)).toNat ∨ seenSeq s.yar.seen src seq ∨ src = ownUnit s ∨ 1024 ≤ src
      ∨ (s.peer src).conflict = true then s
  else
    let s := heardPeer src (s.modYar fun y => { y with seen := noteSeq y.seen src seq })
    if ¬ ([0, 1, 2, 3].any fun b => groupOf s b == g) ∨ g = 0 then s
    else
      let s := (heardMember src s).worked .bud
      let s := if type = 0 ∨ 6 ≤ type then s else takeGpeak src bus g gpeak s
      let r : Reserve := { source := src, id, group := g, peak := cur, cls, firm := decide (type = 3), start := time, duration := dur, seenAt := s.now }
      match type with
      | 1 => takeReport src bus g cur s
      | 2 => conflictTest g src cls (takeReserve r s)
      | 3 => takeReserve r s
      | 4 => dropReserve src id s
      | 5 => takeReserve { r with firm := true } s
      | 6 => s.modYar fun y => { y with
          members := y.members.filter fun e => decide (e.1 / 4 ≠ src ∨ e.2.group ≠ g), reserves := y.reserves.filter fun q => decide (q.source ≠ src ∨ q.group ≠ g) }
      | _ => s
/-- A tentative move's start instant t has come: firm frames go out and the move is admitted (R322). -/
def tentativeStarts (n : Nat) (t : Int) (w : Wait) (s : State) : State :=
  let s := forEach (s.yar.charges.filter fun c => decide (c.of = n ∧ ¬ c.byOut)) (fun c s => match c.res with
    | some (id, _) => sendBudget c.bus 3 id (envMax c.env) c.cls t (resLength c) s
    | none => s) s
  admitMove n w s
/-- A move that runs beyond its reservation renews it every second for the time that remains (R323). -/
def renew (n : Nat) (s : State) : State :=
  forEach (s.yar.charges.filter fun c => decide (c.of = n ∧ ¬ c.byOut)) (fun c s => match c.res with
    | some (id, t) =>
      if t ≤ s.time + 100000000 then
        let s := s.modYar fun y => { y with charges := y.charges.map fun q => if q.res = some (id, t) then { q with res := some (id, t + 1000000000) } else q }
        sendBudget c.bus 5 id (envMax c.env) c.cls s.time (resLeft s c) s
      else s
    | none => s) s

/-! ## The rows -/

/-- ADMISSION_TICK (R307 to R309). -/
def execAdmissionTick (s : State) : Host.Outcome State Fault Refusal :=
  .next (settle s (if s.head.started ∧ ¬ s.noTime .bud then tick s else s))
/-- ADMISSION_WAIT_EXCEEDED (R310). -/
def execAdmissionWaitExceeded (n : Nat) (s : State) : Host.Outcome State Fault Refusal :=
  .next (settle s (match (s.stn n).wait with
    | some w => (match longestWait w.cls with
      | some us => if w.since + us < s.now ∧ ¬ w.reported ∧ ¬ s.noTime .bud then waitEnds n w s else s
      | none => s)
    | none => s))
/-- DIM_RESTORE (R317): the fraction of an object rises by 10 points, a second after the last rise and 10 s after the last wait. -/
def execDimRestore (o : HeatObj) (s : State) : Host.Outcome State Fault Refusal :=
  .next (settle s (
    let b : Obj := match o with
      | .slice p => .sl p
      | .unit => .unit
    let k := heatIdx b
    let f := tget 100 s.yar.dims k
    let since : Option Nat := (s.yar.freeSince.find? (·.1 = k)).map (·.2)
    if f < 100 ∧ heldFor since s.now 10000000 ∧ 10 * heatOf s b ≤ 9 * capOf s b ∧ ¬ s.noTime .bud then
      dimTo b (min 100 (f + 10)) (s.modYar fun y => { y with freeSince := tset y.freeSince k (since.getD 0 + 1000000) })
    else s))
/-- DERATING_UPDATE (R318). -/
def execDeratingUpdate (s : State) : Host.Outcome State Fault Refusal :=
  .next (settle s (if s.head.started ∧ ¬ s.noTime .bud then derateAll s else s))
/-- GROUP_REPORT_SEND (R321). -/
def execGroupReportSend (s : State) : Host.Outcome State Fault Refusal :=
  .next (settle s (if s.noTime .bud then s else groupReport s))
/-- BUDGET_FRAME_RECEIVED (R321 to R326). -/
def execBudgetFrameReceived (f : NetFrame) (s : State) : Host.Outcome State Fault Refusal :=
  .next (settle s (receive f.via (fun s => if takesPart s ∧ ¬ s.noTime .bud then budgetFrame f.bytes s else s) s))
/-- TENTATIVE_START_INSTANT (R322). -/
def execTentativeStartInstant (n : Nat) (s : State) : Host.Outcome State Fault Refusal :=
  .next (settle s (match (s.stn n).wait with
    | some w => (match w.tentative with
      | some (_, t) => if t ≤ s.time ∧ mayAdmit s then tentativeStarts n t w s else s
      | none => s)
    | none => s))
/-- RESERVATION_RENEW (R323). -/
def execReservationRenew (n : Nat) (s : State) : Host.Outcome State Fault Refusal :=
  .next (settle s (if s.noTime .bud then s else renew n s))
/-- RESERVATION_EXPIRED (R323). -/
def execReservationExpired (source id : Nat) (s : State) : Host.Outcome State Fault Refusal :=
  .next (settle s (match s.yar.reserves.find? fun r => decide (r.source = source ∧ r.id = id) with
    | some r =>
      if r.start + 1000000 * r.duration ≤ s.time ∨ r.seenAt + 5000000 ≤ s.now then
        record 0x0704 (pObj (.unitNo source) ++ pNum id) { engine := 6 } (dropReserve source id s)
      else s
    | none => s))

end Sys2Proof.Machine
end

