-- ==== Sys2Proof/Machine/Hmac.lean ====
section
/-! DEFINITION. HMAC-SHA-256, the function behind the safety code (10 R349). Its steps are those of the published standards
(PRESUMED: the manual names the function and does not spell it out). -/

namespace Sys2Proof.Machine

open Sys2Proof

/-- The round constants of SHA-256. -/
def shaK : List Nat :=
  [0x428a2f98, 0x71374491, 0xb5c0fbcf, 0xe9b5dba5, 0x3956c25b, 0x59f111f1, 0x923f82a4, 0xab1c5ed5]
    ++ [0xd807aa98, 0x12835b01, 0x243185be, 0x550c7dc3, 0x72be5d74, 0x80deb1fe, 0x9bdc06a7, 0xc19bf174]
    ++ [0xe49b69c1, 0xefbe4786, 0x0fc19dc6, 0x240ca1cc, 0x2de92c6f, 0x4a7484aa, 0x5cb0a9dc, 0x76f988da]
    ++ [0x983e5152, 0xa831c66d, 0xb00327c8, 0xbf597fc7, 0xc6e00bf3, 0xd5a79147, 0x06ca6351, 0x14292967]
    ++ [0x27b70a85, 0x2e1b2138, 0x4d2c6dfc, 0x53380d13, 0x650a7354, 0x766a0abb, 0x81c2c92e, 0x92722c85]
    ++ [0xa2bfe8a1, 0xa81a664b, 0xc24b8b70, 0xc76c51a3, 0xd192e819, 0xd6990624, 0xf40e3585, 0x106aa070]
    ++ [0x19a4c116, 0x1e376c08, 0x2748774c, 0x34b0bcb5, 0x391c0cb3, 0x4ed8aa4a, 0x5b9cca4f, 0x682e6ff3]
    ++ [0x748f82ee, 0x78a5636f, 0x84c87814, 0x8cc70208, 0x90befffa, 0xa4506ceb, 0xbef9a3f7, 0xc67178f2]
/-- The initial digest of SHA-256. -/
def shaInit : List W32 :=
  [0x6a09e667#32, 0xbb67ae85#32, 0x3c6ef372#32, 0xa54ff53a#32, 0x510e527f#32, 0x9b05688c#32, 0x1f83d9ab#32, 0x5be0cd19#32]
/-- k bytes of a number, the most significant first. -/
def be (k v : Nat) : List Byte := (le k v).reverse
/-- A big-endian word from four bytes. -/
def beWord (l : List Byte) : W32 := BitVec.ofNat 32 (unle l.reverse)
/-- One word of the message schedule from the sixteen before it, newest first. -/
def shaNext (w : List W32) : W32 :=
  let a := w.getD 14 0
  let b := w.getD 1 0
  let s0 := a.rotateRight 7 ^^^ a.rotateRight 18 ^^^ (a >>> (3 : Nat))
  let s1 := b.rotateRight 17 ^^^ b.rotateRight 19 ^^^ (b >>> (10 : Nat))
  w.getD 15 0 + s0 + w.getD 6 0 + s1
/-- The schedule extended to n more words, newest first. -/
def shaSchedule : Nat → List W32 → List W32
  | 0, w => w
  | n + 1, w => shaSchedule n (shaNext w :: w)
/-- One round on the eight working words. -/
def shaRound (h : List W32) (kw : Nat × W32) : List W32 :=
  let g := fun (i : Nat) => h.getD i 0
  let e := g 4
  let a := g 0
  let t1 := g 7 + (e.rotateRight 6 ^^^ e.rotateRight 11 ^^^ e.rotateRight 25) + ((e &&& g 5) ^^^ (~~~e &&& g 6)) + BitVec.ofNat 32 kw.1 + kw.2
  let t2 := (a.rotateRight 2 ^^^ a.rotateRight 13 ^^^ a.rotateRight 22) + ((a &&& g 1) ^^^ (a &&& g 2) ^^^ (g 1 &&& g 2))
  [t1 + t2, a, g 1, g 2, g 3 + t1, e, g 5, g 6]
/-- The sixteen words of a 64-byte block. -/
def blockWords (b : List Byte) : List W32 := (List.range 16).map fun i => beWord (slice b (4 * i) 4)
/-- One block enters the digest. -/
def shaBlock (h : List W32) (b : List Byte) : List W32 :=
  let w := (shaSchedule 48 (blockWords b).reverse).reverse
  List.zipWith (· + ·) h ((shaK.zip w).foldl shaRound h)
/-- SHA-256 over bytes. -/
def sha256 (m : List Byte) : List Byte :=
  let z := (119 - m.length % 64) % 64
  let p := m ++ [0x80#8] ++ List.replicate z 0 ++ be 8 (8 * m.length)
  let h := (List.range (p.length / 64)).foldl (fun h i => shaBlock h (slice p (64 * i) 64)) shaInit
  (h.map fun w => be 4 w.toNat).flatten
/-- HMAC-SHA-256 of a message under a key of at most 64 bytes. -/
def hmac (key m : List Byte) : List Byte :=
  let k := padTo 64 0 key
  sha256 ((k.map (· ^^^ 0x5c#8)) ++ sha256 ((k.map (· ^^^ 0x36#8)) ++ m))
/-- The safety code: the first 32 bits of HMAC-SHA-256 keyed with SKEY, whose sixteen bytes are its digits as written (R349). -/
def safetyCode (skey : Nat) (m : List Byte) : List Byte := (hmac (be 16 skey) m).take 4

end Sys2Proof.Machine
end

