-- ==== Sys2Proof/Machine/Campion.lean ====
section
/-! DEFINITION. Campion at work: the lanes' safety cycle, LOOP and its proof, readback, the backstop, the lanes' lamp verdicts, the enable
channels, and safety messages (01 R17 to R24; 05 R190 to R199; 06 R228; 07 R243; 08 R289; 10 R330 to R356). -/

namespace Sys2Proof.Machine

open Sys2Proof

/-! ## Two-circuit inputs (R289, R332) -/

/-- The result of a two-circuit input after a cycle: active while both lanes read it active, held inactive after a disagreement until the
circuits have agreed for 1 s (R289). -/
def combine (now : Nat) (t : TwoCircuit) : TwoCircuit :=
  let differ := t.a.on != t.b.on
  let agreeSince := sinceOf t.agreeSince (!differ) now
  let blocked := t.blocked && !heldFor agreeSince now 1000000
  let active := t.a.on && t.b.on && !blocked
  { t with differSince := sinceOf t.differSince differ now, agreeSince, blocked, active, activeSince := if active = t.active then t.activeSince else now }
/-- A lane takes its own circuit's sample. -/
def readCircuit (s : State) (x : Lane) (filter u : Nat) (t : TwoCircuit) : TwoCircuit :=
  combine s.now (match x with | .a => { t with a := lineSample s filter u t.a } | .b => { t with b := lineSample s filter u t.b })
/-- A lane's samples of the train lines, with a filter of 3 ms, and of KEY, with one of 20 ms; the train lines need -T (R288, R332). -/
def readLines (x : Lane) (own : Circuits) (s : State) : State :=
  s.modCamp fun c =>
    let c := { c with key := readCircuit s x 20000 own.key c.key }
    if s.fit.optT then
      { c with zero := readCircuit s x 3000 own.zero c.zero, rell := readCircuit s x 3000 own.rell c.rell, relr := readCircuit s x 3000 own.relr c.relr }
    else c

/-- Session 0 loses safety authority at an inactive edge of KEY, and hears of it (R116). -/
def dropAuthority (s : State) : State :=
  if ¬ s.camp.key.active ∧ (s.ses 0).auth then
    send (.session 0) (tilR "auth" [.w "off"]) (s.modSes 0 fun x => { x with auth := false }) else s

/-! ## What a lane keeps of each station (R190, R243, R335, R336) -/

/-- A wide mask with one bit set or cleared. -/
def setWide (m : W64) (n : Nat) (on : Bool) : W64 :=
  if on then m ||| (1#64 <<< n) else m &&& ~~~(1#64 <<< n)
/-- The position-known flag of a station: it clears without valid frames and with a fault bit of the AXIS record, and sets with CLOSEDSW
(R336). -/
def knowPosition (x : Lane) (n : Nat) (s : State) : State :=
  let made := laneOn s x n .CLOSEDSW
  let sees := laneSees s x (slotOf n)
  s.modLaneStn x n fun t =>
    if !sees || t.encFault || t.idxFault then { t with known := false }
    else if !t.known && made then { t with known := true, closedAt := t.pos }
    else t
/-- The current above which the backstop of a closing leaf trips in a lane, mA: by position while the lane knows it, else by the profile's
highest point; LEARNMAX while a leaf without a commissioning profile is learned (R190, R191, R336). -/
def backstopLimit (s : State) (x : Lane) (n : Nat) : Int :=
  match commissioned s n with
  | none => s.stK n .LEARNMAX
  | some p =>
    let t := s.laneStn x n
    let c := if t.known then profPoint s n p.2 (t.pos - t.closedAt) else profMax p.2
    c * (100 + s.stK n .DRIFTMAX) / 100 + s.stK n .MARGINMAX
/-- The door cycle closes a leaf. -/
def cycleCloses (s : State) (n : Nat) : Bool := decide ((s.stn n).leaf = .closing ∨ (s.stn n).leaf = .locking)
/-- A lane takes a leaf as driven closing by its own frames: its feed conducts, it is not closed and locked, and its position has last gone
down. The door cycle's word, a second source, counts where the lane's own position does not go up, and once taken stands until the lane's own
readings end it (R16, R190; DEDUCED, log entry 61). Of one reading both lanes have the same word of the cycle, whichever of them trips first. -/
def drivenClosing (closes : Bool) (s : State) (x : Lane) (n : Nat) : Bool :=
  let t := s.laneStn x n
  isLeaf s n && t.conducts && !laneLocked s x n && (t.closing || (closes && !t.rising))
/-- A lane keeps what it takes a leaf for. -/
def watchClosing (closes : Bool) (x : Lane) (n : Nat) (s : State) : State :=
  let c := drivenClosing closes s x n
  s.modLaneStn x n fun t => { t with closing := c }
/-- The edge condition of the backstop in a lane; above EDGEMUTE is anywhere while it does not know the position (R190, R336). -/
def edgeAbove (closes : Bool) (s : State) (x : Lane) (n : Nat) : Bool :=
  let t := s.laneStn x n
  drivenClosing closes s x n && laneOn s x n .EDGE && (!t.known || decide (stCounts s n .EDGEMUTE < t.pos - t.closedAt))
/-- How long the edge has been active on a leaf still driven closing (R190). -/
def edgeWatch (closes : Bool) (x : Lane) (n : Nat) (s : State) : State :=
  let c := edgeAbove closes s x n
  s.modLaneStn x n fun t => { t with edgeSince := sinceOf t.edgeSince c s.now }
/-- A lane's verdict against the field side's: since when they differ, or, while a mismatch stands, since when they agree; 1 s of agreement
clears it (R243). -/
def watchVerdict (x : Lane) (n : Nat) (w : Sw) (s : State) : State :=
  if !proved s n w ∨ !laneSees s x (slotOf n) then s
  else s.modLaneSw x n w fun l =>
    let since := sinceOf l.differ (if l.mismatch then l.dark == l.field else l.dark != l.field) s.now
    let clear := l.mismatch && heldFor since s.now 1000000
    { l with differ := if clear then none else since, mismatch := l.mismatch && !clear }
/-- Since when a lane's verdict makes a main dark that its reserve, not dark, has not taken over; a changeover failure stands until the DIAG
record shows the reserve in use or the main's verdict clears (R335). -/
def watchReserve (x : Lane) (n : Nat) (s : State) : State :=
  if !proved s n .la ∨ ¬ hasReserve s n then s
  else s.modLaneStn x n fun t => { t with
    mainDarkAt := sinceOf t.mainDarkAt (t.la.dark && !t.lb.dark && !t.reserve) s.now, noChange := t.noChange && !t.reserve && t.la.dark }
/-- A lane's part of one station in its cycle. -/
def laneStation (x : Lane) (n : Nat) (s : State) : State :=
  let s := if isLeaf s n then edgeWatch (cycleCloses s n) x n (watchClosing (cycleCloses s n) x n (knowPosition x n s)) else s
  watchReserve x n (watchVerdict x n .lb (watchVerdict x n .la s))

/-! ## The cycle (R332, R333) -/

/-- The station masks of lamp states that a lane gives in its result record and in LAMPS messages: main dark, LB dark, reserve in use, known
(R332, R335, R348). -/
def lampMask (f : Nat → Bool) : W64 := allStations.foldl (fun m n => if f n then setWide m n true else m) 0
/-- The main of a station is dark to a lane. -/
def mainDark (s : State) (x : Lane) (n : Nat) : Bool :=
  proved s n .la && (laneDark s x n .la || (s.laneStn x n).noChange || (hasReserve s n && channelFault (s.laneSw x n .lb)))
/-- LB of a station is dark to a lane; a changeover failure or a fault of its main makes it so too (R243, R335, R338). -/
def lbDark (s : State) (x : Lane) (n : Nat) : Bool :=
  (proved s n .lb && laneDark s x n .lb)
    || (hasReserve s n && proved s n .la && ((s.laneStn x n).noChange || channelFault (s.laneSw x n .la)))
/-- The proved channels of a station are known to a lane (R348). -/
def stKnown (s : State) (x : Lane) (n : Nat) : Bool :=
  (proved s n .la || proved s n .lb) && (!proved s n .la || lampKnown s x n .la) && (!proved s n .lb || lampKnown s x n .lb)
/-- A lane's result record (R332). -/
def resultOf (s : State) (x : Lane) : ResultRec :=
  let l := s.lane x
  { frames := allSlices.map fun p => match (s.laneSlc x p).ref with | some v => v.toNat | none => 256
    loop := l.loop, masks := allSlices.map fun p => tget 0 l.masks p, permitted := l.permitted
    dark := lampMask (mainDark s x), darkB := lampMask (lbDark s x)
    known := lampMask fun n => lampKnown s x n .la, knownB := lampMask fun n => lampKnown s x n .lb, reserve := lampMask fun n => (s.laneStn x n).reserve }
/-- A lane's LOOP evaluation: its contact opens with any condition, and LOOPDELAY runs while all hold (R198, R199). -/
def evalLoop (x : Lane) (s : State) : State :=
  let ok := loopConds s x
  let s := s.modLane x fun l => { l with holdSince := sinceOf l.holdSince ok s.now }
  if ok then s else commandLoop x false s
/-- One safety cycle of a lane (R332, R333): the circuits, every safety function, the result record, and the other lane's record against
its own from the same frames, this cycle's or the last one's. -/
def safetyCycle (x : Lane) (own : Circuits) (peer : Option ResultRec) (s : State) : State :=
  let s := dropAuthority (readLines x own s)
  let s := forEach allStations (laneStation x) s
  let s := evalLoop x (setMasks x (setPermitted x s))
  let old := (s.lane x).record
  let r := resultOf s x
  let s := s.modLane x fun l => { l with
    record := r, peerAt := if peer.isSome then s.now else l.peerAt, sl := l.sl.map fun (e : Nat × LaneSlc) => (e.1, { e.2 with bad := false }) }
  match peer with
  | none => s
  | some q =>
    let own := [r, old].filter fun o => q.frames == o.frames
    let differs := !own.isEmpty && q ∉ own
    if differs then enterSafe "LANES" s else s

/-! ## Readback (R20, R334, R342) -/

/-- A lane reads an element's contact against its own command once the judging time has passed (R334). -/
def loopMismatch (s : State) (y : Lane) (closed : Bool) : Bool :=
  s.fit.optT && decide ((s.lane y).loopAt + 15000 ≤ s.now) && (closed != (s.lane y).loop)
/-- The element of a lane for some station of a slice, as a lane reads it back from its own frames, differs from the command that has stood for
500 us (R334). -/
def elementMismatch (s : State) (x y : Lane) (p : Nat) : Bool :=
  let q := s.laneSlc x p
  let e := match y with
    | .a => q.elemA
    | .b => q.elemB
  laneSees s x p && (stationsOf p).any fun n =>
    decide (tget 0 (s.lane y).maskAt n + 500 ≤ s.now) && (e.getLsbD (n % 8) != laneBit (s.lane y).masks n)
/-- A lane's reading of the two auxiliary contacts that it has judged, 15 ms or more after LOOP was opened: closed or not (R342). -/
def auxJudged (s : State) (x : Lane) : Option (Bool × Bool) :=
  match (s.lane x).auxRead with
  | some (t, r) => if max s.camp.a.loopAt s.camp.b.loopAt + 15000 ≤ t then some r else none
  | none => none
/-- Both lanes have read both contacts of an opened LOOP open: that is a proof (R342). -/
def openingProved (s : State) : Bool :=
  s.fit.optT && !s.camp.a.loop && !s.camp.b.loop && decide (auxJudged s .a = some (false, false) ∧ auxJudged s .b = some (false, false))
/-- The opening has not been counted yet. -/
def notCounted (s : State) : Bool :=
  match s.camp.proofAt with
  | none => decide (0 < s.camp.a.loopAt ∨ 0 < s.camp.b.loopAt)
  | some t => decide (t < max s.camp.a.loopAt s.camp.b.loopAt + 15000)
/-- Every lane that runs has judged the opening: whether some lane read each contact closed (R342). -/
def openingJudged (s : State) : Option (Bool × Bool) :=
  let l := [Lane.a, .b].filter (laneRuns s)
  if l.all fun y => (auxJudged s y).isSome then some (l.any fun y => ((auxJudged s y).map (·.1)).getD false, l.any fun y => ((auxJudged s y).map (·.2)).getD false)
  else none
/-- A contact that reads other than commanded is a LOOP element fault, which the unit's watchers hear of once (R38, R334). -/
def loopElementFault (y : Lane) (closed : Bool) (s : State) : State :=
  if ¬ loopMismatch s y closed then s
  else
    let s := if s.camp.loopFault then s else report [.unit] (.head .loop) [.w "element", .w "fault", .w (match y with | .a => "A" | .b => "B")] s
    s.modCamp fun c => { c with loopFault := true }
/-- A lane judges the readbacks (R20, R334, R342). -/
def judgeReadback (x : Lane) (closedA closedB : Bool) (s : State) : State :=
  let judged := decide (s.camp.a.loopAt + 15000 ≤ s.now ∧ s.camp.b.loopAt + 15000 ≤ s.now)
  let s := if s.fit.optT then s.modCamp fun c => { c with a := { c.a with contact := closedA }, b := { c.b with contact := closedB } } else s
  let s := if judged ∧ ¬ s.camp.a.loop ∧ ¬ s.camp.b.loop then s.modLane x fun l => { l with auxRead := some (s.now, closedA, closedB) } else s
  let s := if openingProved s ∧ notCounted s then s.modCamp fun c => { c with proofAt := some s.now, forced := false } else s
  let s := match s.camp.test, openingJudged s with
    | some (cause, _), some r => loopTestEnd cause (!r.1) (!r.2) s
    | _, _ => s
  let badLoop := loopMismatch s .a closedA || loopMismatch s .b closedB
  let badFd := allSlices.any fun p => elementMismatch s x .a p || elementMismatch s x .b p
  let s := loopElementFault .b closedB (loopElementFault .a closedA s)
  if badLoop ∨ badFd then enterSafe "READBACK" s else s

/-! ## The backstop (R190, R191) -/

/-- The backstop trips in a lane: the lane takes the station's element off, and the leaf is FAULT; it is recorded once where both lanes trip
(R190, R451). -/
def backstopTrips (x : Lane) (n : Nat) (current limit : Int) (s : State) : State :=
  let other := (s.laneStn (otherLane x) n).backstop
  let s := s.modLaneStn x n fun t => { t with backstop := true, overSince := none, edgeSince := none }
  let s := if other then s
    else
      let s := record 0x0404 (pInt (s.ax n).pos ++ pInt (10 * current) ++ pInt (10 * limit)) { station := n, flags := 16 } s
      settleAxis n (faultLeaf n "backstop" (e06St n) (hardStop n .done s))
  setMasks x s
/-- A lane's reading of a closing leaf's current (R190). -/
def laneBackstop (closes : Bool) (x : Lane) (n : Nat) (current : Int) (s : State) : State :=
  let limit := backstopLimit s x n
  let s := watchClosing closes x n s
  let above := (s.laneStn x n).closing && decide (limit < current)
  let s := edgeWatch closes x n (s.modLaneStn x n fun t => { t with overSince := sinceOf t.overSince above s.now })
  let t := s.laneStn x n
  if !t.backstop && (heldFor t.overSince s.now (s.keyN (.st n) .PERSISTMAX + 20000) || heldFor t.edgeSince s.now 20000) then
    backstopTrips x n current limit s
  else s
/-- A reading of the current of a leaf's feed, by each lane that runs and reads the slice (R17, R190). -/
def backstopSample (n : Nat) (current : Int) (s : State) : State :=
  let closes := cycleCloses s n
  forEach [Lane.a, .b] (fun x s => if laneRuns s x && laneSees s x (slotOf n) then laneBackstop closes x n current s else s) s

/-! ## Lane failures, tests (R23, R341) -/

/-- The cause word of a lane's background test. -/
def laneTestWord : LaneTest → String
  | .memory => "MEMORY"
  | .program => "PROGRAM"
  | .config => "CONFIG"
  | .cpu => "CPU"
  | .clock => "CLOCK"
  | .supply => "SUPPLY"
/-- A lane gives up control: it drives no element again before the next unit reset (R23). -/
def laneGivesUp (x : Lane) (cause : String) (s : State) : State :=
  openAll x (laneFaultRec x cause (s.modLane x fun l => { l with driving := false, gaveUp := true }))
/-- A test of a switch's sense path passes: an off switch reads at most 20 mA in both ranges; within the low range both agree within 20 mA
(class H 50 mA) and 2 %. Currents in 0.1 mA (R341). -/
def sensePasses (w : Sw) (on : Bool) (low high : Int) : Bool :=
  if !on then decide (low.natAbs ≤ 200 ∧ high.natAbs ≤ 200)
  else if (if w = .fd then 19200 else 2400) ≤ low then true
  else decide (100 * (low - high).natAbs ≤ 100 * (if w = .fd then 500 else 200) + 2 * high.natAbs)
/-- A lane counts a sense-path test: two failures in succession declare the fault, two passes clear it (R341). -/
def countSense (pass : Bool) (l : LaneLamp) : LaneLamp :=
  if pass then { l with senseFails := 0, sensePasses := min 2 (l.sensePasses + 1), senseFault := l.senseFault && decide (l.sensePasses < 1) }
  else { l with senseFails := min 2 (l.senseFails + 1), sensePasses := 0, senseFault := l.senseFault || decide (1 ≤ l.senseFails) }
/-- The field side tests a switch's sense path: the outcome goes into its frames (R295, R341). -/
def senseTest (n : Nat) (w : Sw) (low high : Int) (s : State) : State :=
  let failed := !sensePasses w (outputOn s n w) low high
  s.modSw n w fun q => { q with senseFailed := failed }
/-- A lane finds a sense path's outcome in a frame: it counts one test every 10 s; a feed's fault takes the lane's element off (R338, R341;
DESIGN CHOICE, log entry 111). -/
def laneSense (x : Lane) (n : Nat) (w : Sw) (failed : Bool) (s : State) : State :=
  if (s.laneSw x n w).senseAt.any fun t => decide (s.now < t + 10000000) then s
  else
    let s := s.modLaneSw x n w fun l => { countSense (!failed) l with senseAt := some s.now }
    if w = .fd then setMasks x s else s

/-! ## The enable channels (R19, R228) -/

/-- The elements of a lane on a slice become a mask: a feed whose element opens turns off fast, and turns on anew when both have closed
(R19, R228). -/
def setElements (x : Lane) (p : Nat) (mask : Byte) (s : State) : State :=
  let s := s.modSlc p fun q => match x with
    | .a => { q with elemA := mask }
    | .b => { q with elemB := mask }
  forEach (stationsOf p) (fun n s =>
    let f := (s.stn n).fd
    if !elementsClosed s n then
      if f.on then (turnOff n .fd s).modSw n .fd fun q => { q with maskOff := q.cmd } else s
    else if f.cmd ∧ f.maskOff then turnOn n .fd s
    else s) s

/-! ## Safety messages (R348 to R353) -/

/-- The name of a type code. -/
def smName (k : Nat) : String := match k with | 1 => "RELEASE" | 2 => "LAMPS" | 3 => "DOORS" | _ => "AUTH"
/-- The payload a lane gives a message (R348). -/
def smPayload (s : State) (x : Lane) (type : Nat) : List Byte :=
  padTo 40 0 (match type with
    | 1 => [BitVec.ofNat 8 (s.camp.rell.active.toNat + 2 * s.camp.relr.active.toNat + 4 * s.camp.zero.active.toNat)]
    | 2 => le 8 (lampMask (mainDark s x)).toNat ++ le 8 (lampMask (lbDark s x)).toNat
        ++ le 8 (lampMask fun n => (s.laneStn x n).reserve).toNat ++ le 8 (lampMask (stKnown s x)).toNat
    | _ => le 8 (lampMask fun n => isLeaf s n && laneLocked s x n).toNat ++ le 8 (lampMask fun n => isLeaf s n && !stUnknown s x n).toNat
        ++ le 8 (lampMask fun n => isLeaf s n && decide ((s.stn n).leaf = .isolated)).toNat
        ++ [BitVec.ofNat 8 ((loopClosed s).toNat + 2 * s.camp.safe.toNat)])
/-- Bytes 0 to 59 of a lane's message (R348). -/
def smBody (s : State) (x : Lane) (type dst : Nat) (seq : W32) : List Byte :=
  le 2 (ownUnit s) ++ le 2 dst ++ le 1 type ++ [1] ++ le 2 (s.keyN .unit .SYSID) ++ le 4 seq.toNat ++ leI 8 s.time ++ smPayload s x type
/-- A lane's next sequence number of a type (R350). -/
def laneSeq (s : State) (x : Lane) (type : Nat) : W32 := tget 0 (s.lane x).seq type
/-- One message to one destination: it goes out when both lanes' codes agree; each lane counts it (R349, R350). -/
def sendSafety (type : Nat) (dst : Option Nat) (s : State) : State :=
  let d := dst.getD 65535
  let msg := fun (x : Lane) =>
    let b := smBody s x type d (laneSeq s x type)
    b ++ safetyCode ((s.lane x).skey.getD 0) b
  let bump := fun (l : LaneSt) => { l with seq := tset l.seq type (tget 0 l.seq type + 1) }
  let m := msg .a
  let same := decide (m = msg .b)
  let s := s.modCamp fun c => { c with a := bump c.a, b := bump c.b }
  if same then transmit .safety dst m s else s
/-- The unit may send safety messages (R350, R360). -/
def maySendSafety (s : State) : Bool :=
  groupUp s && s.camp.a.driving && s.camp.b.driving && !s.camp.safe && s.camp.a.skey.isSome && s.camp.b.skey.isSome
    && decide (s.key .unit .SYSID ≠ .unset)
/-- Every message of the SAFEOUT entries (R350). -/
def sendAllSafety (s : State) : State :=
  forEach (List.range 16) (fun k s =>
    match s.key (.safeout k) .TYPE with
    | .w t => match s.key (.safeout k) .TO with
      | .u n => sendSafety (smType t) (some n) s
      | .w _ => sendSafety (smType t) none s
      | _ => s
    | _ => s) s
/-- A connection's loss or return is reported and recorded (R352). -/
def safetySays (src : Nat) (type word : String) (s : State) : State :=
  let s := forEach (watchers s [.safety]) (fun w s => say w.ctx (tilR "safety" [.obj (.unitNo src), .w type, .w word]) s) s
  record 0x0802 (pObj (.unitNo src) ++ pWord type ++ pWord word) { flags := 16 } s
/-- A connection's time has run out (R352). -/
def connectionLost (k : Nat) (s : State) : State :=
  match s.key (.safein k) .FROM, s.key (.safein k) .TYPE with
  | .u src, .w t =>
    let s := s.modCamp fun c => { c with conns := tmod {} c.conns (connKey s k) fun q => { q with valid := false, payload := safeContent t } }
    let s := if t = "RELEASE" ∧ s.key .unit .RELUNIT = .u src then s.modCamp fun c => { c with msgZeroSince := none } else s
    let s := safetySays src t "lost" s
    setMasks .b (setMasks .a (setPermitted .b (setPermitted .a s)))
  | _, _ => s
/-- A discarded message with a valid code is recorded, at most once a second for each source (R351). -/
def rejectSafety (src : Nat) (valid : Bool) (s : State) : State :=
  let last := (s.camp.rejects.find? (·.1 = src)).map (·.2)
  let recent : Bool := match last with
    | some t => decide (s.now < t + 1000000)
    | none => false
  if !valid ∨ recent then s
  else record 0x0803 (pObj (.unitNo src)) { flags := 16 } (s.modCamp fun c => { c with rejects := tset c.rejects src s.now })
/-- An accepted message: the connection is valid with its content, or an authorisation that names this unit is held (R115, R352, R353, R378); a
connection whose time had run out was lost before. -/
def acceptSafety (k src dst type : Nat) (seq : W32) (payload : List Byte) (s : State) : State :=
  let s := if (connOf s k).valid ∧ ¬ connValid s (connOf s k) then connectionLost k s else s
  let was := (connOf s k).valid
  let s := s.modCamp fun c => { c with
    conns := tmod {} c.conns (connKey s k) fun q => { q with lastSeq := some seq, acceptedAt := some s.now, valid := decide (type ≠ 4), payload } }
  if type = 4 then
    if dst ≠ ownUnit s then s
    else s.modCamp fun c => { c with
      auths := c.auths ++ [{ session := fieldAt payload 0 1, tag := fieldAt payload 1 4, check := fieldAt payload 5 2, at_ := s.now }] }
  else
    let s := if was then s else safetySays src (smName type) "ok" s
    if type = 1 ∧ s.key .unit .RELUNIT = .u src then
      s.modCamp fun c => { c with msgZeroSince := sinceOf c.msgZeroSince ((payload.getD 0 0).getLsbD 2) s.now }
    else s
/-- A received safety message, by the ordered tests (R351). -/
def safetyFrame (b : List Byte) (s : State) : State :=
  let src := fieldAt b 0 2
  let dst := fieldAt b 2 2
  let type := fieldAt b 4 1
  let seq : W32 := BitVec.ofNat 32 (fieldAt b 8 4)
  let age : Int := s.time - unleI (slice b 12 8)
  let code := match s.camp.a.skey with
    | some k => decide (b.drop 60 = safetyCode k (b.take 60)) && decide (s.camp.b.skey = some k)
    | none => false
  if b.length ≠ 64 then s
  else
    let entry := if 1 ≤ type ∧ type ≤ 4 then safeIn s src (smName type) else none
    let sysOk := decide (s.key .unit .SYSID = .i (fieldAt b 6 2))
    let newer : Bool := match entry.bind fun k => (connOf s k).lastSeq with
      | none => true
      | some l => decide (1 ≤ (seq - l).toNat ∧ (seq - l).toNat ≤ 2147483647)
    let fresh := decide (-1000000 ≤ age ∧ age ≤ 1000 * s.keyI .unit .SMTIMEOUT)
    match entry with
    | none => rejectSafety src code s
    | some k =>
      if fieldAt b 5 1 = 1 ∧ sysOk ∧ (dst = ownUnit s ∨ dst = 65535) ∧ code ∧ newer ∧ fresh then acceptSafety k src dst type seq (slice b 20 40) (heardPeer src s)
      else rejectSafety src code s
/-! ## Train lines and KEY -/

/-- The two-circuit input of a head object. -/
def circuitOf (c : Campion) : HeadObj → Option TwoCircuit
  | .zero => some c.zero
  | .rell => some c.rell
  | .relr => some c.relr
  | .key => some c.key
  | _ => none
/-- A two-circuit input with a change. -/
def modCircuit (h : HeadObj) (f : TwoCircuit → TwoCircuit) (c : Campion) : Campion :=
  match h with
  | .zero => { c with zero := f c.zero }
  | .rell => { c with rell := f c.rell }
  | .relr => { c with relr := f c.relr }
  | .key => { c with key := f c.key }
  | _ => c

/-! ## The rows -/

/-- LANE_SAFETY_CYCLE (R332). -/
def execLaneSafetyCycle (x : Lane) (own : Circuits) (peer : Option ResultRec) (s : State) : Host.Outcome State Fault Refusal :=
  .next (settle s (if laneRuns s x then safetyCycle x own peer s else s))
/-- CROSS_LANE_SILENCE (R333). -/
def execCrossLaneSilence (s : State) : Host.Outcome State Fault Refusal :=
  .next (settle s (if laneRuns s .a ∧ laneRuns s .b ∧ (s.camp.a.peerAt + 500 ≤ s.now ∨ s.camp.b.peerAt + 500 ≤ s.now) then
    enterSafe "SILENCE" s else s))
/-- LOOPDELAY_EXPIRY (R199). -/
def execLoopdelayExpiry (x : Lane) (s : State) : Host.Outcome State Fault Refusal :=
  .next (settle s (if laneRuns s x ∧ loopConds s x ∧ heldFor (s.lane x).holdSince s.now (s.keyN .unit .LOOPDELAY) then commandLoop x true s else s))
/-- READBACK_JUDGEMENT (R334): the auxiliary contacts as they read, closed or not. -/
def execReadbackJudgement (x : Lane) (loopA loopB : Bool) (s : State) : Host.Outcome State Fault Refusal :=
  .next (settle s (if laneRuns s x then judgeReadback x loopA loopB s else s))
/-- BACKSTOP_TRIP (R190, R191): one reading of the feed current by the lanes. -/
def execBackstopTrip (n : Nat) (current : Int) (s : State) : Host.Outcome State Fault Refusal :=
  .next (settle s (if isLeaf s n then backstopSample n current s else s))
/-- LANE_VERDICT_MISMATCH (R243): it is reported and recorded once where both lanes find it. -/
def execLaneVerdictMismatch (x : Lane) (n : Nat) (b : Bool) (s : State) : Host.Outcome State Fault Refusal :=
  let w := chanSw b
  let l := s.laneSw x n w
  .next (settle s (if laneRuns s x ∧ proved s n w ∧ ¬ l.mismatch ∧ heldFor l.differ s.now 20001 then
    let told := (s.laneSw (otherLane x) n w).mismatch
    let s := s.modLaneSw x n w fun l => { l with mismatch := true, differ := none }
    if told then s else record 0x0605 [] { hdCh n (swChan w) with flags := 16 } (reportCh n (swChan w) [.w "mismatch"] s)
    else s))
/-- CHANGEOVER_NOT_CARRIED_OUT (R335). -/
def execChangeoverNotCarriedOut (x : Lane) (n : Nat) (s : State) : Host.Outcome State Fault Refusal :=
  let t := s.laneStn x n
  .next (settle s (if laneRuns s x ∧ heldFor t.mainDarkAt s.now 25000 ∧ ¬ t.reserve then s.modLaneStn x n fun t => { t with noChange := true }
    else s))
/-- LANE_SELF_TEST_FAILURE (R23). -/
def execLaneSelfTestFailure (x : Lane) (t : LaneTest) (s : State) : Host.Outcome State Fault Refusal :=
  .next (settle s (if laneRuns s x ∧ ¬ (s.lane x).gaveUp then laneGivesUp x (laneTestWord t) s else s))
/-- LOOP_TEST_23H (R342). -/
def execLoopTest23h (s : State) : Host.Outcome State Fault Refusal :=
  .next (settle s (if s.fit.optT ∧ heldFor s.camp.proofAt s.now 82800000000
      ∧ heldFor (if s.camp.zero.active then some s.camp.zero.activeSince else none) s.now 5000000 ∧ s.camp.test = none ∧ ¬ s.camp.forced then
    loopTestForced "23 h" s else s))
/-- LOOP_TEST_24H (R342). -/
def execLoopTest24h (s : State) : Host.Outcome State Fault Refusal :=
  .next (settle s (if s.fit.optT ∧ heldFor s.camp.proofAt s.now 86400000000 ∧ s.camp.test = none ∧ ¬ s.camp.forced then
    loopTestForced "24 h" s else s))
/-- CURRENT_SENSE_TEST (R341). -/
def execCurrentSenseTest (n : Nat) (w : Sw) (low high : Int) (s : State) : Host.Outcome State Fault Refusal :=
  .next (settle s (if (s.slc (slotOf n)).powered ∧ chFitted s n (swChan w) then senseTest n w low high s else s))
/-- ENABLE_MASK (R19): a mask comes on a lane's enable channel; it is valid when it is the one the lane sends (R21, R23). -/
def execEnableMask (x : Lane) (p : Nat) (mask : Byte) (s : State) : Host.Outcome State Fault Refusal :=
  .next (settle s (if (s.slc p).powered ∧ s.head.powered ∧ mask = tget 0 (s.lane x).masks p then
    setElements x p mask (s.modSlc p fun q => match x with
      | .a => { q with maskA := mask, maskAtA := some s.now }
      | .b => { q with maskB := mask, maskAtB := some s.now })
    else s))
/-- ENABLE_MASK_MISSING (R19, R228). -/
def execEnableMaskMissing (x : Lane) (p : Nat) (s : State) : Host.Outcome State Fault Refusal :=
  .next (settle s (if (s.slc p).powered ∧ heldFor (match x with | .a => (s.slc p).maskAtA | .b => (s.slc p).maskAtB) s.now 400 then setElements x p 0 s else s))
/-- SAFETY_MESSAGE_SEND (R350): every 10 ms. -/
def execSafetyMessageSend (s : State) : Host.Outcome State Fault Refusal :=
  .next (settle s (if maySendSafety s ∧ (s.camp.sentAt = none ∨ heldFor s.camp.sentAt s.now 10000) then
    sendAllSafety (s.modCamp fun c => { c with sentAt := some s.now }) else s))
/-- SAFETY_MESSAGE_RECEIVED (R351): none is accepted without a valid unit number (R357). -/
def execSafetyMessageReceived (f : NetFrame) (s : State) : Host.Outcome State Fault Refusal :=
  .next (settle s (receive f.via (fun s => if s.head.started ∧ s.head.unit.isSome ∧ ¬ s.engDown .net then safetyFrame f.bytes s else s) s))
/-- SAFETY_CONNECTION_TIMEOUT (R352). -/
def execSafetyConnectionTimeout (entry : Nat) (s : State) : Host.Outcome State Fault Refusal :=
  .next (settle s (
    let c := connOf s entry
    if c.valid ∧ ¬ connValid s c then connectionLost entry s else s))
/-- TRAIN_LINE_DISAGREEMENT (R289). -/
def execTrainLineDisagreement (h : HeadObj) (s : State) : Host.Outcome State Fault Refusal :=
  .next (settle s (match circuitOf s.camp h with
    | some t =>
      if heldFor t.differSince s.now 10001 ∧ ¬ t.blocked then
        let s := s.modCamp (modCircuit h fun t => { t with blocked := true, agreeSince := none, active := false, activeSince := if t.active then s.now else t.activeSince })
        record 0x0503 (pWord (headName h)) { flags := 16 } (dropAuthority s)
      else s
    | none => s))
/-- KEY_INACTIVE (R116). -/
def execKeyInactive (s : State) : Host.Outcome State Fault Refusal :=
  .next (settle s (dropAuthority s))

end Sys2Proof.Machine
end

