-- ==== Sys2Proof/Machine/Lamps.lean ====
section
/-! DEFINITION. Cowslip: lit samples and proving pulses, dark verdicts, reserve changeover and return, flash edges, and the learning of
thresholds (07 R242 to R267). -/

namespace Sys2Proof.Machine

open Sys2Proof

/-! ## Measured quantities (R247, R249) -/

/-- The pulse width in us (R247). -/
def pulseUs (s : State) (n : Nat) (w : Sw) : Nat :=
  if fieldKey s n w .PROFILE = .w "LED" then 50 * (kInt (fieldKey s n w .PWIDTH)).toNat else 100

/-- The normalised current i x UREF / u in 0.1 mA (R249, R254). A supply of 0 V drives no current. -/
def normal (s : State) (n : Nat) (w : Sw) (m : Meas) : Int :=
  if m.u ≤ 0 then 0 else roundDiv (m.i * fieldN s n w .UREF) m.u.toNat
/-- The quantity of a lit sample by MODE (R249). -/
def litValue (s : State) (n : Nat) (w : Sw) (m : Meas) : Int :=
  if fieldKey s n w .MODE = .w "CC" then m.i else normal s n w m
/-- A sample as it is judged: the mean of its conversions, in CP mode of those with the PWM output on (R215, R217, R249). -/
def sampleMeas (s : State) (n : Nat) (w : Sw) (a : Acc) : Meas :=
  let cp := decide (fieldKey s n w .MODE = .w "CP")
  { i := if cp then roundDiv a.onSum (max 1 a.onCount) else roundDiv a.sum (max 1 a.count), u := roundDiv a.uSum (max 1 a.count)
    flagged := a.flagged, limiter := a.limited, onPhase := !cp || decide (0 < a.onCount) }
/-- The mean of a proving pulse's judged conversions; the one that settles the range is not judged, and the current is limited at the inrush
limit (R217, R253, R254). -/
def pulseMeas (w : Sw) (cs : List Conv) : Meas :=
  let l := (senseAll w false false cs).tail
  let n := max 1 l.length
  { i := roundDiv (l.map fun r => min r.i (inrushLimit w)).sum n, u := roundDiv (cs.tail.map (·.u)).sum n
    flagged := l.any (·.flagged), limiter := l.any fun r => decide (inrushLimit w ≤ r.i) }

/-! ## Verdicts (R248, R257, R258, R261 to R265) -/

/-- A channel is commanded lit now: on, or in an on-phase; a main whose reserve is in use is not (R261, R262). -/
def litNow (s : State) (n : Nat) (w : Sw) : Bool :=
  let x := s.sw n w
  let acts := decide (actSw s n w = w) && !(decide (w = .lb) && fieldReserve s n && !(s.stn n).reserveInUse)
  acts && (if x.flash.isSome then x.lamp.onPhase else x.cmd)
/-- The state of a lamp as its dark record gives it (R265). -/
def litWord (s : State) (n : Nat) (w : Sw) : String :=
  if (s.sw n w).flash.isSome then "FLASHING" else if litNow s n w then "LIT" else "UNLIT"
/-- A lamp becomes dark: the report, the record, and the changeover where the main has a reserve that is not dark (R261, R263, R265). -/
def goDark (n : Nat) (w : Sw) (value limit u : Int) (s : State) : State :=
  if (s.sw n w).lamp.dark then s
  else
    let pay := pObj (.ch n (swChan w)) ++ pWord (litWord s n w) ++ pInt value ++ pInt limit ++ pInt u ++ pInst s.time
    let s := fieldReport n (swChan w) ["dark"] 0x0601 pay true (s.modLamp n w fun l => { l with dark := true, litPasses := 0, gridPasses := 0 })
    let s := s.modSlc (slotOf n) fun p => { p with changed := true }
    if w = .la ∧ fieldReserve s n ∧ ¬ (s.stn n).lb.lamp.dark ∧ ¬ (s.stn n).reserveInUse then changeover n s else s
/-- A dark verdict clears, but that of a main with a reserve (R264). -/
def goLit (n : Nat) (w : Sw) (s : State) : State :=
  if ¬ (s.sw n w).lamp.dark ∨ (w = .la ∧ fieldReserve s n) then s
  else fieldReport n (swChan w) ["lit", "ok"] 0x0603 [] true (s.modLamp n w fun l => { l with dark := false })
/-- The verdict after a count has moved (R248, R257, R258, R264). -/
def judgeLamp (n : Nat) (w : Sw) (value limit u : Int) (s : State) : State :=
  let x := s.sw n w
  let l := x.lamp
  if 8 ≤ l.litFails ∨ 2 ≤ l.gridFails ∨ (x.flash.isSome ∧ 1 ≤ l.gridFails ∧ 4 ≤ l.litFails) then goDark n w value limit u s
  else if 8 ≤ l.litPasses ∨ 2 ≤ l.gridPasses then goLit n w s
  else s
/-- A lit sample counts (R248, R258). -/
def countLit (pass : Bool) (l : Lamp) : Lamp :=
  if pass then { l with litFails := 0, gridFails := 0, litPasses := min 8 (l.litPasses + 1) }
  else { l with litFails := min 8 (l.litFails + 1), litPasses := 0, gridPasses := 0 }
/-- A grid point counts (R257, R258). -/
def countGrid (pass : Bool) (l : Lamp) : Lamp :=
  let l := { l with lastFailed := !pass, lastSkipped := false, repeatDue := false }
  if pass then { l with litFails := 0, gridFails := 0, gridPasses := min 2 (l.gridPasses + 1) }
  else { l with gridFails := min 2 (l.gridFails + 1), gridPasses := 0, litPasses := 0 }

/-- A 1 ms lamp sample is one that R248 skips, but for its range flag. -/
def sampleSkipped (m : Meas) (a : Acc) : Bool := a.ramped || a.uv || !m.onPhase
/-- A 1 ms lamp sample of a lit proved channel is compared with ONTHR, unless it is skipped (R248, R249, R251). -/
def litSample (n : Nat) (w : Sw) (a : Acc) (s : State) : State :=
  let m := sampleMeas s n w a
  let x := s.sw n w
  let skipped := sampleSkipped m a || a.flagged
  if ¬ fieldProved s n w ∨ ¬ litNow s n w ∨ (skipped ∧ ¬ x.tripped) then s
  else
    let v := if x.tripped then 0 else litValue s n w m
    let thr := kInt (fieldKey s n w .ONTHR)
    judgeLamp n w v thr m.u (s.modLamp n w (countLit (decide (thr ≤ v))))

/-! ## Proving pulses (R252 to R257) -/

/-- This instant is that of the last conversion of a pulse that the channel's grid point gives: its on-edge came 20 us before the grid point,
and its conversions are 50 us apart from the grid point on (R252 to R254). -/
def gridPoint (s : State) (n : Nat) (w : Sw) : Bool := decide (sinceGrid s n w = pulseUs s n w - 50)
/-- The same of the pulse's repeat, which begins 1 ms after the off-edge (R255). -/
def repeatPoint (s : State) (n : Nat) (w : Sw) : Bool := decide (sinceGrid s n w = 2 * pulseUs s n w + 950)
/-- The width of the pulse that began at the last grid point, and 1 ms, overlap an on-edge of the channel's flash (R256). -/
def nearOnEdge (s : State) (n : Nat) (w : Sw) : Bool :=
  match (s.sw n w).flash with
  | none => false
  | some f =>
    let p : Int := 1000 * f.period
    let off : Int := roundDiv (f.phase * p) 256
    decide (p - (fieldFlash s n - (sinceGrid s n w + 20) - off) % p < pulseUs s n w + 1000)
/-- What held of a channel at its last grid point: whether its output or its supply barred a pulse, and whether a trip stood. Without a change
since then it is what holds now (R256). -/
def atGrid (s : State) (n : Nat) (w : Sw) : Bool × Bool :=
  let x := s.sw n w
  let g := (s.now : Int) - sinceGrid s n w
  match x.lamp.was with
  | some (t, barred, trip) => if g < t then (barred, trip) else (x.bars g.toNat, x.tripped)
  | none => (x.bars g.toNat, x.tripped)
/-- No pulse is given at this grid point (R256). A channel that is commanded lit while a trip stands is lit (R251). -/
def gridSkipped (s : State) (n : Nat) (w : Sw) : Bool :=
  (atGrid s n w).1 || ((atGrid s n w).2 && litNow s n w) || (decide (actSw s n w = w) && nearOnEdge s n w)
/-- The conversions of a pulse are conversions: the fuse model counts their current, the die is read and a flagged one shows, and the switch
trips as at any other (R215, R218, R223, R238, R253). -/
def heatPulse (n : Nat) (w : Sw) (cs : List Conv) (s : State) : State :=
  let x := s.sw n w
  let inom := wireIn s n w
  let tau := wireTau s n w
  let k := (s.now - x.heatAt) / 50
  let h := fuseSteps (k - cs.length) x.heat (if outputOn s n w then x.cur else 0) inom tau
  let l := senseAll w false false cs
  let h := l.foldl (fun h r => fuseStep h (min r.i (inrushLimit w)) inom tau) h
  let s := s.modSw n w fun x => { x with
    heat := h, heatAt := x.heatAt + 50 * k, u := (cs.getLast?.map (·.u)).getD x.u, die := (cs.getLast?.map (·.die)).getD x.die
    flaggedAt := ((l.reverse.findIdx? (·.flagged)).map fun j => s.now - 50 * j) <|> x.flaggedAt }
  tripAll n w ((if (cs.any fun c => decide (165 ≤ c.die)) ∧ x.tj.isNone then [.tj] else [])
    ++ (if 1210000000000 ≤ h ∧ x.fuse.isNone then [.fuse] else [])) 0 s
/-- A judged pulse passes (R254). -/
def pulsePasses (s : State) (n : Nat) (w : Sw) (m : Meas) : Bool :=
  !m.limiter && decide (kInt (fieldKey s n w .PTHR) ≤ normal s n w m)

/-- The main takes the commanded state again, and a reserve in use goes off (R262). -/
def returnMain (n : Nat) (s : State) : State :=
  let s := if (s.stn n).reserveInUse then
      let s := s.modStn n fun t => { t with reserveInUse := false }
      let s := slewOff (s.stn n).lb.slew n .lb (s.modSw n .lb fun x => { x with cmd := false, flash := none })
      (s.modLamp n .lb fun l => { l with onPhase := false, edged := false }).modLamp n .la fun l => { l with edged := false }
    else s
  let s := s.modLamp n .la fun l => { l with
    dark := false, litFails := 0, gridFails := 0, litPasses := 0, gridPasses := 0 }
  fieldReport n .la ["return"] 0x0604 [] true (follow n .la s)
/-- The operation that returns a main (R262). -/
def returnOp (s : State) (n : Nat) : Option Op := s.ops.find? fun o => decide (o.prog = .proveReturn n)
/-- The pulse that PROVE RETURN asked for has been judged (R262). -/
def returnJudged (n : Nat) (pass : Bool) (s : State) : State :=
  if ¬ (s.stn n).la.lamp.returnDue then s
  else
    let op := returnOp s n
    let s := s.modLamp n .la fun l => { l with returnDue := false }
    let s := if pass then returnMain n s else s
    match op with
    | none => s
    | some o => finOp o.id (if pass then eqR "prove" [.n 1, .w "main"] else errR { code := 6, detail := .obj (.ch n .la) }) s

/-! ## PROVE LEARN (R260) -/

/-- The learning of a channel: the operation and what is left of it. -/
def learnOp (s : State) (n : Nat) (b : Bool) : Option Op :=
  s.ops.find? fun o => match o.prog with
    | .proveLearn m left _ _ _ _ => decide (m = n ∧ left.head? = some b)
    | _ => false
/-- A learning ends with E06 naming a threshold; its channel is off (R260). -/
def learnRefused (n : Nat) (b : Bool) (o : Op) (k : Key) (s : State) : State :=
  failOp o.id { code := 6, detail := .key k } (ask n (chanSw b) .off s)
/-- The final fields of PROVE LEARN (R260). -/
def learnFields (l : List (Nat × Nat)) : List Fld :=
  (l.map fun e => [Fld.kw "onthr" (tenths e.1 ++ "mA"), Fld.kw "pthr" (tenths e.2 ++ "mA")]).flatten
/-- The 25 pulses of a channel are given: its candidate thresholds, and the next channel or the end (R260). -/
def learnPulsesEnd (n : Nat) (b : Bool) (o : Op) (s : State) : State :=
  match o.prog with
  | .proveLearn _ left results _ pulses iOn =>
    let ip := roundDiv pulses.sum (max 1 pulses.length)
    if ip < 20 ∨ pulses.any (fun p => decide (ip < 5 * ((p - ip).natAbs : Int))) then learnRefused n b o .PTHR s
    else
      let on := (roundDiv iOn 2).toNat
      let pu := (roundDiv ip 2).toNat
      let ch : Obj := .ch n (swChan (chanSw b))
      let s := s.modCfg fun c => { c with
        cand := some (putKey (putKey (c.cand.getD c.safety) ch .ONTHR (.i on)) ch .PTHR (.i pu)) }
      let results := results ++ [(on, pu)]
      match left.tail with
      | [] => finOp o.id (eqR "prove" (.n 1 :: learnFields results)) s
      | c :: t =>
        let s := s.modOp o.id fun q => { q with prog := .proveLearn n (c :: t) results (some (s.now + 2000000)) [] 0 }
        lightLearn n c s
  | _ => s
/-- A judged pulse of a channel being learned (R260). -/
def learnPulse (n : Nat) (b : Bool) (m : Meas) (s : State) : State :=
  match learnOp s n b with
  | none => s
  | some o =>
    match o.prog with
    | .proveLearn _ left results none pulses iOn =>
      let pulses := pulses ++ [normal s n (chanSw b) m]
      let p : Prog := .proveLearn n left results none pulses iOn
      let s := s.modOp o.id fun q => { q with prog := p }
      if pulses.length < 25 then s else learnPulsesEnd n b { o with prog := p } s
    | _ => s

/-- A pulse's result as the PULSE record gives it (R295). -/
def pulseResult (pass : Bool) (m : Meas) (l : Lamp) : Lamp := { l with pulseI := m.i, pulsePass := pass, pulseLim := m.limiter }
/-- A pulse of the channel has been judged, and is not void (R254, R257, R260, R262). -/
def pulseJudged (n : Nat) (b : Bool) (m : Meas) (pass : Bool) (s : State) : State :=
  let w := chanSw b
  let asked := !b && (s.stn n).la.lamp.returnDue
  let s := s.modLamp n w fun l => pulseResult pass m { l with lastVoid := false, repeatDue := false }
  let s := if fieldProved s n w ∧ ¬ asked then
      judgeLamp n w (normal s n w m) (kInt (fieldKey s n w .PTHR)) m.u (s.modLamp n w (countGrid pass))
    else s
  learnPulse n b m (if asked then returnJudged n pass s else s)
/-- A channel gets pulses at its grid points: it is proved, or it is being learned (R252, R260). -/
def pulsed (s : State) (n : Nat) (b : Bool) : Bool :=
  fieldProved s n (chanSw b) || (match learnOp s n b with
    | some o => (match o.prog with
      | .proveLearn _ _ _ none _ _ => true
      | _ => false)
    | none => false)
/-- A row of conversions is a whole pulse of the channel: one every 50 us of its width (R247, R254). -/
def wholePulse (s : State) (n : Nat) (w : Sw) (cs : List Conv) : Bool := decide (50 * cs.length = pulseUs s n w)
/-- A grid point of a channel and its pulse's conversions (R252 to R257, R262). -/
def pulseAt (n : Nat) (b : Bool) (cs : List Conv) (s : State) : State :=
  let w := chanSw b
  let m := pulseMeas w cs
  let asked := !b && (s.stn n).la.lamp.returnDue
  if ¬ gridPoint s n w ∨ ¬ (pulsed s n b ∨ asked) ∨ ¬ (s.slc (slotOf n)).powered then s
  else if gridSkipped s n w ∧ ¬ asked then s.modLamp n w fun l => { l with lastSkipped := true, lastFailed := false }
  else if (atGrid s n w).2 then pulseJudged n b { m with i := 0 } false s
  else
    if ¬ wholePulse s n w cs then s
    else
      let s := heatPulse n w cs s
      if m.flagged then s.modLamp n w fun l => pulseResult false m { l with lastVoid := true, lastSkipped := false, repeatDue := true }
      else pulseJudged n b m (pulsePasses s n w m) s
/-- The repeat of a void pulse; with the repeat void too the grid point counts as a failed pulse (R255). It is given and judged whatever has
become of the channel in the 1 ms since the off-edge (DESIGN CHOICE, log entry 127). -/
def pulseRepeat (n : Nat) (b : Bool) (cs : List Conv) (s : State) : State :=
  let w := chanSw b
  let m := pulseMeas w cs
  if ¬ (s.sw n w).lamp.repeatDue ∨ ¬ repeatPoint s n w ∨ ¬ wholePulse s n w cs then s
  else
    let s := heatPulse n w cs s
    if m.flagged then
      let s := pulseJudged n b { m with i := 0 } false s
      s.modLamp n w fun l => { l with lastVoid := true }
    else pulseJudged n b m (pulsePasses s n w m) s

/-- A sample of a channel in the lit phase of PROVE LEARN counts from 500 ms after the ramp on (R260). -/
def learnSample (n : Nat) (w : Sw) (a : Acc) (s : State) : State :=
  match learnOp s n (decide (w = .lb)), (s.sw n w).rampEnd with
  | some _, some t =>
    if s.now < t + 500000 then s
    else
      let v := litValue s n w (sampleMeas s n w a)
      s.modLamp n w fun l => { l with litSum := l.litSum + v, litCount := l.litCount + 1 }
  | _, _ => s
/-- The lit phase of PROVE LEARN has ended: I_on is the mean of its samples (R260). -/
def learnLit (n : Nat) (b : Bool) (s : State) : State :=
  let l := (s.sw n (chanSw b)).lamp
  let iOn := (roundDiv l.litSum (max 1 l.litCount)).toNat
  match learnOp s n b with
  | none => s
  | some o =>
    match o.prog with
    | .proveLearn _ left results (some t) _ _ =>
      if s.now < t then s
      else if iOn < 50 then learnRefused n b o .ONTHR s
      else
        let s := ask n (chanSw b) .off s
        s.modOp o.id fun q => { q with prog := .proveLearn n left results none [] iOn }
    | _ => s

/-! ## The commands -/

/-- A grid point and its pulse (R253). -/
def execProvingPulse (n : Fin 64) (b : Bool) (cs : List Conv) (s : State) : Host.Outcome State Fault Refusal :=
  .next (settle s (pulseAt n.val b cs s))
/-- The repeat of a void pulse (R255). -/
def execVoidPulseRepeat (n : Fin 64) (b : Bool) (cs : List Conv) (s : State) : Host.Outcome State Fault Refusal :=
  .next (settle s (pulseRepeat n.val b cs s))
/-- A flash edge: the channel takes the phase its pattern has at this FLASH value (R267, R270). -/
def execFlashEdge (n : Fin 64) (b : Bool) (s : State) : Host.Outcome State Fault Refusal :=
  let w := chanSw b
  .next (settle s (if (s.sw n.val w).flash.isSome ∧ actSw s n.val w = w then follow n.val w s else s))
/-- The lit phase of PROVE LEARN ends on a channel of station k of slice p (R260). -/
def execLearnLitPhaseEnd (p k : Fin 8) (b : Bool) (s : State) : Host.Outcome State Fault Refusal :=
  .next (settle s (learnLit (8 * p.val + k.val) b s))

end Sys2Proof.Machine
end

