-- ==== Sys2Proof/Machine/Switches.lean ====
section
/-! DEFINITION. Protected switches: one conversion and all that follows from it - the range, the limiter, the fuse model, the turn-on energy,
the trips, under-voltage, the clamp, the samples and the verdicts on them - and the PWM periods of class L (06 R206 to R240). Currents are in
0.1 mA, voltages in mV, energies in pJ. -/

namespace Sys2Proof.Machine

open Sys2Proof

/-! ## Levels (R224, R225) -/

/-- UNOM of a feed in V as the field side has it (R208). -/
def unomV (s : State) (n : Nat) : Nat := fieldN s n .fd .UNOM
/-- The off threshold: 0.65 x UNOM, and 14.0 V (R224, R225); an FD without UNOM has none. -/
def uvLevel (s : State) (n : Nat) (w : Sw) : Nat := byClass w (650 * unomV s n) 14000
/-- The restart level: 0.75 x UNOM, and 16.0 V (R224, R225). -/
def uvBack (s : State) (n : Nat) (w : Sw) : Nat := byClass w (750 * unomV s n) 16000
/-- The supply must lie below the off threshold for 200 us, and 100 us (R224, R225). -/
def uvTime (w : Sw) : Nat := byClass w 200 100
/-- It must stand above the restart level for 200 ms, and 50 ms (R224, R225). -/
def backTime (w : Sw) : Nat := byClass w 200000 50000

/-- Entry into a flag and its clearing are reported with the flag's name; an entry is journalled (R240). -/
def flagReport (n : Nat) (w : Sw) (words : List String) (cause : String) (enter : Bool) (s : State) : State :=
  if enter then fieldReport n (swChan w) words 0x0501 (tripPayload s n w cause none) false s
  else fieldReport n (swChan w) (words ++ ["clear"]) 0 [] false s

/-! ## Turn-on (R210, R211) -/

/-- The inrush window closes INRUSH after it opened: a current above the steady limit is brought down to it (R211). -/
def windowClose (n : Nat) (w : Sw) (s : State) : State :=
  match (s.sw n w).inrush with
  | some t => if t + (s.sw n w).window ≤ s.now then s.modSw n w fun x => { x with
      inrush := none, limiting := decide (steadyLimit w ≤ x.cur), cur := min x.cur (steadyLimit w) } else s
  | none => s
/-- The ramp ends when the voltage across the switch falls below 0.5 V; in CC mode the rise to ISET ends 1 ms after its start (R210). -/
def rampDone (cc : Bool) (c : Conv) (now : Nat) (x : Switch) : Switch :=
  if x.ramp ≠ some true ∨ now < x.rampAt then x
  else if cc ∧ x.rampAt + 1000 ≤ now then { x with ramp := none, rampEnd := some (x.rampAt + 1000) }
  else if (c.u : Int) < c.out + 500 then { x with ramp := none, rampEnd := some now }
  else x

/-! ## One conversion (R215 to R218, R222 to R227) -/

/-- The clamp conducts: the voltage across an open switch has reached the clamp voltage (R226). -/
def clamping (w : Sw) (on : Bool) (c : Conv) : Bool := !on && decide (c.out + clampVoltage w ≤ c.u)
/-- The energy of one conversion in pJ: the voltage across the switch times its current, for 50 us (R212, R226). -/
def convEnergy (c : Conv) (i : Nat) : Nat := 5 * (c.u - c.out).toNat * i
/-- The clamp at a conversion: a pulse starts with its allowance by the interval since the end of the last and by the die, gathers energy, and
ends with the first conversion that finds the clamp not conducting (R226, R227). -/
def clampStep (w : Sw) (on : Bool) (c : Conv) (i now : Nat) (x : Switch) : Switch :=
  if clamping w on c then
    match x.pulse with
    | some (a, e) => { x with pulse := some (a, e + convEnergy c i) }
    | none =>
      let full := clampAllowance w (x.lastClamp.map fun t => now - t)
      { x with pulse := some (1000000 * (if 125 < c.die then full / 2 else full), convEnergy c i) }
  else if x.pulse.isSome then { x with pulse := none, lastClamp := some now } else x
/-- Supervision of the supply: since when it lies below the off threshold, and above the restart level; a fall during the wait starts the
restart time anew (R224, R225). -/
def supplyStep (s : State) (n : Nat) (w : Sw) (u : Nat) (x : Switch) : Switch :=
  { x with u, uvSince := sinceOf x.uvSince (decide (u < uvLevel s n w)) s.now, upSince := sinceOf x.upSince (x.uvWait && decide (uvBack s n w < u)) s.now }
/-- The current to which a channel in CC mode is held now: ISET, reached in 1 ms from the turn-on (R210, R232). -/
def ccTarget (s : State) (n : Nat) (w : Sw) : Nat :=
  let x := s.sw n w
  let ms := if x.ramp = some true then min 1000 (s.now - x.rampAt) else 1000
  fieldN s n w .ISET * ms / 1000
/-- What a conversion finds of a switch, before any trip: the current used, the range, the limiter, the fuse heat, the turn-on energy inside the
window, the time at the steady limit with a low output, the die, the clamp and the supply. A channel in CC mode is held to its target, or is
fully on where the load takes less (R232, R233). -/
def measure (n : Nat) (w : Sw) (c : Conv) (s : State) : State :=
  let x := s.sw n w
  let on := outputOn s n w
  let r := sense w x.high x.downNext c
  let limit := limitNow w x
  let cc := ccMode s n w
  let held := if cc ∧ on then ccTarget s n w else 0
  let full := decide (r.i < held)
  let i := if !on then 0 else if cc ∧ ¬ full then min held limit else min r.i limit
  let h := fuseStep (fuseSteps ((s.now - x.heatAt) / 50 - 1) x.heat (if on then x.cur else 0) (wireIn s n w) (wireTau s n w)) i
    (wireIn s n w) (wireTau s n w)
  let at_ := on && decide (limit ≤ r.i)
  s.modSw n w fun x => supplyStep s n w c.u (clampStep w on c r.i s.now { rampDone cc c s.now x with
    high := on && r.high, downNext := on && r.down, flaggedAt := if on ∧ r.flagged then some s.now else x.flaggedAt
    cur := i, held, fullOn := full, limiting := at_, heat := h, heatAt := max x.heatAt (s.now - (s.now - x.heatAt) % 50), die := c.die
    energy := if x.inrush.isSome ∧ on then x.energy + convEnergy c i else x.energy
    shortSince := sinceOf x.shortSince (at_ && x.inrush.isNone && decide (4 * c.out < c.u)) s.now })
/-- The causes that a conversion finds, in the order of R235. -/
def tripCauses (w : Sw) (now : Nat) (x : Switch) : List TripCause :=
  (if 165 ≤ x.die ∧ x.tj.isNone then [.tj] else [])
    ++ (if heldFor x.shortSince now 1000 ∧ x.short.isNone then [.short] else [])
    ++ (if 1210000000000 ≤ x.heat ∧ x.fuse.isNone then [.fuse] else [])
    ++ (if x.inrush.isSome ∧ toneLimit w ≤ x.energy ∧ x.tone.isNone then [.tone] else [])
    ++ (if (x.pulse.any fun p => decide (p.1 < p.2)) ∧ x.clamp.isNone then [.clamp] else [])
    ++ (if heldFor x.uvSince now (uvTime w) ∧ ¬ x.uvWait then [.uv] else [])
/-- The trips of a conversion, and what they do to the motion that a feed carries; an open load that the same conversion completes shows in the
flags beside them (R130, R235). -/
def tripJudged (n : Nat) (w : Sw) (openLoad : Bool) (s : State) : State :=
  let x := s.sw n w
  let l := tripCauses w s.now x
  let s := if openLoad ∧ ¬ l.isEmpty then s.modSw n w fun x => { x with openLoad := true } else s
  let s := tripAll n w l ((x.pulse.map (·.2)).getD 0 / 1000000) s
  if w = .fd ∧ ¬ l.isEmpty then feedLost n s else s
/-- The supply has stood above the restart level for the restart time: the wait ends, and a switch that is commanded on and has no trip
standing turns on (R224, R225, R235). -/
def supplyJudged (n : Nat) (w : Sw) (s : State) : State :=
  let x := s.sw n w
  if ¬ x.uvWait ∨ ¬ heldFor x.upSince s.now (backTime w) ∨ (w = .fd ∧ fieldKey s n .fd .UNOM = .unset) then s
  else
    let s := (noteGrid n w s).modSw n w fun x => { x with uvOff := false, uvWait := false, upSince := none }
    if actSw s n w = w then follow n w s else s

/-! ## Samples (R215, R217, R229) -/

/-- A conversion joins a sample that is being formed; a turn-on ramp that has ended since the conversion before it was in the sample too
(R248). -/
def gather (now : Nat) (x : Switch) (on flagged : Bool) (a : Acc) : Acc :=
  { count := a.count + 1, sum := a.sum + x.cur, onCount := a.onCount + on.toNat, onSum := a.onSum + (if on then x.cur else 0)
    uSum := a.uSum + x.u, flagged := a.flagged || flagged, ramped := a.ramped || decide (x.ramp = some true) || x.rampEnd.any fun t => decide (now < t + 50)
    rushed := a.rushed || x.inrush.isSome, uv := a.uv || x.uvOff || x.uvWait, limited := a.limited || x.limiting }
/-- A 1 ms sample takes part in the open-load verdict (R229). -/
def olJudged (s : State) (n : Nat) (w : Sw) (a : Acc) : Bool :=
  (s.sw n w).olDet && (decide (w ≠ .fd) || elementsClosed s n) && (s.sw n w).isOn s.now && !a.flagged && !a.ramped && !a.rushed && !a.uv
    && (sampleMeas s n w a).onPhase && (decide (w = .fd) || !fieldProved s n w)
/-- A 1 ms sample lies below OLTHR (R229). -/
def olLow (s : State) (n : Nat) (w : Sw) (a : Acc) : Bool := decide ((sampleMeas s n w a).i < (s.sw n w).olThr)
/-- The conversion completes a sample with which open load is due (R229, R235). -/
def olDue (s : State) (n : Nat) (w : Sw) (a : Acc) : Bool :=
  let x := s.sw n w
  decide (20 ≤ a.count) && olJudged s n w a && olLow s n w a && !x.openLoad && heldFor (sinceOf x.olSince true s.now) s.now x.olTime
/-- A 1 ms sample of a switch enters the open-load verdict (R215, R229). -/
def olSample (n : Nat) (w : Sw) (a : Acc) (s : State) : State :=
  if ¬ olJudged s n w a then s
  else
    let x := s.sw n w
    let low := olLow s n w a
    let since := sinceOf x.olSince low s.now
    let passes := if low then 0 else min 10 (x.olPasses + 1)
    let s := s.modSw n w fun x => { x with olSince := since, olPasses := passes }
    if ¬ x.openLoad ∧ heldFor since s.now x.olTime then
      flagReport n w ["open", "load"] "OPENLOAD" true (s.modSw n w fun x => { x with openLoad := true })
    else if x.openLoad ∧ 10 ≤ passes then
      flagReport n w ["open", "load"] "OPENLOAD" false (s.modSw n w fun x => { x with openLoad := false })
    else s
/-- A 1 ms lamp sample is complete: SHOW's current, the open-load verdict, the lamp's proving and learning (R215, R229, R238, R248, R260). -/
def lampSample (n : Nat) (w : Sw) (a : Acc) (s : State) : State :=
  let m := sampleMeas s n w a
  let s := s.modSw n w fun x => { x with
    i := roundDiv a.sum 20, acc := {}, lampI := m.i, lampFlagged := a.flagged, lampSkipped := sampleSkipped m a }
  let s := olSample n w a s
  if w = .fd then s else learnSample n w a (litSample n w a s)
/-- A conversion joins the samples: five make a feed sample, twenty a lamp sample; each is flagged with a conversion in it (R215, R217). -/
def sampleConv (n : Nat) (w : Sw) (on flagged : Bool) (s : State) : State :=
  let x := s.sw n w
  let f := gather s.now x on flagged x.feedAcc
  let a := gather s.now x on flagged x.acc
  let s := s.modSw n w fun x => { x with
    acc := a, feedAcc := if f.count < 5 then f else {}, feedSample := if f.count < 5 then x.feedSample else (roundDiv f.sum 50).toNat
    feedPrev := if f.count < 5 then x.feedPrev else x.feedSample, feedFlagged := if f.count < 5 then x.feedFlagged else f.flagged }
  if a.count < 20 then s else lampSample n w a s

/-! ## Drive modes (R230 to R234) -/

/-- This instant is the first of a PWM period: the epoch plus a whole number of periods (R234). -/
def periodStart (s : State) (n : Nat) (w : Sw) : Bool := decide (pwmPlace s n w < (s.sw n w).pwmF)
/-- A pulse generator takes PWMF and PPHASE at the start of a period (R208). -/
def takePwmKeys (n : Nat) (w : Sw) (s : State) : State :=
  s.modSw n w fun x => { x with
    pwmF := max 1 (fieldN s n w .PWMF), pwmPh := match fieldKey s n w .PPHASE with | .i v => some v.toNat | _ => none }
/-- A PWM period begins: the pulse generator takes its keys, and a channel in CP mode its duty (R208, R230, R231, R234). -/
def pwmPeriod (n : Nat) (w : Sw) (u : Nat) (s : State) : State :=
  if ¬ periodStart s n w then s
  else if ¬ cpMode s n w then takePwmKeys n w s
  else
    let s := takePwmKeys n w s
    let x := s.sw n w
    let d := dutyOf (fieldN s n w .PWR) (fieldN s n w .UREF) u
    let s := s.modSw n w fun x => { x with duty := d.1, sat := d.2, u }
    if x.sat = d.2 then s else flagReport n w ["saturated"] "SAT" d.2 s
/-- A conversion of a channel in CC mode: the compliance flag, by ISET (R233). -/
def ccConv (n : Nat) (w : Sw) (s : State) : State :=
  let x := s.sw n w
  if ¬ ccMode s n w ∨ ¬ x.isOn s.now then s
  else
    let iset := fieldN s n w .ISET
    let low := decide (x.cur + max (iset / 50) 10 < iset)
    let near := decide (iset ≤ x.cur + iset / 100 ∧ x.cur ≤ iset + iset / 100)
    let since := sinceOf x.complySince (if x.comply then near else low) s.now
    let s := s.modSw n w fun x => { x with complySince := since }
    if ¬ x.comply ∧ heldFor since s.now 10000 then
      flagReport n w ["compliance"] "COMPLY" true (s.modSw n w fun x => { x with comply := true, complySince := none })
    else if x.comply ∧ heldFor since s.now 100000 then
      flagReport n w ["compliance"] "COMPLY" false (s.modSw n w fun x => { x with comply := false, complySince := none })
    else s

/-- One conversion of a switch of a powered slice and all that follows from it (R215). -/
def conversion (n : Nat) (w : Sw) (c : Conv) (s : State) : State :=
  if ¬ (s.slc (slotOf n)).powered then s
  else
    let s := windowClose n w s
    let on := outputOn s n w
    let flagged := on && (sense w (s.sw n w).high (s.sw n w).downNext c).flagged
    let s := measure n w c s
    let due := olDue s n w (gather s.now (s.sw n w) on flagged (s.sw n w).acc)
    sampleConv n w on flagged (supplyJudged n w (ccConv n w (tripJudged n w due s)))

/-! ## The commands -/

/-- A PWM period begins with the mean supply of the last 1 ms (R230). -/
def execPwmPeriodStart (n : Fin 64) (b : Bool) (u : Nat) (s : State) : Host.Outcome State Fault Refusal :=
  .next (settle s (pwmPeriod n.val (chanSw b) u s))
/-- A conversion that finds less than 0.5 V across a switch ends its ramp (R210). -/
def execTurnOnRampEnd (n : Fin 64) (w : Sw) (c : Conv) (s : State) : Host.Outcome State Fault Refusal :=
  .next (settle s (conversion n.val w c s))
/-- The inrush window closes (R211). -/
def execInrushWindowClose (n : Fin 64) (w : Sw) (s : State) : Host.Outcome State Fault Refusal :=
  .next (settle s (windowClose n.val w s))
/-- A conversion whose energy may bring the turn-on energy integral to its limit (R212). -/
def execToneTrip (n : Fin 64) (w : Sw) (c : Conv) (s : State) : Host.Outcome State Fault Refusal :=
  .next (settle s (conversion n.val w c s))
/-- A conversion that may bring the fuse heat to 1.21 (R218). -/
def execFuseTrip (n : Fin 64) (w : Sw) (c : Conv) (s : State) : Host.Outcome State Fault Refusal :=
  .next (settle s (conversion n.val w c s))
/-- A conversion at the steady limit with a low output, which may complete 1 ms of them (R222). -/
def execShortTrip (n : Fin 64) (w : Sw) (c : Conv) (s : State) : Host.Outcome State Fault Refusal :=
  .next (settle s (conversion n.val w c s))
/-- A conversion with its die reading (R223). -/
def execTjTrip (n : Fin 64) (w : Sw) (c : Conv) (s : State) : Host.Outcome State Fault Refusal :=
  .next (settle s (conversion n.val w c s))
/-- A conversion with the clamp conducting, which may exceed the pulse's allowance (R227). -/
def execClampLock (n : Fin 64) (w : Sw) (c : Conv) (s : State) : Host.Outcome State Fault Refusal :=
  .next (settle s (conversion n.val w c s))
/-- A conversion with the supply below the off threshold, which may complete its time (R224, R225). -/
def execUnderVoltageOff (n : Fin 64) (w : Sw) (c : Conv) (s : State) : Host.Outcome State Fault Refusal :=
  .next (settle s (conversion n.val w c s))
/-- A conversion with the supply above the restart level, which may complete the restart time (R224, R225). -/
def execUnderVoltageRestart (n : Fin 64) (w : Sw) (c : Conv) (s : State) : Host.Outcome State Fault Refusal :=
  .next (settle s (conversion n.val w c s))
/-- A conversion that may complete a lamp sample below OLTHR (R229). -/
def execOpenLoad (n : Fin 64) (w : Sw) (c : Conv) (s : State) : Host.Outcome State Fault Refusal :=
  .next (settle s (conversion n.val w c s))
/-- A conversion of a channel in CC mode (R233). -/
def execCompliance (n : Fin 64) (b : Bool) (c : Conv) (s : State) : Host.Outcome State Fault Refusal :=
  .next (settle s (conversion n.val (chanSw b) c s))
/-- A conversion at a range threshold (R216). -/
def execRangeChange (n : Fin 64) (w : Sw) (i : Amps) (x : SwSense) (s : State) : Host.Outcome State Fault Refusal :=
  .next (settle s (conversion n.val w { low := i.low, high := i.high, u := x.u, out := x.out, die := x.die } s))
/-- A conversion that may complete a lit sample below ONTHR (R248). -/
def execLampDarkLit (n : Fin 64) (b : Bool) (c : Conv) (s : State) : Host.Outcome State Fault Refusal :=
  .next (settle s (conversion n.val (chanSw b) c s))
/-- A conversion that may complete a passing lit sample (R264). -/
def execLampClear (n : Fin 64) (b : Bool) (c : Conv) (s : State) : Host.Outcome State Fault Refusal :=
  .next (settle s (conversion n.val (chanSw b) c s))

end Sys2Proof.Machine
end

