-- ==== Sys2Proof/Machine/FieldIo.lean ====
section
/-! DEFINITION. Field inputs and outputs: filtered changes, test pulses, open wire and over-voltage, the sensor supply and its taps,
counting and frequency, and the diagnostics of the outputs (08 R272 to R287, R299). Input currents are in 0.01 mA, voltages in mV,
temperatures in C. The clamp and the demagnetisation of R284 leave no state. -/

namespace Sys2Proof.Machine

open Sys2Proof

/-! ## Inputs (R274 to R276) -/

/-- Microseconds since the slice's PWM epoch, at which tap pulses are laid (R278). -/
def sinceEpoch (s : State) (n : Nat) : Int := (s.now : Int) - (s.slc (slotOf n)).epoch
/-- A tap is off (R277). -/
def tapOff (s : State) (n k : Nat) : Bool := !(s.stn n).sensor.on || (s.stn n).sensor.taps.any fun t => t.1 == k
/-- This instant lies in the masked window of a tap (R279). -/
def masked (s : State) (n : Nat) : Bool := (s.stn n).sensor.on && decide (sinceEpoch s n % 5000 < tpw s n + 200)
/-- The head takes an input's filtered state; a reference search sees HOME become active (R147, R274), and a step that has deployed shows it as its
STOWSW opens (R182). -/
def setInput (n k : Nat) (on : Bool) (s : State) : State :=
  if ((s.stn n).inp k).on = on then s
  else
    let was := homeActive s n
    let s := s.modInp n k fun i => { i with on }
    let s := if isLeaf s n then stepReached n (stepOut1Deployed n s) else s
    match (s.ax n).motion with
    | some m => if m.phase = .toHome ∧ ¬ was ∧ homeActive s n then settleAxis n (homeReached n s) else s
    | none => s
/-- The upper and the lower threshold of a station's inputs in mV, by ITYPE (R273). -/
def inThresholds (s : State) (n : Nat) : Nat × Nat := if fieldSt s n .ITYPE = 3 then (9000, 7500) else (11500, 10000)
/-- An input's state by its thresholds; between them it keeps its last (R273). -/
def inState (s : State) (n : Nat) (last : Bool) (u : Nat) : Bool :=
  if (inThresholds s n).1 ≤ u then true else if u ≤ (inThresholds s n).2 then false else last
/-- The current that an input draws at a voltage, in 0.01 mA: through 3.0 kOhm, up to 3.0 mA (R273). -/
def inCurrent (u : Nat) : Nat := min 300 (u / 30)
/-- FILTER in us. -/
def filterUs (s : State) (n : Nat) : Nat := 50 * (fieldSt s n .FILTER).toNat
/-- How much of a time since the slice's PWM epoch lies outside the masked windows, us (R279). -/
def openUs (s : State) (n : Nat) (t : Nat) : Nat :=
  if (s.stn n).sensor.on then t / 5000 * (5000 - ((tpw s n).toNat + 200)) + (t % 5000 - ((tpw s n).toNat + 200)) else t
/-- A sample of an input outside the masked windows reaches its filter: a state that has held without a break for FILTER is the filtered state
(R273, R274, R279). -/
def filterSample (n k : Nat) (u : Nat) (s : State) : State :=
  let i := (s.stn n).inp k
  let e := (s.slc (slotOf n)).epoch
  let raw := inState s n i.raw u
  let held := if raw = i.raw then i.held + (openUs s n (s.now - e) - openUs s n (i.rawAt - e)) else 0
  s.modInp n k fun i => { i with raw, rawAt := s.now, held, fOn := if filterUs s n ≤ held then raw else i.fOn }
/-- A sample of an input's current, for open wire: low for OWT, or at or above 0.35 mA for 10 ms (R275). -/
def wireSample (n k : Nat) (current : Nat) (s : State) : State :=
  let o : Obj := .ch n (inChan k)
  let i := (s.stn n).inp k
  let low := decide (current < 35)
  let since := sinceOf i.owSince (if i.openWire then !low else low && fieldIs s n (inChan k) .OWDET "ON") s.now
  let s := s.modInp n k fun i => { i with owSince := since }
  if ¬ i.openWire ∧ heldFor since s.now (kInt (fieldOf s (slotOf n) o .OWT)).toNat then
    ioFault n (inChan k) "OPEN" true (s.modInp n k fun i => { i with openWire := true, owSince := none })
  else if i.openWire ∧ heldFor since s.now 10000 then
    ioFault n (inChan k) "OPEN" false (s.modInp n k fun i => { i with openWire := false, owSince := none })
  else s
/-- A sample of an input's terminal voltage, for over-voltage: above 35 V for 1 ms, or at or below 32 V for 10 ms (R276). -/
def overSample (n k : Nat) (u : Nat) (s : State) : State :=
  let i := (s.stn n).inp k
  let since := sinceOf i.ovSince (if i.overVolt then decide (u ≤ 32000) else decide (35000 < u)) s.now
  let s := s.modInp n k fun i => { i with ovSince := since }
  if ¬ i.overVolt ∧ heldFor since s.now 1000 then
    ioFault n (inChan k) "OVERVOLT" true (s.modInp n k fun i => { i with overVolt := true, ovSince := none })
  else if i.overVolt ∧ heldFor since s.now 10000 then
    ioFault n (inChan k) "OVERVOLT" false (s.modInp n k fun i => { i with overVolt := false, ovSince := none })
  else s
/-- A sample of an input at a terminal voltage: its current is measured; within a masked window the filter and open wire leave it out (R273 to
R276, R279). -/
def inputSample (n k : Nat) (u : Nat) (s : State) : State :=
  if ¬ (s.slc (slotOf n)).powered then s
  else
    let s := s.modInp n k fun i => { i with i := inCurrent u }
    overSample n k u (if masked s n then s else wireSample n k (inCurrent u) (filterSample n k u s))

/-! ## Test pulses (R278 to R280) -/

/-- The verdict of one pulse: `some true` passes (R280). -/
def pulseVerdict (before reading own : Bool) : Option Bool :=
  if !before then none else some (if own then !reading else reading)
/-- Counts of failures and passes of one tap, and whether its fault stands, after a verdict (R280). -/
def countTap (tap : Nat) (pass : Bool) (fails passes : Tbl Nat) (taps : List Nat) : Tbl Nat × Tbl Nat × List Nat :=
  let f := if pass then 0 else min 2 (tget 0 fails tap + 1)
  let p := if pass then min 2 (tget 0 passes tap + 1) else 0
  let taps := if 2 ≤ f then (if tap ∈ taps then taps else taps ++ [tap]) else if 2 ≤ p then taps.filter (· ≠ tap) else taps
  (tset fails tap f, tset passes tap p, taps)
/-- A lane's judgement of one input (R280). -/
def laneJudge (tap : Nat) (pass : Bool) (i : LaneIn) : LaneIn :=
  let r := countTap tap pass i.fails i.passes i.taps
  { i with fails := r.1, passes := r.2.1, taps := r.2.2 }
/-- The field side's judgement of one input (R280). -/
def fieldJudge (tap : Nat) (pass : Bool) (i : Input) : Input :=
  let r := countTap tap pass i.fails i.passes i.faultTaps
  { i with fails := r.1, passes := r.2.1, faultTaps := r.2.2, lastFailed := !pass }
/-- An input's test faults: SHORT on its own tap's pulses, CROSS on another's (R280, R287). -/
def shortOn (i : Input) (k : Nat) : Bool := decide (k ∈ i.faultTaps)
/-- CROSS stands. -/
def crossOn (i : Input) (k : Nat) : Bool := i.faultTaps.any (· ≠ k)
/-- One input of a tap's pulse (R280). -/
def judgeInput (n tap k : Nat) (reading : Bool) (s : State) : State :=
  if ¬ fieldIs s n (inChan k) .TEST "ON" then s
  else
    let i := (s.stn n).inp k
    match pulseVerdict i.fOn reading (decide (tap = k)) with
    | none => s
    | some pass =>
      let j := fieldJudge tap pass i
      let s := s.modInp n k fun _ => j
      let s := if shortOn i k = shortOn j k then s else ioFault n (inChan k) "SHORT" (shortOn j k) s
      if crossOn i k = crossOn j k then s else ioFault n (inChan k) "CROSS" (crossOn j k) s
/-- Tap k of a station gives its pulse, read 20 us before its end (R278, R280). -/
def tapPulse (n tap : Nat) (reading : Nat) (s : State) : State :=
  if tapOff s n tap ∨ (sinceEpoch s n - 5000 * (tap : Int) - (tpw s n - 20)) % 20000 ≠ 0 then s
  else
    let s := s.modStn n fun t => { t with tapRead := tset t.tapRead tap reading }
    forEach (List.range 4) (fun k s => judgeInput n tap k (reading.testBit k) s) s

/-! ## The sensor supply (R277, R299) -/

/-- The SUPPLY faults of the four inputs follow the supply and the taps (R277). -/
def supplyFaults (n : Nat) (told : Bool) (s : State) : State :=
  forEach (List.range 4) (fun k s =>
    let off := tapOff s n k
    if ((s.stn n).inp k).supply = off then s
    else
      let s := s.modInp n k fun i => { i with supply := off }
      if told then ioFault n (inChan k) "SUPPLY" off s else s) s
/-- Changes a sensor supply; the faults follow. -/
def modSensor (n : Nat) (f : Sensor → Sensor) (s : State) : State :=
  supplyFaults n true (s.modStn n fun t => { t with sensor := f t.sensor })
/-- The limit of the supply, and of a tap, mA (R277). -/
def sensorLimit (tap : Option Nat) : Nat := if tap.isSome then 50 else 250
/-- A reading of the current of the supply, or of a tap: still at the limit after 10 ms it turns off and retries every 1 s (R277). -/
def sensorLoad (n : Nat) (tap : Option Nat) (i : Nat) (s : State) : State :=
  let s := if tap.isNone then s.modStn n fun t => { t with sensor := { t.sensor with i } } else s
  let v := (s.stn n).sensor
  let at_ := decide (sensorLimit tap ≤ i)
  match tap with
  | none =>
    let since := sinceOf v.limitSince at_ s.now
    if ¬ v.on then s
    else if heldFor since s.now 10000 then
      modSensor n (fun v => { v with on := false, overload := true, retryAt := s.now + 1000000, limitSince := none, trying := none }) s
    else s.modStn n fun t => { t with sensor := { t.sensor with limitSince := since } }
  | some k =>
    let since := sinceOf (aget v.tapSince k) at_ s.now
    if tapOff s n k then s
    else if heldFor since s.now 10000 then
      modSensor n (fun v => { v with taps := v.taps ++ [(k, s.now + 1000000)], tapSince := adel v.tapSince k, tapTrying := adel v.tapTrying k }) s
    else s.modStn n fun t => { t with sensor := { t.sensor with
      tapSince := match since with | some x => aset v.tapSince k x | none => adel v.tapSince k } }
/-- A reading of the current in a retry of the supply or of a tap, or after a restart at 130 C: 10 ms without reaching the limit end the fault;
at the limit a retry turns off until the next, and a restarted supply after 10 ms (R277). -/
def sensorRetry (n : Nat) (tap : Option Nat) (i : Nat) (s : State) : State :=
  let v := (s.stn n).sensor
  let at_ := decide (sensorLimit tap ≤ i)
  match tap with
  | none =>
    let since := v.trying.getD s.now
    if v.restart then
      let lim := sinceOf v.limitSince at_ s.now
      if heldFor lim s.now 10000 then s.modStn n fun t => { t with sensor := { v with
        restart := false, overload := true, retryAt := s.now + 1000000, limitSince := none, trying := none } }
      else if at_ then s.modStn n fun t => { t with sensor := { v with limitSince := lim, trying := none } }
      else if since + 10000 ≤ s.now then modSensor n (fun v => { v with on := true, restart := false, limitSince := none, trying := none }) s
      else s.modStn n fun t => { t with sensor := { v with limitSince := none, trying := some since } }
    else if ¬ v.overload ∨ s.now < v.retryAt then s
    else if at_ then s.modStn n fun t => { t with sensor := { t.sensor with retryAt := v.retryAt + 1000000, trying := none } }
    else if since + 10000 ≤ s.now then modSensor n (fun v => { v with on := !v.overtemp, overload := false, trying := none }) s
    else s.modStn n fun t => { t with sensor := { t.sensor with trying := some since } }
  | some k =>
    match aget v.taps k with
    | none => s
    | some t =>
      let since := (aget v.tapTrying k).getD s.now
      if s.now < t then s
      else if at_ then s.modStn n fun x => { x with sensor := { x.sensor with taps := aset v.taps k (t + 1000000), tapTrying := adel v.tapTrying k } }
      else if since + 10000 ≤ s.now then modSensor n (fun v => { v with taps := adel v.taps k, tapTrying := adel v.tapTrying k }) s
      else s.modStn n fun x => { x with sensor := { x.sensor with tapTrying := aset v.tapTrying k since } }
/-- A reading of the station field supply before the sensor supply's first turn-on: 14 V for 50 ms without a break turn it on (R299). -/
def sensorStart (n : Nat) (u : Nat) (s : State) : State :=
  let v := (s.stn n).sensor
  let since := sinceOf v.goodSince (decide (14000 ≤ u)) s.now
  if ¬ (s.slc (slotOf n)).powered ∨ v.on ∨ v.overload ∨ v.overtemp ∨ v.restart then s
  else
    let s := s.modStn n fun t => { t with sensor := { v with goodSince := since, on := heldFor since s.now 50000 } }
    supplyFaults n false s
/-- The supply turns off at 150 C (R277). -/
def sensorHot (n : Nat) (die : Int) (s : State) : State :=
  let v := (s.stn n).sensor
  if (v.on ∨ v.restart) ∧ 150 ≤ die then modSensor n (fun v => { v with on := false, restart := false, overtemp := true, trying := none }) s else s
/-- It restarts at 130 C, and counts as off until it has been on for 10 ms without its limit (R277). -/
def sensorCool (n : Nat) (die : Int) (s : State) : State :=
  if (s.stn n).sensor.overtemp ∧ die ≤ 130 then modSensor n (fun v => { v with
    overtemp := false, restart := !v.overload, limitSince := none, trying := if v.overload then v.trying else some s.now }) s else s

/-! ## Counting and frequency (R281 to R283) -/

/-- The input that a counting command names. -/
def cntInput (second : Bool) : Nat := if second then 1 else 0
/-- An edge is one that the input counts (R281). -/
def counts (s : State) (n : Nat) (second rising : Bool) : Bool :=
  match fieldOf s (slotOf n) (.ch n (inChan (cntInput second))) .CNT with
  | .w "RISE" => rising
  | .w "FALL" => !rising
  | .w "BOTH" => true
  | _ => false
/-- The counting input is as it was before its last edge: that edge and the one that follows it within 4 us make a pulse that is ignored
(R281). -/
def Input.ungiven (i : Input) : Input :=
  match i.undo with
  | some (count, edges, first, last, ever) => { i with count, edges, first, last, ever, edgeAt := none, undo := none }
  | none => { i with edgeAt := none }
/-- An edge at a counting input, stamped on the 1.5 GHz clock; one that ends a pulse shorter than 4 us takes the pulse back (R281, R282). -/
def countEdge (n : Nat) (second rising : Bool) (sub : Nat) (s : State) : State :=
  if fieldIs s n (inChan (cntInput second)) .CNT "OFF" then s
  else
    let t := s.now * 1500 + sub
    let hit := counts s n second rising
    s.modInp n (cntInput second) fun i =>
      if i.edgeAt.any fun e => decide (t < e + 6000) then i.ungiven
      else
        let i := { i with edgeAt := some t, undo := some (i.count, i.edges, i.first, i.last, i.ever) }
        if hit then { i with count := i.count + 1, edges := i.edges + 1, first := i.first <|> some t, last := some t, ever := some t } else i
/-- A frequency in mHz, rounded down, from a number of intervals and the ticks they take (R282). -/
def freqOf (intervals ticks : Nat) : Nat := intervals * 1500000000000 / max 1 ticks
/-- The frequency of a gate (R282). -/
def gateFreq (i : Input) (t : Nat) : Nat :=
  match i.first, i.last, i.ever with
  | some a, some b, some e => if 2 ≤ i.edges then freqOf (i.edges - 1) (b - a) else freqOf 1 (t - e)
  | _, _, some e => freqOf 1 (t - e)
  | _, _, none => 0
/-- A gate of a counting input ends (R282, R283). -/
def gateEnd (n : Nat) (second : Bool) (s : State) : State :=
  let k := cntInput second
  let o : Obj := .ch n (inChan k)
  let i := (s.stn n).inp k
  let num := fun (k : Key) => (kInt (fieldOf s (slotOf n) o k)).toNat
  if fieldOf s (slotOf n) o .CNT = .w "OFF" ∨ s.now < i.gateStart + num .GATE then s
  else
    let f := gateFreq i (s.now * 1500)
    let zf := num .ZFREQ
    let since := sinceOf i.zeroSince (decide (f < zf)) s.now
    let zero := if heldFor since s.now (num .ZTIME) then true else i.zero && decide (10 * f < 11 * zf)
    s.modInp n k fun i => { i with
      freq := f, edges := 0, first := none, last := none, undo := none, gateStart := s.now, gateNo := i.gateNo + 1, zeroSince := since, zero }

/-! ## Outputs (R284 to R286) -/

/-- The output may be on: commanded, with no cause that holds it off (R285). -/
def outMayRun (o : Output) : Bool := o.cmd && !o.latched && !o.overload && !o.overtemp
/-- An OVERLOAD has been off for 100 ms (R285). -/
def overloadOver (n : Nat) (second : Bool) (s : State) : State :=
  let o := (s.stn n).outp second
  let past : Bool := match o.overloads.getLast? with
    | none => true
    | some t => decide (t + 100000 ≤ s.now)
  if o.overload ∧ ¬ o.latched ∧ past then
    ioFault n (outChan second) "OVERLOAD" false (s.modOut n second fun o => { o with overload := false, on := outMayRun { o with overload := false } })
  else s
/-- An output stands at its limit: off; the fourth within 10 s latches (R285). -/
def overloadAt (n : Nat) (second : Bool) (s : State) : State :=
  let o := (s.stn n).outp second
  if ¬ o.on then s
  else
    let l := (o.overloads.filter fun t => decide (s.now < t + 10000000)) ++ [s.now]
    ioFault n (outChan second) "OVERLOAD" true (s.modOut n second fun o => { o with
      on := false, overload := true, limitSince := none, overloads := l, latched := decide (4 ≤ l.length), offSeen := false })
/-- OVERTEMP by a die reading: off at 150 C, on again at 130 C while still commanded (R285). -/
def outHeat (n : Nat) (second : Bool) (die : Int) (s : State) : State :=
  let o := (s.stn n).outp second
  let set := fun (e : Bool) => ioFault n (outChan second) "OVERTEMP" e (s.modOut n second fun o => { o with
    overtemp := e, on := !e && outMayRun { o with overtemp := e } })
  if ¬ o.overtemp ∧ 150 ≤ die then set true else if o.overtemp ∧ die ≤ 130 then set false else s
/-- OPEN by a current reading: on with OLDET and below 2 mA for 100 ms, or at or above it for 10 ms (R285). -/
def outOpen (n : Nat) (second : Bool) (i : Nat) (s : State) : State :=
  let o := (s.stn n).outp second
  let ch := outChan second
  let since := sinceOf o.openSince (if o.openLoad then decide (2 ≤ i) else o.on && fieldIs s n ch .OLDET "ON" && decide (i < 2)) s.now
  let flip := heldFor since s.now (if o.openLoad then 10000 else 100000)
  let s := s.modOut n second fun o => { o with openSince := if flip then none else since, openLoad := if flip then !o.openLoad else o.openLoad }
  if flip then ioFault n ch "OPEN" (!o.openLoad) s else s
/-- SUPPLY by a terminal reading: off and above 10 V for 10 ms, or at or below 5 V for 10 ms (R285). -/
def outSupply (n : Nat) (second : Bool) (u : Nat) (s : State) : State :=
  let o := (s.stn n).outp second
  let since := sinceOf o.supplySince (if o.supply then decide (u ≤ 5000) else !o.on && decide (10000 < u)) s.now
  let flip := heldFor since s.now 10000
  let s := s.modOut n second fun o => { o with supplySince := if flip then none else since, supply := if flip then !o.supply else o.supply }
  if flip then ioFault n (outChan second) "SUPPLY" (!o.supply) s else s
/-- The limit of an output, mA (R284). -/
def outLimit : Nat := 1200
/-- A sample of an output: 2 ms at its limit turn it off, and the other causes of R285. -/
def outSample (n : Nat) (second : Bool) (x : OutSample) (s : State) : State :=
  if ¬ (s.slc (slotOf n)).powered then s
  else
    let o := (s.stn n).outp second
    let since := sinceOf o.limitSince (outNow s n second && decide (outLimit ≤ x.i)) s.now
    let s := s.modOut n second fun o => { o with limitSince := since, i := if outNow s n second then min outLimit x.i else 0 }
    let s := if heldFor since s.now 2000 then overloadAt n second s else s
    outSupply n second x.u (outOpen n second x.i (outHeat n second x.die s))
/-- An output's test pulse, once every 1 s at its place after an SP0 pulse: the output is off for TPW from now on, and passes when the terminal
falls below 5 V before its end (R285, R286). -/
def outPulse (n : Nat) (second : Bool) (u : Nat) (s : State) : State :=
  let o := (s.stn n).outp second
  let ch := outChan second
  let soon : Bool := match o.pulseAt with
    | some t => decide (s.now < t + 1000000)
    | none => false
  if ¬ o.on ∨ ¬ fieldIs s n ch .TPULSE "ON" ∨ sinceEpoch s n % 20000 ≠ (if second then 7500 else 2500) ∨ soon then s
  else
    let fell := decide (u < 5000)
    let fails := if fell then 0 else min 2 (o.fails + 1)
    let passes := if fell then min 2 (o.passes + 1) else 0
    let stuck := if 2 ≤ fails then true else if 2 ≤ passes then false else o.stuck
    let s := s.modOut n second fun o => { o with fails, passes, stuck, pulseAt := some s.now }
    if stuck = o.stuck then s else ioFault n ch "STUCK" stuck s

/-! ## The commands -/

/-- A sample of an input, which may complete FILTER (R274). -/
def execInputFilteredChange (n : Fin 64) (k : Fin 4) (u : Nat) (s : State) : Host.Outcome State Fault Refusal :=
  .next (settle s (inputSample n.val k.val u s))
/-- A tap's pulse with what the four inputs read 20 us before its end (R280). -/
def execTestPulse (n : Fin 64) (tap : Fin 4) (reading : Fin 16) (s : State) : Host.Outcome State Fault Refusal :=
  .next (settle s (tapPulse n.val tap.val reading.val s))
/-- A sample of an input, which may complete OWT or its clearing (R275). -/
def execOpenWire (n : Fin 64) (k : Fin 4) (u : Nat) (s : State) : Host.Outcome State Fault Refusal :=
  .next (settle s (inputSample n.val k.val u s))
/-- A sample of an input, which may complete 1 ms above 35 V or its clearing (R276). -/
def execInputOverVoltage (n : Fin 64) (k : Fin 4) (u : Nat) (s : State) : Host.Outcome State Fault Refusal :=
  .next (settle s (inputSample n.val k.val u s))
/-- A reading of the current of the sensor supply or of a tap (R277). -/
def execSensorSupplyOverload (n : Fin 64) (l : TapLoad) (s : State) : Host.Outcome State Fault Refusal :=
  .next (settle s (sensorLoad n.val (l.tap.map (·.val)) l.i s))
/-- A reading of the current in a retry of the sensor supply or of a tap (R277). -/
def execSensorSupplyRetry (n : Fin 64) (tap : Option (Fin 4)) (i : Nat) (s : State) : Host.Outcome State Fault Refusal :=
  .next (settle s (sensorRetry n.val (tap.map (·.val)) i s))
/-- A reading of the station field supply at start-up (R299). -/
def execSensorSupplyStart (x : FieldSupply) (s : State) : Host.Outcome State Fault Refusal := .next (settle s (sensorStart x.n.val x.u s))
/-- The sensor supply's die reaches 150 C (R277). -/
def execSensorSupplyOvertemp (n : Fin 64) (die : Int) (s : State) : Host.Outcome State Fault Refusal :=
  .next (settle s (sensorHot n.val die s))
/-- The sensor supply's die is down to 130 C (R277). -/
def execSensorSupplyOvertempRestart (n : Fin 64) (die : Int) (s : State) : Host.Outcome State Fault Refusal :=
  .next (settle s (sensorCool n.val die s))
/-- A frequency gate ends (R282). -/
def execFrequencyGateEnd (n : Fin 64) (second : Bool) (s : State) : Host.Outcome State Fault Refusal :=
  .next (settle s (gateEnd n.val second s))
/-- An edge at a counting input (R281). -/
def execCountedEdge (n : Fin 64) (second rising : Bool) (sub : Fin 1500) (s : State) : Host.Outcome State Fault Refusal :=
  .next (settle s (countEdge n.val second rising sub.val s))
/-- A sample of an output, which may enter or clear a cause (R285). -/
def execOutputDiagnostic (n : Fin 64) (second : Bool) (i : Nat) (x : OutSense) (s : State) : Host.Outcome State Fault Refusal :=
  .next (settle s (outSample n.val second { i, u := x.u, die := x.die } s))
/-- The 100 ms of an OVERLOAD are over (R285). -/
def execOverloadRestart (n : Fin 64) (second : Bool) (s : State) : Host.Outcome State Fault Refusal :=
  .next (settle s (overloadOver n.val second s))
/-- A test pulse of an output (R286). -/
def execOutputTestPulse (n : Fin 64) (second : Bool) (u : Nat) (s : State) : Host.Outcome State Fault Refusal :=
  .next (settle s (outPulse n.val second u s))

end Sys2Proof.Machine
end

