-- ==== Sys2Proof/Machine/Frames.lean ====
section
/-! DEFINITION. What the isolation link carries: the downlink frame that the head forms of its frame buffer, FLASH and the key write in flight,
and the uplink frame that the field side forms of its state, each on its grid of 20 us (01 R34; 08 R290, R292 to R297). -/

namespace Sys2Proof.Machine

open Sys2Proof

/-! ## Frames (R290) -/

/-- Byte k of a frame. -/
def fbyte (b : List Byte) (k : Nat) : Byte := b.getD k 0
/-- A frame: direction and slot, the counter, 28 bytes of payload, and the CRC with its high byte first (R290). -/
def frameOf (dir slot count : Nat) (payload : List Byte) : List Byte :=
  let b : List Byte := BitVec.ofNat 8 (64 * dir + slot) :: BitVec.ofNat 8 count :: padTo 28 0 payload
  let c := (crc16 b).toNat
  b ++ [BitVec.ofNat 8 (c / 256), BitVec.ofNat 8 c]

/-! ## Key writes (R292, R293): the codes of keys and values are a DESIGN CHOICE (log entry 130) -/

/-- The number of the key write in flight; 0 while none is (R292, R293). -/
def flightSeq (x : Slice) : Nat := if x.writes.isEmpty then 0 else x.writeSeq % 65535 + 1
/-- The keys that a slice's field side holds, in the order of their codes. -/
def wireKeys : List Key :=
  [.SCALE, .RATIO, .EDIR, .SDIR, .STEPW, .DIRS, .PROFILE, .SPEED, .ACC, .DEC, .JERK, .CREEP, .SDEC, .FERR, .INDEX, .REVCNT]
  ++ [.ITOL, .HOME, .HOMEDIR, .REFPOS, .REFMAX, .SLMIN, .SLMAX, .LIMNEG, .LIMPOS, .LIMSTOP, .FACT, .FGAP, .CAMLAG, .IENV]
  ++ [.ROLE, .SIDE, .CLOSEDSW, .LOCKSW, .EDGE, .STOWSW, .UNLOCK, .STEP, .STEPCAM, .STEPDEP, .STEPSTOW, .STEPT, .STOWT, .OPENPOS]
  ++ [.OSPEED, .CSPEED, .LOCKZONE, .EDGEMUTE, .OBSTARM, .MARGIN, .MARGINMAX, .PERSIST, .PERSISTMAX, .DRIFT, .DRIFTMAX, .LEARNMAX]
  ++ [.REOPEN, .RECLOSE, .RDWELL, .UNLOCKT, .LOCKT, .FINALT, .AUTOCLOSE, .DOORLAMP, .LAMPLOOP, .DPOS, .DWIDTH, .ITYPE, .FILTER, .TPW]
  ++ [.WIRE, .INRUSH, .SLEW, .MODE, .PWR, .UREF, .PWMF, .PPHASE, .ISET, .OLDET, .OLTHR, .OLT, .UNOM, .BUS]
  ++ [.PROVED, .PWIDTH, .ONTHR, .PTHR, .RESERVE, .FAILSAFE, .FSPERIOD, .FSPHASE, .DIMMIN, .ULOAD]
  ++ [.TEST, .OWDET, .OWT, .CNT, .GATE, .ZFREQ, .ZTIME, .COUNT, .TPULSE]
/-- The code of a key, from 1; 0 for one that no field side holds. -/
def keyCode (k : Key) : Nat := match wireKeys.findIdx? (· = k) with | some i => i + 1 | none => 0
/-- The key of a code. -/
def wireKey (c : Nat) : Option Key := if c = 0 then none else wireKeys[c - 1]?
/-- The words that a key takes. -/
def keyWords (s : State) (o : Obj) (k : Key) : List String :=
  match keyRow s o k with
  | none => []
  | some r => match r.vt with
    | .num _ _ _ _ _ _ _ ws | .word ws | .station ws | .unitNo ws | .ip ws => ws
    | _ => []
/-- A key's value in 32 bits: a number as it stands, a station or a unit by its number, a word from 7FFF FF00H on, unset as 7FFF FFFFH. -/
def wireVal (s : State) (o : Obj) (k : Key) : KVal → Nat
  | .unset => 0x7FFFFFFF
  | .i v => (v % 4294967296).toNat
  | .w t => 0x7FFFFF00 + (keyWords s o k).findIdx (· = t)
  | .st n => n
  | .u n => n
/-- The value of 32 bits. -/
def wireKVal (s : State) (o : Obj) (k : Key) (x : Nat) : KVal :=
  let ws := keyWords s o k
  match keyRow s o k with
  | none => .unset
  | some r =>
    if r.dflt = .unset ∧ x = 0x7FFFFFFF then .unset
    else match (if 0x7FFFFF00 ≤ x then ws[x - 0x7FFFFF00]? else none) with
      | some t => .w t
      | none => match r.vt with
        | .station _ => .st x
        | .unitNo _ => .u x
        | _ => if k = .COUNT ∨ x < 2147483648 then .i x else .i ((x : Int) - 4294967296)
/-- The station within the slice and the target code of an object (R292). -/
def wireTarget : Obj → Nat × Nat
  | .ch n .ax => (n % 8, 1)
  | .ch n .fd => (n % 8, 2)
  | .ch n .la => (n % 8, 3)
  | .ch n .lb => (n % 8, 4)
  | .ch n .in0 => (n % 8, 5)
  | .ch n .in1 => (n % 8, 6)
  | .ch n .in2 => (n % 8, 7)
  | .ch n .in3 => (n % 8, 8)
  | .ch n .out0 => (n % 8, 9)
  | .ch n .out1 => (n % 8, 10)
  | .st n => (n % 8, 0)
  | _ => (0, 15)
/-- The object of a station and a target code of a slice (R292). -/
def wireObj (p k target : Nat) : Option Obj :=
  let n := 8 * p + k
  match target with
  | 0 => some (.st n)
  | 1 => some (.ch n .ax)
  | 2 => some (.ch n .fd)
  | 3 => some (.ch n .la)
  | 4 => some (.ch n .lb)
  | 5 => some (.ch n .in0)
  | 6 => some (.ch n .in1)
  | 7 => some (.ch n .in2)
  | 8 => some (.ch n .in3)
  | 9 => some (.ch n .out0)
  | 10 => some (.ch n .out1)
  | 15 => some (.sl p)
  | _ => none
/-- Bytes 16 to 23: the key write in flight; a latched key that a rewrite of the latch gives is for the latch too (R269, R292, R293). -/
def writeBytes (s : State) (p : Nat) : List Byte :=
  let x := s.slc p
  match x.writes with
  | [] => padTo 8 0 []
  | ((o, k), v) :: _ =>
    let t := wireTarget o
    let latch := x.latchAt.isSome && decide (k ∈ latchKeys)
    le 2 (flightSeq x) ++ [BitVec.ofNat 8 (t.1 + 8 * t.2 + 128 * latch.toNat), BitVec.ofNat 8 (keyCode k)] ++ le 4 (wireVal s o k v)

/-! ## Downlink (R292) -/

/-- The code of a load's commanded state (R292). -/
def cmdCode : LoadCmd → Nat
  | .off => 0
  | .on => 1
  | .flash _ => 2
/-- The command bytes of a slice's stations, as the frame buffer holds them (R34, R292). -/
def cmdBytes (s : State) (p : Nat) : List Byte :=
  (stationsOf p).map fun n =>
    let b := (s.stn n).buf
    BitVec.ofNat 8 (cmdCode b.la + 4 * cmdCode b.lb + 16 * b.fd.toNat + 32 * b.out0.toNat + 64 * b.out1.toNat)
/-- A 64-bit FLASH value, least byte first. -/
def flashBytes (s : State) : List Byte := leI 8 s.flash
/-- Frame k of the head's grid, which begins at head start (R290, R292, R297). -/
def downFrame (s : State) (p k : Nat) : List Byte :=
  let f := flashBytes s
  frameOf 2 0 k (cmdBytes s p ++ f.take 6 ++ writeBytes s p ++ f.drop 6)

/-! ## Uplink (R294, R295) -/

/-- A mask of a slice's stations. -/
def stMask (p : Nat) (f : Nat → Bool) : Byte := BitVec.ofNat 8 (((stationsOf p).map fun n => (f n).toNat * 2 ^ (n % 8)).sum)
/-- Bits of each station in a row, four or two at a time. -/
def stBits (p w : Nat) (f : Nat → Nat → Bool) : Nat :=
  ((stationsOf p).map fun n => ((List.range w).map fun k => (f n k).toNat * 2 ^ (w * (n % 8) + k)).sum).sum
/-- The common block (R294). -/
def upCommon (s : State) (p : Nat) : List Byte :=
  let x := s.slc p
  le 4 (stBits p 4 fun n k => ((s.stn n).inp k).fOn)
    ++ [x.elemA, x.elemB, BitVec.ofNat 8 (x.failSafe.toNat + 2 * (!x.stepQuiet).toNat + 4 * x.passed.toNat + 8 * x.changed.toNat), BitVec.ofNat 8 x.accepted]
/-- A value of three bytes: 20 bits and four flags from bit 20 on (R295). -/
def chField (v : Int) (f0 f1 f2 f3 : Bool) : List Byte :=
  le 3 (min v.toNat 1048575 + 1048576 * f0.toNat + 2097152 * f1.toNat + 4194304 * f2.toNat + 8388608 * f3.toNat)
/-- A channel of a LAMP record (R295, R341). -/
def lampField (s : State) (n : Nat) (w : Sw) : List Byte :=
  let x := s.sw n w
  chField x.lampI x.lampFlagged (litNow s n w) x.lampSkipped x.senseFailed
/-- A channel of a PULSE record (R295). -/
def pulseField (s : State) (n : Nat) (w : Sw) : List Byte :=
  let l := (s.sw n w).lamp
  chField l.pulseI l.pulsePass l.lastVoid l.lastSkipped l.pulseLim
/-- The two channels of some stations of a slice, and the record's number in byte 28 (R295). -/
def chRecord (f : Nat → Sw → List Byte) (first count num : Nat) : List Byte :=
  padTo 18 0 ((List.range count).flatMap fun j => f (first + j) .la ++ f (first + j) .lb) ++ [BitVec.ofNat 8 num]
/-- The AXIS record of two stations (R295, R336, R341). -/
def axisBytes (s : State) (n t : Nat) : List Byte :=
  let one := fun (n : Nat) => leI 4 (s.ax n).pos ++ le 2 (s.stn n).fd.feedPrev ++ le 2 (s.stn n).fd.feedSample
  let two := fun (f : Nat → Bool) => (f n).toNat + 2 * (f (n + 1)).toNat
  one n ++ one (n + 1) ++ [BitVec.ofNat 8 (t / 250), BitVec.ofNat 8 (two (fun n => (s.stn n).encNow)
    + 4 * two (fun n => (s.stn n).fd.senseFailed) + 16 * two (fun n => (s.stn n).idxFault))]
/-- The DIAG record (R295). -/
def diagBytes (s : State) (p : Nat) : List Byte :=
  let m := stMask p
  let outs := fun (f : Nat → Bool → Bool) => le 2 (stBits p 2 fun n k => f n (decide (k = 1)))
  le 4 (stBits p 4 fun n k => inFault s n k) ++ outs (outFault s) ++ outs (outNow s)
    ++ [m fun n => outputOn s n .la, m fun n => outputOn s n .lb, m fun n => fdConducts s n, m fun n => (s.stn n).la.lamp.dark
      , m fun n => (s.stn n).lb.lamp.dark, m fun n => (s.stn n).reserveInUse, m fun n => (s.stn n).la.tripped, m fun n => (s.stn n).lb.tripped
      , m fun n => (s.stn n).fd.tripped, m fun n => !(s.stn n).sensor.on, m fun n => (s.stn n).encNow]
/-- The COUNT record of a station (R295). -/
def countBytes (s : State) (n : Nat) : List Byte :=
  let i := fun (k : Nat) => (s.stn n).inp k
  le 4 (i 0).count.toNat ++ le 4 (i 1).count.toNat ++ le 4 (i 0).freq ++ le 4 (i 1).freq
    ++ [BitVec.ofNat 8 ((i 0).zero.toNat + 2 * (i 1).zero.toNat), BitVec.ofNat 8 (i 0).gateNo, BitVec.ofNat 8 (n % 8)]
/-- The latch's content as its CRC-32 covers it: every latched key of LA and LB of each station, as it would be written (R295; DESIGN CHOICE,
log entry 130). -/
def latchBytes (s : State) (p : Nat) : List Byte :=
  (stationsOf p).flatMap fun n => [Chan.la, .lb].flatMap fun c => latchKeys.flatMap fun k => le 4 (wireVal s (.ch n c) k (kOf s (s.slc p).latch (.ch n c) k))
/-- Ten BCD digits, the most significant first (R295, R359). -/
def bcd10 (v : Nat) : List Byte := [100000000, 1000000, 10000, 100, 1].map fun d => BitVec.ofNat 8 (v / d % 100 / 10 * 16 + v / d % 10)
/-- The IDENT record (R27, R295, R536). -/
def identBytes (s : State) (p : Nat) : List Byte :=
  let x := s.slc p
  match x.seated with
  | none => []
  | some m => bcd10 m.serial ++ [BitVec.ofNat 8 m.type] ++ le 2 m.ins.toNat ++ [BitVec.ofNat 8 (x.passed.toNat + 2 * x.failed.toNat)
    , BitVec.ofNat 8 x.latched.toNat] ++ le 4 (crc32 (latchBytes s p)).toNat
/-- The record of a slot, bytes 10 to 29; a GS-L8's AXIS and BUS records are zero (R25, R295). -/
def upRecord (s : State) (p slot t : Nat) : List Byte :=
  let m8 := decide ((s.slc p).seated.map (·.type) = some 1)
  let n := 8 * p
  match slot with
  | 0 => if m8 then axisBytes s n t else []
  | 5 => if m8 then axisBytes s (n + 2) t else []
  | 10 => if m8 then axisBytes s (n + 4) t else []
  | 15 => if m8 then axisBytes s (n + 6) t else []
  | 1 => chRecord (lampField s) n 3 (t / 1000)
  | 6 => chRecord (lampField s) (n + 3) 3 (t / 1000)
  | 11 => chRecord (lampField s) (n + 6) 2 (t / 1000)
  | 7 => chRecord (pulseField s) n 3 (t / 40000)
  | 12 => chRecord (pulseField s) (n + 3) 3 (t / 40000)
  | 16 => chRecord (pulseField s) (n + 6) 2 (t / 40000)
  | 2 => diagBytes s p
  | 3 => (stationsOf p).flatMap (fun n => le 2 ((List.range 4).map fun k => tget 0 (s.stn n).tapRead k % 16 * 16 ^ k).sum) ++ [BitVec.ofNat 8 (t / 20000)]
  | 4 => countBytes s n
  | 8 => countBytes s (n + 1)
  | 13 => countBytes s (n + 2)
  | 17 => countBytes s (n + 3)
  | 19 => countBytes s (n + 4)
  | 20 => countBytes s (n + 5)
  | 22 => countBytes s (n + 6)
  | 23 => countBytes s (n + 7)
  | 9 => (stationsOf p).flatMap (fun n => le 2 ((s.stn n).la.u / 10)) ++ [BitVec.ofNat 8 (t / 1000)]
  | 14 => if m8 then (stationsOf p).flatMap fun n => le 2 ((s.stn n).fd.u / 10) else []
  | 18 => (stationsOf p).map (fun n =>
      let t := s.stn n
      BitVec.ofNat 8 ((max t.fd.die (max t.la.die t.lb.die)) + 40).toNat) ++ (stationsOf p).map fun n => BitVec.ofNat 8 ((s.stn n).sensor.i / 2)
  | 21 => identBytes s p
  | _ => []
/-- Frame k of the field side's grid: the records rotate through 25 slots (R294, R295). The grid begins at the PWM epoch (DESIGN CHOICE, log entry
130). -/
def upFrame (s : State) (p k : Nat) : List Byte := frameOf 1 (k % 25) k (upCommon s p ++ upRecord s p (k % 25) (20 * k))

/-! ## The grid (R290) -/

/-- The head and the field side each start their frame where a point of their grid has come; after a DIAG record only what changes later
counts as changed (R290, R294). -/
def sendFrames (s : State) : State :=
  let d := s.now - s.head.startAt
  forEach allSlices (fun p s =>
    let x := s.slc p
    let s := if s.head.started ∧ enabled s p ∧ d % 20 = 0 then s.modSlc p fun x => { x with down := downFrame s p (d / 20) } else s
    let k := (s.now - x.epoch) / 20
    if x.powered ∧ (s.now - x.epoch) % 20 = 0 then
      s.modSlc p fun x => { x with up := upFrame s p k, changed := x.changed && decide (k % 25 ≠ 2) }
    else s) s

end Sys2Proof.Machine
end

