-- ==== Sys2Proof/Machine/Slices.lean ====
section
/-! DEFINITION. The isolation link: frames and their validity, what the field side takes from a downlink frame and the head and the lanes
from an uplink frame, the fail-safe states, the loss and the return of a link, and a slice's seating, self-test and return to service
(08 R290 to R298; 13 R437 to R439; 15 R481; 01 R27, R536). -/

namespace Sys2Proof.Machine

open Sys2Proof

/-! ## Validity (R290, R291) -/

/-- A frame has 32 bytes and a correct CRC (R290). -/
def frameCrc (b : List Byte) : Bool :=
  decide (b.length = 32 ∧ crc16 (b.take 30) = BitVec.ofNat 16 (256 * (fbyte b 30).toNat + (fbyte b 31).toNat))
/-- A frame with a correct CRC is valid: direction, slot, and a counter that follows the reference (R291). -/
def frameValid (dir slots : Nat) (ref : Option Byte) (b : List Byte) : Bool :=
  let h := (fbyte b 0).toNat
  decide (h / 64 = dir) && decide (h % 64 < slots) && decide (ref.map (· + 1) = some (fbyte b 1))

/-! ## Downlink (R292, R293, R298) -/

/-- The commanded state that a frame's code stands for: 2 flashes with the pattern last commanded, or with the fail-safe one where none is
(R270, R292, R297; DEDUCED, log entry 101). -/
def frameCmd (s : State) (n : Nat) (w : Sw) (code : Nat) : Option LoadCmd :=
  let b := (s.stn n).buf
  match code with
  | 0 => some .off
  | 1 => some .on
  | 2 =>
    let key := fieldKey s n w
    some (match (if w = .la then b.la else b.lb) with
      | .flash f => .flash f
      | _ => .flash { period := (kInt (key .FSPERIOD)).toNat / 1000, phase := (kInt (key .FSPHASE)).toNat })
  | _ => none
/-- A reserve's own command in a frame counts for nothing: LB follows its main; but for the lighting of one that is being learned, and its
end (R246, R260). -/
def reserveDeaf (s : State) (n : Nat) (w : Sw) (code : Nat) : Bool :=
  decide (w = .lb) && fieldReserve s n && ((s.stn n).reserveInUse || (decide (code ≠ 0) && (learnOp s n true).isNone))
/-- A load channel takes a commanded state; an ON given since the last frame clears the trips that stand (R236, R246, R292). -/
def takeLoad (n : Nat) (w : Sw) (code : Nat) (s : State) : State :=
  if reserveDeaf s n w code then s
  else
    let x := s.sw n w
    let fresh := decide (w ∈ (s.stn n).buf.fresh)
    match frameCmd s n w code with
    | some .off => if x.cmd ∨ x.flash.isSome then command n w false none s else s
    | some .on =>
      let a := actSw s n w
      let s := if fresh ∧ tripsClear s n a then clearTrips n a s else s
      if x.cmd ∧ x.flash.isNone ∧ ¬ fresh then s else command n w true none s
    | some (.flash f) => if x.flash = some f then s else command n w false (some f) s
    | none => s
/-- A feed takes its commanded state; one without UNOM stays off (R209, R236, R292). -/
def takeFeed (n : Nat) (on : Bool) (s : State) : State :=
  let x := (s.stn n).fd
  let fresh := decide (Sw.fd ∈ (s.stn n).buf.fresh)
  if ¬ chFitted s n .fd then s
  else if on then
    let s := if fresh ∧ tripsClear s n .fd then clearTrips n .fd s else s
    if (x.cmd ∧ ¬ fresh) ∨ fieldKey s n .fd .UNOM = .unset then s
    else turnOn n .fd (s.modSw n .fd fun x => { x with cmd := true })
  else if x.cmd then slewOff x.slew n .fd (s.modSw n .fd fun x => { x with cmd := false })
  else s
/-- A station takes its command byte (R292). -/
def takeCommand (n : Nat) (c : Byte) (s : State) : State :=
  let v := c.toNat
  let s := takeFeed n (c.getLsbD 4) (takeLoad n .lb (v / 4 % 4) (takeLoad n .la (v % 4) s))
  let out := fun (second on : Bool) (s : State) => if ((s.stn n).outp second).cmd = on then s else driveOut n second on s
  out true (c.getLsbD 6) (out false (c.getLsbD 5) s)
/-- The field side's copy of a key changes; with another WIRE, h becomes the greater of 1.00 and h x (IN_old / IN_new)^2 (R208, R221). -/
def keepKey (p : Nat) (k : Obj × Key) (v : KVal) (s : State) : State :=
  let keep := fun (s : State) => s.modSlc p fun x => { x with keys := aset x.keys k v }
  match k with
  | (.ch n c, .WIRE) =>
    match (if slotOf n = p then chSw c else none) with
    | some w =>
      let s := syncHeat n w s
      let old := wireIn s n w
      let s := keep s
      let new := wireIn s n w
      if old = new then s
      else s.modSw n w fun x => { x with heat := max 1000000000000 (x.heat * (old * old) / (new * new)) }
    | none => keep s
  | _ => keep s
/-- The field side takes the key write of a frame, its target, key code and value from bytes 18 to 23, and acknowledges it; bit 7 of byte 18
writes it to the latch as well (R292, R293). -/
def takeWrite (p : Nat) (b : List Byte) (s : State) : State :=
  let seq := fieldAt b 16 2
  let c := (fbyte b 18).toNat
  if seq = 0 ∨ seq = (s.slc p).accepted then s
  else
    let s := match wireObj p (c % 8) (c / 8 % 16), wireKey (fbyte b 19).toNat with
      | some o, some k =>
        let v := wireKVal s o k (fieldAt b 20 4)
        (keepKey p (o, k) v s).modSlc p fun x => { x with latch := if 128 ≤ c then aset x.latch (o, k) v else x.latch }
      | _, _ => s
    s.modSlc p fun x => { x with accepted := seq }
/-- The FLASH value of a downlink frame: bits 47:0 in bytes 10 to 15, bits 63:48 in bytes 24 and 25 (R270, R292). -/
def frameFlash (b : List Byte) : Int := unleI (slice b 10 6 ++ slice b 24 2)
/-- A downlink frame reaches the field side; one that carries the states that the head's frame buffer holds is what the waiting replies wait
for (R34, R102, R291 to R293, R298). -/
def downlink (p : Nat) (b : List Byte) (s : State) : State :=
  let x := s.slc p
  if ¬ x.powered ∨ ¬ frameCrc b then s
  else
    let valid := frameValid 2 1 x.downRef b
    let s := s.modSlc p fun x => { x with downRef := some (fbyte b 1) }
    if ¬ valid then s
    else
      let whole := decide (slice b 2 8 = cmdBytes s p)
      let s := s.modSlc p fun x => { x with downAt := some s.now, failSafe := false, stepQuiet := false, flash := some (frameFlash b, s.now) }
      let s := forEach (stationsOf p) (fun n s =>
        let s := s.modStn n fun t =>
          let off := fun (x : Switch) => { x with failSafe := false }
          { t with failSafe := false, la := off t.la, lb := off t.lb, out0 := { t.out0 with failSafe := false }, out1 := { t.out1 with failSafe := false } }
        takeCommand n (fbyte b (2 + n % 8)) s) s
      let s := takeWrite p b s
      if whole then framesCarried p s else s

/-! ## Fail-safe (R296) -/

/-- No valid downlink frame for 400 us: the field side applies the fail-safe states, and discards what is ahead of its step trains; a frame
that completes exactly 400 us after the last is in time (R296). -/
def applyFailSafe (p : Nat) (s : State) : State :=
  let s := s.modSlc p fun x => { x with failSafe := true }
  forEach (stationsOf p) (fun n s =>
    failSafeStation n true (cutTrain n (s.modStn n fun t => { t with failSafe := true }))) s
/-- The field side has been silent-headed for more than 400 us (R296, R299). -/
def headSilent (s : State) (p : Nat) : Bool :=
  match (s.slc p).downAt with
  | some t => decide (t + 400 < s.now)
  | none => true

/-! ## The link is gained (R27, R28, R438) -/

/-- The pair of an IDENT record: the serial number in 10 BCD digits (R295). -/
def identSerial (b : List Byte) : Nat := (slice b 10 5).foldl (fun a x => 100 * a + 10 * (x.toNat / 16) + x.toNat % 16) 0
/-- The pair of serial number and insertion counter that an IDENT record carries (R27, R295). -/
def identPair (b : List Byte) : Nat × W16 := (identSerial b, BitVec.ofNat 16 (fieldAt b 16 2))
/-- What a link can bring about: reports that waited, commits that waited for the positions, a return to service, the end of a RESET SLICE
(R237, R419, R439, R477). -/
def linkFollows (p : Nat) (s : State) : State := sliceResetEnd p (tryReturn p (offerCommits (flushReports s)))
/-- The outcome of the self-test that a frame reports, since the logic side was powered (R295, R536). -/
def noteSelfTest (p : Nat) (b : List Byte) (ident : Bool) (s : State) : State :=
  s.modSlc p fun x => { x with
    passed := x.passed || (fbyte b 8).getLsbD 2 || (ident && (fbyte b 18).getLsbD 0), failed := x.failed || (ident && (fbyte b 18).getLsbD 1) }
/-- The head gains a link with an IDENT record (R27, R28, R39, R41, R438); a type code other than 01 and 10 leaves the slice unidentified. Its
key writes go on after the sequence that the frame acknowledges, so that none is taken for one that was (R293). -/
def gainLink (p : Nat) (b : List Byte) (s : State) : State :=
  let pair := identPair b
  let type := (fbyte b 15).toNat
  let known := decide (type = 1 ∨ type = 2)
  let x := s.slc p
  let sat := decide (pair.2 = 0xFFFF#16)
  let atStart := s.head.bit31 && !sat
  let new := sat || x.recorded ≠ some pair
  let s := s.modSlc p fun x => { x with
    link := true, lostAt := none, absent := false, upAt := some s.now, ident := some pair, recorded := some pair
    typeRead := if known then some type else none, typeLast := if known then some type else x.typeLast, startUp := atStart
    newIns := if atStart then false else x.newIns || new, service := if new then false else x.service, rounds := []
    writeSeq := (fbyte b 9).toNat }
  let s := noteSelfTest p b true s
  let s := if atStart ∨ new ∨ ¬ (s.slc p).latched then writeLatch p s else s
  let s := forEach (stationsOf p) (fun n s => if (s.stn n).outOfService then bufSafe n s else s) s
  linkFollows p (if typeMatches s p then sendKeys p (s.modSlc p fun x => { x with held := false }) else s.modSlc p fun x => { x with held := true })

/-! ## The head's uplink records (R294, R295) -/

/-- The two stations of an AXIS record: positions are the one copy the encoder counts keep; the feed samples that the sample number shows as
new go to Speedwell (R215, R295). -/
def axisRecord (p slot first : Nat) (b : List Byte) (s : State) : State :=
  let num := (fbyte b 26).toNat
  let s := forEach [0, 1] (fun i s =>
    let n := 8 * p + first + i
    if ¬ chFitted s n .ax then s
    else
      let s := s.modStn n fun t => { t with encFault := (fbyte b 27).getLsbD i }
      let l := match aget (s.slc p).rounds slot with
        | some k => if k = num then [] else if (k + 1) % 256 = num then [16 + 8 * i] else [14 + 8 * i, 16 + 8 * i]
        | none => [14 + 8 * i, 16 + 8 * i]
      forEach l (fun off s => settleAxis n (forceSample n (fieldAt b off 2) s)) s) s
  s.modSlc p fun x => { x with rounds := tset x.rounds slot num }
/-- A LAMP or PULSE record reaches Cowslip, which processes each new sample or pulse result of a fitted station's channels (R14, R295). -/
def lampRecord (p slot first count : Nat) (b : List Byte) (s : State) : State :=
  let num := (fbyte b 28).toNat
  if s.noTime .lamp ∨ (s.slc p).rounds.any fun e => e.1 == slot && e.2 == num then s
  else
    let k := ((List.range count).filter fun j => stFitted s (8 * p + first + j)).length
    (s.worked .lamp (2 * k)).modSlc p fun x => { x with rounds := tset x.rounds slot num }
/-- A COUNT record of one station (R295). -/
def countRecord (n : Nat) (b : List Byte) (s : State) : State :=
  forEach [0, 1] (fun k s =>
    if s.keyIs (.ch n (inChan k)) .CNT "OFF" then s
    else s.modInp n k fun i => { i with
      count := BitVec.ofNat 32 (fieldAt b (10 + 4 * k) 4), freq := fieldAt b (18 + 4 * k) 4, zero := (fbyte b 26).getLsbD k }) s
/-- The dies of a TEMP record (R295, R318). -/
def tempRecord (p : Nat) (b : List Byte) (s : State) : State :=
  forEach (stationsOf p) (fun n s =>
    let v : Int := 10 * (((fbyte b (10 + n % 8)).toNat : Int) - 40)
    s.modStn n fun t => { t with
      dies := (s.now, v) :: t.dies.filter fun e => decide (s.now < e.1 + 10000000)
      diesFrom := t.diesFrom <|> some s.now }) s
/-- The IDENT record's word on the fail-safe latch: a rewrite that has been taken whole is verified when its content reads back as the
committed configuration, and has failed without that 100 ms after its beginning (R269, R295, R536). -/
def latchReadBack (p : Nat) (b : List Byte) (s : State) : State :=
  let x := s.slc p
  match x.latchAt with
  | none => s
  | some t =>
    if (fbyte b 19).getLsbD 0 ∧ x.writes.isEmpty ∧ latchMatches s p then
      latchesDone (s.modSlc p fun x => { x with latched := true, latchAt := none })
    else if t + 100000 < s.now then latchesDone (s.modSlc p fun x => { x with latchAt := none })
    else s
/-- An IDENT record on a link that is up; a slice that has given no valid type code yet is read again (R41, R295, R536). -/
def identRecord (p : Nat) (b : List Byte) (s : State) : State :=
  let type := (fbyte b 15).toNat
  let unread := decide ((s.slc p).typeRead = none ∧ (type = 1 ∨ type = 2))
  if (s.slc p).ident = some (identPair b) ∧ ¬ unread then linkFollows p (latchReadBack p b (noteSelfTest p b true s))
  else gainLink p b s
/-- The record of an uplink frame's slot (R295). -/
def uplinkRecord (p slot : Nat) (b : List Byte) (s : State) : State :=
  let m8 := decide ((s.slc p).typeRead = some 1)
  let words := fun (f : Station → Nat → Station) (s : State) =>
    forEach (stationsOf p) (fun n s => s.modStn n fun t => f t (10 * fieldAt b (10 + 2 * (n % 8)) 2)) s
  match slot with
  | 0 => if m8 then axisRecord p 0 0 b s else s
  | 5 => if m8 then axisRecord p 5 2 b s else s
  | 10 => if m8 then axisRecord p 10 4 b s else s
  | 15 => if m8 then axisRecord p 15 6 b s else s
  | 1 => lampRecord p 1 0 3 b s
  | 6 => lampRecord p 6 3 3 b s
  | 11 => lampRecord p 11 6 2 b s
  | 7 => lampRecord p 7 0 3 b s
  | 12 => lampRecord p 12 3 3 b s
  | 16 => lampRecord p 16 6 2 b s
  | 4 => countRecord (8 * p) b s
  | 8 => countRecord (8 * p + 1) b s
  | 13 => countRecord (8 * p + 2) b s
  | 17 => countRecord (8 * p + 3) b s
  | 19 => countRecord (8 * p + 4) b s
  | 20 => countRecord (8 * p + 5) b s
  | 22 => countRecord (8 * p + 6) b s
  | 23 => countRecord (8 * p + 7) b s
  | 9 => words (fun t v => { t with field := v }) s
  | 14 => if m8 then words (fun t v => { t with busU := v }) s else s
  | 18 => tempRecord p b s
  | 21 => identRecord p b s
  | _ => s

/-! ## The head's uplink (R291, R294, R297) -/

/-- The common block of a frame on a link that is up: inputs, the step lane, the self-test, a change since the last DIAG record, the
acknowledged key write (R293, R294). -/
def commonBlock (p : Nat) (b : List Byte) (s : State) : State :=
  let s := forEach (List.range 32) (fun j s => setInput (8 * p + j / 4) (j % 4) ((fbyte b (2 + j / 8)).getLsbD (j % 8)) s) s
  (noteSelfTest p b false s).modSlc p fun x =>
    let ack := !x.writes.isEmpty && decide (flightSeq x % 256 = (fbyte b 9).toNat)
    { x with
      writes := if ack then x.writes.tail else x.writes, writeSeq := if ack then x.writeSeq + 1 else x.writeSeq
      stepValid := (fbyte b 8).getLsbD 1, diagDue := (fbyte b 8).getLsbD 3 }
/-- An uplink frame reaches the head (R39, R102, R291, R294, R297, R438): a failing CRC sets bit 4; a counter that does not follow is not acted
on; fail-safe states applied lose the link; without a link only an IDENT record counts. While the I/O engine gets no core time the frame keeps
the link and is not processed (R13). -/
def headFrame (p : Nat) (b : List Byte) (s : State) : State :=
  if ¬ frameCrc b then s.modSlc p fun x => { x with crcSeen := true }
  else
    let x := s.slc p
    let valid := frameValid 1 25 x.upRef b
    let s := s.modSlc p fun x => { x with upRef := some (fbyte b 1) }
    let slot := (fbyte b 0).toNat % 64
    if ¬ valid then s
    else
      let s := s.modSlc p fun x => { x with upAt := some s.now }
      if s.noTime .io then s else
      let s := (s.worked .io).modSlc p fun x => { x with recs := tset x.recs slot (slice b 10 20) }
      if (fbyte b 8).getLsbD 0 then (if x.link then latchesDone (loseLink p s) else s)
      else if x.link then framesReturned p (uplinkRecord p slot b (commonBlock p b s))
      else if slot = 21 then commonBlock p b (gainLink p b s)
      else s

/-! ## The lanes' uplink (R17, R18, R243, R280, R294, R295) -/

/-- The two stations of an AXIS record as a lane takes them: its own position, the fault bits, the backstop's readings, with the leaves that the
door cycle closed as the frame came (R190, R336). -/
def laneAxis (closes : Nat → Bool) (x : Lane) (first : Nat) (b : List Byte) (s : State) : State :=
  forEach [0, 1] (fun i s =>
    let n := first + i
    if ¬ chFitted s n .ax then s
    else
      let pos := unleI (slice b (10 + 8 * i) 4)
      let s := s.modLaneStn x n fun t => { t with
        pos, rising := decide (t.pos < pos), closing := decide (pos < t.pos) || (t.closing && decide (pos = t.pos)), encFault := (fbyte b 27).getLsbD i, idxFault := (fbyte b 27).getLsbD (4 + i) }
      let s := laneSense x n .fd ((fbyte b 27).getLsbD (2 + i)) s
      forEach [14 + 8 * i, 16 + 8 * i] (fun off s => laneBackstop (closes n) x n (fieldAt b off 2) s) s) s
/-- The current of a sample normalised with the lane's supply reading, or raw in CC mode for a lit sample (R249, R254). -/
def laneValue (s : State) (x : Lane) (n : Nat) (w : Sw) (raw : Bool) (i : Nat) : Int :=
  let o : Obj := .ch n (swChan w)
  let u := (s.laneStn x n).supply
  if raw ∧ s.keyIs o .MODE "CC" then i else if u = 0 then 0 else roundDiv (i * s.keyN o .UREF : Nat) u
/-- A channel flashes as a lane takes it: by the command its frames carry, or by its FAILSAFE state in fail-safe (R258, R270; DEDUCED, log
entry 61). -/
def laneFlash (s : State) (x : Lane) (n : Nat) (w : Sw) : Bool :=
  let w := if w = .lb ∧ hasReserve s n ∧ (s.laneStn x n).reserve then .la else w
  if (s.laneSlc x (slotOf n)).safe then s.keyIs (.ch n (swChan w)) .FAILSAFE "FLASH"
  else match w, (s.stn n).buf with
    | .la, b => (match b.la with | .flash _ => true | _ => false)
    | _, b => (match b.lb with | .flash _ => true | _ => false)
/-- A lane's verdict after a count has moved; the dark verdict of a main with a reserve stands until the changeover is undone (R243, R248,
R257, R258, R264). -/
def laneVerdict (x : Lane) (n : Nat) (w : Sw) (s : State) : State :=
  let fl := laneFlash s x n w
  let kept := decide (w = .la) && hasReserve s n
  s.modLaneSw x n w fun l =>
    if 8 ≤ l.litFails ∨ 2 ≤ l.gridFails ∨ (fl ∧ 1 ≤ l.gridFails ∧ 4 ≤ l.litFails) then
      if l.dark then l else { l with dark := true, litPasses := 0, gridPasses := 0 }
    else if (8 ≤ l.litPasses ∨ 2 ≤ l.gridPasses) ∧ ¬ kept then { l with dark := false }
    else l
/-- One channel of a new LAMP record: a lit sample, unless it is flagged or skipped (R243, R248, R249). Bit 21, the on-phase, is taken as set
in every sample of a lit channel, a steadily lit one too (DESIGN CHOICE, log entry 128). -/
def laneSample (x : Lane) (n : Nat) (w : Sw) (new : Bool) (v : Nat) (s : State) : State :=
  if ¬ new ∨ ¬ proved s n w ∨ ¬ v.testBit 21 ∨ v.testBit 20 ∨ v.testBit 22 then s
  else
    let pass := decide (kInt (s.key (.ch n (swChan w)) .ONTHR) ≤ laneValue s x n w true (v % 1048576))
    laneVerdict x n w (s.modLaneSw x n w fun l =>
      if pass then { l with litFails := 0, gridFails := 0, litPasses := min 8 (l.litPasses + 1) }
      else { l with litFails := min 8 (l.litFails + 1), litPasses := 0, gridPasses := 0 })
/-- One channel of a LAMP record: the outcome of its sense-path test, and its sample (R295, R341). -/
def laneLamp (x : Lane) (n : Nat) (w : Sw) (new : Bool) (v : Nat) (s : State) : State :=
  laneSample x n w new v (if chFitted s n (swChan w) then laneSense x n w (v.testBit 23) s else s)
/-- The instant at which the pulse of a grid round that begins now has been given (R252, R254). -/
def pulseDue (s : State) (n : Nat) (w : Sw) : Nat :=
  s.now + 2500 * (2 * (n % 8) + (if w = .lb then 1 else 0)) + 50 * pulseSteps s n w
/-- One channel of a PULSE record: each grid round's result is judged once it is due; a void pulse waits for its repeat and then counts as a
failed one, a skipped grid point not at all (R243, R252 to R257; DEDUCED, log entry 61). -/
def lanePulse (x : Lane) (n : Nat) (w : Sw) (new : Bool) (v : Nat) (s : State) : State :=
  if ¬ proved s n w then s
  else
    let due := pulseDue s n w
    let s := if new then s.modLaneSw x n w fun l => { l with due := l.due ++ [(due, false)] } else s
    match (s.laneSw x n w).due with
    | [] => s
    | (t, again) :: rest =>
      if s.now < t then s
      else if v.testBit 21 ∧ ¬ again then
        s.modLaneSw x n w fun l => { l with due := (t + 1000 + 50 * pulseSteps s n w, true) :: rest }
      else
        let s := s.modLaneSw x n w fun l => { l with due := rest }
        let pass := !v.testBit 21 && !v.testBit 23
          && decide (kInt (s.key (.ch n (swChan w)) .PTHR) ≤ laneValue s x n w false (v % 1048576))
        if v.testBit 22 then s
        else laneVerdict x n w (s.modLaneSw x n w fun l =>
          if pass then { l with litFails := 0, gridFails := 0, gridPasses := min 2 (l.gridPasses + 1) }
          else { l with gridFails := min 2 (l.gridFails + 1), gridPasses := 0, litPasses := 0 })
/-- The number of the last record of a slot that a lane has judged; a record with another is a new one (R280, R295). -/
def laneRound (s : State) (x : Lane) (p slot : Nat) : Option Nat := ((s.laneSlc x p).rounds.find? (·.1 = slot)).map (·.2)
/-- The channels of a LAMP or PULSE record from a station on, three bytes each; the first record after the lane's start has no round before it
(R295). -/
def laneChannels (x : Lane) (p slot first count : Nat) (f : Nat → Sw → Bool → Nat → State → State) (b : List Byte) (s : State) : State :=
  let num := (fbyte b 28).toNat
  let old := laneRound s x p slot
  let new := old.isSome && decide (old ≠ some num)
  let s := s.modLaneSlc x p fun q => { q with rounds := tset q.rounds slot num }
  forEach (List.range (2 * count)) (fun j s => f (8 * p + first + j / 2) (chanSw (decide (j % 2 = 1))) new (fieldAt b (10 + 3 * j) 3) s) s
/-- The lane judges one tap's pulse on every input of a slice with TEST=ON, by the states it had in the tap's window (R280). -/
def laneTap (x : Lane) (p tap : Nat) (b : List Byte) (s : State) : State :=
  forEach (stationsOf p) (fun n s =>
    let v := fieldAt b (10 + 2 * (n % 8)) 2
    forEach (List.range 4) (fun k s =>
      if ¬ s.keyIs (.ch n (inChan k)) .TEST "ON" then s
      else match pulseVerdict ((s.laneStn x n).inp k).before (v.testBit (4 * tap + k)) (decide (tap = k)) with
        | none => s
        | some pass => s.modLaneStn x n fun t => { t with inputs := tmod {} t.inputs k (laneJudge tap pass) }) s) s
/-- The filtered states are held in a tap's window: the lane takes those of a frame within it as the states before it (R279, R280). -/
def laneWindow (x : Lane) (p : Nat) (s : State) : State :=
  forEach (stationsOf p) (fun n s => s.modLaneStn x n fun t => { t with
    inputs := (List.range 4).foldl (fun i k => tmod {} i k fun i => { i with before := i.on }) t.inputs }) s
/-- A TEST record: a new number begins a tap round, whose windows begin 5 ms apart. The lane notes the states in each tap's window and judges
its pulse at the first record 1 ms after the window's start, the longest TPW (R278 to R280; DEDUCED, log entry 132). -/
def laneTest (x : Lane) (p : Nat) (b : List Byte) (s : State) : State :=
  let num := (fbyte b 26).toNat
  let old := laneRound s x p 3
  let s := s.modLaneSlc x p fun q =>
    let q := { q with rounds := tset q.rounds 3 num }
    if old = some num then q else { q with tapAt := old.map fun _ => s.now, tapSeen := 0, tapDone := 0 }
  let q := s.laneSlc x p
  match q.tapAt with
  | none => s
  | some t =>
    let s := if q.tapDone < q.tapSeen ∧ t + 5000 * q.tapDone + 1000 ≤ s.now then
        laneTap x p q.tapDone b (s.modLaneSlc x p fun q => { q with tapDone := q.tapDone + 1 })
      else s
    if q.tapSeen < 4 ∧ t + 5000 * q.tapSeen ≤ s.now then laneWindow x p (s.modLaneSlc x p fun q => { q with tapSeen := q.tapSeen + 1 }) else s
/-- A DIAG record: the feeds that conduct, the field side's verdicts, the reserves in use. A main that is the lamp in use again, or whose
verdict a passed RETURN has cleared without a changeover, begins with no verdict (R243, R262, R264, R295, R335). -/
def laneDiag (x : Lane) (p : Nat) (b : List Byte) (s : State) : State :=
  forEach (stationsOf p) (fun n s =>
    let bit := fun (k : Nat) => (fbyte b k).getLsbD (n % 8)
    s.modLaneStn x n fun t =>
      let back := !bit 23 && (t.reserve || (hasReserve s n && t.la.field && !bit 21))
      let la := if back then { t.la with dark := false, litFails := 0, litPasses := 0, gridFails := 0, gridPasses := 0 } else t.la
      { t with conducts := bit 20, reserve := bit 23, la := { la with field := bit 21 }, lb := { t.lb with field := bit 22 } }) s
/-- The supplies of a SUPPLY record. -/
def laneSupply (x : Lane) (p : Nat) (b : List Byte) (s : State) : State :=
  forEach (stationsOf p) (fun n s => s.modLaneStn x n fun t => { t with supply := 10 * fieldAt b (10 + 2 * (n % 8)) 2 }) s
/-- What a lane takes from the record of a frame's slot (R295). -/
def laneRecord (closes : Nat → Bool) (x : Lane) (p slot : Nat) (b : List Byte) (s : State) : State :=
  match slot with
  | 0 => laneAxis closes x (8 * p) b s
  | 5 => laneAxis closes x (8 * p + 2) b s
  | 10 => laneAxis closes x (8 * p + 4) b s
  | 15 => laneAxis closes x (8 * p + 6) b s
  | 1 => laneChannels x p 1 0 3 (laneLamp x) b s
  | 6 => laneChannels x p 6 3 3 (laneLamp x) b s
  | 11 => laneChannels x p 11 6 2 (laneLamp x) b s
  | 7 => laneChannels x p 7 0 3 (lanePulse x) b s
  | 12 => laneChannels x p 12 3 3 (lanePulse x) b s
  | 16 => laneChannels x p 16 6 2 (lanePulse x) b s
  | 2 => laneDiag x p b s
  | 3 => laneTest x p b s
  | 9 => laneSupply x p b s
  | _ => s
/-- A lane takes an uplink frame: it checks the CRC and the counter itself; an invalid frame makes the slice's inputs unknown (R18, R291, R294,
R336). -/
def laneFrame (closes : Nat → Bool) (x : Lane) (p : Nat) (b : List Byte) (s : State) : State :=
  let crc := frameCrc b
  let ok := crc && frameValid 1 25 (s.laneSlc x p).ref b
  let s := s.modLaneSlc x p fun q => { q with ref := if crc then some (fbyte b 1) else q.ref, ok }
  if ¬ ok then
    forEach (stationsOf p) (fun n s => s.modLaneStn x n fun t => { t with known := false }) (s.modLaneSlc x p fun q => { q with bad := true })
  else
    let s := s.modLaneSlc x p fun q => { q with at_ := some s.now, safe := (fbyte b 8).getLsbD 0, elemA := fbyte b 6, elemB := fbyte b 7 }
    let s := forEach (stationsOf p) (fun n s => s.modLaneStn x n fun t => { t with
      inputs := (List.range 4).foldl (fun i k =>
        let j := 4 * (n % 8) + k
        tmod {} i k fun i => { i with on := (fbyte b (2 + j / 8)).getLsbD (j % 8) }) t.inputs }) s
    laneRecord closes x p ((fbyte b 0).toNat % 64) b s
/-- An uplink frame is delivered to the head and, unchanged, to each lane that runs (R18). -/
def uplink (p : Nat) (b : List Byte) (s : State) : State :=
  if ¬ enabled s p ∨ ¬ (s.slc p).powered then s
  else
    let s := if s.head.started then headFrame p b s else s
    let closes := cycleCloses s
    forEach [Lane.a, .b] (fun x s => if laneRuns s x then laneFrame closes x p b s else s) s

/-! ## Loss, absence, seating (R297, R437, R481) -/

/-- No valid uplink frame for 400 us, or the fail-safe bit (R297). -/
def linkGone (s : State) (p : Nat) : Bool := (s.slc p).link && (heldFor (s.slc p).upAt s.now 400 || (s.slc p).failSafe)
/-- The 2 s after a loss are over, or the start-up time for a valid IDENT is (R437, R469). -/
def absentDue (s : State) (p : Nat) : Bool :=
  let x := s.slc p
  enabled s p && s.head.started && !x.link && !x.absent
    && (heldFor x.lostAt s.now 2000000
      || (s.head.bit31 && x.lostAt.isNone && x.seated.isSome
        && decide (s.head.startAt + (if s.head.cause = .unit then 3000000 else 5000000) ≤ s.now)))
/-- A slice is declared absent (R41, R419, R437). -/
def declareAbsent (p : Nat) (s : State) : State :=
  let s := s.modSlc p fun x => { x with absent := true, lostAt := none }
  latchesDone (offerCommits (sliceResetFails p (record 0x0B05 [] { slice := p } s)))
/-- A slice is seated in a position; powered and enabled, its logic side comes up (R481, R535). -/
def seat (p : Nat) (m : Module) (s : State) : State :=
  if (s.slc p).seated.isSome ∧ (s.slc p).link then s
  else
    let s := (powerDownSlice p s).modSlc p fun x => { x with seated := some m, latch := [], latched := false }
    if s.head.powered ∧ (s.slc p).restoreAt.isNone then powerUpSlice p s else s
/-- A slice's power-up self-test ends (R536). -/
def selfTested (p : Nat) (passed : Bool) (s : State) : State :=
  let x := s.slc p
  if ¬ x.powered ∨ ¬ x.link ∨ x.passed ∨ x.failed then s
  else linkFollows p (s.modSlc p fun x => { x with passed, failed := !passed })

/-! ## The commands -/

/-- A downlink frame (R293). -/
def execDownlinkFrame (p : Fin 8) (bytes : List Byte) (s : State) : Host.Outcome State Fault Refusal :=
  .next (settle s (downlink p.val bytes s))
/-- The field side applies the fail-safe states (R296). -/
def execFailSafeApplied (p : Fin 8) (s : State) : Host.Outcome State Fault Refusal :=
  .next (settle s (if (s.slc p.val).powered ∧ ¬ (s.slc p.val).failSafe ∧ headSilent s p.val then applyFailSafe p.val s else s))
/-- A slice is declared absent (R437). -/
def execSliceAbsent (p : Fin 8) (s : State) : Host.Outcome State Fault Refusal :=
  .next (settle s (if absentDue s p.val then declareAbsent p.val s else s))
/-- A slice's self-test ends (R536). -/
def execSliceSelfTestEnd (p : Fin 8) (passed : Bool) (s : State) : Host.Outcome State Fault Refusal :=
  .next (settle s (selfTested p.val passed s))
/-- A slice's stations return to service (R439). -/
def execSliceReturn (p : Fin 8) (s : State) : Host.Outcome State Fault Refusal := .next (settle s (tryReturn p.val s))
/-- A slice is seated (R481). -/
def execSliceSeated (p : Fin 8) (type : Fin 4) (serial : Nat) (insertions : W16) (s : State) : Host.Outcome State Fault Refusal :=
  .next (settle s (if type.val = 1 ∨ type.val = 2 then seat p.val { type := type.val, serial, ins := insertions } s else s))

end Sys2Proof.Machine
end

