-- ==== Sys2Proof/Machine/Net.lean ====
section
/-! DEFINITION. The network: announces and the peer table, number conflicts, the two paths and their supervision, silent peers, PTP and
the servo, multicast groups, address resolution, and relays to far units (11 R357 to R382). -/

namespace Sys2Proof.Machine

open Sys2Proof

/-- The network engine runs. -/
def netUp (s : State) : Bool := s.head.started && !s.engDown .net
/-- It takes part in the system: it has a valid number (R357). -/
def inSystem (s : State) : Bool := netUp s && s.head.unit.isSome

/-! ## Announces (R359, R360) -/

/-- This unit's announce frame (R359): of the software version, the major number comes first. -/
def announceFrame (s : State) : List Byte :=
  let f := (if s.net.conflict then 1 else 0) + (if s.net.ptp.self then 2 else 0) + (if s.net.ptp.bit7 then 4 else 0)
  let b := le 2 (s.head.unit.getD 0) ++ [1, BitVec.ofNat 8 f] ++ bcd10 s.head.serial ++ [0] ++ le 4 (capBits s).toNat ++ le 4 (unitStatus s).toNat
    ++ le 4 s.net.ip ++ le 4 ((s.now - s.head.startAt) / 1000000) ++ le 2 s.net.annSeq ++ (le 4 Config.softwareVersion.toNat).reverse ++ List.replicate 28 0
  b ++ le 4 (crc32 b).toNat
/-- An announce is sent (R359). -/
def announce (s : State) : State :=
  transmit .announce none (announceFrame s) (s.modNet fun n => { n with annSeq := (n.annSeq + 1) % 65536 })
/-- Serials heard with a number, with a serial heard now. -/
def hearSerial (l : List (Nat × Nat)) (serial now : Nat) : List (Nat × Nat) := aset l serial now
/-- Two serials have been heard with one number within 1 s (R360). -/
def twoSerials (l : List (Nat × Nat)) (now : Nat) : Bool := decide (2 ≤ (l.filter fun e => decide (now < e.2 + 1000000)).length)
/-- A valid announce frame (R359, R360). -/
def announced (b : List Byte) (s : State) : State :=
  let u := fieldAt b 0 2
  let serial := (slice b 4 5).foldl (fun a x => 100 * a + 10 * (x.toNat / 16) + x.toNat % 16) 0
  if b.length ≠ 64 ∨ fieldAt b 60 4 ≠ (crc32 (b.take 60)).toNat ∨ fieldAt b 2 1 ≠ 1 ∨ 1024 ≤ u then s
  else if s.head.unit = some u then
    if serial = s.head.serial then s
    else
      let s := s.modPeer u fun p => { p with serials := hearSerial p.serials serial s.now }
      if s.net.conflict then s
      else
        let s := s.modNet fun n => { n with conflict := true }
        let s := sendAll (tilR "net" [.w "conflict", .obj (.unitNo u), .kw "serial" (decPad 10 serial)]) s
        record 0x0903 (pObj (.unitNo u) ++ pNum serial) { engine := 1 } s
  else
    let s := s.modPeer u fun p =>
      let l := hearSerial p.serials serial s.now
      { p with
        known := true, serial, ip := fieldAt b 18 4, cap := BitVec.ofNat 32 (fieldAt b 10 4), status := BitVec.ofNat 32 (fieldAt b 14 4)
        flags := fieldAt b 3 1, up := fieldAt b 22 4, annSeq := fieldAt b 26 2, version := slice b 28 4, serials := l, conflict := p.conflict || twoSerials l s.now }
    (heardPeer u s).worked .net
/-- A conflict about a number clears once 5 s have passed with announces from one serial only (R360). -/
def conflictClears (u : Nat) (s : State) : State :=
  let l := (s.peer u).serials.filter fun e => decide (s.now < e.2 + 5000000)
  if s.head.unit = some u then
    if s.net.conflict ∧ l.isEmpty then (s.modNet fun n => { n with conflict := false }).modPeer u fun p => { p with serials := [] } else s
  else if (s.peer u).conflict ∧ l.length ≤ 1 then s.modPeer u fun p => { p with conflict := false, serials := l }
  else s

/-! ## Paths (R361 to R363) -/

/-- A path's name. -/
def pathName : Path → String
  | .a => "A"
  | .b => "B"
/-- A path bit changes: a report to every session, and a record (R363). -/
def setPathBit (p : Path) (up : Bool) (s : State) : State :=
  if (s.path p).bit = up then s
  else
    let s := s.modPath p fun x => { x with bit := up }
    let s := sendAll (tilR "net" [.w "path", .w (pathName p), .w (if up then "up" else "down")]) s
    record 0x0901 (pWord (pathName p) ++ pWord (if up then "up" else "down")) { engine := 1 } s
/-- A PHY reports its link (R363). -/
def phyLink (p : Path) (up : Bool) (s : State) : State :=
  if (s.path p).link = up ∨ ¬ s.head.powered then s
  else
    let s := s.modPath p fun x => { x with link := up, links := x.links + 1, gapless := none }
    if up then s else setPathBit p false s
/-- A peer's flag on a path. -/
def peerOn (x : Peer) : Path → Bool
  | .a => x.pathA
  | .b => x.pathB
/-- When a peer's last supervision frame came on a path. -/
def peerSup (x : Peer) : Path → Option Nat
  | .a => x.supA
  | .b => x.supB
/-- A peer's flag on a path changes: a report to its watchers (R363). -/
def setPeerPath (u : Nat) (p : Path) (on : Bool) (s : State) : State :=
  if peerOn (s.peer u) p = on then s
  else
    let s := s.modPeer u fun x => match p with
      | .a => { x with pathA := on }
      | .b => { x with pathB := on }
    reportPeer u [.w "path", .w (pathName p), .w (if on then "ok" else "lost")] s
/-- A supervision frame has arrived on a path (R363). -/
def supervised (p : Path) (peer : Option Nat) (s : State) : State :=
    let s := s.modPath p fun x =>
      let kept := heldFor x.supAt s.now 0 && !heldFor x.supAt s.now 100000
      { x with supAt := some s.now, gapless := if kept then x.gapless <|> some s.now else some s.now }
    let s := if heldFor (s.path p).gapless s.now 500000 then setPathBit p true s else s
    let s := match peer with
      | none => s
      | some u =>
        if ¬ (s.peer u).known then s
        else
          let s := heardPeer u (setPeerPath u p true s)
          s.modPeer u fun x => match p with
            | .a => { x with supA := some s.now }
            | .b => { x with supB := some s.now }
    s.worked .net
/-- No supervision frame has come on a path, or from a peer on it, for 100 ms (R363). -/
def supervisionOut (p : Path) (peer : Option Nat) (s : State) : State :=
  match peer with
  | none => if heldFor (s.path p).supAt s.now 100000 then setPathBit p false (s.modPath p fun x => { x with gapless := none }) else s
  | some u => if heldFor (peerSup (s.peer u) p) s.now 100000 then setPeerPath u p false s else s
/-- A PRP supervision frame goes out on each path (R362). -/
def sendSupervision (s : State) : State :=
  let f := le 2 s.net.supSeq
  transmitOn .b .prp none f (transmitOn .a .prp none f (s.modNet fun n => { n with supSeq := (n.supSeq + 1) % 65536 }))

/-! ## Relays (R377, R379) -/

/-- A relayed line's final reply: it enters the tag memory, and the slot is free (R377). -/
def relayFinal (r : Relay) (tag : Option Nat) (x : Reply) (s : State) : State :=
  match r.waiting.find? (·.1 = tag) with
  | none => s
  | some w =>
    let s := remember (.session r.near) tag x (releaseSlots [w.2] s)
    s.modNet fun n => { n with relays := n.relays.map fun q => if q.id = r.id then { q with waiting := q.waiting.erase w } else q }
/-- Every relayed line without a final reply ends with an error, and the relay is dropped (R376, R379). -/
def failRelay (r : Relay) (e : Err) (s : State) : State :=
  let e := errR e
  let s := forEach r.waiting (fun w s =>
    let x := { e with tag := w.1 }
    releaseSlots [w.2] (remember (.session r.near) w.1 x (sendFar r.near r.id w.1 x s))) s
  s.modNet fun n => { n with relays := n.relays.filter (·.id ≠ r.id) }
/-- A relay whose far unit is not to be had: E04 naming that unit (R379). -/
def dropRelay (r : Relay) (s : State) : State := failRelay r { code := 4, detail := .obj (.unitNo r.far) } s
/-- A received line as a reply: its prefix, and the rest unchanged (R377). -/
def relayedReply (text : String) : Reply :=
  let rest := String.ofList (text.toList.drop 1)
  match text.toList.head? with
  | some '=' => { pre := .eq, word := rest }
  | some '!' => { pre := .bang, word := rest }
  | some ':' => { pre := .colon, word := rest }
  | _ => { pre := .tilde, word := rest }
/-- The value of a field of a line, up to the next space: `name` is written with the space before it and the `=`. -/
def fieldText (name : List Char) : List Char → String
  | [] => ""
  | c :: t => if name.isPrefixOf (c :: t) then String.ofList (((c :: t).drop name.length).takeWhile (· ≠ ' ')) else fieldText name t
/-- A line of a relay is for the near unit itself: the far unit's hello, the refusal of the connection by a far unit without a free session, the
reply to one of the near unit's own lines (R376, R377; DEDUCED, log entry 143). -/
def ownLine (r : Relay) (x : Reply) : Bool :=
  if x.pre = .tilde then x.word.startsWith "hello" || (r.hello.isNone && x.word.startsWith "closing E13") else decide (0 < r.own)
/-- The near unit takes a line that is for it: it keeps the session and the token of the first hello, and a refused relay ends its lines with
E13 (R376, R379). -/
def takeOwn (r : Relay) (x : Reply) (s : State) : State :=
  let upd := fun (f : Relay → Relay) => s.modNet fun n => { n with relays := n.relays.map fun q => if q.id = r.id then f q else q }
  if x.pre ≠ .tilde then upd fun q => { q with own := q.own - 1 }
  else if x.word.startsWith "hello" then
    upd fun q => { q with hello := q.hello <|> some (fieldText " session=".toList x.word.toList, fieldText " token=".toList x.word.toList) }
  else failRelay r { code := 13 } s
/-- A line from a relay session: it is the near unit's own, or passes to the near session (R377). -/
def relayLineIn (relay : Nat) (tag : Option Nat) (final : Bool) (text : String) (s : State) : State :=
  match s.net.relays.find? (·.id = relay) with
  | none => s
  | some r =>
    let x := relayedReply text
    let s := heardPeer r.far (s.worked .net)
    if ownLine r x then takeOwn r x s
    else
      let s := sendFar r.near r.id tag x s
      if final then relayFinal r tag x s else s
/-- A relay whose connection has closed is joined again: its session is resumed with its token, or, where no hello had come, it is set anew
(R111, R376, R379). -/
def rejoinRelay (r : Relay) (s : State) : State :=
  let own := fun (k : Nat) (s : State) => s.modNet fun n => { n with relays := n.relays.map fun q => if q.id = r.id then { q with own := k } else q }
  match r.hello with
  | none => openRelay r.far (own 2 s)
  | some (n, t) => transmit .session (some r.far) (framedLine (ascii ("LOGIN RESUME=" ++ n ++ " TOKEN=" ++ t))) (own (r.own + 1) s)

/-! ## Silent peers (R380) -/

/-- A peer has not been heard for PEERTO (R379, R380). -/
def peerGone (u : Nat) (s : State) : State :=
  let p := s.peer u
  if ¬ p.known ∨ p.silent ∨ s.now < p.seenAt + s.keyN .unit .PEERTO then s
  else
    let s := reportPeer u [.w "silent"] (s.modPeer u fun p => { p with silent := true })
    let s := record 0x0902 (pObj (.unitNo u)) { engine := 1 } s
    forEach (s.net.relays.filter (·.far = u)) dropRelay s

/-! ## PTP (R369 to R373) -/

/-- The unit's own clock in the best-master algorithm (R369). -/
def ownClock (s : State) : PtpSet :=
  { identity := Config.clockIdentity s.head.serial, prio1 := s.ptp.prio1, clockClass := 248, accuracy := 0xFE, variance := 0xFFFF
    prio2 := s.ptp.prio2, unit := s.head.unit, domain := s.ptp.domain }
/-- Clock x is better than clock y: the first of the fields that differs decides, the smaller wins (R369, IEEE 1588-2019). -/
def betterClock (x y : PtpSet) : Bool :=
  let l := [(x.prio1, y.prio1), (x.clockClass, y.clockClass), (x.accuracy, y.accuracy), (x.variance, y.variance), (x.prio2, y.prio2)]
  match l.find? fun e => decide (e.1 ≠ e.2) with
  | some e => decide (e.1 < e.2)
  | none => decide (x.identity < y.identity)
/-- The time after which a master without an Announce is dropped (R372). -/
def annSpan (s : State) : Nat := s.ptp.annTo * pow2us s.ptp.annInt
/-- The best of the foreign masters whose Announces still come. -/
def bestForeign (s : State) : Option PtpSet :=
  ((s.net.ptp.foreign.filter fun f => decide (s.now < f.2 + annSpan s)).map (·.1)).foldl (fun b x => match b with
    | none => some x
    | some y => if betterClock x y then some x else some y) none
/-- Unit status bit 7 sets or clears; bit 28 sets with it (R268, R372). -/
def setSync (on : Bool) (s : State) : State :=
  s.modNet fun n => { n with ptp := { n.ptp with
    bit7 := on, bit28 := n.ptp.bit28 || on, good := if on then n.ptp.good else 0
    clearedAt := if on then none else if n.ptp.bit7 then some s.now else n.ptp.clearedAt } }
/-- The best-master algorithm selects (R370, R372, R373): this unit where it is master-capable and better than every foreign master, else the
best foreign one, else none. -/
def selectMaster (s : State) : State :=
  let capable := s.ptp.masterCap
  let own := ownClock s
  let p := s.net.ptp
  let self : Bool := capable && (match bestForeign s with
    | none => true
    | some f => betterClock own f)
  if self then
    if p.self then s else setSync true (s.modNet fun n => { n with ptp := { n.ptp with self := true, gm := none, offset := 0, lastBig := 0 } })
  else
    let best := bestForeign s
    let s := s.modNet fun n => { n with ptp := { n.ptp with
      self := false, gm := best, good := if n.ptp.gm.map (·.identity) = best.map (·.identity) then n.ptp.good else 0
      annAt := if n.ptp.gm.map (·.identity) = best.map (·.identity) then n.ptp.annAt else some s.now
      syncAt := if n.ptp.gm.map (·.identity) = best.map (·.identity) then n.ptp.syncAt else some s.now } }
    if p.self ∨ best.isNone then setSync false s else s
/-- A frame of a unit's clock has come: that unit is heard (R380). -/
def heardClock (u : Option Nat) (s : State) : State :=
  match u with
  | none => s
  | some n => heardPeer n s
/-- The unit of a foreign master. -/
def masterUnit (s : State) (master : Nat) : Option Nat := (s.net.ptp.foreign.find? (·.1.identity = master)).bind (·.1.unit)
/-- A PTP Announce of the unit's domain (R369, R370). -/
def ptpAnnounced (d : PtpSet) (s : State) : State :=
  if d.domain ≠ s.ptp.domain then s
  else
    let s := s.modNet fun n => { n with ptp := { n.ptp with
      foreign := n.ptp.foreign.filter (·.1.identity ≠ d.identity) ++ [(d, s.now)]
      annAt := if n.ptp.gm.map (·.identity) = some d.identity then some s.now else n.ptp.annAt } }
    selectMaster s
/-- ANNTO Announce intervals without Announce from the selected master (R372). -/
def announceOut (s : State) : State :=
  let p := s.net.ptp
  if p.self ∨ s.now < p.annAt.getD s.head.startAt + annSpan s then s
  else
    let s := s.modNet fun n => { n with ptp := { n.ptp with
      foreign := n.ptp.foreign.filter fun f => decide (n.ptp.gm.map (·.identity) ≠ some f.1.identity), gm := none } }
    selectMaster (setSync false s)
/-- Time moves to a path, with a time-path record (R370). -/
def takePath (p : Path) (s : State) : State :=
  if s.net.ptp.path = p then s
  else record 0x0904 (pWord (pathName p)) { engine := 1 } (s.modNet fun n => { n with ptp := { n.ptp with path := p } })
/-- The sign of an offset above 100 us in magnitude, 0 below (R371). -/
def bigSign (o : Int) : Int := if 100000 < o then 1 else if o < -100000 then -1 else 0
/-- An offset of TIME: a step at the second large one of one sign, else a frequency correction of at most 100 ppm; and unit status bit 7
(R371, R372). -/
def takeOffset (o : Int) (s : State) : State :=
  let p := s.net.ptp
  let step := decide (bigSign o ≠ 0 ∧ bigSign o = p.lastBig)
  let s := s.modNet fun n => { n with ptp := { n.ptp with
    offset := o, lastBig := if step then 0 else bigSign o, syncAt := some s.now, good := if o.natAbs ≤ 500 then min 8 (n.ptp.good + 1) else 0 } }
  let s := if step then sendAll (tilR "time" [.w "step", .n (-o)]) (record 0x0905 (pInst o) { engine := 1 } (stepTime (-o) s))
    else { s with clk := { s.clk with ppb := clampI (-100000) 100000 (Config.servoPpb o) } }
  if 1000 < o.natAbs then (if s.net.ptp.bit7 then setSync false s else s)
  else if 8 ≤ s.net.ptp.good ∧ ¬ s.net.ptp.bit7 then setSync true s
  else s
/-- A Sync on a path with the offset it gives (R370, R371). -/
def synced (p : Path) (master : Nat) (o : Int) (s : State) : State :=
  let t := s.net.ptp
  if t.self ∨ t.gm.map (·.identity) ≠ some master then s
  else
    let s := s.modPath p fun x => { x with syncAt := some s.now, missed := 0, cleanSince := x.cleanSince <|> some s.now }
    let s := if p = .a ∧ heldFor s.net.a.cleanSince s.now 60000000 then takePath .a s else s
    if s.net.ptp.path = p then takeOffset o s else s
/-- A Sync interval has passed on a path without a Sync (R370, R372). -/
def syncMissed (p : Path) (s : State) : State :=
  let iv := pow2us s.ptp.syncInt
  if ¬ heldFor (some ((s.path p).syncAt.getD s.head.startAt)) s.now (((s.path p).missed + 1) * iv) then s
  else
  let s := s.modPath p fun x => { x with missed := x.missed + 1, cleanSince := none }
  let s := if p = .a ∧ s.net.ptp.path = .a ∧ 2 ≤ s.net.a.missed then takePath .b s else s
  if s.net.ptp.bit7 ∧ ¬ s.net.ptp.self ∧ heldFor s.net.ptp.syncAt s.now (3 * iv) then setSync false s else s
/-- The settings of an Announce interval that has begun are taken, and the best-master algorithm runs where they differ (R369). -/
def ptpTurn (s : State) : State :=
  let s := agePtp s s
  if s.net.ptp.reselect then selectMaster (s.modNet fun n => { n with ptp := { n.ptp with reselect := false } }) else s
/-- What a PTP message of this unit as grandmaster carries: its type, of an Announce and a Sync the logarithm of their interval, of an Announce
the values R369 gives, of a Follow_Up the instant
(R369, R370; DESIGN CHOICE, log entry 67). -/
def ptpMessage (k : PtpKind) (s : State) : List Byte :=
  let c := ownClock s
  match k with
  | .announce => [11] ++ leI 1 s.ptp.annInt ++ le 1 c.domain ++ le 2 s.ptp.utcOff ++ le 1 c.prio1 ++ le 1 c.clockClass ++ le 1 c.accuracy ++ le 2 c.variance ++ le 1 c.prio2
      ++ le 8 c.identity ++ [0xA0]
  | .sync => [0] ++ leI 1 s.ptp.syncInt
  | .followUp => [8] ++ leI 8 s.time

/-! ## The commands -/

/-- The announce interval (R359). -/
def execAnnounceSend (s : State) : Host.Outcome State Fault Refusal := .next (settle s (if inSystem s then announce s else s))
/-- An announce frame arrives (R359, R360). -/
def execAnnounceReceived (f : NetFrame) (s : State) : Host.Outcome State Fault Refusal :=
  .next (settle s (receive f.via (fun s => if inSystem s then announced f.bytes s else s) s))
/-- A conflict clears (R360). -/
def execConflictClear (unit : Fin 1024) (s : State) : Host.Outcome State Fault Refusal := .next (settle s (conflictClears unit.val s))
/-- A PHY's link changes (R363). -/
def execPhyLinkChange (p : Path) (up : Bool) (s : State) : Host.Outcome State Fault Refusal := .next (settle s (phyLink p up s))
/-- Supervision frames have stopped (R363). -/
def execPathSupervisionTimeout (p : Path) (peer : Option (Fin 1024)) (s : State) : Host.Outcome State Fault Refusal :=
  .next (settle s (supervisionOut p (peer.map (·.val)) s))
/-- A peer is silent (R380). -/
def execPeerSilent (unit : Fin 1024) (s : State) : Host.Outcome State Fault Refusal :=
  .next (settle s (if netUp s then peerGone unit.val s else s))
/-- A Sync gives an offset in ns (R371). -/
def execPtpSync (p : Path) (master : Nat) (offset : Int) (s : State) : Host.Outcome State Fault Refusal :=
  .next (settle s (if inSystem s then receiveOn p (fun s => synced p master offset (heardClock (masterUnit s master) s)) (ptpTurn s) else s))
/-- A Sync interval passes without one (R370, R372). -/
def execPtpSyncMissed (p : Path) (s : State) : Host.Outcome State Fault Refusal := .next (settle s (if inSystem s then syncMissed p (ptpTurn s) else s))
/-- The Announce timeout (R372). -/
def execPtpAnnounceTimeout (s : State) : Host.Outcome State Fault Refusal := .next (settle s (if inSystem s then announceOut (ptpTurn s) else s))
/-- Unit status bit 28 clears 25 s after bit 7 (R268). -/
def execFlashAlignmentLost (s : State) : Host.Outcome State Fault Refusal :=
  .next (settle s (if ¬ s.net.ptp.bit7 ∧ heldFor s.net.ptp.clearedAt s.now 25000000 then
    s.modNet fun n => { n with ptp := { n.ptp with bit28 := false } } else s))
/-- A line comes from a relay session (R377). -/
def execRelayReply (relay : Nat) (tag : Option Nat) (final : Bool) (text : String) (s : State) : Host.Outcome State Fault Refusal :=
  .next (settle s (if netUp s then relayLineIn relay tag final text s else s))
/-- A relay connection has closed, and was resumed or refused (R379). -/
def execRelayClosed (relay : Nat) (e : RelayEnd) (s : State) : Host.Outcome State Fault Refusal :=
  .next (settle s (match s.net.relays.find? (·.id = relay) with
    | none => s
    | some r => match e with
      | .resumed => rejoinRelay r s
      | .refused => dropRelay r s))
/-- The supervision interval (R362). -/
def execPrpSupervisionSend (s : State) : Host.Outcome State Fault Refusal := .next (settle s (if netUp s then sendSupervision s else s))
/-- A supervision frame arrives (R363). -/
def execPrpSupervisionReceived (p : Path) (x : PrpNode) (s : State) : Host.Outcome State Fault Refusal :=
  .next (settle s (receiveOn p (fun s => supervised p (x.peer.map (·.val)) (noteNode x.node s)) s))
/-- A PTP Announce arrives (R370). -/
def execPtpAnnounceReceived (p : Path) (d : PtpSet) (s : State) : Host.Outcome State Fault Refusal :=
  .next (settle s (if inSystem s then receiveOn p (fun s => ptpAnnounced d (heardClock d.unit s)) (ptpTurn s) else s))
/-- As grandmaster the unit sends on both paths (R370). -/
def execPtpMasterSend (k : PtpKind) (s : State) : Host.Outcome State Fault Refusal :=
  .next (settle s (if inSystem s then
    let s := ptpTurn s
    if s.net.ptp.self then transmitOn .b .ptp none (ptpMessage k s) (transmitOn .a .ptp none (ptpMessage k s) s) else s
    else s))
/-- A Delay_Req is answered on the path where it arrived, with DELAYINT (R369, R370). -/
def execPtpDelayReqReceived (p : Path) (s : State) : Host.Outcome State Fault Refusal :=
  .next (settle s (if inSystem s then receiveOn p (fun s => if s.net.ptp.self then transmitOn p .ptp none ([9] ++ le 1 s.ptp.delayInt) s else s) (ptpTurn s) else s))
/-- An IGMP query, general or of a group, 239.80.x.y as 256 x + y (R366). -/
def execIgmpQuery (q : IgmpQuery) (s : State) : Host.Outcome State Fault Refusal :=
  .next (settle s (receive q.via (fun s => forEach (s.net.groups.filter fun g => q.group.isNone || decide (q.group = some g)) (igmp 22) s) s))
/-- The interval of unsolicited membership reports (R366). -/
def execIgmpMembershipReport (s : State) : Host.Outcome State Fault Refusal :=
  .next (settle s (if netUp s then forEach s.net.groups (igmp 22) s else s))
/-- An ARP or ICMP echo request to the unit is answered (R365). -/
def execArpIcmpRequest (a : Arrival) (icmp : Bool) (s : State) : Host.Outcome State Fault Refusal :=
  .next (settle s (receive a (transmit (if icmp then .icmp else .arp) none []) s))

end Sys2Proof.Machine
end

