-- ==== Sys2Proof/Machine/Sessions.lean ====
section
/-! DEFINITION. Sessions: their modes, authority, resume and end, lines that wait, what arrives on a connection, and the end of an
engine reset (03 R87, R97 to R99, R107 to R116; 13 R421; 09 R327). -/

namespace Sys2Proof.Machine

open Sys2Proof

/-! ## MODE and LOGIN (R98, R111, R114) -/

/-- A form of MODE or LOGIN: local, immediate, not on the supervisor line (R102, R487, R510). -/
def sessionSpec (verb : String) (run : Ctx → State → State) : Spec := { verb := .banned verb, local_ := true, run }
/-- MODE TYPED and MODE GEN: the reply is given under the mode that was in force; MODE alone without RCHECK keeps it, and no command
record is written (R98, R448). -/
def modeSpec (m : Mode) (rcheck : Option Bool) : Spec :=
  { sessionSpec "MODE" (fun c s =>
      (fin c (eqR "mode" [.w (match m with | .typed => "typed" | .gen => "gen")]) s).modSes (portSession c.port) fun x => { x with
        mode := m, rcheck := rcheck.getD x.rcheck }) with logged := false }
/-- LOGIN SAFETY (R114). -/
def loginSafetySpec (port : Port) : Spec :=
  { sessionSpec "LOGIN" (fun c s => fin c (eqR "login" [.w "safety"]) (s.modSes (portSession c.port) fun x => { x with auth := true })) with
    ready := fun s => if portSession port ≠ 0 then some { code := 30 } else if s.camp.key.active then none else some { code := 31 } }
/-- LOGIN OFF (R114). -/
def loginOffSpec : Spec :=
  sessionSpec "LOGIN" fun c s => fin c (eqR "login" [.w "off"]) (s.modSes (portSession c.port) fun x => { x with auth := false })
/-- What a session's connection has still to be sent, with what was held back. -/
def allOut (x : Session) : List Reply :=
  x.out ++ x.heldBack.filterMap fun i => match i with
    | .reply _ r => some r
    | _ => none
/-- The connection of session m joins the held session n: m's number is free, its later lines are lines of n, and n's kept output
follows the answer (R111). -/
def resumeSession (m n : Nat) (s : State) : State :=
  let s := dropRelays m (cancelAll m s).2
  let x := s.ses m
  let s := s.modSes n fun y => { y with
    st := .opn, out := allOut x ++ y.out, holdUntil := 0, lastLine := s.now, typed := x.typed, afterCr := x.afterCr, echo := x.echo }
  { s.modSes m fun _ => {} with inbuf := s.inbuf.map fun e => if e.ses = m then { e with ses := n } else e }
/-- LOGIN RESUME (R111). -/
def loginResumeSpec (port : Port) (n : Nat) (token : W32) : Spec :=
  { sessionSpec "LOGIN" (fun c s => resumeSession (portSession c.port) n (fin c (eqR "login" [.kn "session" n ""]) s)) with
    values := fun _ => if 1 ≤ n ∧ n < 64 then none else some { code := 5, detail := .word "RESUME" }
    ready := fun s =>
      let m := portSession port
      if m ≠ 0 ∧ (s.ses m).st = .opn ∧ (s.ses n).st = .held ∧ (s.ses n).token = token then none else some { code := 13 } }
/-- LOGIN END: the session's operations are cancelled, then the answer goes, and the session is free; what it has still to send leaves
before the connection closes (R111). -/
def loginEnded (c : Ctx) (s : State) : State :=
  let n := portSession c.port
  let s := fin c (eqR "login" [.w "end"]) (dropRelays n (cancelAll n s).2)
  endSession n (flushSes n (s.modSes n fun x => { x with out := allOut x, heldBack := [] }))
/-- LOGIN END (R111). -/
def loginEndSpec (port : Port) : Spec :=
  { sessionSpec "LOGIN" loginEnded with
    ready := fun _ => if portSession port = 0 then some { code := 6, detail := .obj .session } else none }
/-- A line that names no verb form of this device: E01 where its form is wrong, else E02 (R105). -/
def unknownSpec (formError : Option String) : Spec :=
  { verb := .banned "", sup := true, known := false, form := formError, run := fun _ s => s }

/-! ## Lines that wait (R34, R107, R109) -/

/-- The specification of a waiting line, read on a port. -/
def lineSpec (s : State) (p : Port) (l : Line) (i : Instr) : Spec :=
  match i with
  | .atEvent _ a => atSpec l a (verbSpec s p a.doVerb)
  | .cancel _ tag => cancelSpec verbSpec l tag
  | .resetSession _ n => resetSessionSpec p n
  | .resetEngine _ e => resetEngineSpec p e
  | .resetSlice _ n => resetSliceSpec p n
  | .resetUnit _ => resetUnitSpec p
  | .resetPower _ => resetPowerSpec p
  | .modeTyped _ => modeSpec .typed none
  | .modeGen _ r => modeSpec .gen r
  | .loginSafety _ => loginSafetySpec p
  | .loginOff _ => loginOffSpec
  | .loginResume _ n t => loginResumeSpec p n t
  | .loginEnd _ => loginEndSpec p
  | .unknownVerb _ f => unknownSpec f
  | i => match lineVerb i with
    | some v => verbSpec s p v
    | none => unknownSpec none
/-- A line that waits outside a network session's buffer comes in once there is room for it: it arrives then (R98, R109, R110). -/
def enterBuffer (n : Nat) (s : State) : State :=
  match s.inbuf.find? fun e => decide (e.ses = n) && e.outside with
  | none => s
  | some e =>
    let l := framedIn s { e.line with port := .session n }
    if 4096 < inBytes s n + lineBytes l then s
    else
      let s := s.modSes n fun x => { x with lastLine := s.now }
      let k := s.inbuf.idxOf e
      { s with inbuf := s.inbuf.take k ++ (if ignoredLine l then [] else [{ e with line := l, at_ := s.now, outside := false }]) ++ s.inbuf.drop (k + 1) }
/-- The first waiting line of session n is read, and makes room in the buffer (R34, R109), or waits on for its slot (R537). -/
def readNext (n : Nat) (s : State) : State :=
  match s.inbuf.find? (·.ses = n) with
  | none => s
  | some e =>
    let l := { e.line with port := .session n }
    let t := { s with inbuf := s.inbuf.erase e }
    if !e.lost && asksSlot l e.at_ (lineSpec s (.session n) l e.cmd) s then { t with inbuf := { e with asked := true } :: t.inbuf }
    else
      let outside := t.inbuf.filter fun e => decide (e.ses = n) && e.outside
      let t := forEach outside (fun _ => enterBuffer n) t
      if e.lost then lostLine n t else readLine l e.at_ (lineSpec t (.session n) l e.cmd) t
/-- The first waiting line that the interpreter can read is read (R34, R107, R421). -/
def readOne (s : State) : State :=
  match s.inbuf.find? fun e => canRead s e.ses with
  | none => s
  | some e => readNext e.ses s
/-- What waits is read on, in the order it came, after a happening that may have let it: return frames, room in an output buffer, the end of
an engine reset (R34, R98, R102, R107, R421). -/
def readFreed (s : State) : State := forEach s.inbuf (fun _ => readOne) s

/-! ## Characters (R85, R86, R99) -/

/-- The characters BS, space, BS and CR LF. -/
def eraseEcho : List Byte := [0x08, 0x20, 0x08]
def endEcho : List Byte := [0x0D, 0x0A]
/-- A character arrives in typed mode (R99); characters beyond the 253rd are discarded without an echo (R86). -/
def typedChar (x : Session) (b : Byte) : Session :=
  let y := { x with afterCr := decide (b = 0x0D) }
  if b = 0x08 ∨ b = 0x7F then { y with typed := x.typed.dropLast, echo := x.echo ++ eraseEcho }
  else if b = 0x15 ∨ b = 0x0D then { y with typed := [], typedOver := false, typedLost := false, echo := x.echo ++ endEcho }
  else if b = 0x0A then (if x.afterCr then y else { y with typed := [], typedOver := false, typedLost := false, echo := x.echo ++ endEcho })
  else if b < 0x20 then y
  else if 253 ≤ x.typed.length then { y with typedOver := true }
  else { y with typed := x.typed ++ [b], echo := x.echo ++ [b] }
/-- A character arrives while the console's buffer is full: it is discarded without an echo, and the line it belonged to is lost; its end is
still seen (R109). -/
def lostChar (x : Session) (b : Byte) : Session :=
  let y := { x with afterCr := decide (b = 0x0D) }
  if b = 0x0D ∨ b = 0x0A then { y with typed := [], typedOver := false, typedLost := false } else { y with typedLost := true }
/-- The line that a terminator ends, as it stands after editing; one that lost characters beyond the 253rd stays longer than a line may be
(R86, R99). -/
def typedLine (n : Nat) (x : Session) : Line :=
  let q := if x.typedOver then (x.typed ++ [0x20], none, none) else splitCheck x.typed
  { port := .session n, chars := q.1, check := q.2.1, badCheck := q.2.2, framed := .typed, unit := unitOfText q.1 }
/-- A character of a session in typed mode; CR, or an LF that follows none, ends a line, which is read (R98, R99). -/
def typedIn (n : Nat) (b : Byte) (s : State) : State :=
  let x := s.ses n
  if s.head.started ∧ x.st = .opn ∧ x.mode = .typed then
    let full := consoleFull s n
    let s := s.modSes n fun x => if full then lostChar x b else typedChar x b
    if b = 0x0D ∨ (b = 0x0A ∧ ¬ x.afterCr) then
      let l := typedLine n x
      if x.typedLost then lineComes (lineCommand l) l n (unknownSpec none) true (s.modSes n fun x => { x with lastLine := s.now })
      else handleLine (lineCommand l) l (lineSpec s (.session n) l (lineCommand l)) s
    else s
  else s

/-! ## Connections (R107 to R111) -/

/-- A TCP connection to port 4780 (R108). -/
def connectionOpens (s : State) : State :=
  if !netUp s then s
  else match ((List.range 64).filter (0 < ·)).find? fun n => decide ((s.ses n).st = .free) with
    | some n => openSession n .gen s
    | none => transmit .session none (ascii "~closing E13") s
/-- A held session's hold expires (R111). -/
def holdEnds (n : Nat) (s : State) : State :=
  let x := s.ses n
  if x.st = .held ∧ x.holdUntil ≤ s.now then endSession n s else s
/-- A network session has received no line for IDLE (R110). -/
def idleEnds (n : Nat) (s : State) : State :=
  let x := s.ses n
  if n ≠ 0 ∧ x.st = .opn ∧ 0 < x.idle ∧ x.lastLine + 1000000 * x.idle ≤ s.now then dropConnection n s else s
/-- The oldest lines of a session's output buffer have left; below 16 KiB the discarded reports are told once, and reports go on
(R107). Nothing leaves a held session. -/
def drainOut (n lines : Nat) (s : State) : State :=
  if (s.ses n).st = .held then s
  else
    let s := { s with left := s.left ++ ((s.ses n).out.take lines).map fun r => (n, r) }
    let s := s.modSes n fun x => { x with out := x.out.drop lines, echo := [] }
    let x := s.ses n
    let s := if 0 < x.lost ∧ outBytes x.out < 16384 then
        s.modSes n fun y => ({ y with lost := 0 }).put (tilR "lost" [.kn "n" x.lost ""])
      else s
    readFreed (sendJournals (fun p => decide (p = .session n)) s)

/-! ## The end of an engine reset (R15, R327, R421) -/

/-- Yarrow runs again: its charges are those of the moves that run, each on a grouped bus with a firm frame under a new id; dimmed
channels return to their set values; policy values go; waits begin without a tentative start (R327). -/
def yarrowBack (s : State) : State :=
  let waits := fun (s : State) (k : Nat) => ((s.stn k).wait.bind (·.tentative)).isSome
  let s := s.modYar fun y => { y with charges := y.charges.filter fun c => c.byOut || !waits s c.of }
  let s := forEach (s.st.map (·.1)) (fun n s => s.modStn n fun t => { t with wait := t.wait.map fun w => { w with tentative := none } }) s
  let r := s.yar.charges.foldl (fun (q : List Charge × State) c =>
    let y := if c.byOut then (c, q.2) else reserve 3 s.time { c with res := none } q.2
    (q.1 ++ [y.1], y.2)) ([], s)
  let s := r.2.modYar fun y => { y with charges := r.1, dims := [] }
  awaitReports (dropPolicy (forEach (heatChans .unit) setDim s))
/-- An engine runs again: its RESET is answered, and what waited for it or for its core goes on (R13, R15, R419, R421). -/
def engineBack (s : State) : State :=
  match s.head.resetting with
  | none => s
  | some e =>
    let op := (s.eng e).op
    let s := (s.modHead fun h => { h with resetting := none }).modEng e fun x => { x with op := none }
    let s := match e with
      | .jrn => sendJournals (fun _ => true) (drainQueued s)
      | .lamp => lateOpens (flushReports s)
      | .bud => drainQueued (yarrowBack s)
      | _ => s
    let s := endReset "engine" (fun o => decide (some o.id = op)) s
    if e = .int ∨ e = .net ∨ e = .io then readFreed { s with inbuf := s.inbuf.map fun x => { x with asked := false } } else s

/-! ## The commands -/

/-- MODE TYPED. -/
def execModeTyped (l : Line) (s : State) : Host.Outcome State Fault Refusal :=
  .next (settle s (handleLine (.modeTyped l) l (modeSpec .typed none) s))
/-- MODE GEN. -/
def execModeGen (l : Line) (rcheck : Option Bool) (s : State) : Host.Outcome State Fault Refusal :=
  .next (settle s (handleLine (.modeGen l rcheck) l (modeSpec .gen rcheck) s))
/-- LOGIN SAFETY. -/
def execLoginSafety (l : Line) (s : State) : Host.Outcome State Fault Refusal :=
  .next (settle s (handleLine (.loginSafety l) l (loginSafetySpec l.port) s))
/-- LOGIN OFF. -/
def execLoginOff (l : Line) (s : State) : Host.Outcome State Fault Refusal :=
  .next (settle s (handleLine (.loginOff l) l loginOffSpec s))
/-- LOGIN RESUME. -/
def execLoginResume (l : Line) (n : Nat) (token : W32) (s : State) : Host.Outcome State Fault Refusal :=
  .next (settle s (handleLine (.loginResume l n token) l (loginResumeSpec l.port n token) s))
/-- LOGIN END. -/
def execLoginEnd (l : Line) (s : State) : Host.Outcome State Fault Refusal :=
  .next (settle s (handleLine (.loginEnd l) l (loginEndSpec l.port) s))
/-- A line that no verb form fits (R86, R87, R105). -/
def execUnknownVerb (l : Line) (formError : Option String) (s : State) : Host.Outcome State Fault Refusal :=
  .next (settle s (handleLine (.unknownVerb l formError) l (unknownSpec formError) s))
/-- An empty line or a comment: no reply and no tag memory entry (R87); the session has received a line (R110). -/
def execCommentLine (l : Line) (s : State) : Host.Outcome State Fault Refusal :=
  .next (settle s (match l.port with
    | .session n => if s.head.started ∧ (s.ses n).st = .opn then s.modSes n fun x => { x with lastLine := s.now } else s
    | .supervisor => s))
/-- A character in typed mode (R99). -/
def execTypedModeEditing (n : Fin 64) (b : Byte) (s : State) : Host.Outcome State Fault Refusal := .next (settle s (typedIn n b s))
/-- A connection opens a session (R108). -/
def execSessionOpen (s : State) : Host.Outcome State Fault Refusal := .next (settle s (connectionOpens s))
/-- A connection closes (R111). -/
def execConnectionClosed (n : Fin 64) (s : State) : Host.Outcome State Fault Refusal :=
  .next (settle s (if n.val = 0 then s else dropConnection n s))
/-- A hold expires (R111). -/
def execHoldExpiry (n : Fin 64) (s : State) : Host.Outcome State Fault Refusal := .next (settle s (holdEnds n s))
/-- IDLE has passed (R110). -/
def execIdleTimeout (n : Fin 64) (s : State) : Host.Outcome State Fault Refusal := .next (settle s (idleEnds n s))
/-- Output leaves a session's buffer (R107). -/
def execOutputBufferDrained (n : Fin 64) (lines : Nat) (s : State) : Host.Outcome State Fault Refusal := .next (settle s (drainOut n lines s))
/-- An uplink frame (R294). -/
def execUplinkFrame (p : Fin 8) (bytes : List Byte) (s : State) : Host.Outcome State Fault Refusal :=
  .next (settle s (readFreed (uplink p.val bytes s)))
/-- The head finds a link lost (R437). -/
def execSliceLinkLost (p : Fin 8) (s : State) : Host.Outcome State Fault Refusal :=
  .next (settle s (if linkGone s p.val then readFreed (latchesDone (loseLink p.val s)) else s))
/-- The first valid IDENT record returns the link (R438). -/
def execLinkReturn (p : Fin 8) (bytes : List Byte) (s : State) : Host.Outcome State Fault Refusal :=
  .next (settle s (if (s.slc p.val).link then s else readFreed (uplink p.val bytes s)))
/-- An engine reset ends (R421). -/
def execEngineResetEnd (s : State) : Host.Outcome State Fault Refusal := .next (settle s (engineBack s))

end Sys2Proof.Machine
end

