-- ==== Sys2Proof/Machine/Dispatch.lean ====
section
/-! DEFINITION. One arm for each command: its meaning, on everything but the queue. -/

namespace Sys2Proof.Machine

open Sys2Proof

/-- The effect of one command. -/
def exec (i : Instr) (s : State) : Host.Outcome State Fault Refusal :=
  match i with
  | .opn l sts side auto => Sys2Proof.Machine.execOpn l sts side auto s
  | .cls l sts side => Sys2Proof.Machine.execCls l sts side s
  | .stop l sts hard => Sys2Proof.Machine.execStop l sts hard s
  | .resume l sts => Sys2Proof.Machine.execResume l sts s
  | .move l n t k => Sys2Proof.Machine.execMove l n t k s
  | .moveFollow l n fact => Sys2Proof.Machine.execMoveFollow l n fact s
  | .jog l n t k => Sys2Proof.Machine.execJog l n t k s
  | .ref l n => Sys2Proof.Machine.execRef l n s
  | .refLearn l n times => Sys2Proof.Machine.execRefLearn l n times s
  | .cam l n table master offset => Sys2Proof.Machine.execCam l n table master offset s
  | .lamp l chs on => Sys2Proof.Machine.execLamp l chs on s
  | .flash l chs period phase duty => Sys2Proof.Machine.execFlash l chs period phase duty s
  | .out l chs on => Sys2Proof.Machine.execOut l chs on s
  | .proveLearn l o => Sys2Proof.Machine.execProveLearn l o s
  | .proveReturn l o => Sys2Proof.Machine.execProveReturn l o s
  | .proveLoop l => Sys2Proof.Machine.execProveLoop l s
  | .isolateOn l sts => Sys2Proof.Machine.execIsolateOn l sts s
  | .isolateOff l sts => Sys2Proof.Machine.execIsolateOff l sts s
  | .set l sel kvs => Sys2Proof.Machine.execSet l sel kvs s
  | .setLinePos l v => Sys2Proof.Machine.execSetLinePos l v s
  | .setTimeValue l v => Sys2Proof.Machine.execSetTimeValue l v s
  | .setService l n => Sys2Proof.Machine.execSetService l n s
  | .setCount l n c v => Sys2Proof.Machine.execSetCount l n c v s
  | .get l o ks => Sys2Proof.Machine.execGet l o ks s
  | .show l o => Sys2Proof.Machine.execShow l o s
  | .askUnits l => Sys2Proof.Machine.execAskUnits l s
  | .askVersion l => Sys2Proof.Machine.execAskVersion l s
  | .atEvent l a => Sys2Proof.Machine.execAtEvent l a s
  | .watch l objs rate => Sys2Proof.Machine.execWatch l objs rate s
  | .cancel l tag => Sys2Proof.Machine.execCancel l tag s
  | .budget l o kvs => Sys2Proof.Machine.execBudget l o kvs s
  | .budgetClear l => Sys2Proof.Machine.execBudgetClear l s
  | .save l => Sys2Proof.Machine.execSave l s
  | .saveSafety l => Sys2Proof.Machine.execSaveSafety l s
  | .saveBegin l => Sys2Proof.Machine.execSaveBegin l s
  | .saveAbort l => Sys2Proof.Machine.execSaveAbort l s
  | .journalRead l q => Sys2Proof.Machine.execJournalRead l q s
  | .journalReadCustody l q => Sys2Proof.Machine.execJournalReadCustody l q s
  | .journalSnapshotList l => Sys2Proof.Machine.execJournalSnapshotList l s
  | .journalSnapshot l snap start len => Sys2Proof.Machine.execJournalSnapshot l snap start len s
  | .journalSnapshotRelease l n => Sys2Proof.Machine.execJournalSnapshotRelease l n s
  | .pair l n => Sys2Proof.Machine.execPair l n s
  | .pairAttach l source => Sys2Proof.Machine.execPairAttach l source s
  | .pairRelease l => Sys2Proof.Machine.execPairRelease l s
  | .sleep l system => Sys2Proof.Machine.execSleep l system s
  | .wake l => Sys2Proof.Machine.execWake l s
  | .resetSession l n => Sys2Proof.Machine.execResetSession l n s
  | .resetEngine l e => Sys2Proof.Machine.execResetEngine l e s
  | .resetSlice l n => Sys2Proof.Machine.execResetSlice l n s
  | .resetUnit l => Sys2Proof.Machine.execResetUnit l s
  | .resetPower l => Sys2Proof.Machine.execResetPower l s
  | .replay l sess snap window => Sys2Proof.Machine.execReplay l sess snap window s
  | .live l => Sys2Proof.Machine.execLive l s
  | .liveSupervisorLine l => Sys2Proof.Machine.execLiveSupervisorLine l s
  | .modeTyped l => Sys2Proof.Machine.execModeTyped l s
  | .modeGen l rcheck => Sys2Proof.Machine.execModeGen l rcheck s
  | .loginSafety l => Sys2Proof.Machine.execLoginSafety l s
  | .loginOff l => Sys2Proof.Machine.execLoginOff l s
  | .loginResume l n token => Sys2Proof.Machine.execLoginResume l n token s
  | .loginEnd l => Sys2Proof.Machine.execLoginEnd l s
  | .typedModeEditing n b => Sys2Proof.Machine.execTypedModeEditing n b s
  | .sessionOpen => Sys2Proof.Machine.execSessionOpen s
  | .connectionClosed n => Sys2Proof.Machine.execConnectionClosed n s
  | .holdExpiry n => Sys2Proof.Machine.execHoldExpiry n s
  | .idleTimeout n => Sys2Proof.Machine.execIdleTimeout n s
  | .outputBufferDrained n lines => Sys2Proof.Machine.execOutputBufferDrained n lines s
  | .eventFire => Sys2Proof.Machine.execEventFire s
  | .eventRearm slot => Sys2Proof.Machine.execEventRearm slot s
  | .markPulse => Sys2Proof.Machine.execMarkPulse s
  | .markMissed entry => Sys2Proof.Machine.execMarkMissed entry s
  | .tachoFault => Sys2Proof.Machine.execTachoFault s
  | .tachoDualMismatch => Sys2Proof.Machine.execTachoDualMismatch s
  | .encoderFault n k => Sys2Proof.Machine.execEncoderFault n k s
  | .followingError n => Sys2Proof.Machine.execFollowingError n s
  | .indexPulse n => Sys2Proof.Machine.execIndexPulse n s
  | .indexMissing n => Sys2Proof.Machine.execIndexMissing n s
  | .limitSwitch n positive => Sys2Proof.Machine.execLimitSwitch n positive s
  | .heldPositionDrift n => Sys2Proof.Machine.execHeldPositionDrift n s
  | .fdOffDuringMotion n => Sys2Proof.Machine.execFdOffDuringMotion n s
  | .stepLaneSilence p => Sys2Proof.Machine.execStepLaneSilence p s
  | .coarseStepEdge n positive sub => Sys2Proof.Machine.execCoarseStepEdge n positive sub s
  | .camMasterUpdate n => Sys2Proof.Machine.execCamMasterUpdate n s
  | .camLagExceeded n => Sys2Proof.Machine.execCamLagExceeded n s
  | .motionComplete n => Sys2Proof.Machine.execMotionComplete n s
  | .axisStandstill n => Sys2Proof.Machine.execAxisStandstill n s
  | .stepLate => Sys2Proof.Machine.execStepLate s
  | .lockswOpens n => Sys2Proof.Machine.execLockswOpens n s
  | .unlocktExpiry n => Sys2Proof.Machine.execUnlocktExpiry n s
  | .lockzonePassedUp n => Sys2Proof.Machine.execLockzonePassedUp n s
  | .openposReached n => Sys2Proof.Machine.execOpenposReached n s
  | .lockZoneEntry n => Sys2Proof.Machine.execLockZoneEntry n s
  | .closedswMakes n => Sys2Proof.Machine.execClosedswMakes n s
  | .lockswMakes n => Sys2Proof.Machine.execLockswMakes n s
  | .locktExpiry n => Sys2Proof.Machine.execLocktExpiry n s
  | .finaltExpiry n => Sys2Proof.Machine.execFinaltExpiry n s
  | .forceObstacle n current => Sys2Proof.Machine.execForceObstacle n current s
  | .edgeObstacle n => Sys2Proof.Machine.execEdgeObstacle n s
  | .reopenComplete n => Sys2Proof.Machine.execReopenComplete n s
  | .rdwellExpiry n => Sys2Proof.Machine.execRdwellExpiry n s
  | .autocloseExpiry n => Sys2Proof.Machine.execAutocloseExpiry n s
  | .forcedOpen n => Sys2Proof.Machine.execForcedOpen n s
  | .stepDeploy n => Sys2Proof.Machine.execStepDeploy n s
  | .stepStow n => Sys2Proof.Machine.execStepStow n s
  | .steptExpiry n => Sys2Proof.Machine.execSteptExpiry n s
  | .stowswMakes n => Sys2Proof.Machine.execStowswMakes n s
  | .stowtExpiry n => Sys2Proof.Machine.execStowtExpiry n s
  | .permissionLost n => Sys2Proof.Machine.execPermissionLost n s
  | .admissionTick => Sys2Proof.Machine.execAdmissionTick s
  | .admissionWaitExceeded n => Sys2Proof.Machine.execAdmissionWaitExceeded n s
  | .dimRestore o => Sys2Proof.Machine.execDimRestore o s
  | .deratingUpdate => Sys2Proof.Machine.execDeratingUpdate s
  | .groupReportSend => Sys2Proof.Machine.execGroupReportSend s
  | .budgetFrameReceived f => Sys2Proof.Machine.execBudgetFrameReceived f s
  | .tentativeStartInstant n => Sys2Proof.Machine.execTentativeStartInstant n s
  | .reservationRenew n => Sys2Proof.Machine.execReservationRenew n s
  | .reservationExpired source id => Sys2Proof.Machine.execReservationExpired source id s
  | .laneSafetyCycle x own peer => Sys2Proof.Machine.execLaneSafetyCycle x own peer s
  | .crossLaneSilence => Sys2Proof.Machine.execCrossLaneSilence s
  | .loopdelayExpiry x => Sys2Proof.Machine.execLoopdelayExpiry x s
  | .readbackJudgement x loopA loopB => Sys2Proof.Machine.execReadbackJudgement x loopA loopB s
  | .backstopTrip n current => Sys2Proof.Machine.execBackstopTrip n current s
  | .laneVerdictMismatch x n b => Sys2Proof.Machine.execLaneVerdictMismatch x n b s
  | .changeoverNotCarriedOut x n => Sys2Proof.Machine.execChangeoverNotCarriedOut x n s
  | .laneSelfTestFailure x t => Sys2Proof.Machine.execLaneSelfTestFailure x t s
  | .loopTest23h => Sys2Proof.Machine.execLoopTest23h s
  | .loopTest24h => Sys2Proof.Machine.execLoopTest24h s
  | .currentSenseTest n w low high => Sys2Proof.Machine.execCurrentSenseTest n w low high s
  | .enableMask x p mask => Sys2Proof.Machine.execEnableMask x p mask s
  | .enableMaskMissing x p => Sys2Proof.Machine.execEnableMaskMissing x p s
  | .safetyMessageSend => Sys2Proof.Machine.execSafetyMessageSend s
  | .safetyMessageReceived f => Sys2Proof.Machine.execSafetyMessageReceived f s
  | .safetyConnectionTimeout entry => Sys2Proof.Machine.execSafetyConnectionTimeout entry s
  | .trainLineDisagreement h => Sys2Proof.Machine.execTrainLineDisagreement h s
  | .keyInactive => Sys2Proof.Machine.execKeyInactive s
  | .lampDarkLit n b c => Sys2Proof.Machine.execLampDarkLit n b c s
  | .provingPulse n b cs => Sys2Proof.Machine.execProvingPulse n b cs s
  | .voidPulseRepeat n b cs => Sys2Proof.Machine.execVoidPulseRepeat n b cs s
  | .flashEdge n b => Sys2Proof.Machine.execFlashEdge n b s
  | .pwmPeriodStart n b u => Sys2Proof.Machine.execPwmPeriodStart n b u s
  | .turnOnRampEnd n w c => Sys2Proof.Machine.execTurnOnRampEnd n w c s
  | .inrushWindowClose n w => Sys2Proof.Machine.execInrushWindowClose n w s
  | .toneTrip n w c => Sys2Proof.Machine.execToneTrip n w c s
  | .fuseTrip n w c => Sys2Proof.Machine.execFuseTrip n w c s
  | .shortTrip n w c => Sys2Proof.Machine.execShortTrip n w c s
  | .tjTrip n w c => Sys2Proof.Machine.execTjTrip n w c s
  | .clampLock n w c => Sys2Proof.Machine.execClampLock n w c s
  | .underVoltageOff n w c => Sys2Proof.Machine.execUnderVoltageOff n w c s
  | .underVoltageRestart n w c => Sys2Proof.Machine.execUnderVoltageRestart n w c s
  | .openLoad n w c => Sys2Proof.Machine.execOpenLoad n w c s
  | .compliance n b c => Sys2Proof.Machine.execCompliance n b c s
  | .inputFilteredChange n k u => Sys2Proof.Machine.execInputFilteredChange n k u s
  | .testPulse n tap reading => Sys2Proof.Machine.execTestPulse n tap reading s
  | .openWire n k u => Sys2Proof.Machine.execOpenWire n k u s
  | .inputOverVoltage n k u => Sys2Proof.Machine.execInputOverVoltage n k u s
  | .sensorSupplyOverload n l => Sys2Proof.Machine.execSensorSupplyOverload n l s
  | .sensorSupplyRetry n tap c => Sys2Proof.Machine.execSensorSupplyRetry n tap c s
  | .frequencyGateEnd n second => Sys2Proof.Machine.execFrequencyGateEnd n second s
  | .outputDiagnostic n second c x => Sys2Proof.Machine.execOutputDiagnostic n second c x s
  | .overloadRestart n second => Sys2Proof.Machine.execOverloadRestart n second s
  | .outputTestPulse n second u => Sys2Proof.Machine.execOutputTestPulse n second u s
  | .downlinkFrame p bytes => Sys2Proof.Machine.execDownlinkFrame p bytes s
  | .uplinkFrame p bytes => Sys2Proof.Machine.execUplinkFrame p bytes s
  | .failSafeApplied p => Sys2Proof.Machine.execFailSafeApplied p s
  | .sliceLinkLost p => Sys2Proof.Machine.execSliceLinkLost p s
  | .sliceAbsent p => Sys2Proof.Machine.execSliceAbsent p s
  | .linkReturn p bytes => Sys2Proof.Machine.execLinkReturn p bytes s
  | .sliceSelfTestEnd p passed => Sys2Proof.Machine.execSliceSelfTestEnd p passed s
  | .sliceReturn p => Sys2Proof.Machine.execSliceReturn p s
  | .crateInputLow => Sys2Proof.Machine.execCrateInputLow s
  | .holdUpEnd => Sys2Proof.Machine.execHoldUpEnd s
  | .crateInputReturn => Sys2Proof.Machine.execCrateInputReturn s
  | .powerRestore => Sys2Proof.Machine.execPowerRestore s
  | .headStart plug => Sys2Proof.Machine.execHeadStart plug s
  | .elementTest p readA readB => Sys2Proof.Machine.execElementTest p readA readB s
  | .headMemoryTestEnd passed => Sys2Proof.Machine.execHeadMemoryTestEnd passed s
  | .startUpComplete => Sys2Proof.Machine.execStartUpComplete s
  | .engineResetEnd => Sys2Proof.Machine.execEngineResetEnd s
  | .announceSend => Sys2Proof.Machine.execAnnounceSend s
  | .announceReceived f => Sys2Proof.Machine.execAnnounceReceived f s
  | .conflictClear unit => Sys2Proof.Machine.execConflictClear unit s
  | .phyLinkChange p up => Sys2Proof.Machine.execPhyLinkChange p up s
  | .pathSupervisionTimeout p peer => Sys2Proof.Machine.execPathSupervisionTimeout p peer s
  | .peerSilent unit => Sys2Proof.Machine.execPeerSilent unit s
  | .ptpSync p master offset => Sys2Proof.Machine.execPtpSync p master offset s
  | .ptpSyncMissed p => Sys2Proof.Machine.execPtpSyncMissed p s
  | .ptpAnnounceTimeout => Sys2Proof.Machine.execPtpAnnounceTimeout s
  | .flashAlignmentLost => Sys2Proof.Machine.execFlashAlignmentLost s
  | .relayReply relay tag final text => Sys2Proof.Machine.execRelayReply relay tag final text s
  | .relayClosed relay e => Sys2Proof.Machine.execRelayClosed relay e s
  | .heartbeatSend => Sys2Proof.Machine.execHeartbeatSend s
  | .heartbeatReceived f => Sys2Proof.Machine.execHeartbeatReceived f s
  | .partnerSilent => Sys2Proof.Machine.execPartnerSilent s
  | .offerSend => Sys2Proof.Machine.execOfferSend s
  | .offerReceived f => Sys2Proof.Machine.execOfferReceived f s
  | .pullReceived f => Sys2Proof.Machine.execPullReceived f s
  | .twinBlockSend => Sys2Proof.Machine.execTwinBlockSend s
  | .configurationBlock f whole => Sys2Proof.Machine.execConfigurationBlock f whole s
  | .journalBlock f => Sys2Proof.Machine.execJournalBlock f s
  | .releaseReceived f => Sys2Proof.Machine.execReleaseReceived f s
  | .releaseAcknowledgement f => Sys2Proof.Machine.execReleaseAcknowledgement f s
  | .proposeReceived f => Sys2Proof.Machine.execProposeReceived f s
  | .voteReceived f => Sys2Proof.Machine.execVoteReceived f s
  | .voteTimeout => Sys2Proof.Machine.execVoteTimeout s
  | .electorDeadline => Sys2Proof.Machine.execElectorDeadline s
  | .commitReceived f => Sys2Proof.Machine.execCommitReceived f s
  | .wakeFrameReceived f => Sys2Proof.Machine.execWakeFrameReceived f s
  | .commitInstant => Sys2Proof.Machine.execCommitInstant s
  | .supervisorCommitFallback => Sys2Proof.Machine.execSupervisorCommitFallback s
  | .wakein u => Sys2Proof.Machine.execWakein u s
  | .boot => Sys2Proof.Machine.execBoot s
  | .journalFlush => Sys2Proof.Machine.execJournalFlush s
  | .bankWriteComplete read => Sys2Proof.Machine.execBankWriteComplete read s
  | .encoderEdge n up => Sys2Proof.Machine.execEncoderEdge n up s
  | .tachoEdge p u forward => Sys2Proof.Machine.execTachoEdge p u forward s
  | .countedEdge n second rising sub => Sys2Proof.Machine.execCountedEdge n second rising sub s
  | .stepEdge n => Sys2Proof.Machine.execStepEdge n s
  | .rangeChange n w c x => Sys2Proof.Machine.execRangeChange n w c x s
  | .lampClear n b c => Sys2Proof.Machine.execLampClear n b c s
  | .sliceSeated p type serial insertions => Sys2Proof.Machine.execSliceSeated p type serial insertions s
  | .slicePowerRestore p => Sys2Proof.Machine.execSlicePowerRestore p s
  | .sensorSupplyStart x => Sys2Proof.Machine.execSensorSupplyStart x s
  | .sensorSupplyOvertemp n die => Sys2Proof.Machine.execSensorSupplyOvertemp n die s
  | .sensorSupplyOvertempRestart n die => Sys2Proof.Machine.execSensorSupplyOvertempRestart n die s
  | .laneSelfTestEnd x passed configEqual => Sys2Proof.Machine.execLaneSelfTestEnd x passed configEqual s
  | .learnLitPhaseEnd p k b => Sys2Proof.Machine.execLearnLitPhaseEnd p k b s
  | .watchRateInterval slot o => Sys2Proof.Machine.execWatchRateInterval slot o s
  | .wakepulseEnd => Sys2Proof.Machine.execWakepulseEnd s
  | .pairPendingTimeout => Sys2Proof.Machine.execPairPendingTimeout s
  | .attachOfferTimeout => Sys2Proof.Machine.execAttachOfferTimeout s
  | .releaseFrameRetry => Sys2Proof.Machine.execReleaseFrameRetry s
  | .wakeBootTimeout => Sys2Proof.Machine.execWakeBootTimeout s
  | .replayWindowExpiry => Sys2Proof.Machine.execReplayWindowExpiry s
  | .prpSupervisionSend => Sys2Proof.Machine.execPrpSupervisionSend s
  | .prpSupervisionReceived p x => Sys2Proof.Machine.execPrpSupervisionReceived p x s
  | .ptpAnnounceReceived p d => Sys2Proof.Machine.execPtpAnnounceReceived p d s
  | .ptpMasterSend k => Sys2Proof.Machine.execPtpMasterSend k s
  | .ptpDelayReqReceived p => Sys2Proof.Machine.execPtpDelayReqReceived p s
  | .igmpQuery q => Sys2Proof.Machine.execIgmpQuery q s
  | .igmpMembershipReport => Sys2Proof.Machine.execIgmpMembershipReport s
  | .arpIcmpRequest a icmp => Sys2Proof.Machine.execArpIcmpRequest a icmp s
  | .unknownVerb l formError => Sys2Proof.Machine.execUnknownVerb l formError s
  | .commentLine l => Sys2Proof.Machine.execCommentLine l s

end Sys2Proof.Machine
end

