-- ==== Sys2Proof/Machine/Idle.lean ====
section
/-! DEFINITION. What a step does while no command waits: one microsecond passes. -/

namespace Sys2Proof.Machine

open Sys2Proof

/-- One microsecond passes: the model's clock advances by one, TIME by one microsecond with the servo's correction in parts per
billion (R11, R371), the frames that are due start (R290), and the events keyed to TIME and FLASH that this crosses join the row of crossings (R47, R48, R69). -/
def idleTick (s : State) : State :=
  let t0 := timeGrid s
  let f0 := s.flash
  let s := { s with clk := { s.clk with now := s.clk.now + 1, timeFs := s.clk.timeFs + 1000000000 + s.clk.ppb } }
  sendFrames (timeMoved t0 f0 s)

end Sys2Proof.Machine
end

