-- ==== Sys2Proof/Safety.lean ====
section
/-! DEFINITION. What a safe run keeps, the parts of the state that a frame names, and when a line is taken, in the terms statements use. -/

namespace Sys2Proof.Machine

open Sys2Proof

/-! ## Safe runs -/

/-- Whether the safe state stays latched over a step (R22): once both elements are held open for good, only a unit reset, power or
wake lets them close. -/
def safeKept (s t : State) : Prop := s.camp.safe = true → t.camp.safe = true
/-- The pool-full flag is set whenever the session block has no free slot (R56). -/
def poolFlagged (s : State) : Prop := blockFull s = true → s.poolFull = true

/-! ## Frames -/

/-- The parts of the state that a frame names. -/
inductive Part where
  /-- the modules the unit is built of and the queue -/
  | fixed
  | clk
  /-- the head, without its engines' counters and its lost-records flag -/
  | head
  /-- the engines' progress counters and RESET operations -/
  | work
  | sup
  | sess
  /-- the 16,384 pool entries and the pool-full flag -/
  | pool
  | ops
  /-- the model's counters of operations, acceptances and free values -/
  | ids
  | crossings
  | cfg
  | st
  | sl
  | line
  | camp
  | yar
  | bus
  | reports
  | net
  | twin
  | slp
  /-- the journal and the head's lost-records flag -/
  | jrn
  | store
  | inbuf
  /-- what has left on the sessions' connections -/
  | left
  /-- final replies that wait for return frames -/
  | returns
  deriving DecidableEq, Repr

/-- The head without its engines' counters and its lost-records flag. -/
def headRest (h : Head) : Head := { h with engines := [], lostRecords := false }
/-- A part is the same in two states. -/
def samePart (s u : State) : Part → Prop
  | .fixed => u.fit = s.fit ∧ u.pending = s.pending
  | .clk => u.clk = s.clk
  | .head => headRest u.head = headRest s.head
  | .work => u.head.engines = s.head.engines
  | .sup => u.sup = s.sup
  | .sess => u.sess = s.sess
  | .pool => u.pool = s.pool ∧ u.poolFull = s.poolFull
  | .ops => u.ops = s.ops
  | .ids => u.nextOp = s.nextOp ∧ u.accNo = s.accNo ∧ u.free = s.free
  | .crossings => u.crossings = s.crossings
  | .cfg => u.cfg = s.cfg
  | .st => u.st = s.st
  | .sl => u.sl = s.sl
  | .line => u.line = s.line
  | .camp => u.camp = s.camp
  | .yar => u.yar = s.yar
  | .bus => u.bus = s.bus
  | .reports => u.reports = s.reports
  | .net => u.net = s.net
  | .twin => u.twin = s.twin
  | .slp => u.slp = s.slp
  | .jrn => u.jrn = s.jrn ∧ u.head.lostRecords = s.head.lostRecords
  | .store => u.store = s.store
  | .inbuf => u.inbuf = s.inbuf
  | .left => u.left = s.left
  | .returns => u.returns = s.returns
/-- Every part but those listed is the same. -/
def KeptBut (l : List Part) (s u : State) : Prop := ∀ p, p ∉ l → samePart s u p
/-- What a reply, a report and a record touch: the sessions, the supervisor line and the journal. -/
def told : List Part := [.sess, .sup, .jrn]
/-- A command completes with an effect: its next state is that effect, settled. -/
def Does (i : Instr) (s : State) (p : State → Prop) : Prop := ∃ u, exec i s = .next (settle s u) ∧ p u

/-! ## Lines that are taken -/

/-- The context in which the verb of a line runs. -/
def lineCtx (l : Line) (s : State) : Ctx := { port := l.port, tag := lineTag l, acc := s.accNo + 1, text := lineText l }
/-- A reply to a line of a session, as it stands in the session's output buffer (R98, R100). -/
def shown (s : State) (n : Nat) (l : Line) (r : Reply) : Reply :=
  { r with tag := lineTag l, checked := (s.ses n).rcheck && decide ((s.ses n).mode = .gen) }
/-- A line has been read: its instant, the interpreter's work, its entry in tag memory (R110, R117, R414). -/
def lineRead (n : Nat) (l : Line) (s : State) : State := noteTag l ((s.modSes n fun x => { x with lastLine := s.now }).worked .int)
/-- The state in which the verb of a line is tested: an authorisation it uses is gone (R353). -/
def lineSeen (n : Nat) (l : Line) (sp : Spec) (s : State) : State :=
  if sp.safety then useAuthority l (lineRead n l s) else lineRead n l s
/-- The state in which the verb of a line runs: it has its acceptance number and its command record (R426, R448). -/
def lineGo (n : Nat) (l : Line) (sp : Spec) (s : State) : State :=
  let s := lineSeen n l sp s
  let s := { s with accNo := s.accNo + 1 }
  if sp.logged then commandRecord l.port (lineTag l) (lineText l) s else s
/-- A session's line is read at once: the session is open and has room for it, its mode frames the line as it is, the interpreter can read no
line that waits before it, and it is no comment (R34, R87, R98, R107, R109). -/
def reached (n : Nat) (l : Line) (s : State) : Bool :=
  decide (l.port = .session n) && s.head.started && decide ((s.ses n).st = .opn) && canRead s n
    && s.inbuf.all (fun e => !canRead s e.ses) && (s.ses n).heldBack.isEmpty && decide (framedIn s l = l) && !ignoredLine l && !noRoom l n s
/-- A session's line is read at once and passes the tests of steps 1 to 4: it carries a new tag or none (R105, R107, R117). -/
def heard (n : Nat) (l : Line) (s : State) : Bool :=
  reached n l s && (earlyTests l s).isNone
    && (match lineTag l with
      | none => true
      | some t => ((s.ses n).tags.find? (·.tag = t)).isNone)
/-- A line's characters spell a command, and its addresses name one unit (R87, R91). -/
def worded (l : Line) (s : State) : Bool :=
  (match readText l with
    | .cmd _ => true
    | _ => false) && (mixedUnits s.head.unit l.chars).isNone
/-- A session's line that the interpreter begins to read asks for a slot that the event engine does not answer yet (R537). -/
def slotWaits (n : Nat) (l : Line) (sp : Spec) (s : State) : Bool := asksSlot l s.now sp (s.modSes n fun x => { x with lastLine := s.now })
/-- A line passes the tests of steps 5 to 13 for its verb form, and its slot is there at once: it is accepted (R105, R537). -/
def taken (n : Nat) (l : Line) (sp : Spec) (s : State) : Bool :=
  heard n l s && !slotWaits n l sp s && worded l s && !(sp.local_ && l.unit.isSome) && sp.form.isNone && sp.known && (farUnit l s).isNone
    && (lateTests l.port (hasAuthority l s.now (lineRead n l s)) sp (lineSeen n l sp s)).isNone
/-- The output buffer of a session has one more line: the reply to its line. -/
def answered (n : Nat) (l : Line) (s u : State) (r : Reply) : Prop := (u.ses n).out = (s.ses n).out ++ [shown s n l r]
/-- No other session is touched. -/
def othersKept (n : Nat) (s u : State) : Prop := ∀ k, k ≠ n → u.ses k = s.ses k

/-- A session's line starts a lasting operation: it is the one with the next id, under the line's tag, in the lowest free slot, whose entry
is a queued command's (R50, R51, R59). -/
def placed (n : Nat) (l : Line) (s g : State) (v : Verb) (p : Prog) : Prop :=
  (∃ o ∈ g.ops, o.id = s.nextOp ∧ o.port = l.port ∧ o.tag = lineTag l ∧ o.text = lineText l ∧ o.verb = v ∧ o.prog = p ∧ o.slot = freeSlot s)
    ∧ (∀ k, freeSlot s = some k → (g.ent k).kind = .command ∧ (g.ent k).session = n ∧ (g.ent k).tagged = (lineTag l).isSome)
/-- It starts, and its entry shows it executing (R58). -/
def begun (n : Nat) (l : Line) (s g : State) (v : Verb) (p : Prog) : Prop :=
  placed n l s g v p ∧ ∀ k, freeSlot s = some k → (g.ent k).st = .executing
/-- It starts, and its entry shows it waiting for admission (R58, R311). -/
def begunWaiting (n : Nat) (l : Line) (s g : State) (v : Verb) (p : Prog) : Prop :=
  placed n l s g v p ∧ ∀ k, freeSlot s = some k → (g.ent k).st = .waiting
/-- What a station's part of the frame buffer commands a load channel (R34). -/
def FrameBuf.load (b : FrameBuf) : Sw → LoadCmd
  | .la => b.la
  | .lb => b.lb
  | .fd => if b.fd then .on else .off
/-- Nothing of a station is touched but its part of the frame buffer. -/
def bufferedOnly (s u : State) : Prop := ∀ k, { u.stn k with buf := (s.stn k).buf } = s.stn k
/-- A line's reply waits for the return frames of slices (R102). -/
def awaitsFrames (l : Line) (s u : State) (r : Reply) (slices : List Nat) : Prop :=
  u.returns = s.returns ++ [{ ctx := lineCtx l s, reply := r, due := slices }]
/-- No RESUME waits for a station's axis (R154). -/
def noResume (s : State) (m : Nat) : Bool := s.ops.all fun o => match o.prog with
  | .resuming l _ => decide (m ∉ l)
  | _ => true
/-- The parts that reading and accepting a session's line touches: its session, the interpreter's counter, the journal, the model's counters. -/
def heardParts : List Part := [.sess, .work, .ids, .jrn]
/-- Several replies of one line stand last in its session's output buffer, in their order. -/
def answeredAll (n : Nat) (l : Line) (s u : State) (rs : List Reply) : Prop := (u.ses n).out = (s.ses n).out ++ rs.map (shown s n l)
/-- The last line of a session's output buffer is this reply to its line. -/
def lastAnswer (n : Nat) (l : Line) (s u : State) (r : Reply) : Prop := (u.ses n).out.getLast? = some (shown s n l r)
/-- The first replies of a door command: how many stations it keeps, and how many of those named it skips (R171, R202). -/
def doorReplies (named kept : List Nat) : List Reply :=
  colR "queued" [.n kept.length] :: (match (named.filter (· ∉ kept)).head? with
    | none => []
    | some f => [colR "skipped" [.n (named.filter (· ∉ kept)).length, .obj (.st f)]])
/-- A station waits for admission in a class, from now, under a session's command (R300, R311). -/
def asksFor (s : State) (cls : Nat) (opening : Bool) : Option Wait := some { cls, since := s.now, why := .command, opening }
/-- A session's motion has been put on the axis of a station: it is the line's operation, it waits for admission as P4, and nothing but the
station, the pool and the operations is touched (R131, R300). -/
def motionPut (m n : Nat) (l : Line) (s u : State) (v : Verb) (r : Reply) (p : Motion → Prop) : Prop :=
  begunWaiting n l s u v (.motion m) ∧ answered n l s u r ∧ (u.stn m).wait = asksFor s 4 false
    ∧ (∃ x, (u.ax m).motion = some x ∧ x.phase = .waiting ∧ x.op = some s.nextOp ∧ x.cls = 4 ∧ p x)
    ∧ (u.ax m).pos = (s.ax m).pos ∧ (∀ k, k ≠ m → u.stn k = s.stn k) ∧ othersKept n s u ∧ KeptBut (.st :: .pool :: .ops :: heardParts) s u
/-- No live operation has the id that comes next, or a later one (the model's own counter). -/
def idsFresh (s : State) : Prop := ∀ o ∈ s.ops, o.id < s.nextOp
/-- A line of the supervisor line is heard: no test of steps 1 to 4 refuses it, and its tag is new (R105, R112). -/
def heardSup (l : Line) (s : State) : Bool :=
  decide (l.port = .supervisor) && !ignoredLine l && (earlyTests l s).isNone && worded l s && l.unit.isNone && (match lineTag l with
    | none => true
    | some t => (s.sup.tags.find? (·.tag = t)).isNone)
/-- A line goes to an open session's buffer as it stands, whatever is in it (R107): it is no report, or the buffer holds none back. -/
def hears (s : State) (n : Nat) : Bool :=
  decide ((s.ses n).st ≠ .free) && (s.ses n).heldBack.isEmpty && decide ((s.ses n).lost = 0) && decide (outBytes (s.ses n).out ≤ 49152)
/-- A line of an operation's or report's own tag as a session's buffer holds it (R98). -/
def sentTo (s : State) (n : Nat) (tag : Option Nat) (r : Reply) : Reply :=
  { r with tag, checked := (s.ses n).rcheck && decide ((s.ses n).mode = .gen) }
/-- The policy value that BUDGET has put in force for a key of an object (R319). -/
def policyOf (s : State) : Obj → Key → Option Nat
  | .bus b, .PEAK => (s.busOf b).peak
  | .bus b, .GPEAK => (s.busOf b).gpeak
  | .bus b, .EMAX => (s.busOf b).emax
  | .sl p, .CAP => tget none s.yar.sliceCap p
  | .unit, .CAP => s.yar.unitCap
  | _, _ => none

/-- No JOURNAL command has lines left to send (R107, R457). -/
def noJournal (s : State) : Bool := s.ops.all fun o => match o.prog with
  | .journal .. => false
  | _ => true

/-- No SAVE SAFETY waits for the latches (R269). -/
def noSaving (s : State) : Bool := s.ops.all fun o => decide (o.prog ≠ .saveSafety true)

/-- A JOURNAL command of a session has sent the first m of its lines (R107, R457): the rest waits for room in the output buffer, or with the
last line its final reply has gone and it is over. -/
def listed (n : Nat) (l : Line) (s u : State) (v : Verb) (lines : List Reply) (m : Nat) (left : Prog) (final : Reply) : Prop :=
  m ≤ lines.length ∧ answeredAll n l s u (colR "reading" :: lines.take m ++ (if m = lines.length then [final] else []))
    ∧ (m = lines.length → ∀ q ∈ u.ops, q.id ≠ s.nextOp) ∧ (m < lines.length → begun n l s u v left ∧ 65536 ≤ outBytes (u.ses n).out)

/-! ## Frames of the field side -/

/-- The parts that a report of the field side touches: its slice's changed flag, who watches it, the journal, the waiting reports (R237). -/
def fieldTold : List Part := [.sl, .sess, .sup, .jrn, .reports]
/-- No other station is touched. -/
def otherStations (n : Nat) (s u : State) : Prop := ∀ m, m ≠ n → u.stn m = s.stn m
/-- No other switch of a station, and no other station, is touched. -/
def otherSwitches (n : Nat) (w : Sw) (s u : State) : Prop := otherStations n s u ∧ ∀ v, v ≠ w → u.sw n v = s.sw n v
/-- An axis that searches for no HOME: no input of its station settles it (R147). -/
def noSearch (s : State) (n : Nat) : Prop := ∀ m, (s.ax n).motion = some m → m.phase ≠ .toHome
/-- A switch that carries no motion: a trip of it stops no axis and faults no leaf (R130, R175). -/
def freeOfMotion (s : State) (n : Nat) (w : Sw) : Prop :=
  w = .fd → inMotion s n = false ∧ (isLeaf s n && leafMoves (s.stn n).leaf) = false
/-- The next conversion of a switch completes no lamp sample, and a trip by it stops no motion (R130, R215). -/
def betweenSamples (s : State) (n : Nat) (w : Sw) : Prop :=
  (s.slc (slotOf n)).powered = true ∧ freeOfMotion s n w ∧ (s.sw n w).acc.count < 19
/-- A conversion completes the lamp sample of a switch outside its turn-on ramp, its inrush window and an under-voltage, and finds no cause of a
trip (R215, R235). -/
def completesSample (s : State) (n : Nat) (w : Sw) (c : Conv) : Prop :=
  (s.slc (slotOf n)).powered = true ∧ (s.sw n w).acc.count = 19 ∧ (s.sw n w).ramp ≠ some true ∧ (s.sw n w).inrush = none
    ∧ (s.sw n w).uvOff = false ∧ (s.sw n w).uvWait = false ∧ tripCauses w s.now ((measure n w c s).sw n w) = []
/-- The current that a conversion finds, in 0.1 mA: none while the output is off, in CC mode the regulated current where the supply allows it,
else what the load takes, each held below the limiter's limit (R211, R215, R232). -/
def convNow (s : State) (n : Nat) (w : Sw) (c : Conv) : Nat :=
  let r := sense w (s.sw n w).high (s.sw n w).downNext c
  if !outputOn s n w then 0
  else min (if ccMode s n w ∧ ccTarget s n w ≤ r.i then ccTarget s n w else r.i) (limitNow w (s.sw n w))
/-- The lamp sample that such a conversion completes (R215). -/
def sampled (s : State) (n : Nat) (w : Sw) (c : Conv) : Acc :=
  let a := (s.sw n w).acc
  let on := outputOn s n w
  let r := sense w (s.sw n w).high (s.sw n w).downNext c
  let i := convNow s n w c
  { count := 20, sum := a.sum + i, onCount := a.onCount + on.toNat, onSum := a.onSum + i, uSum := a.uSum + c.u
    flagged := a.flagged || (on && r.flagged), ramped := a.ramped || (s.sw n w).rampEnd.any fun t => decide (s.now < t + 50), rushed := a.rushed, uv := a.uv
    limited := a.limited || (on && decide (steadyLimit w ≤ r.i)) }
/-- No axis runs under a coupling (R160). -/
def noneCoupled (s : State) : Bool := s.st.all fun e => (e.2.axis.motion.bind (·.couple)).isNone
/-- A lit sample takes part in the verdict of a proved channel (R248, R251). -/
def litJudged (s : State) (n : Nat) (w : Sw) (a : Acc) : Prop :=
  fieldProved s n w = true ∧ litNow s n w = true ∧ a.ramped = false ∧ a.flagged = false ∧ a.uv = false
    ∧ (sampleMeas s n w a).onPhase = true ∧ (s.sw n w).tripped = false
/-- An axis stands to be re-planned by no turn of its leaf (R175). -/
def noTurn (s : State) (n : Nat) : Prop := ∀ m, (s.ax n).motion = some m → m.turn = none
/-- No other station is touched but the one that drives the leaf's step (R181). -/
def otherButStep (n : Nat) (s u : State) : Prop := ∀ m, m ≠ n → stepStation s n ≠ some m → u.stn m = s.stn m
/-- A frame arrives and is delivered: the path's link is up, its FCS is right, and it is no second copy within the discard window (R362). -/
def arrives (s : State) (a : Arrival) : Bool :=
  (s.path a.path).link && s.head.started && !s.engDown .net && !a.fcs && (match a.trailer with
    | none => true
    | some (_, q) => !s.net.window.any fun c => decide (c.node = a.node ∧ c.seq = q ∧ s.now < c.at_ + 400000))
/-- No Announce interval has begun since the PTP settings in force were taken (R369). -/
def ptpSteady (s : State) : Bool :=
  s.net.ptp.keys.isSome && decide (s.now < s.net.ptp.keysAt + pow2us s.ptp.annInt) && !s.net.ptp.reselect
/-- A leaf's motorised step, where it has one, is referenced: its open needs no search (R480). -/
def stepReferenced (s : State) (n : Nat) : Bool :=
  match stepStation s n with
  | none => true
  | some m => (s.ax m).referenced
/-- A motion's command has ended (R143). -/
def commandOver (m : Motion) (u : State) : Prop := ∀ id, m.op = some id → ∀ q ∈ u.ops, q.id ≠ id
/-- The parts that the end of a command touches: replies, tag memories, slots, operations (R101, R117). -/
def overParts : List Part := [.sess, .sup, .pool, .work, .ops]
/-- A station asks for a close as P1 for a reason (R300, R310). -/
def asksClose (s : State) (why : Why) : Option Wait := some { cls := 1, since := s.now, why, opening := false }
/-- The type codes of the SAFEOUT entries that name a type and a destination (R350). -/
def safeOuts (s : State) : List Nat :=
  (List.range 16).filterMap fun k => match s.key (.safeout k) .TYPE, s.key (.safeout k) .TO with
    | .w t, .u _ => some (smType t)
    | .w t, .w _ => some (smType t)
    | _, _ => none

/-- The bank that a failed SAVE SAFETY has written is invalid, the other is as it was, and it is the loaded one where it is valid (R346). -/
def bankUnsaved (w : BankWrite) (s u : State) : Prop :=
  (if w.bankB then u.store.bankB.valid = false ∧ u.store.bankA = s.store.bankA else u.store.bankA.valid = false ∧ u.store.bankB = s.store.bankB)
    ∧ u.store.loaded = (if (if w.bankB then s.store.bankA else s.store.bankB).valid then some (!w.bankB) else none)

/-! ## What follows a command -/

/-- Nothing follows a command but the pool's record: no reservation, no sleep, no suspect station, no step that searches its reference, no
coupled axis whose master has moved, no WATCH, no held session. -/
def calm (s u : State) : Bool :=
  s.yar.charges.all (·.res.isNone) && u.slp.commit.isNone && u.st.all (fun e => !e.2.suspect && !e.2.stepRefs)
    && u.st.all (fun e => !masterMoved s u e.1) && s.ops.all (fun o => match o.prog with | .watch .. => false | _ => true) && u.sess.all (fun e => decide (e.2.st ≠ .held))

end Sys2Proof.Machine
end

