-- ==== Sys2Proof/Certificates/Slice0/Obligations.lean ====
section
/-! DEFINITION. The statements about the unit: each is a proposition for the provers. -/

open Sys2Proof Sys2Proof.Machine

/-! ## The whole machine -/

/-- A step takes the command at the front of the queue and runs it with the queue's rest (the queue is the model's own). -/
def Obligations.StepRunsFront : Prop :=
  ∀ (c : Instr) (rest : List Instr) (s : State), s.pending = c :: rest →
    step s = exec c { s with pending := rest }

/-- On an empty queue a step lets one microsecond pass: the model's clock advances by 1 us and TIME by 1 us with the servo's correction, and
nothing but crossings and the head's downlink frames on their grid can arise from it (DESIGN CHOICE, log entry 1). -/
def Obligations.EmptyQueueLetsTimePass : Prop :=
  ∀ s : State, s.pending = [] → ∃ t, step s = .next t ∧ t.now = s.now + 1 ∧ t.clk.timeFs = s.clk.timeFs + 1000000000 + s.clk.ppb
    ∧ t.clk.ppb = s.clk.ppb ∧ KeptBut [.clk, .crossings, .work, .sl] s t

/-- Every command completes: it answers a next state, changes neither the modules the unit is built of, nor the queue, nor the model's
clock, and keeps the safe state latched, but for the end of the lane self-test that a unit reset, power or wake brings (R22). -/
def Obligations.EveryCommandCompletes : Prop :=
  ∀ (i : Instr) (s : State), ∃ t, exec i s = .next t ∧ t.fit = s.fit ∧ t.pending = s.pending ∧ t.now = s.now
    ∧ ((∀ x p e, i ≠ .laneSelfTestEnd x p e) → safeKept s t)

/-- Every step keeps the safe state latched: only a unit reset, power or wake ends it, with the lane self-test that follows (R22). -/
def Obligations.SafeStateStaysLatched : Prop :=
  ∀ s t : State, step s = .next t → (∀ x p e, s.pending.head? ≠ some (.laneSelfTestEnd x p e)) → safeKept s t

/-- Every step keeps the pool-full flag set while the session block has no free slot (R56). -/
def Obligations.PoolFlagKeptByEveryStep : Prop := ∀ s t : State, poolFlagged s → step s = .next t → poolFlagged t

/-- Every step keeps the ids of the live operations below the counter that gives the next one (the model's own counter). -/
def Obligations.OperationIdsFresh : Prop := ∀ s t : State, idsFresh s → step s = .next t → idsFresh t

/-- After reset LINE is 0 and LOST and nothing gives certainty (R84), no engine is being reset and every engine's counter is 0 (R14), no
lane drives, no element is closed, every permission is off; the pool-full flag is in order, no slot is in use, no operation and no command
waits. -/
def Obligations.ResetValues : Prop :=
  (State.reset.line.st = .lost ∧ State.reset.line.um = 0 ∧ (∀ e, (State.reset.eng e).ctr = 0 ∧ State.reset.engDown e = false)
    ∧ (∀ n, elementsClosed State.reset n = false ∧ fdConducts State.reset n = false) ∧ (∀ x, (State.reset.lane x).driving = false
      ∧ (State.reset.lane x).permitted = 0 ∧ (State.reset.lane x).loop = false)
    ∧ (∀ n w, (State.reset.sw n w).on = false ∧ (State.reset.sw n w).heat = 1000000000000) ∧ State.reset.sup.st = .awake) ∧
  (poolFlagged State.reset ∧ usedSlots State.reset = 0 ∧ State.reset.pending = [] ∧ idsFresh State.reset)

/-- What follows a command, when nothing waits for it, is the pool's record alone (R56): the next state is the effect with that record, the
modules, queue and clock as before, and the safe latch kept (R22). -/
def Obligations.SettleOfACalmUnit : Prop :=
  ∀ s u : State, calm s u = true → settle s u = sealState false s (poolRecord u)

/-- What follows a command, outside a sleep's commit window, with no held session, no step that searches its reference and no coupled axis
whose master has moved, touches no station but its suspect mark, no slice, no load, no configuration, no store and no timebase: only reports, records, released reservations and the marks of
suspect stations and WATCH operations. -/
def Obligations.SettleKeeps : Prop :=
  ∀ s u : State, u.slp.commit = none → (∀ e ∈ u.sess, e.2.st ≠ .held) → (∀ e ∈ u.st, e.2.stepRefs = false) →
    (∀ e ∈ u.st, masterMoved s u e.1 = false) →
    KeptBut [.fixed, .clk, .work, .sup, .sess, .pool, .ops, .st, .camp, .yar, .net, .jrn] u (settle s u)
      ∧ (settle s u).pool = u.pool ∧ (∀ n, { (settle s u).stn n with suspect := (u.stn n).suspect } = u.stn n)
      ∧ { (settle s u).camp with safe := u.camp.safe } = u.camp ∧ (settle s u).clk.timeFs = u.clk.timeFs
      ∧ { (settle s u).yar with seq := u.yar.seq } = u.yar

/-! ## Lines -/

/-- A line that fails a test of steps 1 to 3 is answered with that error under its tag, runs nothing and enters no tag memory (R105, R120):
every line command, in any session that can read it. -/
def Obligations.EarlyErrorsAnswered : Prop :=
  ∀ (i : Instr) (l : Line) (n : Nat) (s : State) (e : Err), lineOf i = some l → i ≠ .commentLine l → reached n l s = true →
    earlyTests l s = some e →
    Does i s fun u => answered n l s u (errR e) ∧ u.ses n = { s.ses n with lastLine := s.now, out := (u.ses n).out } ∧ KeptBut [.sess, .work] s u ∧ othersKept n s u

/-- A line whose tag is in tag memory with another text is E21, and one with the same text is answered again with `dup` and runs nothing
(R118, R119). A line that the interpreter cannot read yet, or before which another line is to be read, waits, framed by the mode in force on
its arrival, behind the lines that wait already, and does nothing but count as the session's last line; one that finds no room in the 4 KiB of
its session's input buffer waits outside it (R34, R98, R107, R109). One that needs a slot while the event engine gets no core time waits at the
front, and no line of any session is read before it (R537). -/
def Obligations.TagsAndUnreadLines : Prop :=
  (∀ (i : Instr) (l : Line) (n t : Nat) (s : State) (e : TagEntry), lineOf i = some l → i ≠ .commentLine l → reached n l s = true →
    earlyTests l s = none → lineTag l = some t → (s.ses n).tags.find? (·.tag = t) = some e →
    Does i s fun u => KeptBut [.sess, .work] s u ∧ (u.ses n).tags = (s.ses n).tags ∧ othersKept n s u
      ∧ u.ses n = { s.ses n with lastLine := s.now, out := (u.ses n).out }
      ∧ (sameText e.text (lineText l) = false → answered n l s u (errR { code := 21 }))
      ∧ (sameText e.text (lineText l) = true → e.reply = none → answered n l s u { colR "dup" with tag := some t })
      ∧ (∀ r, sameText e.text (lineText l) = true → e.reply = some r → r.pre ≠ .tilde → ∃ q, (u.ses n).out = (s.ses n).out ++ [q] ∧ q.word = r.word ∧ q.fields = r.fields
          ∧ q.pre = r.pre ∧ q.dup = true)) ∧
  (∀ (i : Instr) (l : Line) (n : Nat) (s : State), lineOf i = some l → i ≠ .commentLine l → l.port = .session n → n ≠ 0 →
    s.head.started = true → (s.ses n).st = .opn → noRoom l n s = false → ignoredLine (framedIn s l) = false →
    (canRead s n = false ∨ ∃ e ∈ s.inbuf, canRead s e.ses = true) →
    Does i s fun u => u.inbuf = s.inbuf ++ [{ ses := n, line := framedIn s l, cmd := i, at_ := s.now }] ∧ u.ses n = { s.ses n with lastLine := s.now } ∧ KeptBut [.sess, .inbuf] s u ∧ othersKept n s u) ∧
  (∀ (i : Instr) (l : Line) (n : Nat) (s : State), lineOf i = some l → i ≠ .commentLine l → l.port = .session n →
    s.head.started = true → (s.ses n).st = .opn → noRoom l n s = true →
    Does i s fun u => u.inbuf = s.inbuf ++ [{ ses := n, line := l, cmd := i, at_ := s.now, outside := true }] ∧ KeptBut [.inbuf] s u) ∧
  (∀ (i : Instr) (l : Line) (n : Nat) (s : State), lineOf i = some l → i ≠ .commentLine l → reached n l s = true →
    slotWaits n l (lineSpec s l.port l i) s = true →
    Does i s fun u => u.inbuf = { ses := n, line := l, cmd := i, at_ := s.now, asked := true } :: s.inbuf ∧ (∀ k, canRead u k = false)
      ∧ u.ses n = { s.ses n with lastLine := s.now } ∧ KeptBut [.sess, .inbuf] s u ∧ othersKept n s u)

/-- A heard line that no verb form fits is refused, whatever unit it names: with E01 where its characters or operands break every form, and no
trace in tag memory, else with E02 (R88, R105, R120). An empty line or a comment draws no reply and enters no tag memory; the session has received a line (R87, R110). -/
def Obligations.UnknownAndCommentLines : Prop :=
  (∀ (l : Line) (f : Option String) (n : Nat) (s : State), heard n l s = true →
    Does (.unknownVerb l f) s fun u => othersKept n s u ∧ KeptBut [.sess, .work] s u
      ∧ (formError l (unknownSpec f) s = none → answered n l s u (errR { code := 2 }))
      ∧ (∀ w, formError l (unknownSpec f) s = some w → w ≠ "" → answered n l s u (errR { code := 1, detail := .word w }) ∧ ∀ e ∈ (u.ses n).tags, some e.tag ≠ lineTag l)) ∧
  (∀ (l : Line) (n : Nat) (s : State), l.port = .session n → s.head.started = true → (s.ses n).st = .opn →
    Does (.commentLine l) s fun u => u.ses n = { s.ses n with lastLine := s.now } ∧ KeptBut [.sess] s u ∧ othersKept n s u)

/-- MODE answers under the mode that was in force and then changes the session's mode; RCHECK stays where MODE GEN does not give it (R98).
Nothing else changes but the session's own line and tag, and no command record is written. -/
def Obligations.ModeVerbs : Prop :=
  (∀ (l : Line) (n : Nat) (s : State), taken n l (modeSpec .typed none) s = true →
    Does (.modeTyped l) s fun u => (u.ses n).mode = .typed ∧ (u.ses n).rcheck = (s.ses n).rcheck ∧ answered n l s u (eqR "mode" [.w "typed"])
      ∧ othersKept n s u ∧ KeptBut [.sess, .work, .ids] s u) ∧
  (∀ (l : Line) (r : Option Bool) (n : Nat) (s : State), taken n l (modeSpec .gen r) s = true →
    Does (.modeGen l r) s fun u => (u.ses n).mode = .gen ∧ (u.ses n).rcheck = r.getD (s.ses n).rcheck ∧ answered n l s u (eqR "mode" [.w "gen"])
      ∧ othersKept n s u ∧ KeptBut [.sess, .work, .ids] s u)

/-- LOGIN SAFETY gives session 0, and no other, safety authority while KEY is active, is E31 on session 0 without KEY and E30 on every other
session, and LOGIN OFF takes the authority (R114). -/
def Obligations.LoginGivesAuthority : Prop :=
  (∀ (l : Line) (n : Nat) (s : State), taken n l (loginSafetySpec l.port) s = true →
    n = 0 ∧ s.camp.key.active = true ∧ Does (.loginSafety l) s fun u => (u.ses 0).auth = true ∧ answered 0 l s u (eqR "login" [.w "safety"])
      ∧ othersKept 0 s u ∧ KeptBut [.sess, .work, .ids, .jrn] s u) ∧
  (∀ (l : Line) (n : Nat) (s : State), heard n l s = true → worded l s = true → l.unit = none → (n ≠ 0 ∨ s.camp.key.active = false) →
    Does (.loginSafety l) s fun u => answered n l s u (errR { code := if n = 0 then 31 else 30 }) ∧ (u.ses n).auth = (s.ses n).auth
      ∧ othersKept n s u ∧ KeptBut [.sess, .work] s u) ∧
  (∀ (l : Line) (n : Nat) (s : State), taken n l loginOffSpec s = true →
    Does (.loginOff l) s fun u => (u.ses n).auth = false ∧ answered n l s u (eqR "login" [.w "off"]) ∧ othersKept n s u
      ∧ KeptBut [.sess, .work, .ids, .jrn] s u)

/-- Characters of a typed session (R86, R99): BS and DEL take the last one, NAK the line, an LF after CR is nothing, a printable one is kept and
echoed, but for those beyond the 253rd. CR, or an LF that follows none, ends the line, which is then read as it stands after editing. While 16
lines of the console wait, a character is lost, and so is the line it belongs to (R109). -/
def Obligations.TypedEditing : Prop :=
  (∀ (n : Fin 64) (b : Byte) (s : State), s.head.started = true → (s.ses n).st = .opn → (s.ses n).mode = .typed →
    (b = 0x0D#8 ∨ b = 0x0A#8 ∧ (s.ses n).afterCr = false) → (s.ses n).typedLost = false → consoleFull s n = false →
    ∃ t, exec (.typedModeEditing n b) s = .next (settle s (handleLine (lineCommand (typedLine n (s.ses n))) (typedLine n (s.ses n))
        (lineSpec t (.session n) (typedLine n (s.ses n)) (lineCommand (typedLine n (s.ses n)))) t))
      ∧ (t.ses n).typed = [] ∧ (t.ses n).typedOver = false ∧ (t.ses n).out = (s.ses n).out ∧ othersKept n s t ∧ KeptBut [.sess] s t) ∧
  (∀ (n : Fin 64) (b : Byte) (s : State), s.head.started = true → (s.ses n).st = .opn → (s.ses n).mode = .typed →
    b ≠ 0x0D#8 → (b = 0x0A#8 → (s.ses n).afterCr = true) → consoleFull s n = false →
    Does (.typedModeEditing n b) s fun u => othersKept n s u ∧ KeptBut [.sess] s u ∧ (u.ses n).out = (s.ses n).out
      ∧ ((b = 0x08#8 ∨ b = 0x7F#8) → (u.ses n).typed = (s.ses n).typed.dropLast)
      ∧ (b = 0x15#8 → (u.ses n).typed = [])
      ∧ (b = 0x0A#8 → (u.ses n).typed = (s.ses n).typed ∧ (u.ses n).echo = (s.ses n).echo)
      ∧ (0x20#8 ≤ b → b ≠ 0x7F#8 → (s.ses n).typed.length < 253 → (u.ses n).typed = (s.ses n).typed ++ [b] ∧ (u.ses n).echo = (s.ses n).echo ++ [b])
      ∧ (0x20#8 ≤ b → b ≠ 0x7F#8 → 253 ≤ (s.ses n).typed.length → (u.ses n).typed = (s.ses n).typed ∧ (u.ses n).echo = (s.ses n).echo)) ∧
  (∀ (n : Fin 64) (b : Byte) (s : State), s.head.started = true → (s.ses n).st = .opn → (s.ses n).mode = .typed →
    b ≠ 0x0D#8 → b ≠ 0x0A#8 → consoleFull s n = true →
    Does (.typedModeEditing n b) s fun u => othersKept n s u ∧ KeptBut [.sess] s u ∧ (u.ses n).out = (s.ses n).out
      ∧ (u.ses n).typed = (s.ses n).typed ∧ (u.ses n).echo = (s.ses n).echo ∧ (u.ses n).typedLost = true)

/-- Connections: a new one takes the lowest free number from 1 to 63 in generated mode (R108); one that closes holds its session for HOLD
(R111), as does one that has sent no line for IDLE (R110); a hold that expires frees the number and its lines (R111); what leaves a buffer
leaves from its front (R107). LOGIN RESUME joins the connection to the held session whose token it gives: that session is open again, and the
number the connection had is free and holds nothing (R111; log entry 71). LOGIN END frees the session's number; its waiting lines and relays
are gone (R111, R376). -/
def Obligations.ConnectionsAndHolds : Prop :=
  (∀ s : State, netUp s = true → ∀ n, 0 < n → n < 64 → (s.ses n).st = .free → (∀ k, 0 < k → k < n → (s.ses k).st ≠ .free) →
    Does .sessionOpen s fun u => (u.ses n).st = .opn ∧ (u.ses n).mode = .gen ∧ (u.ses n).rcheck = false ∧ othersKept n s u) ∧
  (∀ (n : Fin 64) (s : State), n ≠ 0 → (s.ses n).st = .opn → 0 < (s.ses n).hold →
    Does (.connectionClosed n) s fun u => (u.ses n).st = .held ∧ (u.ses n).holdUntil = s.now + 1000000 * (s.ses n).hold
      ∧ (u.ses n).tags = (s.ses n).tags ∧ othersKept n s u ∧ KeptBut [.sess] s u) ∧
  (∀ (n : Fin 64) (s : State), n ≠ 0 → (s.ses n).st = .opn → 0 < (s.ses n).hold → 0 < (s.ses n).idle →
    (s.ses n).lastLine + 1000000 * (s.ses n).idle ≤ s.now →
    Does (.idleTimeout n) s fun u => (u.ses n).st = .held ∧ (u.ses n).holdUntil = s.now + 1000000 * (s.ses n).hold ∧ othersKept n s u
      ∧ KeptBut [.sess] s u) ∧
  (∀ (n : Fin 64) (s : State), (s.ses n).st = .held → (s.ses n).holdUntil ≤ s.now →
    Does (.holdExpiry n) s fun u => (u.ses n).st = .free ∧ (u.ses n).tags = [] ∧ (∀ e ∈ u.inbuf, e.ses ≠ n)
      ∧ (∀ r ∈ u.returns, r.ctx.port ≠ .session n)) ∧
  (∀ (n : Fin 64) (k : Nat) (s : State), (s.ses n).st = .opn → (s.ses n).lost = 0 → (∀ e ∈ s.inbuf, e.ses ≠ n ∧ canRead s e.ses = false) → noJournal s = true →
    Does (.outputBufferDrained n k) s fun u => (u.ses n).out = (s.ses n).out.drop k ∧ u.left = s.left ++ ((s.ses n).out.take k).map (fun r => (n.val, r))
      ∧ othersKept n s u ∧ KeptBut [.sess, .left] s u) ∧
  (∀ (l : Line) (m n : Nat) (token : W32) (s : State), taken m l (loginResumeSpec l.port n token) s = true →
    m ≠ 0 ∧ m ≠ n ∧ (s.ses n).st = .held ∧ (s.ses n).token = token ∧
    Does (.loginResume l n token) s fun u => (u.ses n).st = .opn ∧ (u.ses n).holdUntil = 0 ∧ u.ses m = {} ∧ (∀ e ∈ u.inbuf, e.ses ≠ m)) ∧
  (∀ (l : Line) (n : Nat) (s : State), taken n l (loginEndSpec l.port) s = true →
    n ≠ 0 ∧ Does (.loginEnd l) s fun u => (u.ses n).st = .free ∧ (u.ses n).tags = [] ∧ (u.ses n).token = 0 ∧ (∀ e ∈ u.inbuf, e.ses ≠ n)
      ∧ (∀ r ∈ u.net.relays, r.near ≠ n))

/-- GET, SHOW, ASK and LIVE? answer in one line and change nothing but their session's line and tag: SHOW of a slice acknowledges its CRC error
bit, SHOW of a buffer draws what its unused part holds (R39, R497, R507, R508), and LIVE? gives every engine's counter and pending work (R413;
what counts as pending is log entry 12). -/
def Obligations.QuestionsOnlyAnswer : Prop :=
  (∀ (l : Line) (n : Nat) (s : State), taken n l askUnitsSpec s = true →
    Does (.askUnits l) s fun u => answered n l s u (eqR "units" [.hex "cap" (capBits s)]) ∧ othersKept n s u ∧ KeptBut [.sess, .work, .ids] s u) ∧
  (∀ (l : Line) (n : Nat) (s : State), taken n l askVersionSpec s = true →
    Does (.askVersion l) s fun u => answered n l s u (eqR "version" [.kw "sw" versionText, .kw "serial" (serialText s.head.serial)])
      ∧ othersKept n s u ∧ KeptBut [.sess, .work, .ids] s u) ∧
  (∀ (l : Line) (o : Obj) (ks : List Key) (n : Nat) (s : State), taken n l (getSpec l.port o ks) s = true →
    Does (.get l o ks) s fun u => (∃ f, answered n l s u (eqR "get" f)) ∧ othersKept n s u ∧ KeptBut [.sess, .work, .ids, .jrn] s u) ∧
  (∀ (l : Line) (o : ShowObj) (n : Nat) (s : State), taken n l (showSpec l.port o) s = true →
    Does (.show l o) s fun u => (∃ f, answered n l s u (eqR "show" f)) ∧ othersKept n s u ∧ KeptBut [.sess, .work, .ids, .sl] s u
      ∧ (∀ p, o ≠ .slice p → u.slc p = s.slc p) ∧ (∀ p, o = .slice p → u.slc p = { s.slc p with crcSeen := false })) ∧
  (∀ (l : Line) (n : Nat) (s : State), taken n l (liveSpec l.port) s = true →
    Does (.live l) s fun u => othersKept n s u ∧ KeptBut [.sess, .work, .ids] s u
      ∧ ∃ t, t = lineGo n l (liveSpec l.port) s ∧ answered n l s u (eqR "live" ([Engine.int, .net, .evt, .io, .mot, .lamp, .bud, .jrn].map fun e =>
        .kw (liveName e) (if t.engDown e then "reset" else hex32 (t.eng e).ctr ++ "/" ++ dec (pendingWork t e)))))

/-! ## Configuration, budgets, WATCH -/

/-- SET of one key of one object, outside staging. A safety key goes into the candidate and leaves what is in force alone (R345); another
configuration key comes into force and waits for its write to a linked slice (R293, R497); SKEY goes into the candidate. -/
def Obligations.SetOneKey : Prop :=
  (∀ (l : Line) (o : Obj) (k : Key) (v : Val) (w : KVal) (n : Nat) (s : State), taken n l (setSpecIn s l.port (.obj o) [(k, v)]) s = true →
    (s.ses n).staging = none → (∀ c, o ≠ .cam c) → k ≠ .SKEY → asgVal s (o, k, v) = some w → actionKey o k = false → isSafety s o k = true →
    Does (.set l (.obj o) [(k, v)]) s fun u => u.cfg = { s.cfg with cand := some (putKey (candOf s) o k w) }
      ∧ answered n l s u (eqR "set" [.n 1]) ∧ othersKept n s u ∧ KeptBut (.cfg :: .camp :: heardParts) s u) ∧
  (∀ (l : Line) (o : Obj) (k : Key) (v : Val) (w : KVal) (n : Nat) (s : State), taken n l (setSpecIn s l.port (.obj o) [(k, v)]) s = true →
    (s.ses n).staging = none → (∀ c, o ≠ .cam c) → k ≠ .ROLE → asgVal s (o, k, v) = some w → actionKey o k = false →
    isSafety s o k = false → clipOf s o k (kInt w) = none →
    Does (.set l (.obj o) [(k, v)]) s fun u => u.cfg = { s.cfg with plain := putKey s.cfg.plain o k w }
      ∧ answered n l s u (eqR "set" [.n 1]) ∧ othersKept n s u ∧ KeptBut (.cfg :: .sl :: .yar :: .net :: heardParts) s u
      ∧ (∀ m, (o = .st m ∨ ∃ c, o = .ch m c) → u.net = s.net ∧ ((s.slc (slotOf m)).link = true →
          (u.slc (slotOf m)).writes = (s.slc (slotOf m)).writes ++ [((o, k), fieldForm s o k w)]))) ∧
  (∀ (l : Line) (x n : Nat) (s : State), taken n l (setSpecIn s l.port (.obj .unit) [(.SKEY, .hexkey x)]) s = true → (s.ses n).staging = none →
    Does (.set l (.obj .unit) [(.SKEY, .hexkey x)]) s fun u => u.cfg = { s.cfg with candSkey := some x }
      ∧ answered n l s u (eqR "set" [.n 1]) ∧ othersKept n s u ∧ KeptBut (.cfg :: .camp :: heardParts) s u)

/-- SET of a policy key of a station above its bound stores the bound and warns first with E71, and the clip stands (R104, R192). While
staging is open, a key outside the safety configuration is staged and nothing comes into force (R476). -/
def Obligations.SetClippedOrStaged : Prop :=
  (∀ (l : Line) (m : Nat) (k : Key) (v : Val) (w : KVal) (x : Int) (n : Nat) (s : State),
    taken n l (setSpecIn s l.port (.obj (.st m)) [(k, v)]) s = true → (s.ses n).staging = none → k ≠ .ROLE → asgVal s (.st m, k, v) = some w →
    isSafety s (.st m) k = false → clipOf s (.st m) k (kInt w) = some x →
    x < kInt w ∧ Does (.set l (.obj (.st m)) [(k, v)]) s fun u => u.cfg = { s.cfg with plain := putKey s.cfg.plain (.st m) k (.i x) }
      ∧ answeredAll n l s u [e71 k (kInt w) x, eqR "set" [.n 1]] ∧ (Obj.st m, k) ∈ u.yar.clips ∧ othersKept n s u
      ∧ KeptBut (.cfg :: .sl :: .yar :: .st :: heardParts) s u) ∧
  (∀ (l : Line) (o : Obj) (k : Key) (v : Val) (w : KVal) (q : List (Sum ((Obj × Key) × KVal) Err)) (n : Nat) (s : State),
    taken n l (setSpecIn s l.port (.obj o) [(k, v)]) s = true → (s.ses n).staging = some q → (∀ c, o ≠ .cam c) → asgVal s (o, k, v) = some w →
    actionKey o k = false → isSafety s o k = false → (s.ses n).stagedBytes + (lineText l).length ≤ 524220 →
    Does (.set l (.obj o) [(k, v)]) s fun u => (u.ses n).staging = some (q ++ [.inl ((o, k), w)])
      ∧ (u.ses n).stagedLines = (s.ses n).stagedLines + 1 ∧ answered n l s u (eqR "set" [.w "staged"]) ∧ othersKept n s u
      ∧ KeptBut heardParts s u)

/-- Action keys act at once (R498): LINE POS sets LINE in whole mm and makes it PROVISIONAL (R82), TIME VALUE sets TIME, SERVICE=ON
acknowledges an insertion and brings the slice's stations into service once start-up is over (R439, R440), COUNT sets an input's counter. -/
def Obligations.ActionKeys : Prop :=
  (∀ (l : Line) (v : Lit) (x : Int) (n : Nat) (s : State), taken n l (setSpecIn s l.port (.obj .line) (posKvs v)) s = true →
    asgVal s (.line, .POS, .num v) = some (.i x) →
    Does (.setLinePos l v) s fun u => u.line.um = 1000 * x ∧ u.line.half = 0 ∧ u.line.st = .provisional
      ∧ lastAnswer n l s u (eqR "set" [.n 1]) ∧ KeptBut (.line :: .pool :: .crossings :: .sup :: .st :: .ops :: heardParts) s u
      ∧ (slavesOf .line s = [] → u.st = s.st)) ∧
  (∀ (l : Line) (v : Lit) (x : Int) (n : Nat) (s : State), taken n l (setSpecIn s l.port (.obj .time) [(.VALUE, .num v)]) s = true →
    asgVal s (.time, .VALUE, .num v) = some (.i x) →
    Does (.setTimeValue l v) s fun u => u.time = x ∧ u.now = s.now ∧ answered n l s u (eqR "set" [.n 1]) ∧ othersKept n s u
      ∧ KeptBut (.clk :: .crossings :: heardParts) s u) ∧
  (∀ (l : Line) (p n : Nat) (s : State), taken n l (setSpecIn s l.port (.obj (.sl p)) [(.SERVICE, .word "ON")]) s = true →
    Does (.setService l p) s fun u => (u.slc p).newIns = false ∧ (u.slc p).service = true
      ∧ (s.head.bit31 = false → ∀ k ∈ stationsOf p, (u.stn k).outOfService = false)
      ∧ (s.head.bit31 = true → answered n l s u (eqR "set" [.n 1]) ∧ KeptBut (.sl :: heardParts) s u)) ∧
  (∀ (l : Line) (m : Nat) (c : Chan) (v : Lit) (x : Int) (n : Nat) (s : State),
    taken n l (setSpecIn s l.port (.obj (.ch m c)) [(.COUNT, .num v)]) s = true → asgVal s (.ch m c, .COUNT, .num v) = some (.i x) →
    Does (.setCount l m c v) s fun u => ((u.stn m).inp (chCode c - 4)).count = BitVec.ofInt 32 x ∧ (∀ k, k ≠ m → u.stn k = s.stn k)
      ∧ answered n l s u (eqR "set" [.n 1]) ∧ othersKept n s u ∧ KeptBut (.st :: heardParts) s u)

/-- WATCH starts an operation that reports its objects, and says how many they are (R106, R495). -/
def Obligations.WatchBegins : Prop :=
  ∀ (l : Line) (objs : List ObjSel) (rate : Option Lit) (r : Int) (n : Nat) (s : State), taken n l (watchSpec objs rate) s = true →
    watchRate rate = some r →
    Does (.watch l objs rate) s fun u => begun n l s u (.watch objs rate) (.watch (watchObjs s objs) (1000 * r.toNat) [])
      ∧ answered n l s u (colR "watching" [.n (watchObjs s objs).length]) ∧ othersKept n s u ∧ KeptBut (.pool :: .ops :: heardParts) s u

/-- BUDGET puts a policy value in force, lowered to the key it may not exceed, of which E71 warns (R319, R104). BUDGET CLEAR removes every
policy value and says how many there were (R319). -/
def Obligations.BudgetPolicies : Prop :=
  (∀ (l : Line) (o : Obj) (k : Key) (x : Lit) (lo bound v : Int) (n : Nat) (s : State), taken n l (budgetSpec o [(k, x)]) s = true →
    budgetVal s o k x = some (lo, bound, some v) →
    Does (.budget l o [(k, x)]) s fun u => policyOf u o k = some (min v bound).toNat ∧ othersKept n s u
      ∧ KeptBut (.yar :: .bus :: heardParts) s u
      ∧ (v ≤ bound → answered n l s u (eqR "budget" [.n 1]))
      ∧ (bound < v → answeredAll n l s u [e71 k v bound, eqR "budget" [.n 1]] ∧ (o, k) ∈ u.yar.clips)) ∧
  (∀ (l : Line) (n : Nat) (s : State), taken n l budgetClearSpec s = true →
    Does (.budgetClear l) s fun u => (∀ o k, policyOf u o k = none) ∧ answered n l s u (eqR "budget" [.w "clear", .n (policyCount s)])
      ∧ othersKept n s u ∧ KeptBut (.yar :: .bus :: heardParts) s u)

/-! ## Doors, loads, motions -/

/-- OPEN of leaves that stand closed or held: every kept leaf waits for admission as P2 under the command, its reclose count is 0, the
command is queued, and no other station changes (R171, R175, R189, R300). CLOSE of leaves that stand open or held: every kept leaf waits for
admission as P1 under the command (R171, R175, R300). -/
def Obligations.DoorsAskAdmission : Prop :=
  (∀ (l : Line) (sts : StSel) (side : Option Side) (auto : Option Bool) (n : Nat) (s : State), taken n l (openSpec sts side auto) s = true →
    (∀ m ∈ openKept s sts side auto, isRole s m "STEP" = false ∧ (s.stn m).doorOp = none ∧ (s.stn m).wait = none ∧ (s.stn m).learning = none
      ∧ (s.stn m).stepRefs = false ∧ ((s.stn m).leaf = .closedLocked ∨ (s.stn m).leaf = .held)) →
    Does (.opn l sts side auto) s fun u =>
      (∀ m ∈ openKept s sts side auto, (u.stn m).wait = asksFor s 2 true ∧ (u.stn m).doorOp = some s.nextOp ∧ (u.stn m).attempts = 0
        ∧ (u.stn m).leaf = (s.stn m).leaf)
      ∧ (∀ k, k ∉ openKept s sts side auto → u.stn k = s.stn k) ∧ KeptBut (.st :: .pool :: .ops :: .camp :: .sup :: heardParts) s u
      ∧ (idsFresh s → openKept s sts side auto ≠ [] → begunWaiting n l s u (.opn sts side auto) (.door (openKept s sts side auto) [] [])
          ∧ answeredAll n l s u (doorReplies (doorNamed s sts) (openKept s sts side auto)))
      ∧ (idsFresh s → openKept s sts side auto = [] → u.ops = s.ops
          ∧ answeredAll n l s u (doorReplies (doorNamed s sts) [] ++ [eqR "open" [.n 0]]))) ∧
  (∀ (l : Line) (sts : StSel) (side : Option Side) (n : Nat) (s : State), taken n l (closeSpec sts side) s = true →
    (∀ m ∈ closeKept s sts side, isRole s m "STEP" = false ∧ (s.stn m).doorOp = none ∧ (s.stn m).wait = none ∧ (s.stn m).learning = none
      ∧ ((s.stn m).leaf = .opn ∨ (s.stn m).leaf = .held)) →
    Does (.cls l sts side) s fun u =>
      (∀ m ∈ closeKept s sts side, (u.stn m).wait = asksFor s 1 false ∧ (u.stn m).doorOp = some s.nextOp ∧ (u.stn m).attempts = 0
        ∧ (u.stn m).leaf = (s.stn m).leaf)
      ∧ (∀ k, k ∉ closeKept s sts side → u.stn k = s.stn k) ∧ KeptBut (.st :: .pool :: .ops :: .camp :: .sup :: heardParts) s u
      ∧ (idsFresh s → closeKept s sts side ≠ [] → begunWaiting n l s u (.cls sts side) (.door (closeKept s sts side) [] [])
          ∧ answeredAll n l s u (doorReplies (doorNamed s sts) (closeKept s sts side)))
      ∧ (idsFresh s → closeKept s sts side = [] → u.ops = s.ops
          ∧ answeredAll n l s u (doorReplies (doorNamed s sts) [] ++ [eqR "close" [.n 0]])))

/-- Door commands on a leaf under way (R175, R176): OPEN turns a standing CLOSING leaf, CLOSE turns a standing OPENING leaf, leaves
UNLOCKING for CLOSED_LOCKED with LOCKSW still made and for LOCKING without, and commands a FAULT leaf's feed on, as an ON that clears its
trips, before its close (R236). -/
def Obligations.DoorCommandsTurn : Prop :=
  (∀ (l : Line) (sts : StSel) (side : Option Side) (auto : Option Bool) (m n : Nat) (s : State), taken n l (openSpec sts side auto) s = true →
    openKept s sts side auto = [m] → isRole s m "STEP" = false → (s.stn m).leaf = .closing → (s.ax m).motion = none →
    Does (.opn l sts side auto) s fun u => (u.stn m).leaf = .opening ∧ (u.stn m).kept = some true ∧ (u.stn m).wait = asksFor s 2 true) ∧
  (∀ (l : Line) (sts : StSel) (side : Option Side) (m n : Nat) (s : State), taken n l (closeSpec sts side) s = true →
    closeKept s sts side = [m] → isRole s m "STEP" = false →
    Does (.cls l sts side) s fun u =>
      ((s.stn m).leaf = .opening → (s.ax m).motion = none → (s.ax m).pos < openPos s m →
        (u.stn m).leaf = .closing ∧ (u.stn m).kept = some false ∧ (u.stn m).wait = asksFor s 1 false)
      ∧ ((s.stn m).leaf = .unlocking → dueTime (s.stn m).unlockT s = false → inOn s m .LOCKSW = true → (u.stn m).leaf = .closedLocked ∧ (u.stn m).wait = none)
      ∧ ((s.stn m).leaf = .unlocking → dueTime (s.stn m).unlockT s = false → inOn s m .LOCKSW = false → (u.stn m).leaf = .locking ∧ (u.stn m).wait = asksFor s 1 false)
      ∧ ((s.stn m).leaf = .fault → (u.stn m).buf.fd = true ∧ Sw.fd ∈ (u.stn m).buf.fresh ∧ (u.stn m).wait = asksFor s 1 false))

/-- STOP (R152, R175): with nothing to stop it ends at once with 0; a session's motion stops, or is held with its target; a leaf on its way
is HELD with its target kept. RESUME (R154, R175): with nothing held it answers 0 and nothing moves; a HELD leaf waits for admission toward
its kept target, and a held motion waits again in its class. -/
def Obligations.StopAndResume : Prop :=
  ((∀ (l : Line) (sts : StSel) (hard : Bool) (n : Nat) (s : State), taken n l (stopSpec sts hard) s = true →
    (∀ m ∈ axNamed s sts, (s.ax m).motion = none ∧ (isLeaf s m = true → leafMoves (s.stn m).leaf = false)) → idsFresh s →
    Does (.stop l sts hard) s fun u => answeredAll n l s u [colR "stopping" [.n 0], eqR "stop" [.n 0]] ∧ u.ops = s.ops
      ∧ othersKept n s u ∧ KeptBut (.pool :: .ops :: heardParts) s u) ∧
  (∀ (l : Line) (sts : StSel) (hard : Bool) (m i n : Nat) (x : Motion) (s : State), taken n l (stopSpec sts hard) s = true →
    axNamed s sts = [m] → (s.ax m).motion = some x → x.phase ≠ .held → x.op = some i → isLeaf s m = false →
    Does (.stop l sts hard) s fun u => (∃ y, (u.ax m).motion = some y ∧ (y.phase = .stopping ∨ y.phase = .held) ∧ y.target = x.target)
      ∧ (u.stn m).wait = none ∧ (∀ k, k ≠ m → u.stn k = s.stn k)
      ∧ ∃ r, (u.ses n).out = (s.ses n).out ++ shown s n l (colR "stopping" [.n 1]) :: r) ∧
  (∀ (l : Line) (sts : StSel) (hard : Bool) (m n : Nat) (x : Motion) (s : State), taken n l (stopSpec sts hard) s = true →
    axNamed s sts = [m] → (s.ax m).motion = some x → x.phase ≠ .held → x.op = none → isLeaf s m = true → leafMoves (s.stn m).leaf = true →
    Does (.stop l sts hard) s fun u => (u.stn m).leaf = .held ∧ (u.stn m).kept = some (decide ((s.stn m).leaf = .opening))
      ∧ (u.stn m).wait = none)) ∧
  ((∀ (l : Line) (sts : StSel) (n : Nat) (s : State), taken n l (resumeSpec sts) s = true → (axNamed s sts).filter (resumable s) = [] →
    Does (.resume l sts) s fun u => answered n l s u (eqR "resume" [.n 0]) ∧ othersKept n s u ∧ KeptBut heardParts s u) ∧
  (∀ (l : Line) (sts : StSel) (m n : Nat) (b : Bool) (s : State), taken n l (resumeSpec sts) s = true →
    (axNamed s sts).filter (resumable s) = [m] → (s.ax m).motion = none → (s.stn m).kept = some b →
    Does (.resume l sts) s fun u => (u.stn m).wait = asksFor s (if b then 2 else 1) b ∧ (u.stn m).why = .command
      ∧ placed n l s u (.resume sts) (.resuming [m] 1) ∧ answered n l s u (colR "resuming" [.n 1]) ∧ (∀ k, k ≠ m → u.stn k = s.stn k)
      ∧ othersKept n s u ∧ KeptBut (.st :: .pool :: .ops :: heardParts) s u) ∧
  (∀ (l : Line) (sts : StSel) (m n : Nat) (x : Motion) (s : State), taken n l (resumeSpec sts) s = true →
    (axNamed s sts).filter (resumable s) = [m] → (s.ax m).motion = some x → x.phase = .held →
    Does (.resume l sts) s fun u => (u.stn m).wait = asksFor s x.cls false ∧ answered n l s u (colR "resuming" [.n 1])
      ∧ (u.ax m).motion = some { x with phase := .waiting, ending := none, d := (s.stn m).derate } ∧ (∀ k, k ≠ m → u.stn k = s.stn k)
      ∧ othersKept n s u ∧ KeptBut (.st :: .pool :: .ops :: heardParts) s u))

/-- ISOLATE ON takes every named leaf to ISOLATED; ISOLATE OFF takes an ISOLATED one to CLOSED_LOCKED, referenced at 0, with both switches
made, and to FAULT with cause isolated else (R203). -/
def Obligations.IsolateLeaves : Prop :=
  (∀ (l : Line) (sts : StSel) (n : Nat) (s : State), taken n l (isolateSpec sts true) s = true →
    Does (.isolateOn l sts) s fun u => (∀ m ∈ isoNamed s sts, (u.stn m).leaf = .isolated)
      ∧ lastAnswer n l s u (eqR "isolate" [.n (isoNamed s sts).length])) ∧
  (∀ (l : Line) (sts : StSel) (n : Nat) (s : State), taken n l (isolateSpec sts false) s = true →
    Does (.isolateOff l sts) s fun u => (∀ m ∈ isoNamed s sts, (s.stn m).leaf = .isolated → bothMade s m = true →
        (u.stn m).leaf = .closedLocked ∧ (u.ax m).referenced = true ∧ (u.ax m).pos = 0 ∧ (u.stn m).attempts = 0)
      ∧ (∀ m ∈ isoNamed s sts, (s.stn m).leaf = .isolated → bothMade s m = false →
        (u.stn m).leaf = .fault ∧ (u.stn m).cause = "isolated")
      ∧ lastAnswer n l s u (eqR "isolate" [.n (isoNamed s sts).length]))

/-- LAMP commands every named channel on or off, an ON as one that clears its trips; FLASH commands every named channel flashing: the slices'
frame buffers take the states, nothing else of any station is touched, and the answer with their number waits for the slices' return frames
(R34, R102, R236, R267, R292). -/
def Obligations.LampAndFlash : Prop :=
  (∀ (l : Line) (chs : ChSel) (on : Bool) (n : Nat) (s : State), taken n l (lampSpec chs on) s = true →
    Does (.lamp l chs on) s fun u =>
      (∀ e ∈ swSel s chs, (u.stn e.1).buf.load e.2 = (if on then .on else .off) ∧ (on = true → e.2 ∈ (u.stn e.1).buf.fresh))
      ∧ (∀ k, (∀ e ∈ swSel s chs, e.1 ≠ k) → u.stn k = s.stn k) ∧ bufferedOnly s u
      ∧ awaitsFrames l s u (eqR "lamp" [.n (swSel s chs).length]) (slotsOf ((swSel s chs).map (·.1))) ∧ (u.ses n).out = (s.ses n).out
      ∧ othersKept n s u ∧ KeptBut (.st :: .returns :: heardParts) s u) ∧
  (∀ (l : Line) (chs : ChSel) (p : Lit) (ph d : Option Lit) (n : Nat) (s : State), taken n l (flashSpec chs p ph d) s = true →
    Does (.flash l chs p ph d) s fun u =>
      (∀ e ∈ swSel s chs, (u.stn e.1).buf.load e.2 = .flash (flashVal p ph d))
      ∧ (∀ k, (∀ e ∈ swSel s chs, e.1 ≠ k) → u.stn k = s.stn k) ∧ bufferedOnly s u
      ∧ awaitsFrames l s u (eqR "flash" [.n (swSel s chs).length]) (slotsOf ((swSel s chs).map (·.1))) ∧ (u.ses n).out = (s.ses n).out
      ∧ othersKept n s u ∧ KeptBut (.st :: .returns :: heardParts) s u)

/-- OUT commands the named outputs and feeds, an ON of a feed as one that clears its trips; a feed that it switches on is charged to its bus,
one that it switches off is charged no more; the slices' frame buffers take the states, and the answer waits for their return frames (R34,
R102, R209, R236, R284, R301). -/
def Obligations.OutDrives : Prop :=
  ∀ (l : Line) (chs : ChSel) (on : Bool) (n : Nat) (s : State), taken n l (outSpec chs on) s = true →
    Does (.out l chs on) s fun u =>
      (∀ m, Obj.ch m .out0 ∈ chSel s chs → (u.stn m).buf.out0 = on)
      ∧ (∀ m, Obj.ch m .out1 ∈ chSel s chs → (u.stn m).buf.out1 = on)
      ∧ (∀ m, Obj.ch m .fd ∈ chSel s chs → (u.stn m).buf.fd = on ∧ (on = true → Sw.fd ∈ (u.stn m).buf.fresh)
          ∧ (on = true → ∃ c ∈ u.yar.charges, c.station = m ∧ c.byOut = true)
          ∧ (on = false → ∀ c ∈ u.yar.charges, c.station = m → c.byOut = false))
      ∧ (∀ k, (∀ c, Obj.ch k c ∉ chSel s chs) → u.stn k = s.stn k) ∧ bufferedOnly s u
      ∧ awaitsFrames l s u (eqR "out" [.n (chSel s chs).length]) (slotsOf ((chSel s chs).filterMap objStation)) ∧ (u.ses n).out = (s.ses n).out
      ∧ othersKept n s u ∧ KeptBut (.st :: .yar :: .returns :: heardParts) s u

/-- PROVE LEARN lights the first channel for 2 s, PROVE RETURN asks the main for one pulse: each starts an operation (R260, R262). PROVE
LOOP (R342, R343): with LOOP commanded closed both lanes open their contacts and the test runs; else it is judged at once, proved where both
lanes read their contact as they command it and failed else, and no proof is counted. -/
def Obligations.ProveForms : Prop :=
  ((∀ (l : Line) (o : Obj) (m : Nat) (b : Bool) (t : List (Nat × Bool)) (n : Nat) (s : State), taken n l (proveLearnSpec o) s = true →
    learnChannels s o = (m, b) :: t →
    Does (.proveLearn l o) s fun u => begun n l s u (.proveLearn o) (.proveLearn m (b :: t.map (·.2)) [] (some (s.now + 2000000)) [] 0)
      ∧ answered n l s u (colR "proving") ∧ (u.stn m).buf.load (chanSw b) = .on
      ∧ (∀ k, k ≠ m → u.stn k = s.stn k) ∧ othersKept n s u ∧ KeptBut (.st :: .pool :: .ops :: .camp :: heardParts) s u) ∧
  (∀ (l : Line) (o : Obj) (m n : Nat) (s : State), taken n l (proveReturnSpec o) s = true → (o = .st m ∨ o = .ch m .la) →
    Does (.proveReturn l o) s fun u => begun n l s u (.proveReturn o) (.proveReturn m) ∧ answered n l s u (colR "proving")
      ∧ (u.sw m .la).lamp.returnDue = true ∧ (∀ k, k ≠ m → u.stn k = s.stn k) ∧ othersKept n s u
      ∧ KeptBut (.st :: .pool :: .ops :: heardParts) s u)) ∧
  ((∀ (l : Line) (n : Nat) (s : State), taken n l proveLoopSpec s = true → s.camp.a.loop = true → s.camp.b.loop = true →
    Does (.proveLoop l) s fun u => begun n l s u .proveLoop .proveLoop ∧ answered n l s u (colR "proving")
      ∧ u.camp.test = some ("command", s.now) ∧ u.camp.testOp = some s.nextOp ∧ u.camp.a.loop = false ∧ u.camp.b.loop = false
      ∧ u.camp.a.holdSince = none ∧ u.camp.b.holdSince = none ∧ u.camp.safe = s.camp.safe ∧ othersKept n s u
      ∧ KeptBut (.camp :: .pool :: .ops :: heardParts) s u) ∧
  (∀ (l : Line) (n : Nat) (s : State), taken n l proveLoopSpec s = true → (s.camp.a.loop = false ∨ s.camp.b.loop = false) → idsFresh s →
    Does (.proveLoop l) s fun u => u.ops = s.ops ∧ u.camp = s.camp ∧ othersKept n s u ∧ KeptBut (.pool :: .ops :: heardParts) s u
      ∧ (s.camp.a.contact = s.camp.a.loop → s.camp.b.contact = s.camp.b.loop →
          answeredAll n l s u [colR "proving", eqR "prove" [.n 1, .w "loop"]])
      ∧ ((s.camp.a.contact ≠ s.camp.a.loop ∨ s.camp.b.contact ≠ s.camp.b.loop) →
          answeredAll n l s u [colR "proving", errR { code := 6, detail := .obj (.head .loop) }])))

/-- MOVE, JOG, REF, MOVE FOLLOW and CAM put a motion on their axis, which waits for admission as P4: a MOVE or JOG to a goal with its
commanded target, on an unreferenced axis a MOVE with what comes after its search (R131, R136, R147 to R149, R155, R160). REF LEARN starts a
learning run on a closed leaf, which waits for admission to open (R184). -/
def Obligations.MotionsBegin : Prop :=
  ((∀ (l : Line) (m : Nat) (t : MoveTgt) (k : MotionKeys) (g : Int × Bool) (n : Nat) (s : State), taken n l (moveSpec m t k) s = true →
    moveGoal s m t = some g → idsFresh s →
    Does (.move l m t k) s fun u => motionPut m n l s u (.move m t k) (colR "moving" [.n 1]) fun x => x.kind = .move
      ∧ ((s.ax m).referenced = true → x.target = some (goalSteps s m g) ∧ x.after = none)
      ∧ ((s.ax m).referenced = false → x.target = none ∧ x.after = some g.1 ∧ x.afterRel = g.2)) ∧
  (∀ (l : Line) (m : Nat) (f : Option Nat) (n : Nat) (s : State), taken n l (followSpec m f) s = true → idsFresh s →
    Does (.moveFollow l m f) s fun u => motionPut m n l s u (.follow m f) (colR "moving" [.n 1]) fun x => x.kind = .follow ∧ x.target = none
      ∧ x.follow = some { fact := f.getD (s.axK m .FACT).toNat }) ∧
  (∀ (l : Line) (m : Nat) (t : MoveTgt) (k : MotionKeys) (n : Nat) (s : State), taken n l (jogSpec m t k) s = true → idsFresh s →
    Does (.jog l m t k) s fun u => motionPut m n l s u (.jog m t k) (colR "jogging" [.n 1]) fun x => x.kind = .jog
      ∧ (∀ g, moveGoal s m t = some g → x.target = some (goalSteps s m g))
      ∧ (∀ v, t = .speed v → x.target = none ∧ x.neg = decide ((jogUm v).getD 0 < 0))) ∧
  (∀ (l : Line) (m n : Nat) (s : State), taken n l (refSpec m) s = true → idsFresh s →
    Does (.ref l m) s fun u => motionPut m n l s u (.ref m) (colR "referencing" [.n 1]) fun x => x.kind = .ref ∧ x.target = none ∧ x.after = none) ∧
  (∀ (l : Line) (m c : Nat) (t : TB) (off : Option Lit) (n : Nat) (s : State), taken n l (camSpec m c (.tb t) off) s = true → idsFresh s →
    Does (.cam l m c (.tb t) off) s fun u => motionPut m n l s u (.cam m c (.tb t) off) (colR "coupled") fun x => x.kind = .cam
      ∧ x.couple = some { table := c, master := t, offset := (off.bind litPlain).getD 0, t0 := s.time / 1000, target := (s.ax m).pos })) ∧
  (∀ (l : Line) (m times n : Nat) (s : State), taken n l (refLearnSpec m times) s = true → idsFresh s →
    Does (.refLearn l m times) s fun u => begunWaiting n l s u (.refLearn m times) (.learn m times) ∧ answered n l s u (colR "referencing" [.n 1])
      ∧ (u.stn m).learning = some s.nextOp ∧ (u.stn m).wait = asksFor s 4 true ∧ (u.stn m).traverses = [] ∧ (u.stn m).points = []
      ∧ (∀ k, k ≠ m → u.stn k = s.stn k) ∧ othersKept n s u ∧ KeptBut (.st :: .pool :: .ops :: .camp :: heardParts) s u)

/-! ## Events -/

/-- AT arms an event in the lowest free slot with its trigger, direction and IFPAST (R59 to R62): held on an uncertain timebase, armed
before its trigger, and past it fired late, armed, or missed and over. -/
def Obligations.AtArms : Prop :=
  ∀ (l : Line) (a : AtArgs) (k : Nat) (v : Int) (n : Nat) (s : State), taken n l (atSpec l a (verbSpec s l.port a.doVerb)) s = true → idsFresh s →
    freeSlot s = some k → triggerOf s a = some v →
    Does (.atEvent l a) s fun u =>
      (u.ent k).trigger = v ∧ (u.ent k).dir = dirCode a.tb a.dir ∧ (u.ent k).ifpast = pastCode a.tb a.ifpast ∧ (u.ent k).rep = a.rep
      ∧ (u.ent k).session = n ∧ (u.ent k).firings = 0 ∧ (u.ent k).tb = BitVec.ofNat 8 (tbCode a.tb) ∧ othersKept n s u
      ∧ KeptBut (.pool :: .ops :: .crossings :: heardParts) s u
      ∧ (tbUncertain s a.tb = true → (u.ent k).kind = .event ∧ (u.ent k).st = .held ∧ u.crossings = s.crossings.filter (·.slot ≠ k)
          ∧ answered n l s u (colR "held" [.kn "slot" k ""]))
      ∧ (tbUncertain s a.tb = false → beyond (dirCode a.tb a.dir) (tbValue s a.tb) v = false → (u.ent k).kind = .event ∧ (u.ent k).st = .armed
          ∧ u.crossings = s.crossings.filter (·.slot ≠ k) ∧ answered n l s u (colR "armed" [.kn "slot" k ""]))
      ∧ (tbUncertain s a.tb = false → beyond (dirCode a.tb a.dir) (tbValue s a.tb) v = true →
          (pastCode a.tb a.ifpast = 0 → (u.ent k).st = .armed
            ∧ u.crossings = putCrossing { at_ := s.now, slot := k, tb := a.tb, value := tbValue s a.tb, late := true } (s.crossings.filter (·.slot ≠ k))
            ∧ answered n l s u (colR "armed" [.kn "slot" k ""]))
          ∧ (pastCode a.tb a.ifpast = 1 → (u.ent k).st = .armed ∧ u.crossings = s.crossings.filter (·.slot ≠ k)
            ∧ answered n l s u (colR "armed" [.kn "slot" k ""]))
          ∧ (pastCode a.tb a.ifpast = 2 → (u.ent k).kind = .free ∧ u.ops = s.ops ∧ u.crossings = s.crossings.filter (·.slot ≠ k)
            ∧ answeredAll n l s u [colR "armed" [.kn "slot" k ""], eqR "missed"]))

/-- CANCEL (R70, R143, R496): with nothing to cancel it answers 0 and changes nothing; of a motion that waits or is held it ends the motion
and the wait, releases the slot and ends the command. -/
def Obligations.CancelEnds : Prop :=
  (∀ (l : Line) (tag : Option Nat) (n : Nat) (s : State), taken n l (cancelSpec verbSpec l tag) s = true → relayedTo s n tag = none →
    cancelled s n tag = [] →
    Does (.cancel l tag) s fun u => answered n l s u (eqR "cancel" [.n 0]) ∧ othersKept n s u ∧ KeptBut heardParts s u) ∧
  (∀ (l : Line) (tag : Option Nat) (m n : Nat) (o : Op) (x : Motion) (s : State), taken n l (cancelSpec verbSpec l tag) s = true →
    relayedTo s n tag = none → s.crossings = [] → cancelled s n tag = [o] → s.opOf o.id = some o → o.prog = .motion m → (s.ax m).motion = some x →
    (x.phase = .waiting ∨ x.phase = .held) → noResume s m = true →
    Does (.cancel l tag) s fun u => (u.ax m).motion = none ∧ (u.stn m).wait = none ∧ (∀ q ∈ u.ops, q.id ≠ o.id)
      ∧ (∀ k, o.slot = some k → (u.ent k).kind = .free) ∧ (∀ k, k ≠ m → u.stn k = s.stn k)
      ∧ (u.ses n).out = (s.ses n).out ++ [sentTo s n o.tag (errR { code := 70 }), shown s n l (eqR "cancel" [.n 1])] ∧ othersKept n s u
      ∧ KeptBut (.st :: .pool :: .ops :: .yar :: heardParts) s u)

/-- The first crossing is handed on (R64 to R69, R172): one whose event is no longer armed does nothing; a leaf's slot 3 arms force
detection; an event that fires once counts the firing, takes its instant, and runs its command as if its session had sent it. -/
def Obligations.EventsFire : Prop :=
  (∀ (x : Crossing) (r : List Crossing) (s : State), s.head.started = true → s.noTime .evt = false → s.crossings = x :: r →
    ((s.ent x.slot).st ≠ .armed ∨ (s.ent x.slot).tb.toNat ≠ tbCode x.tb) →
    Does .eventFire s fun u => u = { s with crossings := r }) ∧
  (∀ (x : Crossing) (r : List Crossing) (s : State), s.head.started = true → s.noTime .evt = false → s.crossings = x :: r →
    (s.ent x.slot).st = .armed → (s.ent x.slot).tb.toNat = tbCode x.tb → (s.ent x.slot).kind = .system → x.slot % 16 = 3 →
    Does .eventFire s fun u => u.crossings = r ∧ (u.stn (x.slot / 16)).armed = true ∧ (u.stn (x.slot / 16)).forceSince = none
      ∧ (u.ent (16 * (x.slot / 16) + 3)).kind = .free ∧ (∀ k, k ≠ x.slot / 16 → u.stn k = s.stn k)
      ∧ KeptBut [.st, .pool, .work, .crossings] s u) ∧
  (∀ (x : Crossing) (r : List Crossing) (o : Op) (chs : ChSel) (on : Bool) (base : Int) (fired : List (Nat × Int × Bool × Bool)) (n : Nat) (s : State),
    s.head.started = true → s.noTime .evt = false → s.crossings = x :: r → (s.ent x.slot).st = .armed → (s.ent x.slot).tb.toNat = tbCode x.tb →
    (s.ent x.slot).kind = .event → (s.ent x.slot).rep = false → opAt s x.slot = some o → s.opOf o.id = some o → o.within = none →
    o.port = .session n → o.prog = .event (.lamp chs on) base fired → lateTests o.port false { lampSpec chs on with slots := fun _ => 0 } s = none →
    Does .eventFire s fun u => (∀ e ∈ swSel s chs, (u.stn e.1).buf.load e.2 = (if on then .on else .off)) ∧ bufferedOnly s u
      ∧ (u.ent x.slot).firings = (s.ent x.slot).firings + 1 ∧ (u.ent x.slot).st = .executing
      ∧ (u.ent x.slot).lastFire = s.time ∧ (u.ent x.slot).flagged = (x.late || x.jump) ∧ u.crossings = r
      ∧ u.returns = s.returns ++ [{
          ctx := { port := o.port, tag := o.tag, within := some (o.id, (s.ent x.slot).firings + 1), acc := s.accNo + 1, text := o.text }
          reply := eqR "lamp" [.n (swSel s chs).length], due := slotsOf ((swSel s chs).map (·.1)) }]
      ∧ (∀ q ∈ u.ops, q.id = o.id → q.prog = .event (.lamp chs on) base (((s.ent x.slot).firings + 1, x.value, x.late, x.jump) :: fired))
      ∧ KeptBut [.st, .pool, .work, .crossings, .sess, .sup, .ops, .ids, .jrn, .returns] s u)

/-- A REPEAT event beyond its trigger by HYST is armed again (R65), and a merged WATCH report goes out at the end of its interval (R106). -/
def Obligations.RearmAndRate : Prop :=
  (∀ (k : Nat) (o : Op) (s : State), opAt s k = some o → (s.ent k).kind = .event → (s.ent k).st = .rearm → s.noTime .evt = false →
    timeLike (opTb o) = false → backBeyond (s.ent k) (tbValue s (opTb o)) = true →
    Does (.eventRearm k) s fun u => u.ent k = { s.ent k with st := .armed } ∧ (∀ j, j ≠ k → u.ent j = s.ent j) ∧ KeptBut [.pool] s u) ∧
  (∀ (k : Nat) (x : Obj) (w : Op) (objs : List Obj) (rate at_ c n : Nat) (marks : List (Obj × Nat × Nat)) (y : Obj) (s : State),
    opAt s k = some w → w.prog = .watch objs rate marks → marks.find? (·.1 = x) = some (y, at_, c) → 0 < c → at_ + rate ≤ s.now →
    w.within = none → w.port = .session n → hears s n = true →
    Does (.watchRateInterval k x) s fun u => (u.ses n).out = (s.ses n).out ++ [sentTo s n w.tag (watchReply s x c)]
      ∧ (∀ q ∈ u.ops, q.id = w.id → q.prog = .watch objs rate ((x, s.now, 0) :: marks.filter (·.1 ≠ x))) ∧ othersKept n s u
      ∧ KeptBut [.sess, .ops] s u)

/-! ## Resets -/

/-- RESET SESSION and RESET ENGINE (R420, R421): the session's quota, authority, staging and tags are as at its opening and the candidate is
gone; the engine's counter is 0, it is being reset, and an operation without a slot waits for its end. The end of an engine reset answers
its RESET and lets the engine run (R421). -/
def Obligations.ResetsOfSessionAndEngine : Prop :=
  ((∀ (l : Line) (j : Option Nat) (n : Nat) (s : State), taken n l (resetSessionSpec l.port j) s = true →
    Does (.resetSession l j) s fun u => (u.ses (j.getD n)).quota = 1024 ∧ (u.ses (j.getD n)).auth = false ∧ (u.ses (j.getD n)).suspect = false
      ∧ (u.ses (j.getD n)).staging = none ∧ (u.ses (j.getD n)).tags = [] ∧ u.cfg.cand = none ∧ u.cfg.candSkey = none
      ∧ u.cfg.plain = s.cfg.plain ∧ u.cfg.safety = s.cfg.safety) ∧
  (∀ (l : Line) (e : Engine) (n : Nat) (s : State), taken n l (resetEngineSpec l.port e) s = true →
    Does (.resetEngine l e) s fun u => u.head.resetting = some e ∧ (u.eng e).ctr = 0
      ∧ (∃ o ∈ u.ops, (u.eng e).op = some o.id ∧ o.slot = none ∧ o.port = l.port ∧ o.tag = lineTag l
          ∧ ∃ w, o.prog = .resetting "engine" (some (.w (engName e))) w)
      ∧ u.cfg.cand = none ∧ (∀ k, (u.ses k).staging = none ∧ (u.ses k).tags = []))) ∧
  (∀ (e : Engine) (s : State), s.head.resetting = some e → (e ≠ .int ∧ e ≠ .net ∧ e ≠ .io ∨ s.inbuf = []) →
    Does .engineResetEnd s fun u => u.head.resetting = none ∧ (u.eng e).op = none
      ∧ (∀ i o f w, (s.eng e).op = some i → s.opOf i = some o → o.prog = .resetting "engine" f w → ∀ q ∈ u.ops, q.id ≠ i))

/-- RESET SLICE removes the position's logic power for 200 ms: its loads, outputs and elements are off (R10, R422); the supervisor gives it
back, the insertion counter advances and stays at its greatest value, and without a slice the reset ends (R28, R422). -/
def Obligations.SliceReset : Prop :=
  (∀ (l : Line) (p n : Nat) (s : State), taken n l (resetSliceSpec l.port p) s = true →
    Does (.resetSlice l p) s fun u => (u.slc p).powered = false ∧ (u.slc p).restoreAt = some (s.now + 200000)
      ∧ (u.slc p).elemA = 0 ∧ (u.slc p).elemB = 0
      ∧ (∃ o ∈ u.ops, (u.slc p).resetOp = some o.id ∧ o.slot = none ∧ ∃ w, o.prog = .resetting "slice" (some (.obj (.sl p))) w)
      ∧ (∀ m ∈ stationsOf p, ∀ w, (u.sw m w).on = false ∧ (u.sw m w).cmd = false) ∧ (∀ m ∈ stationsOf p, (u.stn m).out0.on = false ∧ (u.stn m).out1.on = false)
      ∧ (∀ o k, policyOf u o k = none)) ∧
  (∀ (p : Fin 8) (m : Module) (s : State), due (s.slc p).restoreAt s.now = true → s.head.powered = true → enabled s p = true →
    (s.slc p).seated = some m →
    Does (.slicePowerRestore p) s fun u => (u.slc p).powered = true ∧ (u.slc p).restoreAt = none ∧ (u.slc p).typeRead = none
      ∧ (u.slc p).seated = some { m with ins := if m.ins = 0xFFFF#16 then m.ins else m.ins + 1 } ∧ (u.slc p).downAt = some s.now
      ∧ (∀ k, k ≠ p.val → u.slc k = s.slc k) ∧ KeptBut [.sl, .st] s u) ∧
  (∀ (p : Fin 8) (s : State), due (s.slc p).restoreAt s.now = true → s.head.powered = true → (s.slc p).seated = none →
    Does (.slicePowerRestore p) s fun u => (u.slc p).powered = (s.slc p).powered ∧ (u.slc p).restoreAt = none ∧ (u.slc p).resetOp = none
      ∧ KeptBut [.sl, .sess, .sup, .pool, .work, .ops] s u)

/-- RESET UNIT restarts the head: no session, no session operation, no slot, LINE as at reset, both lanes' outputs off, the safe latch and
TIME kept (R22, R84, R423, R434). RESET POWER removes head and slice power for 2 s (R30, R424). -/
def Obligations.UnitAndPowerReset : Prop :=
  (∀ (l : Line) (n : Nat) (s : State), taken n l (resetUnitSpec l.port) s = true →
    Does (.resetUnit l) s fun u => u.head.powered = true ∧ u.head.started = false ∧ u.head.bit31 = true ∧ u.head.cause = .unit
      ∧ (∀ k, (u.ses k).st = .free) ∧ (∀ o ∈ u.ops, o.port = .supervisor) ∧ (∀ k, (u.ent k).kind = .free) ∧ u.line = {} ∧ u.cfg = {}
      ∧ u.camp.a.driving = false ∧ u.camp.b.driving = false ∧ u.camp.safe = s.camp.safe ∧ u.clk.timeFs = s.clk.timeFs) ∧
  (∀ (l : Line) (n : Nat) (s : State), taken n l (resetPowerSpec l.port) s = true →
    Does (.resetPower l) s fun u => u.head.powered = false ∧ u.head.started = false ∧ u.sup.offUntil = some (s.now + 2000000)
      ∧ (∀ p, p < 8 → (u.slc p).powered = false) ∧ (∀ k, (u.ses k).st = .free) ∧ (∀ k, u.ent k = {}) ∧ u.camp.safe = s.camp.safe)

/-- REPLAY (R431): a session that held nothing is done at once and no longer suspect; a line that is not replayed is skipped with its
reason; another runs as its session's line would, its reply within the REPLAY. A window that passes ends the REPLAY with what had ended and what was cut. -/
def Obligations.ReplayRuns : Prop :=
  (∀ (l : Line) (j : Nat) (a : Option Nat) (w : Option Lit) (q : Snapshot) (n : Nat) (s : State), taken n l (replaySpec j a w) s = true → idsFresh s →
    replaySnap s a = some q → j ∉ q.partialG → replayItems q j = [] →
    Does (.replay l j a w) s fun u => answeredAll n l s u [colR "replaying" [.n 0], eqR "replay" [.n 0, .kn "ended" 0 "", .kn "cut" 0 ""]]
      ∧ (u.ses j).suspect = false ∧ u.ops = s.ops ∧ KeptBut (.pool :: .ops :: heardParts) s u) ∧
  (∀ (l : Line) (j : Nat) (a : Option Nat) (w : Option Lit) (q : Snapshot) (i : SnapItem) (r : String) (n : Nat) (s : State),
    taken n l (replaySpec j a w) s = true → idsFresh s → replaySnap s a = some q → j ∉ q.partialG → replayItems q j = [i] →
    skipReason i (itemSpec s l.port i) = some r →
    Does (.replay l j a w) s fun u => answeredAll n l s u [colR "replaying" [.n 1], colR "replay" [.n 1, .w "skipped", .w r],
        eqR "replay" [.n 1, .kn "ended" 0 "", .kn "cut" 0 ""]]
      ∧ (u.ses j).suspect = false ∧ u.ops = s.ops ∧ KeptBut (.pool :: .ops :: heardParts) s u) ∧
  (∀ (l : Line) (j : Nat) (a : Option Nat) (w : Option Lit) (q : Snapshot) (i : SnapItem) (chs : ChSel) (on : Bool) (n : Nat) (s : State),
    taken n l (replaySpec j a w) s = true → idsFresh s → replaySnap s a = some q → replayItems q j = [i] → i.verb = .lamp chs on → i.text ≠ [] →
    lateTests l.port false (lampSpec chs on) s = none →
    Does (.replay l j a w) s fun u => (∀ e ∈ swSel s chs, (u.stn e.1).buf.load e.2 = (if on then .on else .off)) ∧ bufferedOnly s u
      ∧ u.returns = s.returns ++ [
          { ctx := { port := l.port, within := some (s.nextOp, 1), acc := s.accNo + 2, text := i.text }, reply := eqR "lamp" [.n (swSel s chs).length], due := slotsOf ((swSel s chs).map (·.1)) }]
      ∧ (∃ o ∈ u.ops, o.id = s.nextOp ∧ o.prog = .replaying 1 0 [1] (s.now + replayWindow w) j)
      ∧ KeptBut (.st :: .pool :: .ops :: .returns :: heardParts) s u) ∧
  (∀ (o : Op) (k ended d j m : Nat) (ch : List Nat) (s : State), s.ops = [o] → o.prog = .replaying k ended ch d j → o.within = none → d ≤ s.now →
    o.port = .session m → hears s m = true →
    Does .replayWindowExpiry s fun u => u.ops = [] ∧ (u.ses j).suspect = false
      ∧ (u.ses m).out = (s.ses m).out ++ [sentTo s m o.tag (eqR "replay" [.n k, .kn "ended" ended "", .kn "cut" ch.length ""])])

/-- The supervisor line answers LIVE? with the supervisor's state, and with the head's where it runs; the head off or silent is said (R112,
R413, R415): the command liveSupervisorLine completes so for every such line. -/
def Obligations.SupervisorLive : Prop :=
  ∀ (l : Line) (s : State), heardSup l s = true →
    ∃ u, exec (.liveSupervisorLine l) s = .next (settle s u) ∧ ∃ f, u.sup.out = s.sup.out ++ [{ eqR "live" f with tag := lineTag l }]
      ∧ (s.head.powered = false → f = [.kw "head" "off", .kw "sup" (supWord s.sup.st)])
      ∧ (s.head.powered = true → s.head.started = false → f = [.kw "head" "silent", .kw "sup" (supWord s.sup.st)])
      ∧ (s.head.powered = true → s.head.started = true → f.length = 10) ∧ KeptBut [.sup, .ids] s u

/-! ## The field side -/

/-- The field inputs (R273 to R283): a state that has held for FILTER is the field side's filtered state outside a masked window, and the head
keeps the one that the frames bring; the current is measured at every sample; a tap's pulse is judged on every input under TEST that was on
before it; open wire and over-voltage enter after their time and clear after 10 ms; a counted edge counts and is stamped, one that ends a pulse
shorter than 4 us takes that pulse back, and a gate's end gives the frequency and starts the next gate. -/
def Obligations.FieldInputs : Prop :=
  (∀ (n : Fin 64) (k : Fin 4) (v held : Nat) (i : Input) (raw : Bool) (s : State), i = (s.stn n).inp k → (s.slc (slotOf n)).powered = true →
    masked s n = false → raw = inState s n i.raw v →
    held = (if raw = i.raw then i.held + (openUs s n (s.now - (s.slc (slotOf n)).epoch) - openUs s n (i.rawAt - (s.slc (slotOf n)).epoch)) else 0) →
    Does (.inputFilteredChange n k v) s fun u => ((u.stn n).inp k).fOn = (if filterUs s n ≤ held then raw else i.fOn) ∧ ((u.stn n).inp k).on = i.on
      ∧ ((u.stn n).inp k).raw = raw ∧ ((u.stn n).inp k).held = held ∧ ((u.stn n).inp k).rawAt = s.now ∧ ((u.stn n).inp k).i = min 300 (v / 30)
      ∧ (∀ j, j ≠ k.val → (u.stn n).inp j = (s.stn n).inp j) ∧ (∀ m, m ≠ n.val → u.stn m = s.stn m) ∧ KeptBut (.st :: fieldTold) s u) ∧
  (∀ (n : Fin 64) (tap : Fin 4) (reading : Fin 16) (s : State), tapOff s n tap = false →
    (sinceEpoch s n - 5000 * (tap.val : Int) - (tpw s n - 20)) % 20000 = 0 →
    Does (.testPulse n tap reading) s fun u =>
      (u.stn n).tapRead = tset (s.stn n).tapRead tap.val reading.val ∧
      (∀ k : Fin 4, fieldIs s n (inChan k) .TEST "ON" = true → ((s.stn n).inp k).fOn = true →
        (u.stn n).inp k = fieldJudge tap (if tap = k then !reading.val.testBit k else reading.val.testBit k) ((s.stn n).inp k))
      ∧ (∀ k : Fin 4, (fieldIs s n (inChan k) .TEST "ON" = false ∨ ((s.stn n).inp k).fOn = false) → (u.stn n).inp k = (s.stn n).inp k)
      ∧ (∀ m, m ≠ n.val → u.stn m = s.stn m) ∧ KeptBut (.st :: fieldTold) s u) ∧
  (∀ (n : Fin 64) (k : Fin 4) (v t : Nat) (s : State), (s.slc (slotOf n)).powered = true → masked s n = false →
    ((s.stn n).inp k).owSince = some t →
    Does (.openWire n k v) s fun u => ((u.stn n).inp k).i = min 300 (v / 30) ∧ (∀ j, j ≠ k.val → (u.stn n).inp j = (s.stn n).inp j)
      ∧ (∀ m, m ≠ n.val → u.stn m = s.stn m) ∧ KeptBut (.st :: fieldTold) s u
      ∧ (((s.stn n).inp k).openWire = false → v < 1050 → fieldIs s n (inChan k) .OWDET "ON" = true →
        ((u.stn n).inp k).openWire = decide (t + (kInt (fieldOf s (slotOf n) (.ch n (inChan k)) .OWT)).toNat ≤ s.now))
      ∧ (((s.stn n).inp k).openWire = true → 1050 ≤ v → ((u.stn n).inp k).openWire = decide (s.now < t + 10000))) ∧
  (∀ (n : Fin 64) (k : Fin 4) (v : Nat) (i : Input) (s : State), i = (s.stn n).inp k → (s.slc (slotOf n)).powered = true →
    Does (.inputOverVoltage n k v) s fun u => (∀ j, j ≠ k.val → (u.stn n).inp j = (s.stn n).inp j)
      ∧ (∀ m, m ≠ n.val → u.stn m = s.stn m) ∧ KeptBut (.st :: fieldTold) s u
      ∧ ((u.stn n).inp k).i = min 300 (v / 30) ∧ ((u.stn n).inp k).on = i.on
      ∧ (masked s n = true → ((u.stn n).inp k).fOn = i.fOn ∧ ((u.stn n).inp k).raw = i.raw ∧ ((u.stn n).inp k).openWire = i.openWire)
      ∧ (i.overVolt = false → v ≤ 35000 → ((u.stn n).inp k).overVolt = false ∧ ((u.stn n).inp k).ovSince = none)
      ∧ (i.overVolt = false → 35000 < v → i.ovSince = none → ((u.stn n).inp k).overVolt = false ∧ ((u.stn n).inp k).ovSince = some s.now)
      ∧ (∀ t, i.ovSince = some t → i.overVolt = false → 35000 < v → ((u.stn n).inp k).overVolt = decide (t + 1000 ≤ s.now)
        ∧ (s.now < t + 1000 → ((u.stn n).inp k).ovSince = some t))
      ∧ (i.overVolt = true → 32000 < v → ((u.stn n).inp k).overVolt = true ∧ ((u.stn n).inp k).ovSince = none)
      ∧ (i.overVolt = true → v ≤ 32000 → i.ovSince = none → ((u.stn n).inp k).overVolt = true ∧ ((u.stn n).inp k).ovSince = some s.now)
      ∧ (∀ t, i.ovSince = some t → i.overVolt = true → v ≤ 32000 → ((u.stn n).inp k).overVolt = decide (s.now < t + 10000)
        ∧ (s.now < t + 10000 → ((u.stn n).inp k).ovSince = some t))) ∧
  (∀ (n : Fin 64) (second rising : Bool) (sub : Fin 1500) (s : State), counts s n second rising = true →
    (∀ e, ((s.stn n).inp (cntInput second)).edgeAt = some e → e + 6000 ≤ 1500 * s.now + sub) →
    Does (.countedEdge n second rising sub) s fun u => ((u.stn n).inp (cntInput second)).count = ((s.stn n).inp (cntInput second)).count + 1
      ∧ ((u.stn n).inp (cntInput second)).last = some (1500 * s.now + sub) ∧ ((u.stn n).inp (cntInput second)).ever = some (1500 * s.now + sub)
      ∧ ((u.stn n).inp (cntInput second)).first = some ((((s.stn n).inp (cntInput second)).first).getD (1500 * s.now + sub))
      ∧ ((u.stn n).inp (cntInput second)).edges = ((s.stn n).inp (cntInput second)).edges + 1
      ∧ (∀ j, j ≠ cntInput second → (u.stn n).inp j = (s.stn n).inp j) ∧ (∀ m, m ≠ n.val → u.stn m = s.stn m) ∧ KeptBut [.st] s u) ∧
  (∀ (n : Fin 64) (second rising : Bool) (sub : Fin 1500) (e : Nat) (s : State), fieldIs s n (inChan (cntInput second)) .CNT "OFF" = false →
    ((s.stn n).inp (cntInput second)).edgeAt = some e → 1500 * s.now + sub < e + 6000 →
    Does (.countedEdge n second rising sub) s fun u => ((u.stn n).inp (cntInput second)).edgeAt = none
      ∧ (∀ c x, ((s.stn n).inp (cntInput second)).undo = some (c, x) → ((u.stn n).inp (cntInput second)).count = c)
      ∧ (∀ j, j ≠ cntInput second → (u.stn n).inp j = (s.stn n).inp j) ∧ (∀ m, m ≠ n.val → u.stn m = s.stn m) ∧ KeptBut [.st] s u) ∧
  (∀ (n : Fin 64) (second : Bool) (i : Input) (s : State), i = (s.stn n).inp (cntInput second) →
    fieldIs s n (inChan (cntInput second)) .CNT "OFF" = false →
    i.gateStart + (kInt (fieldOf s (slotOf n) (.ch n (inChan (cntInput second))) .GATE)).toNat ≤ s.now →
    Does (.frequencyGateEnd n second) s fun u => ∃ j, j = (u.stn n).inp (cntInput second)
      ∧ (∀ a, i.first = some a → ∀ b, i.last = some b → ∀ e, i.ever = some e → 2 ≤ i.edges → a < b →
        j.freq = (i.edges - 1) * 1500000000000 / (b - a))
      ∧ (∀ e, i.ever = some e → i.edges < 2 → e < 1500 * s.now → j.freq = 1500000000000 / (1500 * s.now - e))
      ∧ (i.ever = none → j.freq = 0)
      ∧ j.edges = 0 ∧ j.first = none ∧ j.gateStart = s.now ∧ j.gateNo = i.gateNo + 1 ∧ j.count = i.count ∧ j.ever = i.ever
      ∧ (∀ m, m ≠ n.val → u.stn m = s.stn m) ∧ KeptBut [.st] s u)

/-- The sensor supply (R277, R299): 10 ms at its limit turn it off and it is tried again after 1 s, and a tap alone is taken off; a retry that
keeps below the limit for 10 ms gives it back; it starts once the station field supply has stood at 14 V for 50 ms, turns off at 150 C and
restarts at 130 C, which gives it back once 10 ms have passed below the limit. -/
def Obligations.SensorSupply : Prop :=
  (∀ (n : Fin 64) (i : Nat) (v : Sensor) (s : State), v = (s.stn n).sensor → v.on = true →
    Does (.sensorSupplyOverload n ⟨none, i⟩) s fun u => (∀ m, m ≠ n.val → u.stn m = s.stn m) ∧ KeptBut (.st :: fieldTold) s u
      ∧ (i < 250 → (u.stn n).sensor = { v with i, limitSince := none })
      ∧ (250 ≤ i → v.limitSince = none → (u.stn n).sensor = { v with i, limitSince := some s.now })
      ∧ (∀ t, v.limitSince = some t → 250 ≤ i → s.now < t + 10000 → (u.stn n).sensor = { v with i })
      ∧ (∀ t, v.limitSince = some t → 250 ≤ i → t + 10000 ≤ s.now → (∀ k : Fin 4, ((u.stn n).inp k).supply = true)
        ∧ (u.stn n).sensor = { v with i, on := false, overload := true, retryAt := s.now + 1000000, limitSince := none, trying := none })) ∧
  (∀ (n : Fin 64) (k : Fin 4) (i : Nat) (v : Sensor) (s : State), v = (s.stn n).sensor → tapOff s n k = false →
    Does (.sensorSupplyOverload n ⟨some k, i⟩) s fun u => (∀ m, m ≠ n.val → u.stn m = s.stn m) ∧ KeptBut (.st :: fieldTold) s u
      ∧ (i < 50 → (u.stn n).sensor = { v with tapSince := adel v.tapSince k.val })
      ∧ (50 ≤ i → aget v.tapSince k.val = none → (u.stn n).sensor = { v with tapSince := aset v.tapSince k.val s.now })
      ∧ (∀ t, aget v.tapSince k.val = some t → 50 ≤ i → t + 10000 ≤ s.now → ((u.stn n).inp k).supply = true ∧ (u.stn n).sensor.on = true
        ∧ (u.stn n).sensor.taps = v.taps ++ [(k.val, s.now + 1000000)])) ∧
  (∀ (n : Fin 64) (i : Nat) (v : Sensor) (s : State), v = (s.stn n).sensor → v.restart = false → v.overload = true → v.retryAt ≤ s.now →
    Does (.sensorSupplyRetry n none i) s fun u => (∀ m, m ≠ n.val → u.stn m = s.stn m) ∧ KeptBut (.st :: fieldTold) s u
      ∧ (250 ≤ i → (u.stn n).sensor = { v with retryAt := v.retryAt + 1000000, trying := none })
      ∧ (i < 250 → v.trying = none → (u.stn n).sensor = { v with trying := some s.now })
      ∧ (∀ t, v.trying = some t → i < 250 → s.now < t + 10000 → (u.stn n).sensor = v)
      ∧ (∀ t, v.trying = some t → i < 250 → t + 10000 ≤ s.now →
        (u.stn n).sensor = { v with on := !v.overtemp, overload := false, trying := none })) ∧
  (∀ (n : Fin 64) (i : Nat) (v : Sensor) (s : State), v = (s.stn n).sensor → v.restart = true →
    Does (.sensorSupplyRetry n none i) s fun u => (∀ m, m ≠ n.val → u.stn m = s.stn m) ∧ KeptBut (.st :: fieldTold) s u
      ∧ (∀ t, v.trying = some t → i < 250 → t + 10000 ≤ s.now →
        (u.stn n).sensor = { v with on := true, restart := false, limitSince := none, trying := none })
      ∧ (∀ t, v.trying = some t → i < 250 → s.now < t + 10000 → (u.stn n).sensor = { v with limitSince := none })
      ∧ (250 ≤ i → v.limitSince = none → (u.stn n).sensor = { v with limitSince := some s.now, trying := none })
      ∧ (∀ t, v.limitSince = some t → 250 ≤ i → t + 10000 ≤ s.now → (u.stn n).sensor =
          { v with restart := false, overload := true, retryAt := s.now + 1000000, limitSince := none, trying := none })) ∧
  (∀ (n : Fin 64) (k : Fin 4) (r i : Nat) (v : Sensor) (s : State), v = (s.stn n).sensor → aget v.taps k.val = some r → r ≤ s.now →
    Does (.sensorSupplyRetry n (some k) i) s fun u => (∀ m, m ≠ n.val → u.stn m = s.stn m) ∧ KeptBut (.st :: fieldTold) s u
      ∧ (50 ≤ i → (u.stn n).sensor.taps = aset v.taps k.val (r + 1000000))
      ∧ (i < 50 → aget v.tapTrying k.val = none → (u.stn n).sensor = { v with tapTrying := aset v.tapTrying k.val s.now })
      ∧ (∀ t, aget v.tapTrying k.val = some t → i < 50 → t + 10000 ≤ s.now → (u.stn n).sensor.taps = adel v.taps k.val)) ∧
  (∀ (n : Fin 64) (w : Nat) (v : Sensor) (s : State), v = (s.stn n).sensor → (s.slc (slotOf n)).powered = true → v.on = false →
    v.overload = false → v.overtemp = false → v.restart = false →
    Does (.sensorSupplyStart ⟨n, w⟩) s fun u => (∀ m, m ≠ n.val → u.stn m = s.stn m) ∧ KeptBut [.st] s u
      ∧ (w < 14000 → (u.stn n).sensor = { v with goodSince := none })
      ∧ (14000 ≤ w → v.goodSince = none → (u.stn n).sensor = { v with goodSince := some s.now })
      ∧ (∀ t, v.goodSince = some t → 14000 ≤ w → (u.stn n).sensor = { v with on := decide (t + 50000 ≤ s.now) })) ∧
  (∀ (n : Fin 64) (die : Int) (s : State), ((s.stn n).sensor.on = true ∨ (s.stn n).sensor.restart = true) → 150 ≤ die →
    Does (.sensorSupplyOvertemp n die) s fun u =>
      (u.stn n).sensor = { (s.stn n).sensor with on := false, restart := false, overtemp := true, trying := none }
      ∧ (∀ k : Fin 4, ((u.stn n).inp k).supply = true) ∧ (∀ m, m ≠ n.val → u.stn m = s.stn m) ∧ KeptBut (.st :: fieldTold) s u) ∧
  (∀ (n : Fin 64) (die : Int) (v : Sensor) (s : State), v = (s.stn n).sensor → v.overtemp = true → die ≤ 130 →
    Does (.sensorSupplyOvertempRestart n die) s fun u => (u.stn n).sensor =
        { v with overtemp := false, restart := !v.overload, limitSince := none, trying := if v.overload then v.trying else some s.now }
      ∧ (∀ m, m ≠ n.val → u.stn m = s.stn m) ∧ KeptBut (.st :: fieldTold) s u)

/-- The outputs (R284 to R286): 2 ms at 1.2 A take an output off by OVERLOAD, latched at the fourth within 10 s, and it restarts 100 ms
after; 150 C takes it off until 130 C; OPEN and SUPPLY enter and clear after their times; STUCK follows two failed test pulses in succession
and clears with two that pass. -/
def Obligations.FieldOutputs : Prop :=
  (∀ (n : Fin 64) (b : Bool) (x : OutSample) (o : Output) (s : State), o = (s.stn n).outp b → (s.slc (slotOf n)).powered = true →
    Does (.outputDiagnostic n b x.i ⟨x.u, x.die⟩) s fun u =>
      (u.stn n).outp (!b) = (s.stn n).outp (!b) ∧ (∀ m, m ≠ n.val → u.stn m = s.stn m) ∧ KeptBut (.st :: fieldTold) s u
      ∧ ((u.stn n).outp b).cmd = o.cmd ∧ ((u.stn n).outp b).stuck = o.stuck
      ∧ (∀ t, o.limitSince = some t → outNow s n b = true → 1200 ≤ x.i → t + 2000 ≤ s.now → ((u.stn n).outp b).on = false ∧ ((u.stn n).outp b).overload = true
        ∧ ((u.stn n).outp b).overloads = (o.overloads.filter fun e => decide (s.now < e + 10000000)) ++ [s.now]
        ∧ ((u.stn n).outp b).latched = decide (3 ≤ (o.overloads.filter fun e => decide (s.now < e + 10000000)).length))
      ∧ (∀ t, o.limitSince = some t → outNow s n b = true → 1200 ≤ x.i → s.now < t + 2000 → o.overtemp = false → x.die < 150 →
        ((u.stn n).outp b).on = true ∧ ((u.stn n).outp b).i = 1200 ∧ ((u.stn n).outp b).overload = o.overload)
      ∧ (o.overtemp = false → ((u.stn n).outp b).overtemp = decide (150 ≤ x.die) ∧ (150 ≤ x.die → ((u.stn n).outp b).on = false))
      ∧ (o.overtemp = true → ((u.stn n).outp b).overtemp = decide (130 < x.die)
        ∧ (x.die ≤ 130 → o.on = false → ((u.stn n).outp b).on = (o.cmd && !o.latched && !o.overload)))
      ∧ (∀ t, o.openSince = some t → o.openLoad = false → outNow s n b = true → fieldIs s n (outChan b) .OLDET "ON" = true → x.i < 2 →
        o.overtemp = false → x.die < 150 → ((u.stn n).outp b).openLoad = decide (t + 100000 ≤ s.now))
      ∧ (∀ t, o.openSince = some t → o.openLoad = true → 2 ≤ x.i → ((u.stn n).outp b).openLoad = decide (s.now < t + 10000))
      ∧ (∀ t, o.supplySince = some t → o.supply = false → o.on = false → o.overtemp = false → 10000 < x.u →
        ((u.stn n).outp b).supply = decide (t + 10000 ≤ s.now))
      ∧ (∀ t, o.supplySince = some t → o.supply = true → x.u ≤ 5000 → ((u.stn n).outp b).supply = decide (s.now < t + 10000))) ∧
  (∀ (n : Fin 64) (b : Bool) (t : Nat) (s : State), ((s.stn n).outp b).overload = true → ((s.stn n).outp b).latched = false →
    ((s.stn n).outp b).overloads.getLast? = some t → t + 100000 ≤ s.now →
    Does (.overloadRestart n b) s fun u => ((u.stn n).outp b).overload = false
      ∧ ((u.stn n).outp b).on = (((s.stn n).outp b).cmd && !((s.stn n).outp b).overtemp)
      ∧ (u.stn n).outp (!b) = (s.stn n).outp (!b) ∧ (∀ m, m ≠ n.val → u.stn m = s.stn m) ∧ KeptBut (.st :: fieldTold) s u) ∧
  (∀ (n : Fin 64) (b : Bool) (w : Nat) (o : Output) (s : State), o = (s.stn n).outp b → o.on = true →
    fieldIs s n (outChan b) .TPULSE "ON" = true → sinceEpoch s n % 20000 = (if b then 7500 else 2500) →
    (∀ t, o.pulseAt = some t → t + 1000000 ≤ s.now) →
    Does (.outputTestPulse n b w) s fun u => ((u.stn n).outp b).on = true ∧ ((u.stn n).outp b).pulseAt = some s.now
      ∧ (w < 5000 → ((u.stn n).outp b).fails = 0 ∧ ((u.stn n).outp b).passes = min 2 (o.passes + 1)
        ∧ ((u.stn n).outp b).stuck = (o.stuck && decide (o.passes = 0)))
      ∧ (5000 ≤ w → ((u.stn n).outp b).fails = min 2 (o.fails + 1) ∧ ((u.stn n).outp b).passes = 0
        ∧ ((u.stn n).outp b).stuck = (o.stuck || decide (1 ≤ o.fails)))
      ∧ (u.stn n).outp (!b) = (s.stn n).outp (!b) ∧ (∀ m, m ≠ n.val → u.stn m = s.stn m) ∧ KeptBut (.st :: fieldTold) s u)

/-- Protected switches (R210 to R228): the ramp ends below 0.5 V across the switch, in CC mode after 1 ms at the latest, and the inrush window
after INRUSH; a switch whose turn-on
energy, fuse heat, 1 ms at its steady limit with a low output, die or clamp pulse reaches its limit trips, fast off, and the trip stands; an
under-voltage that lasts its time turns it off, and the supply's return for the restart time lets a commanded switch turn on again. -/
def Obligations.SwitchesTrip : Prop :=
  (∀ (n : Fin 64) (w : Sw) (c : Conv) (s : State), betweenSamples s n w → (s.sw n w).uvWait = false → (s.sw n w).ramp = some true → (s.sw n w).rampAt ≤ s.now →
    Does (.turnOnRampEnd n w c) s fun u => otherSwitches n w s u ∧ KeptBut (.st :: fieldTold) s u
      ∧ (ccMode s n w = true → (s.sw n w).rampAt + 1000 ≤ s.now →
        (u.sw n w).ramp = none ∧ (u.sw n w).rampEnd = some ((s.sw n w).rampAt + 1000))
      ∧ ((ccMode s n w = false ∨ s.now < (s.sw n w).rampAt + 1000) →
        ((c.u : Int) < c.out + 500 → (u.sw n w).ramp = none ∧ (u.sw n w).rampEnd = some s.now)
        ∧ (c.out + 500 ≤ (c.u : Int) → (s.sw n w).on = true → (u.sw n w).on = true → (u.sw n w).ramp = some true))) ∧
  (∀ (n : Fin 64) (w : Sw) (t : Nat) (s : State), (s.sw n w).inrush = some t → t + (s.sw n w).window ≤ s.now →
    Does (.inrushWindowClose n w) s fun u => u.sw n w = { s.sw n w with
        inrush := none, limiting := decide (steadyLimit w ≤ (s.sw n w).cur), cur := min (s.sw n w).cur (steadyLimit w) }
      ∧ otherSwitches n w s u ∧ KeptBut [.st] s u) ∧
  (∀ (n : Fin 64) (w : Sw) (c : Conv) (t e : Nat) (s : State), betweenSamples s n w → (s.sw n w).uvWait = false → outputOn s n w = true →
    (s.sw n w).inrush = some t → s.now < t + (s.sw n w).window → (s.sw n w).tone = none →
    e = (s.sw n w).energy + convEnergy c (convNow s n w c) →
    Does (.toneTrip n w c) s fun u => (u.sw n w).energy = e ∧ otherSwitches n w s u ∧ KeptBut (.st :: fieldTold) s u
      ∧ (toneLimit w ≤ e → (u.sw n w).tone = some s.now ∧ (u.sw n w).on = false ∧ (u.sw n w).inrush = none)
      ∧ (e < toneLimit w → (u.sw n w).tone = none)) ∧
  (∀ (n : Fin 64) (w : Sw) (c : Conv) (i h : Nat) (s : State), betweenSamples s n w → (s.sw n w).uvWait = false → (s.sw n w).inrush = none →
    (s.sw n w).fuse = none →
    i = convNow s n w c →
    h = fuseStep (fuseSteps ((s.now - (s.sw n w).heatAt) / 50 - 1) (s.sw n w).heat (if outputOn s n w then (s.sw n w).cur else 0) (wireIn s n w)
      (wireTau s n w)) i (wireIn s n w) (wireTau s n w) →
    Does (.fuseTrip n w c) s fun u => (u.sw n w).cur = i ∧ otherSwitches n w s u ∧ KeptBut (.st :: fieldTold) s u
      ∧ (1210000000000 ≤ h → (u.sw n w).fuse = some s.now ∧ (u.sw n w).on = false)
      ∧ (h < 1210000000000 → (u.sw n w).fuse = none) ∧ ((s.sw n w).on = true → (u.sw n w).on = true → (u.sw n w).heat = h)) ∧
  (∀ (n : Fin 64) (w : Sw) (c : Conv) (t : Nat) (s : State), betweenSamples s n w → (s.sw n w).uvWait = false → outputOn s n w = true →
    (s.sw n w).inrush = none → (s.sw n w).short = none → (s.sw n w).shortSince = some t →
    steadyLimit w ≤ (sense w (s.sw n w).high (s.sw n w).downNext c).i → 4 * c.out < c.u →
    Does (.shortTrip n w c) s fun u => otherSwitches n w s u ∧ KeptBut (.st :: fieldTold) s u ∧ (u.sw n w).cur = convNow s n w c
      ∧ (t + 1000 ≤ s.now → (u.sw n w).short = some s.now ∧ (u.sw n w).on = false)
      ∧ (s.now < t + 1000 → (u.sw n w).short = none ∧ ((u.sw n w).on = true → (u.sw n w).shortSince = some t ∧ (u.sw n w).limiting = true))) ∧
  (∀ (n : Fin 64) (w : Sw) (c : Conv) (s : State), betweenSamples s n w → (s.sw n w).uvWait = false → (s.sw n w).tj = none →
    Does (.tjTrip n w c) s fun u => (u.sw n w).die = c.die ∧ otherSwitches n w s u ∧ KeptBut (.st :: fieldTold) s u
      ∧ (165 ≤ c.die → (u.sw n w).tj = some s.now ∧ (u.sw n w).on = false) ∧ (c.die < 165 → (u.sw n w).tj = none)) ∧
  (∀ (n : Fin 64) (w : Sw) (c : Conv) (t : Nat) (s : State), betweenSamples s n w → (s.sw n w).uvWait = false → outputOn s n w = false →
    (s.sw n w).clamp = none → (s.sw n w).lastClamp = some t →
    Does (.clampLock n w c) s fun u => otherSwitches n w s u ∧ KeptBut (.st :: fieldTold) s u
      ∧ (c.out + clampVoltage w ≤ c.u → ∃ a e, (u.sw n w).pulse = some (a, e) ∧ (u.sw n w).lastClamp = some t
        ∧ (∀ p q, (s.sw n w).pulse = some (p, q) → a = p ∧ e = q + convEnergy c (sense w (s.sw n w).high (s.sw n w).downNext c).i)
        ∧ ((s.sw n w).pulse = none → e = convEnergy c (sense w (s.sw n w).high (s.sw n w).downNext c).i
          ∧ a = 1000000 * (if 125 < c.die then clampAllowance w (some (s.now - t)) / 2 else clampAllowance w (some (s.now - t))))
        ∧ (a < e → (u.sw n w).clamp = some s.now ∧ (u.sw n w).on = false) ∧ (e ≤ a → (u.sw n w).clamp = none))
      ∧ ((c.u : Int) < c.out + clampVoltage w → (u.sw n w).pulse = none
        ∧ (u.sw n w).lastClamp = (if (s.sw n w).pulse.isSome then some s.now else some t))) ∧
  (∀ (n : Fin 64) (w : Sw) (c : Conv) (s : State), betweenSamples s n w → (s.sw n w).uvWait = false →
    Does (.underVoltageOff n w c) s fun u => (u.sw n w).u = c.u ∧ (u.sw n w).cmd = (s.sw n w).cmd ∧ otherSwitches n w s u
      ∧ KeptBut (.st :: fieldTold) s u
      ∧ (uvLevel s n w ≤ c.u → (u.sw n w).uvSince = none ∧ (u.sw n w).uvOff = (s.sw n w).uvOff ∧ (u.sw n w).uvWait = false)
      ∧ (c.u < uvLevel s n w → (s.sw n w).uvSince = none → (u.sw n w).uvSince = some s.now ∧ (u.sw n w).uvWait = false)
      ∧ (∀ t, (s.sw n w).uvSince = some t → c.u < uvLevel s n w → s.now < t + uvTime w → (u.sw n w).uvWait = false)
      ∧ (∀ t, (s.sw n w).uvSince = some t → c.u < uvLevel s n w → t + uvTime w ≤ s.now →
        (u.sw n w).on = false ∧ (u.sw n w).uvOff = true ∧ (u.sw n w).uvWait = true)) ∧
  (∀ (n : Fin 64) (w : Sw) (c : Conv) (s : State), betweenSamples s n w → (s.sw n w).uvWait = true → (w = .fd → fieldKey s n .fd .UNOM ≠ .unset) →
    actSw s n w = w →
    Does (.underVoltageRestart n w c) s fun u => (u.sw n w).u = c.u ∧ otherSwitches n w s u ∧ KeptBut (.st :: fieldTold) s u
      ∧ (c.u ≤ uvBack s n w → (u.sw n w).upSince = none ∧ (u.sw n w).uvWait = true)
      ∧ (uvBack s n w < c.u → (s.sw n w).upSince = none → (u.sw n w).upSince = some s.now ∧ (u.sw n w).uvWait = true)
      ∧ (∀ t, (s.sw n w).upSince = some t → uvBack s n w < c.u → s.now < t + backTime w → (u.sw n w).uvWait = true)
      ∧ (∀ t, (s.sw n w).upSince = some t → uvBack s n w < c.u → t + backTime w ≤ s.now → (u.sw n w).uvOff = false ∧ (u.sw n w).uvWait = false
        ∧ ((s.sw n w).cmd = true → (s.sw n w).flash = none → (u.sw n w).tripped = false → (w = .fd → elementsClosed s n = true) →
          (u.sw n w).on = true)))

/-- Samples of a switch and drive modes (R215, R216, R229 to R233, R267): the conversion that completes a lamp sample gives its mean and the
open-load verdict, the compliance verdict enters after its time and clears again, a PWM period takes the duty its supply asks for, the range
follows its thresholds, and a flashing channel takes its phase. -/
def Obligations.SwitchSamples : Prop :=
  (∀ (n : Fin 64) (w : Sw) (c : Conv) (a : Acc) (t : Nat) (s : State), completesSample s n w c → a = sampled s n w c → olJudged s n w a = true →
    (s.sw n w).olSince = some t →
    Does (.openLoad n w c) s fun u => (u.sw n w).i = roundDiv a.sum 20 ∧ (u.sw n w).acc = {} ∧ otherSwitches n w s u
      ∧ KeptBut (.st :: fieldTold) s u
      ∧ ((s.sw n w).openLoad = false → (sampleMeas s n w a).i < (s.sw n w).olThr →
        (u.sw n w).openLoad = decide (t + (s.sw n w).olTime ≤ s.now) ∧ (u.sw n w).olPasses = 0)
      ∧ ((s.sw n w).openLoad = true → (s.sw n w).olThr ≤ (sampleMeas s n w a).i →
        (u.sw n w).openLoad = decide ((s.sw n w).olPasses < 9) ∧ (u.sw n w).olSince = none)) ∧
  (∀ (n : Fin 64) (b : Bool) (c : Conv) (i t iset : Nat) (s : State), (s.slc (slotOf n)).powered = true →
    (s.sw n (chanSw b)).acc.count < 19 → tripCauses (chanSw b) s.now ((measure n (chanSw b) c s).sw n (chanSw b)) = [] →
    (s.sw n (chanSw b)).uvWait = false → (s.sw n (chanSw b)).inrush = none → fieldKey s n (chanSw b) .MODE = .w "CC" →
    outputOn s n (chanSw b) = true → (s.sw n (chanSw b)).ramp ≠ some false → (s.sw n (chanSw b)).complySince = some t →
    iset = fieldN s n (chanSw b) .ISET → i = convNow s n (chanSw b) c →
    Does (.compliance n b c) s fun u => (u.sw n (chanSw b)).cur = i ∧ (u.sw n (chanSw b)).held = ccTarget s n (chanSw b)
      ∧ (u.sw n (chanSw b)).fullOn
        = decide ((sense (chanSw b) (s.sw n (chanSw b)).high (s.sw n (chanSw b)).downNext c).i < ccTarget s n (chanSw b)) ∧ otherSwitches n (chanSw b) s u ∧ KeptBut (.st :: fieldTold) s u
      ∧ ((s.sw n (chanSw b)).comply = false → i + max (iset / 50) 10 < iset → (u.sw n (chanSw b)).comply = decide (t + 10000 ≤ s.now))
      ∧ ((s.sw n (chanSw b)).comply = true → iset ≤ i + iset / 100 → i ≤ iset + iset / 100 →
        (u.sw n (chanSw b)).comply = decide (s.now < t + 100000))) ∧
  (∀ (n : Fin 64) (b : Bool) (v : Nat) (d : Nat × Bool) (s : State), cpMode s n (chanSw b) = true → periodStart s n (chanSw b) = true →
    d = dutyOf (fieldN s n (chanSw b) .PWR) (fieldN s n (chanSw b) .UREF) v →
    Does (.pwmPeriodStart n b v) s fun u => u.sw n (chanSw b) = { s.sw n (chanSw b) with
        duty := d.1, sat := d.2, u := v, pwmF := max 1 (fieldN s n (chanSw b) .PWMF)
        pwmPh := match fieldKey s n (chanSw b) .PPHASE with | .i v => some v.toNat | _ => none }
      ∧ otherSwitches n (chanSw b) s u ∧ KeptBut (.st :: fieldTold) s u) ∧
  (∀ (n : Fin 64) (w : Sw) (c : Conv) (s : State), betweenSamples s n w → (s.sw n w).uvWait = false → outputOn s n w = true →
    tripCauses w s.now ((measure n w c (windowClose n w s)).sw n w) = [] →
    Does (.rangeChange n w ⟨c.low, c.high⟩ ⟨c.u, c.out, c.die⟩) s fun u => otherSwitches n w s u ∧ KeptBut (.st :: fieldTold) s u
      ∧ ((s.sw n w).downNext = true → (u.sw n w).high = false ∧ (u.sw n w).downNext = false ∧ (u.sw n w).flaggedAt = some s.now)
      ∧ ((s.sw n w).downNext = false → (s.sw n w).high = true →
        (u.sw n w).high = true ∧ (u.sw n w).downNext = decide (highReading w c.high ≤ byClass w 16000 2000))
      ∧ ((s.sw n w).downNext = false → (s.sw n w).high = false → (u.sw n w).high = decide (byClass w 19200 2400 ≤ lowReading w c.low)
        ∧ (byClass w 19200 2400 ≤ lowReading w c.low → (u.sw n w).flaggedAt = some s.now))) ∧
  (∀ (n : Fin 64) (b p : Bool) (f : Flash) (x : Switch) (s : State), x = s.sw n (chanSw b) → x.flash = some f → actSw s n (chanSw b) = chanSw b →
    p = flashOn f (fieldFlash s n) →
    Does (.flashEdge n b) s fun u => (u.sw n (chanSw b)).lamp.onPhase = p ∧ (u.sw n (chanSw b)).flash = some f
      ∧ otherSwitches n (chanSw b) s u ∧ KeptBut [.st] s u
      ∧ (p = false → x.isOn s.now = false → (u.sw n (chanSw b)).on = false)
      ∧ (p = false → x.isOn s.now = true → x.ramp ≠ some false → (u.sw n (chanSw b)).ramp = some false ∧ (u.sw n (chanSw b)).rampAt = s.now
        ∧ (u.sw n (chanSw b)).level = outLevel s n (chanSw b)
        ∧ (u.sw n (chanSw b)).rate = (if fieldProved s n (chanSw b) && x.lamp.edged then 2000000 else x.slew))
      ∧ (p = true → canTurnOn s n (chanSw b) = true → (u.sw n (chanSw b)).on = true ∧ (u.sw n (chanSw b)).ramp ≠ some false))

/-- Lamp proving (R248 to R264): a lit sample below ONTHR counts as a failure and eight in succession make the lamp dark; passing ones clear
the verdict of a lamp without a reserve; a proving pulse counts at its grid point, two failed ones make the lamp dark, a void pulse is
repeated and a void repeat counts as failed; the lit phase of PROVE LEARN ends with I_on. -/
def Obligations.LampsAreProved : Prop :=
  (∀ (n : Fin 64) (b : Bool) (c : Conv) (a : Acc) (s : State), completesSample s n (chanSw b) c → a = sampled s n (chanSw b) c →
    litJudged s n (chanSw b) a → litValue s n (chanSw b) (sampleMeas s n (chanSw b) a) < kInt (fieldKey s n (chanSw b) .ONTHR) →
    Does (.lampDarkLit n b c) s fun u => (u.sw n (chanSw b)).lamp.litFails = min 8 ((s.sw n (chanSw b)).lamp.litFails + 1)
      ∧ (u.sw n (chanSw b)).lamp.litPasses = 0 ∧ (7 ≤ (s.sw n (chanSw b)).lamp.litFails → (u.sw n (chanSw b)).lamp.dark = true)
      ∧ otherStations n s u ∧ KeptBut (.st :: fieldTold) s u) ∧
  (∀ (n : Fin 64) (b : Bool) (c : Conv) (a : Acc) (s : State), completesSample s n (chanSw b) c → a = sampled s n (chanSw b) c →
    litJudged s n (chanSw b) a → kInt (fieldKey s n (chanSw b) .ONTHR) ≤ litValue s n (chanSw b) (sampleMeas s n (chanSw b) a) →
    Does (.lampClear n b c) s fun u => (u.sw n (chanSw b)).lamp.litFails = 0 ∧ (u.sw n (chanSw b)).lamp.gridFails = 0
      ∧ (u.sw n (chanSw b)).lamp.litPasses = min 8 ((s.sw n (chanSw b)).lamp.litPasses + 1)
      ∧ (7 ≤ (s.sw n (chanSw b)).lamp.litPasses → (b = true ∨ fieldReserve s n = false) → (u.sw n (chanSw b)).lamp.dark = false)
      ∧ (b = false → fieldReserve s n = true → (u.sw n .la).lamp.dark = (s.sw n .la).lamp.dark)
      ∧ otherStations n s u ∧ KeptBut (.st :: fieldTold) s u) ∧
  (∀ (n : Fin 64) (b : Bool) (cs : List Conv) (m : Meas) (s : State), m = pulseMeas (chanSw b) cs → wholePulse s n (chanSw b) cs = true →
    (s.slc (slotOf n)).powered = true → gridPoint s n (chanSw b) = true → fieldProved s n (chanSw b) = true →
    (b = false → (s.stn n).la.lamp.returnDue = false) → learnOp s n b = none →
    Does (.provingPulse n b cs) s fun u => otherStations n s u ∧ KeptBut (.st :: fieldTold) s u
      ∧ (gridSkipped s n (chanSw b) = true → (u.sw n (chanSw b)).lamp = { (s.sw n (chanSw b)).lamp with lastSkipped := true, lastFailed := false })
      ∧ (gridSkipped s n (chanSw b) = false → (atGrid s n (chanSw b)).2 = true → (u.sw n (chanSw b)).lamp.lastFailed = true
        ∧ (u.sw n (chanSw b)).lamp.gridFails = min 2 ((s.sw n (chanSw b)).lamp.gridFails + 1))
      ∧ (gridSkipped s n (chanSw b) = false → (atGrid s n (chanSw b)).2 = false → m.flagged = true → (u.sw n (chanSw b)).lamp.lastVoid = true
        ∧ (u.sw n (chanSw b)).lamp.repeatDue = true ∧ (u.sw n (chanSw b)).lamp.gridFails = (s.sw n (chanSw b)).lamp.gridFails)
      ∧ (gridSkipped s n (chanSw b) = false → (atGrid s n (chanSw b)).2 = false → m.flagged = false →
        (u.sw n (chanSw b)).lamp.lastVoid = false ∧ (u.sw n (chanSw b)).lamp.lastFailed = !pulsePasses s n (chanSw b) m
        ∧ (u.sw n (chanSw b)).lamp.gridFails = (if pulsePasses s n (chanSw b) m then 0 else min 2 ((s.sw n (chanSw b)).lamp.gridFails + 1))
        ∧ (pulsePasses s n (chanSw b) m = false → 1 ≤ (s.sw n (chanSw b)).lamp.gridFails → (u.sw n (chanSw b)).lamp.dark = true))) ∧
  (∀ (n : Fin 64) (b : Bool) (cs : List Conv) (m : Meas) (s : State), m = pulseMeas (chanSw b) cs → wholePulse s n (chanSw b) cs = true →
    (s.sw n (chanSw b)).lamp.repeatDue = true → repeatPoint s n (chanSw b) = true → fieldProved s n (chanSw b) = true →
    (b = false → (s.stn n).la.lamp.returnDue = false) → learnOp s n b = none →
    Does (.voidPulseRepeat n b cs) s fun u => otherStations n s u ∧ KeptBut (.st :: fieldTold) s u
      ∧ (u.sw n (chanSw b)).lamp.repeatDue = false ∧ (u.sw n (chanSw b)).lamp.lastVoid = m.flagged
      ∧ (u.sw n (chanSw b)).lamp.gridFails = (if !m.flagged && pulsePasses s n (chanSw b) m then 0 else min 2 ((s.sw n (chanSw b)).lamp.gridFails + 1))) ∧
  (∀ (n : Fin 64) (b : Bool) (i : Int) (k t j : Nat) (left : List Bool) (res : List (Nat × Nat)) (pul : List Int) (o : Op) (s : State),
    learnOp s n b = some o → o.prog = .proveLearn k left res (some t) pul j → t ≤ s.now →
    i = roundDiv (s.sw n (chanSw b)).lamp.litSum (max 1 (s.sw n (chanSw b)).lamp.litCount) →
    Does (.learnLitPhaseEnd (Fin.ofNat 8 (n.val / 8)) (Fin.ofNat 8 n.val) b) s fun u => (u.stn n).buf.load (chanSw b) = .off ∧ otherStations n s u ∧ bufferedOnly s u
      ∧ (i < 50 → ∀ q ∈ u.ops, q.id ≠ o.id)
      ∧ (50 ≤ i → (∀ q ∈ u.ops, q.id = o.id → q.prog = .proveLearn n left res none [] i.toNat) ∧ KeptBut [.st, .ops] s u))

/-- LINE (R78 to R83, R288): a sample of a tacho circuit that changes its filtered state is an edge, which moves LINE by its distance, and one
that changes it not moves nothing; a filtered mark pulse corrects it by the tiers of R82, a mark that is missed or two
counts that disagree make it PROVISIONAL, and a tacho fault makes it LOST with its value kept. -/
def Obligations.LineFollowsTacho : Prop :=
  (∀ (i : PulseIn) (v : Nat) (forward : Bool) (x : LineIn) (s : State), lineRuns s = true → s.keyIs .line .TACHO "QUAD" = true → i ≠ .mark →
    x = lineSample s 5 v (s.line.pulseIn i) → x.on ≠ (s.line.pulseIn i).on →
    ∀ h : Int, h = s.line.half + (if forward then 2 * s.keyI .line .DPP else -(2 * s.keyI .line .DPP)) →
    Does (.tachoEdge i v forward) s fun u => u.line.um = wrapUm (s.line.um + h / 2) ∧ u.line.half = h % 2 ∧ u.line.st = s.line.st
      ∧ u.line.pulseIn i = x ∧ KeptBut [.line, .crossings, .work] s u) ∧
  (∀ (i : PulseIn) (v : Nat) (forward : Bool) (x : LineIn) (s : State), lineRuns s = true → s.keyIs .line .TACHO "QUAD" = false → i ≠ .mark →
    x = lineSample s 5 v (s.line.pulseIn i) → x.on = true → (s.line.pulseIn i).on = false → s.line.only = none →
    ∀ h : Int, h = s.line.half + (if s.keyIs .line .DIR "REV" then -s.keyI .line .DPP else s.keyI .line .DPP) →
    Does (.tachoEdge i v forward) s fun u => u.line.um = wrapUm (s.line.um + h / 2) ∧ u.line.half = h % 2 ∧ u.line.st = s.line.st
      ∧ u.line.pulseIn i = x ∧ KeptBut [.line, .crossings, .work] s u) ∧
  (∀ (i : PulseIn) (v : Nat) (forward : Bool) (x : LineIn) (s : State), lineRuns s = true →
    x = lineSample s (if i = .mark then 200 else 5) v (s.line.pulseIn i) → (i = .mark ∨ x.on = (s.line.pulseIn i).on) →
    Does (.tachoEdge i v forward) s fun u => u.line = { s.line.setPulseIn i x with
        markDue := s.line.markDue || (decide (i = .mark) && x.on && !(s.line.pulseIn i).on) } ∧ KeptBut [.line] s u) ∧
  (∀ (k : Nat) (mm a : Int) (s : State), lineRuns s = true → s.line.markDue = true → nearest s = some (k, mm) → noneCoupled s = true → a = (lineMm s - mm).natAbs →
    Does .markPulse s fun u => KeptBut (.line :: .crossings :: .jrn :: overParts) s u
      ∧ (s.line.st = .certain → a ≤ s.keyI .line .MARKTOL → u.line.st = .certain ∧ u.line.um = 1000 * mm ∧ u.line.half = 0 ∧ k ∈ u.line.matched)
      ∧ (s.line.st = .certain → s.keyI .line .MARKTOL < a → u.line.st = .provisional
        ∧ u.line.um = (if a ≤ s.keyI .line .MARKWIN then 1000 * mm else s.line.um))
      ∧ (s.line.st = .provisional → a ≤ s.keyI .line .MARKTOL → u.line.st = .certain ∧ u.line.um = 1000 * mm ∧ u.line.half = 0)
      ∧ (s.line.st = .provisional → s.keyI .line .MARKTOL < a → u.line.st = .provisional
        ∧ u.line.um = (if a ≤ s.keyI .line .MARKWIN then 1000 * mm else s.line.um))
      ∧ u.line.markDue = false ∧ (s.line.st = .lost → u.line = { s.line with markDue := false })) ∧
  (∀ (k : Nat) (s : State), lineRuns s = true → s.line.st = .certain → k ∈ s.line.passed → nearMark s k = false → noneCoupled s = true →
    Does (.markMissed k) s fun u => u.line.st = .provisional ∧ u.line.um = s.line.um ∧ k ∉ u.line.passed
      ∧ KeptBut [.line, .pool, .crossings, .sess, .sup, .jrn] s u) ∧
  (∀ s : State, lineRuns s = true → s.keyIs .line .TACHO "QUAD" = true → noneCoupled s = true →
    Does .tachoFault s fun u => u.line = { s.line with st := .lost } ∧ KeptBut [.line, .pool, .crossings, .sess, .sup, .jrn] s u) ∧
  (∀ s : State, lineRuns s = true → s.keyIs .line .TACHO "DUAL" = true → dualDoubt s = true → noneCoupled s = true →
    Does .tachoDualMismatch s fun u => u.line.only = soleInput s ∧ u.line.um = s.line.um
      ∧ u.line.st = (if s.line.st = .certain then .provisional else s.line.st) ∧ KeptBut [.line, .pool, .crossings, .sess, .sup] s u)

/-- Edges and faults of an axis (R126, R130, R135, R144 to R146): an encoder edge moves the position by one count in EDIR's direction, a
completed interval the commanded position by one microstep; an encoder fault, a missing index and an index beyond ITOL lose the reference; a
following error and a feed that is off end the train and the command; a silent slice's
buffers are discarded, and no step of the motions under way goes out any more. -/
def Obligations.AxisEdgesAndFaults : Prop :=
  (∀ (n : Fin 64) (up : Bool) (s : State), laneUp s n = true → (s.ax n).motion = none → (s.ax n).ahead = [] → noneCoupled s = true →
    Does (.encoderEdge n up) s fun u =>
      (u.ax n).pos = wrap32 (if up = s.keyIs (.ch n .ax) .EDIR "NORM" then (s.ax n).pos + 1 else (s.ax n).pos - 1)
      ∧ (u.ax n).sinceIdx = (s.ax n).sinceIdx + 1 ∧ (u.ax n).cmd = (s.ax n).cmd ∧ otherStations n s u ∧ KeptBut [.st, .crossings, .work] s u) ∧
  (∀ (n : Fin 64) (i : Ivl) (s : State), (s.ax n).loaded = some i → i.edge ≤ s.tick → (s.ax n).ahead = [] →
    (∀ m, (s.ax n).motion = some m → m.moving = true) →
    Does (.stepEdge n) s fun u => (u.ax n).cmd = (if i.neg then (s.ax n).cmd - 1 else (s.ax n).cmd + 1) ∧ (u.ax n).loaded = none
      ∧ (u.ax n).dirNeg = i.neg ∧ (u.ax n).pos = (s.ax n).pos ∧ (u.ax n).motion = (s.ax n).motion ∧ otherStations n s u ∧ KeptBut [.st] s u) ∧
  (∀ (n : Fin 64) (k : EncFault) (s : State), laneUp s n = true → (s.ax n).motion = none → (isLeaf s n && leafMoves (s.stn n).leaf) = false →
    noneCoupled s = true →
    Does (.encoderFault n k) s fun u => (u.ax n).fault = some "encoder" ∧ (u.ax n).referenced = false ∧ (u.ax n).idx = none
      ∧ (u.ax n).pos = (s.ax n).pos ∧ otherStations n s u ∧ KeptBut (.st :: .crossings :: .jrn :: overParts) s u) ∧
  (∀ (n : Fin 64) (s : State), laneUp s n = true → s.keyIs (.ch n .ax) .INDEX "ON" = true → (s.ax n).referenced = true → (s.ax n).idx.isSome = true →
    s.key (.ch n .ax) .REVCNT ≠ .unset → s.axK n .REVCNT + s.axK n .ITOL < (s.ax n).sinceIdx → (s.ax n).motion = none →
    (isLeaf s n && leafMoves (s.stn n).leaf) = false → noneCoupled s = true →
    Does (.indexMissing n) s fun u => (u.ax n).referenced = false ∧ (u.ax n).idx = none ∧ (u.ax n).pos = (s.ax n).pos ∧ otherStations n s u
      ∧ KeptBut (.st :: .crossings :: .jrn :: overParts) s u) ∧
  (∀ (n : Fin 64) (x : Option Int) (s : State), laneUp s n = true → s.engDown .mot = false → s.keyIs (.ch n .ax) .INDEX "ON" = true →
    (s.ax n).referenced = true → (s.ax n).idx = x → s.key (.ch n .ax) .REVCNT ≠ .unset → (s.ax n).motion = none →
    (isLeaf s n && leafMoves (s.stn n).leaf) = false → noneCoupled s = true →
    Does (.indexPulse n) s fun u => otherStations n s u ∧ KeptBut (.st :: .crossings :: .jrn :: overParts) s u
      ∧ (x = none → (u.ax n).idx = some (s.ax n).pos ∧ (u.ax n).sinceIdx = 0 ∧ (u.ax n).pos = (s.ax n).pos ∧ (u.ax n).referenced = true)
      ∧ (∀ y, x = some y → ((s.ax n).pos - indexExpected s n y).natAbs ≤ s.axK n .ITOL →
        (u.ax n).pos = (if (s.ax n).pos = indexExpected s n y then (s.ax n).pos else wrap32 (indexExpected s n y))
          ∧ (u.ax n).sinceIdx = 0 ∧ (u.ax n).referenced = true)
      ∧ (∀ y, x = some y → s.axK n .ITOL < ((s.ax n).pos - indexExpected s n y).natAbs → (s.ax n).pos ≠ indexExpected s n y →
        (u.ax n).referenced = false ∧ (u.ax n).pos = (s.ax n).pos)) ∧
  (∀ (n : Fin 64) (m : Motion) (i : Ivl) (s : State), laneUp s n = true → heldFor (s.ax n).ferrSince s.now 5000 = true → (s.ax n).fault ≠ some "follow" →
    s.engDown .mot = false → (s.ax n).motion = some m → m.turn = none → (s.ax n).loaded = some i → isLeaf s n = false →
    Does (.followingError n) s fun u => (u.ax n).fault = some "follow" ∧ (u.ax n).ahead = []
      ∧ (u.ax n).motion = some { m with op := none, segs := [], phase := .stopping, ending := some .done } ∧ (u.ax n).pos = (s.ax n).pos
      ∧ commandOver m u ∧ otherStations n s u ∧ KeptBut (.st :: .jrn :: overParts) s u) ∧
  (∀ (n : Fin 64) (m : Motion) (i : Ivl) (s : State), (s.ax n).motion = some m → m.phase = .running → m.turn = none → (s.ax n).loaded = some i →
    fdConducts s n = false → isLeaf s n = false →
    Does (.fdOffDuringMotion n) s fun u => (u.ax n).ahead = [] ∧ (u.ax n).loaded = some i
      ∧ (u.ax n).motion = some { m with op := none, segs := [], phase := .stopping, ending := some .done }
      ∧ commandOver m u ∧ otherStations n s u ∧ KeptBut (.st :: overParts) s u) ∧
  (∀ (p : Fin 8) (s : State),
    Does (.stepLaneSilence p) s fun u => (∀ m ∈ stationsOf p, chFitted s m .ax = true → (u.ax m).ahead = [] ∧ (u.ax m).loaded = (s.ax m).loaded
        ∧ (u.ax m).motion = (s.ax m).motion.map (fun x => if x.phase = .waiting ∨ x.phase = .held then x else { x with segs := [], cut := true })
        ∧ (u.ax m).cmd = (s.ax m).cmd)
      ∧ u.slc p = { s.slc p with stepQuiet := true } ∧ (∀ k, k ≠ p.val → u.slc k = s.slc k)
      ∧ (∀ m, m ∉ stationsOf p → u.stn m = s.stn m) ∧ KeptBut [.st, .sl] s u) ∧
  (∀ s : State, (s.st.map fun e => e.2.axis.lateNow).sum ≠ 0 → s.engDown .jrn = false →
    Does .stepLate s fun u => u.st = s.st.map (fun e => (e.1, { e.2 with axis := { e.2.axis with lateNow := 0 } }))
      ∧ (∃ r, u.jrn.buf = s.jrn.buf ++ [r] ∧ r.code = 0x0304 ∧ r.num = s.jrn.nextNum) ∧ KeptBut [.st, .jrn] s u)

/-- How motions go on and end (R136, R143, R150 to R163): a limit switch stops an axis that runs toward it, a held axis that drifts loses
its command, the follower honours a coarse edge or counts it as skipped, a coupled slave takes its master's target or holds, a lag too long
ends the coupling, a motion on its target is complete, and at standstill a stopped motion is held or over. -/
def Obligations.MotionsGoOnAndEnd : Prop :=
  (∀ (n : Fin 64) (b : Bool) (m : Motion) (i : Ivl) (s : State), laneUp s n = true → limitActive s n (!b) = true → (s.ax n).motion = some m →
    m.phase = .running → (s.ax n).loaded = some i → i.neg = !b → isLeaf s n = false → (s.stn n).doorOp = none →
    Does (.limitSwitch n b) s fun u => (∃ y, (u.ax n).motion = some y ∧ y.phase = .stopping ∧ y.op = none ∧ y.ending = some .done)
      ∧ (u.ax n).pos = (s.ax n).pos ∧ (u.ax n).loaded = some i ∧ commandOver m u ∧ otherStations n s u ∧ KeptBut (.st :: overParts) s u
      ∧ (s.keyIs (.ch n .ax) .LIMSTOP "HARD" = true → (u.ax n).ahead = [])) ∧
  (∀ (n : Fin 64) (m : Motion) (s : State), (s.ax n).motion = some m → m.phase = .held → s.axK n .FERR < ((s.ax n).pos - m.heldPos).natAbs →
    Does (.heldPositionDrift n) s fun u => (u.ax n).motion = none ∧ (u.ax n).pos = (s.ax n).pos ∧ commandOver m u ∧ otherStations n s u
      ∧ KeptBut (.st :: overParts) s u) ∧
  (∀ (n : Fin 64) (b : Bool) (sub : Fin 1500) (m : Motion) (f : Follow) (s : State), laneUp s n = true → (s.ax n).motion = some m → m.follow = some f →
    isLeaf s n = false → (s.stn n).doorOp = none →
    Does (.coarseStepEdge n b sub) s fun u => otherStations n s u ∧ (u.ax n).pos = (s.ax n).pos
      ∧ ((m.phase = .waiting ∨ m.phase = .held ∨ f.following = false) → (u.ax n).skipped = (s.ax n).skipped + 1 ∧ (u.ax n).motion = some m
        ∧ KeptBut [.st] s u)
      ∧ (∀ i, m.phase = .running → f.following = true → limitActive s n (!b) = true → (s.ax n).loaded = some i →
        (∃ y, (u.ax n).motion = some y ∧ y.phase = .stopping ∧ y.op = none ∧ y.ending = some .done) ∧ commandOver m u)
      ∧ (m.phase = .running → f.following = true → limitActive s n (!b) = false → (s.ax n).referenced = false → ((owedRuns (s.ax n)).map (·.2)).sum ≤ 15 * f.fact →
        ∃ y g, (u.ax n).motion = some y ∧ y.follow = some g ∧ g.last = some (s.tick + sub) ∧ g.neg = !b
          ∧ g.net = (if b then f.net + 1 else f.net - 1) ∧ g.owed = ((owedRuns (s.ax n)).map (·.2)).sum + f.fact ∧ g.fact = f.fact)) ∧
  (∀ (n : Fin 64) (m : Motion) (c : Couple) (s : State), (s.ax n).motion = some m → m.couple = some c → m.phase = .running →
    limitActive s n true = false → limitActive s n false = false →
    Does (.camMasterUpdate n) s fun u => (∀ k, k ≠ n.val → servedLeaf s n ≠ some k → u.stn k = s.stn k) ∧ (u.ax n).pos = (s.ax n).pos ∧ (∃ y d, (u.ax n).motion = some y ∧ y.couple = some d
      ∧ d.table = c.table ∧ d.master = c.master
      ∧ (tbUncertain s c.master = false → d.target = camTarget s n c ∧ d.held = false)
      ∧ (tbUncertain s c.master = true → d.held = true ∧ d.target = c.target ∧ (c.held = false → d.engaged = false)))) ∧
  (∀ (n : Fin 64) (m : Motion) (c : Couple) (i : Ivl) (s : State), (s.ax n).motion = some m → m.couple = some c → m.phase = .running →
    heldFor c.lagSince s.now 20000 = true → (s.ax n).loaded = some i →
    Does (.camLagExceeded n) s fun u => (∃ y, (u.ax n).motion = some y ∧ y.phase = .stopping ∧ y.op = none ∧ y.ending = some .done)
      ∧ (u.ax n).loaded = some i ∧ commandOver m u ∧ otherStations n s u) ∧
  (∀ (n : Fin 64) (m : Motion) (id : Nat) (s : State), (s.ax n).motion = some m → (s.ax n).loaded = none → (s.ax n).ahead = [] → planDone m = true →
    m.couple = none → m.follow = none → m.kind = .move → m.phase = .running → m.target = some (s.ax n).cmd → m.op = some id → m.ending = none →
    Does (.motionComplete n) s fun u => (u.ax n).motion = none ∧ (u.ax n).moving = false ∧ (u.stn n).wait = none ∧ (u.ax n).pos = (s.ax n).pos
      ∧ commandOver m u ∧ (∀ c ∈ u.yar.charges, c.of = n.val → c.byOut = true) ∧ otherStations n s u ∧ KeptBut (.st :: .yar :: overParts) s u) ∧
  (∀ (n : Fin 64) (m : Motion) (s : State), (s.ax n).motion = some m → m.phase = .stopping → m.turn = none → stands s n = true → isLeaf s n = false →
    Does (.axisStandstill n) s fun u => (u.ax n).moving = false ∧ (u.stn n).wait = none ∧ (u.ax n).pos = (s.ax n).pos
      ∧ (m.ending = some .hold → (u.ax n).motion = some { m with phase := .held, segs := [], heldPos := (s.ax n).pos, moving := false, couple := m.couple.map fun c => { c with engaged := false, lagSince := none } })
      ∧ (m.ending = some .done → (u.ax n).motion = none) ∧ (∀ c ∈ u.yar.charges, c.of = n.val → c.byOut = true) ∧ otherStations n s u
      ∧ u.nextOp = s.nextOp ∧ u.accNo = s.accNo ∧ KeptBut (.st :: .yar :: .ids :: overParts) s u)

/-- The door cycle's own happenings, opening and locking (R175 to R180): LOCKSW opens and the leaf opens, UNLOCKT expires and it faults unless
LOCKSW has opened, the lock zone passed up turns UNLOCK off, OPENPOS ends the opening, the lock zone entry is LOCKING or waits for the step, or
reverses by an EDGE pressed with it, CLOSEDSW starts LOCKT,
both switches make it CLOSED_LOCKED at 0, LOCKT's expiry and a forced leaf are faults, and losing permission closes it. -/
def Obligations.LeavesOpenAndLock : Prop :=
  (∀ (n : Fin 64) (s : State), isLeaf s n = true → (s.stn n).leaf = .unlocking → inOn s n .LOCKSW = false → s.engDown .lamp = false →
    Does (.lockswOpens n) s fun u => (u.stn n).leaf = .opening ∧ (u.stn n).kept = some true ∧ (u.stn n).unlockT = none
      ∧ (∃ m, (u.ax n).motion = some m ∧ m.kind = .doorOpen ∧ m.op = none) ∧ otherButStep n s u) ∧
  (∀ (n : Fin 64) (s : State), isLeaf s n = true → (s.stn n).leaf = .unlocking → dueTime (s.stn n).unlockT s = true → inOn s n .LOCKSW = true →
    Does (.unlocktExpiry n) s fun u => (u.stn n).leaf = .fault ∧ (u.stn n).cause = "unlock" ∧ (u.stn n).wait = none ∧ (u.stn n).kept = none
      ∧ (u.stn n).unlockT = none ∧ (u.stn n).doorOp = none ∧ otherButStep n s u) ∧
  (∀ (n : Fin 64) (s : State), isLeaf s n = true → (s.stn n).leaf = .unlocking → dueTime (s.stn n).unlockT s = true → inOn s n .LOCKSW = false →
    s.engDown .lamp = false →
    Does (.unlocktExpiry n) s fun u => (u.stn n).leaf = .opening ∧ (u.stn n).kept = some true ∧ (u.stn n).unlockT = none ∧ otherButStep n s u) ∧
  (∀ (n : Fin 64) (s : State), isLeaf s n = true → (s.stn n).leaf = .opening → lockPos s n ≤ (s.ax n).pos →
    Does (.lockzonePassedUp n) s fun u => (if s.keyIs (.st n) .UNLOCK "OUT1" then (u.stn n).buf.out1 else (u.stn n).buf.out0) = false
      ∧ bufferedOnly s u ∧ otherStations n s u ∧ KeptBut [.st] s u) ∧
  (∀ (n : Fin 64) (s : State), isLeaf s n = true → (s.stn n).leaf = .opening → openPos s n ≤ (s.ax n).pos → (s.stn n).learning = none →
    Does (.openposReached n) s fun u => (u.stn n).leaf = .opn ∧ (u.stn n).kept = none ∧ (u.stn n).armed = false ∧ (u.stn n).obstacle = false
      ∧ (u.stn n).doorOp = none ∧ ((s.stK n .AUTOCLOSE).toNat ≠ 0 → (u.stn n).autoT = some (afterUs (s.stK n .AUTOCLOSE).toNat s))
      ∧ otherButStep n s u) ∧
  (∀ (n : Fin 64) (s : State), isLeaf s n = true → (s.stn n).leaf = .closing → (s.ax n).referenced = true → (s.ax n).pos ≤ lockPos s n →
    (s.stn n).atZone = false → (s.ax n).motion.isSome = true → (s.stn n).wait = none → edgePresses s n = false →
    Does (.lockZoneEntry n) s fun u => (u.stn n).armed = false ∧ otherButStep n s u
      ∧ (stepOk s n = true → inOn s n .CLOSEDSW = false → (u.stn n).leaf = .locking ∧ (u.stn n).finalT = some (afterUs (s.stK n .FINALT).toNat s))
      ∧ (stepOk s n = true → inOn s n .CLOSEDSW = true → inOn s n .LOCKSW = false → (u.stn n).leaf = .locking ∧ (u.stn n).closedMade = true
        ∧ (u.stn n).finalT = none ∧ (u.stn n).lockT = some (afterUs (s.stK n .LOCKT).toNat s))
      ∧ (stepOk s n = true → bothMade s n = true → (s.stn n).learning = none → noTurn s n → (u.stn n).leaf = .closedLocked ∧ (u.ax n).pos = 0)
      ∧ (stepOk s n = false → (u.stn n).leaf = .closing ∧ (u.stn n).atZone = true)) ∧
  (∀ (n : Fin 64) (s : State), isLeaf s n = true → (s.stn n).leaf = .closing → (s.ax n).referenced = true → (s.ax n).pos ≤ lockPos s n →
    (s.stn n).atZone = false → (s.ax n).motion.isSome = true → (s.stn n).wait = none → edgePresses s n = true → (s.stn n).learning = none →
    noTurn s n →
    Does (.lockZoneEntry n) s fun u => (u.stn n).leaf = .reversing ∧ (u.stn n).obstacle = true ∧ (u.stn n).armed = false ∧ otherButStep n s u) ∧
  (∀ (n : Fin 64) (s : State), isLeaf s n = true → inOn s n .CLOSEDSW = true → (s.stn n).leaf = .locking → (s.stn n).closedMade = false →
    inOn s n .LOCKSW = false →
    Does (.closedswMakes n) s fun u => (u.stn n).closedMade = true ∧ (u.stn n).lockT = some (afterUs (s.stK n .LOCKT).toNat s) ∧ (u.stn n).finalT = none
      ∧ (u.stn n).leaf = .locking ∧ otherStations n s u ∧ KeptBut [.st, .pool, .crossings] s u) ∧
  (∀ (n : Fin 64) (s : State), isLeaf s n = true → (s.stn n).leaf = .locking → (s.stn n).closedMade = true → bothMade s n = true →
    (s.stn n).learning = none → noTurn s n →
    Does (.lockswMakes n) s fun u => (u.stn n).leaf = .closedLocked ∧ (u.ax n).referenced = true ∧ (u.ax n).pos = 0 ∧ (u.stn n).attempts = 0
      ∧ (u.stn n).doorOp = none ∧ (u.stn n).wait = none ∧ (u.stn n).lockT = none ∧ otherButStep n s u) ∧
  (∀ (n : Fin 64) (s : State), isLeaf s n = true → (s.stn n).leaf = .locking → dueTime (s.stn n).lockT s = true → inOn s n .LOCKSW = false →
    noTurn s n →
    Does (.locktExpiry n) s fun u => (u.stn n).leaf = .fault ∧ (u.stn n).cause = "lock" ∧ (u.stn n).doorOp = none ∧ otherButStep n s u) ∧
  (∀ (n : Fin 64) (s : State), isLeaf s n = true → (s.stn n).leaf = .closedLocked → bothMade s n = false → (s.stn n).doorOp = none →
    (s.stn n).learning = none → (s.stn n).wait = none →
    Does (.forcedOpen n) s fun u => (u.stn n).leaf = .fault ∧ (u.stn n).cause = "forced" ∧ otherButStep n s u) ∧
  (∀ (n : Fin 64) (s : State), isLeaf s n = true → permits s n = false →
    Does (.permissionLost n) s fun u => otherButStep n s u
      ∧ ((s.stn n).leaf = .opn → (s.stn n).wait = none → (u.stn n).wait = asksClose s .permission ∧ (u.stn n).why = .permission
        ∧ (u.stn n).leaf = .opn ∧ (u.stn n).doorOp = none)
      ∧ ((s.stn n).leaf = .unlocking → dueTime (s.stn n).unlockT s = false → inOn s n .LOCKSW = true → (u.stn n).leaf = .closedLocked ∧ (u.stn n).doorOp = none))

/-- Obstacles, dwells and the step (R181 to R189): FINAL, force above its threshold for PERSIST and a pressed edge reverse a closing leaf;
after its reopen the leaf dwells and asks to reclose, or is HELD with its attempts used up; AUTOCLOSE asks to close; the step deploys and
stows at its positions, and STOWT's expiry is a fault. -/
def Obligations.ObstaclesAndSteps : Prop :=
  (∀ (n : Fin 64) (s : State), isLeaf s n = true → (s.stn n).leaf = .locking → dueTime (s.stn n).finalT s = true → inOn s n .CLOSEDSW = false →
    (s.stn n).learning = none → noTurn s n →
    Does (.finaltExpiry n) s fun u => (u.stn n).leaf = .reversing ∧ (u.stn n).obstacle = true ∧ (u.stn n).finalT = none
      ∧ (u.stn n).reopenTo = min ((s.ax n).pos + stCounts s n .REOPEN) (openPos s n) ∧ otherButStep n s u) ∧
  (∀ (n : Fin 64) (c : Int) (t : Nat) (s : State), laneUp s n = true → isLeaf s n = true → (s.stn n).leaf = .closing → (s.stn n).armed = true →
    (s.stn n).learning = none → noTurn s n → (s.stn n).forceSince = some t → s.engDown .lamp = false →
    Does (.forceObstacle n c) s fun u => (u.stn n).feed = c ∧ otherButStep n s u
      ∧ (forceLimit s n false < c → t + (underCeiling s n .PERSIST .PERSISTMAX).toNat ≤ s.now → (u.stn n).leaf = .reversing ∧ (u.stn n).obstacle = true)
      ∧ (forceLimit s n false < c → s.now < t + (underCeiling s n .PERSIST .PERSISTMAX).toNat → (u.stn n).leaf = .closing)) ∧
  (∀ (n : Fin 64) (s : State), edgePresses s n = true → (s.stn n).learning = none → noTurn s n →
    ((s.stn n).closedMade = false ∨ bothMade s n = false) →
    Does (.edgeObstacle n) s fun u => (u.stn n).leaf = .reversing ∧ (u.stn n).obstacle = true ∧ (u.stn n).finalT = none ∧ otherButStep n s u) ∧
  (∀ (n : Fin 64) (s : State), isLeaf s n = true → (s.stn n).leaf = .reversing → (s.stn n).reopened = true → (s.stn n).rdwell = none →
    (s.stn n).wait = none →
    Does (.reopenComplete n) s fun u => otherButStep n s u
      ∧ ((s.stn n).attempts < s.keyN (.st n) .RECLOSE → (u.stn n).leaf = .reversing ∧ (u.stn n).rdwell = some (afterUs (s.stK n .RDWELL).toNat s)
        ∧ KeptBut [.st, .pool, .crossings] s u)
      ∧ (s.keyN (.st n) .RECLOSE ≤ (s.stn n).attempts → (u.stn n).leaf = .held ∧ (u.stn n).kept = some false ∧ (u.stn n).doorOp = none)) ∧
  (∀ (n : Fin 64) (s : State), isLeaf s n = true → (s.stn n).leaf = .reversing → dueTime (s.stn n).rdwell s = true →
    Does (.rdwellExpiry n) s fun u => (u.stn n).rdwell = none ∧ (u.stn n).attempts = (s.stn n).attempts + 1 ∧ (u.stn n).wait = asksClose s .reclose
      ∧ (u.stn n).leaf = .reversing ∧ otherStations n s u ∧ KeptBut [.st, .pool] s u) ∧
  (∀ (n : Fin 64) (s : State), isLeaf s n = true → (s.stn n).leaf = .opn → dueTime (s.stn n).autoT s = true → (s.stn n).wait = none →
    Does (.autocloseExpiry n) s fun u => (u.stn n).autoT = none ∧ (u.stn n).wait = asksClose s .autoclose ∧ (u.stn n).leaf = .opn
      ∧ otherStations n s u ∧ KeptBut [.st, .pool] s u) ∧
  (∀ (n : Fin 64) (s : State), isLeaf s n = true → stepOut1 s n = true → ((s.stn n).leaf = .opening ∨ (s.stn n).leaf = .reversing) →
    (s.ax n).referenced = true → stCounts s n .STEPDEP ≤ (s.ax n).pos → (s.stn n).buf.out1 = false →
    Does (.stepDeploy n) s fun u => (u.stn n).step = .deploying ∧ (u.stn n).stepSince = s.now ∧ (u.stn n).buf.out1 = true ∧ (u.stn n).stowT = none
      ∧ (u.stn n).stepT = some (afterUs (s.stK n .STEPT).toNat s) ∧ (u.stn n).leaf = (s.stn n).leaf ∧ otherStations n s u ∧ KeptBut [.st, .pool] s u) ∧
  (∀ (n : Fin 64) (s : State), isLeaf s n = true → stepOut1 s n = true → (s.stn n).leaf = .closing → (s.ax n).pos ≤ stCounts s n .STEPSTOW →
    (s.stn n).buf.out1 = true →
    Does (.stepStow n) s fun u => (u.stn n).step = .stowing ∧ (u.stn n).stepSince = s.now ∧ (u.stn n).buf.out1 = false ∧ (u.stn n).stepT = none
      ∧ (u.stn n).stowT = some (afterUs (s.stK n .STOWT).toNat s) ∧ (u.stn n).leaf = .closing ∧ otherStations n s u
      ∧ KeptBut [.st, .pool, .crossings] s u) ∧
  (∀ (n : Fin 64) (s : State), isLeaf s n = true → stepOut1 s n = true → (s.stn n).step = .deploying →
    dueTime (s.stn n).stepT s = true → inOn s n .STOWSW = false →
    Does (.steptExpiry n) s fun u => (u.stn n).step = .deployed ∧ (u.stn n).cycle.deploy = some (s.now - (s.stn n).stepSince)
      ∧ (u.stn n).leaf = (s.stn n).leaf ∧ otherStations n s u ∧ KeptBut [.st] s u) ∧
  (∀ (n : Fin 64) (s : State), isLeaf s n = true → inOn s n .STOWSW = true →
    Does (.stowswMakes n) s fun u => (u.stn n).step = .stowed ∧ otherButStep n s u
      ∧ ((s.stn n).atZone = false → (u.stn n).leaf = (s.stn n).leaf ∧ (u.stn n).wait = (s.stn n).wait)
      ∧ ((s.stn n).atZone = true → (s.stn n).leaf = .closing → bothMade s n = false →
        (u.stn n).leaf = .locking ∧ (u.stn n).wait = asksClose s (s.stn n).why)) ∧
  (∀ (n : Fin 64) (s : State), isLeaf s n = true → (s.stn n).leaf = .closing → dueTime (s.stn n).stowT s = true →
    inOn s n .STOWSW = false → noTurn s n →
    Does (.stowtExpiry n) s fun u => (u.stn n).leaf = .fault ∧ (u.stn n).cause = "step" ∧ (u.stn n).doorOp = none ∧ otherButStep n s u)

/-! ## Safety, budget, slices, power -/

/-- The lanes (R20 to R23, R198, R199, R243, R289, R332 to R335, R342, R116): a safety cycle takes the lane's circuits and computes its
masks, permissions and result record; any LOOP condition that fails opens LOOP, and LOOPDELAY closes it; disagreement, silence and a wrong
readback latch the safe state; failures, LOOP tests and a disagreeing train line have the effects named. -/
def Obligations.LanesWatch : Prop :=
  (∀ (x : Lane) (own : Circuits) (peer : Option ResultRec) (s : State), laneRuns s x = true →
    Does (.laneSafetyCycle x own peer) s fun u => KeptBut [.camp, .sess, .jrn] s u ∧ u.camp.key = readCircuit s x 20000 own.key s.camp.key
      ∧ (s.fit.optT = true → u.camp.zero = readCircuit s x 3000 own.zero s.camp.zero ∧ u.camp.rell = readCircuit s x 3000 own.rell s.camp.rell
        ∧ u.camp.relr = readCircuit s x 3000 own.relr s.camp.relr)
      ∧ (∀ p, (u.laneSlc x p).bad = false)
      ∧ (peer = none → (∀ y, y ≠ x → u.lane y = s.lane y) ∧ u.camp.safe = s.camp.safe
        ∧ ((s.lane x).sl.all (fun e => !e.2.bad) = true → (u.lane x).record = resultOf u x ∧ (u.lane x).masks = allSlices.map (fun p => (p, laneMask u x p))
          ∧ (u.lane x).permitted = BitVec.ofNat 64 (((evalSet u).map fun n => if lanePermits u x n then 2 ^ n else 0).sum)
          ∧ (loopConds u x = false → (u.lane x).loop = false ∧ (u.lane x).holdSince = none)
          ∧ (loopConds u x = true → (u.lane x).loop = (s.lane x).loop ∧ (u.lane x).holdSince = some ((s.lane x).holdSince.getD s.now))))
      ∧ (∀ q, peer = some q → (u.lane x).peerAt = s.now
        ∧ (q.frames = (u.lane x).record.frames → q ≠ (u.lane x).record → q.frames ≠ (s.lane x).record.frames → u.camp.safe = true)
        ∧ (q.frames = (s.lane x).record.frames → q ≠ (s.lane x).record → q.frames ≠ (u.lane x).record.frames → u.camp.safe = true))) ∧
  (∀ s : State, laneRuns s .a = true → laneRuns s .b = true → (s.camp.a.peerAt + 500 ≤ s.now ∨ s.camp.b.peerAt + 500 ≤ s.now) → s.camp.safe = false →
    Does .crossLaneSilence s fun u => u.camp.safe = true ∧ (∀ x, (u.lane x).loop = false ∧ (∀ p, tget 0 (u.lane x).masks p = 0)
        ∧ ((s.lane x).loop = true → (u.lane x).contact = false)) ∧ KeptBut [.camp, .jrn] s u) ∧
  (∀ (x : Lane) (s : State), laneRuns s x = true → loopConds s x = true → heldFor (s.lane x).holdSince s.now (s.keyN .unit .LOOPDELAY) = true →
    Does (.loopdelayExpiry x) s fun u => (u.lane x).loop = true ∧ (∀ y, y ≠ x → u.lane y = s.lane y) ∧ KeptBut [.camp] s u
      ∧ ((s.lane x).loop = false → (u.lane x).contact = true ∧ (u.lane x).loopAt = s.now)) ∧
  (∀ (x : Lane) (a b : Bool) (s : State), laneRuns s x = true → s.camp.test = none →
    Does (.readbackJudgement x a b) s fun u => KeptBut [.camp, .jrn, .sess, .sup] s u
      ∧ ((loopMismatch s .a a || loopMismatch s .b b) = true → u.camp.loopFault = true ∧ u.camp.safe = true)
      ∧ ((allSlices.any fun p => elementMismatch s x .a p || elementMismatch s x .b p) = true → u.camp.safe = true)
      ∧ (s.fit.optT = true → s.camp.a.loop = false → s.camp.b.loop = false → s.camp.a.loopAt + 15000 ≤ s.now → s.camp.b.loopAt + 15000 ≤ s.now →
        (u.lane x).auxRead = some (s.now, a, b)
        ∧ (a = false → b = false → auxJudged s (otherLane x) = some (false, false) → notCounted s = true → u.camp.proofAt = some s.now))
      ∧ ((loopMismatch s .a a || loopMismatch s .b b) = false → u.camp.loopFault = s.camp.loopFault)) ∧
  (∀ (x : Lane) (n : Fin 64) (b : Bool) (s : State), laneRuns s x = true → proved s n (chanSw b) = true →
    (s.laneSw x n (chanSw b)).mismatch = false → heldFor (s.laneSw x n (chanSw b)).differ s.now 20001 = true →
    Does (.laneVerdictMismatch x n b) s fun u => u.laneSw x n (chanSw b) = { s.laneSw x n (chanSw b) with mismatch := true, differ := none }
      ∧ (∀ w, w ≠ chanSw b → u.laneSw x n w = s.laneSw x n w) ∧ (∀ m, m ≠ n.val → u.laneStn x m = s.laneStn x m)
      ∧ (∀ y, y ≠ x → u.lane y = s.lane y) ∧ KeptBut [.camp, .sess, .sup, .jrn] s u) ∧
  (∀ (x : Lane) (n : Fin 64) (s : State), laneRuns s x = true → heldFor (s.laneStn x n).mainDarkAt s.now 25000 = true →
    (s.laneStn x n).reserve = false →
    Does (.changeoverNotCarriedOut x n) s fun u => u.laneStn x n = { s.laneStn x n with noChange := true }
      ∧ (∀ m, m ≠ n.val → u.laneStn x m = s.laneStn x m) ∧ (∀ y, y ≠ x → u.lane y = s.lane y) ∧ KeptBut [.camp] s u) ∧
  (∀ (x : Lane) (t : LaneTest) (s : State), laneRuns s x = true → (s.lane x).gaveUp = false →
    Does (.laneSelfTestFailure x t) s fun u => (u.lane x).driving = false ∧ (u.lane x).gaveUp = true ∧ (u.lane x).loop = false
      ∧ (∀ p, tget 0 (u.lane x).masks p = 0) ∧ (∀ y, y ≠ x → u.lane y = s.lane y) ∧ u.camp.safe = s.camp.safe ∧ KeptBut [.camp, .jrn] s u) ∧
  (∀ s : State, s.fit.optT = true → heldFor s.camp.proofAt s.now 82800000000 = true → s.camp.zero.active = true →
    s.camp.zero.activeSince + 5000000 ≤ s.now → s.camp.test = none → s.camp.forced = false →
    Does .loopTest23h s fun u => u.camp.test = some ("23 h", s.now) ∧ u.camp.forced = true ∧ (∀ x, (u.lane x).loop = false ∧ (u.lane x).holdSince = none) ∧ KeptBut [.camp] s u) ∧
  (∀ s : State, s.fit.optT = true → heldFor s.camp.proofAt s.now 86400000000 = true → s.camp.test = none → s.camp.forced = false →
    Does .loopTest24h s fun u => u.camp.test = some ("24 h", s.now) ∧ u.camp.forced = true ∧ (∀ x, (u.lane x).loop = false ∧ (u.lane x).holdSince = none) ∧ KeptBut [.camp] s u) ∧
  (∀ (h : HeadObj) (t : TwoCircuit) (s : State), circuitOf s.camp h = some t → heldFor t.differSince s.now 10001 = true → t.blocked = false →
    Does (.trainLineDisagreement h) s fun u => (∃ v, circuitOf u.camp h = some v ∧ v.blocked = true ∧ v.active = false ∧ v.agreeSince = none
        ∧ v.a = t.a ∧ v.b = t.b) ∧ (∀ g, g ≠ h → circuitOf u.camp g = circuitOf s.camp g) ∧ u.camp.a = s.camp.a ∧ u.camp.b = s.camp.b
      ∧ (h = .key → (u.ses 0).auth = false) ∧ KeptBut [.camp, .jrn, .sess] s u) ∧
  (∀ s : State, s.camp.key.active = false → (s.ses 0).auth = true →
    Does .keyInactive s fun u => (u.ses 0).auth = false ∧ othersKept 0 s u ∧ KeptBut [.sess] s u
      ∧ (hears s 0 = true → (u.ses 0).out = (s.ses 0).out ++ [sentTo s 0 none (tilR "auth" [.w "off"])]))

/-- The elements and safety messages (R19, R190, R228, R338, R341, R348 to R353): a mask as its lane sends it sets a slice's elements and a
missing one clears them, a feed whose element opens is off; the backstop trips in a lane by its own reading; a failed sense test is
marked for the frames, and two in succession declare a fault in the lane that reads them; each message sent counts; one that passes the tests of R351 is accepted, one with a wrong code does nothing, and a connection in
silence for SMTIMEOUT is lost. -/
def Obligations.ElementsAndMessages : Prop :=
  (∀ (x : Lane) (p : Fin 8) (mask : Byte) (s : State), (s.slc p).powered = true → s.head.powered = true → mask = tget 0 (s.lane x).masks p →
    Does (.enableMask x p mask) s fun u =>
      (x = .a → u.slc p = { s.slc p with maskA := mask, maskAtA := some s.now, elemA := mask })
      ∧ (x = .b → u.slc p = { s.slc p with maskB := mask, maskAtB := some s.now, elemB := mask })
      ∧ (∀ k, k ≠ p.val → u.slc k = s.slc k) ∧ (∀ m, m ∉ stationsOf p → u.stn m = s.stn m) ∧ KeptBut [.sl, .st] s u
      ∧ (∀ m ∈ stationsOf p, (elementsClosed u m = false → (u.stn m).fd.on = false)
        ∧ (elementsClosed u m = true → (s.stn m).fd.cmd = true → (s.stn m).fd.maskOff = true → canTurnOn u m .fd = true → (u.stn m).fd.on = true)
        ∧ { u.stn m with fd := (s.stn m).fd } = s.stn m ∧ (u.stn m).fd.cmd = (s.stn m).fd.cmd)) ∧
  (∀ (x : Lane) (p : Fin 8) (s : State), (s.slc p).powered = true →
    (x = .a → heldFor (s.slc p).maskAtA s.now 400 = true) → (x = .b → heldFor (s.slc p).maskAtB s.now 400 = true) →
    Does (.enableMaskMissing x p) s fun u => (x = .a → u.slc p = { s.slc p with elemA := 0 }) ∧ (x = .b → u.slc p = { s.slc p with elemB := 0 })
      ∧ (∀ k, k ≠ p.val → u.slc k = s.slc k) ∧ (∀ m ∈ stationsOf p, (u.stn m).fd.on = false) ∧ (∀ m, m ∉ stationsOf p → u.stn m = s.stn m)
      ∧ KeptBut [.sl, .st] s u) ∧
  (∀ (x : Lane) (n : Fin 64) (c : Int) (t : Nat) (s : State), isLeaf s n = true → (s.stn n).leaf ≠ .isolated → laneRuns s x = true →
    laneSees s x (slotOf n) = true → (s.laneStn x n).backstop = false → (s.laneStn (otherLane x) n).backstop = false →
    drivenClosing (cycleCloses s n) s x n = true → backstopLimit s x n < c → (s.laneStn x n).overSince = some t →
    t + (s.keyN (.st n) .PERSISTMAX + 20000) ≤ s.now → noTurn s n →
    Does (.backstopTrip n c) s fun u => (u.laneStn x n).backstop = true ∧ (u.laneStn x n).overSince = none ∧ (u.stn n).leaf = .fault
      ∧ (u.stn n).cause = "backstop" ∧ otherButStep n s u ∧ wantElement u x n = false ∧ (u.lane x).masks = allSlices.map fun p => (p, laneMask u x p)) ∧
  (∀ (n : Fin 64) (c : Int) (s : State), isLeaf s n = true →
    (∀ x, c ≤ backstopLimit s x n ∧ edgeAbove (cycleCloses s n) s x n = false) →
    Does (.backstopTrip n c) s fun u => KeptBut [.camp] s u ∧ ∀ x, ((laneRuns s x && laneSees s x (slotOf n)) = false → u.lane x = s.lane x)
      ∧ ((laneRuns s x && laneSees s x (slotOf n)) = true → u.laneStn x n = { s.laneStn x n with
          closing := drivenClosing (cycleCloses s n) s x n, overSince := none, edgeSince := none })) ∧
  (∀ (n : Fin 64) (w : Sw) (low high : Int) (s : State), (s.slc (slotOf n)).powered = true → chFitted s n (swChan w) = true →
    Does (.currentSenseTest n w low high) s fun u => u.sw n w = { s.sw n w with senseFailed := !sensePasses w (outputOn s n w) low high }
      ∧ otherSwitches n w s u ∧ KeptBut [.st] s u) ∧
  (∀ (p : Fin 8) (b : List Byte) (x : Lane) (n : Nat) (old : LaneLamp) (s : State), enabled s p = true → (s.slc p).powered = true →
    s.head.started = true → s.inbuf = [] → noSaving s = true → n = 8 * p.val → old = s.laneSw x n .fd →
    laneRuns s x = true → (frameCrc b && frameValid 1 25 (s.laneSlc x p).ref b) = true → (fbyte b 0).toNat % 64 = 0 → chFitted s n .ax = true →
    Does (.uplinkFrame p b) s fun u =>
      ((∃ t, old.senseAt = some t ∧ s.now < t + 10000000) → u.laneSw x n .fd = old)
      ∧ ((∀ t, old.senseAt = some t → t + 10000000 ≤ s.now) → (fbyte b 27).getLsbD 2 = false → u.laneSw x n .fd = { old with
          senseAt := some s.now, senseFails := 0, sensePasses := min 2 (old.sensePasses + 1), senseFault := old.senseFault && decide (old.sensePasses < 1) })
      ∧ ((∀ t, old.senseAt = some t → t + 10000000 ≤ s.now) → (fbyte b 27).getLsbD 2 = true → u.laneSw x n .fd = { old with
          senseAt := some s.now, senseFails := min 2 (old.senseFails + 1), sensePasses := 0, senseFault := old.senseFault || decide (1 ≤ old.senseFails) })) ∧
  (∀ s : State, maySendSafety s = true → (∀ t, s.camp.sentAt = some t → t + 10000 ≤ s.now) →
    Does .safetyMessageSend s fun u => KeptBut [.camp, .net, .work] s u ∧ u.camp.safe = false ∧ u.camp.sentAt = some s.now
      ∧ (∀ (x : Lane) (k : Nat), tget 0 (u.lane x).seq k = tget 0 (s.lane x).seq k + BitVec.ofNat 32 ((safeOuts s).countP (· = k)))) ∧
  (∀ (a : Arrival) (b : List Byte) (k src type key : Nat) (s : State), arrives s a = true → s.head.unit.isSome = true → b.length = 64 → fieldAt b 5 1 = 1 →
    fieldAt b 0 2 = src → fieldAt b 4 1 = type → 1 ≤ type → type ≤ 4 → safeIn s src (smName type) = some k → s.key .unit .SYSID = .i (fieldAt b 6 2) →
    (fieldAt b 2 2 = ownUnit s ∨ fieldAt b 2 2 = 65535) → s.camp.a.skey = some key → s.camp.b.skey = some key → b.drop 60 = safetyCode key (b.take 60) →
    (∀ l, (connOf s k).lastSeq = some l → 1 ≤ (BitVec.ofNat 32 (fieldAt b 8 4) - l).toNat ∧ (BitVec.ofNat 32 (fieldAt b 8 4) - l).toNat ≤ 2147483647) →
    -1000000 ≤ s.time - unleI (slice b 12 8) → s.time - unleI (slice b 12 8) ≤ 1000 * s.keyI .unit .SMTIMEOUT →
    Does (.safetyMessageReceived ⟨a, b⟩) s fun u => connOf u k = { connOf s k with
        lastSeq := some (BitVec.ofNat 32 (fieldAt b 8 4)), acceptedAt := some s.now, valid := decide (type ≠ 4), payload := slice b 20 40 }
      ∧ (∀ j, connKey s j ≠ connKey s k → connOf u j = connOf s j) ∧ KeptBut [.camp, .net, .sess, .sup, .jrn] s u
      ∧ (type ≠ 4 → u.camp.auths = s.camp.auths)
      ∧ (type = 4 → fieldAt b 2 2 ≠ ownUnit s → u.camp.auths = s.camp.auths)
      ∧ (type = 4 → fieldAt b 2 2 = ownUnit s → u.camp.auths = s.camp.auths ++ [{ session := fieldAt b 20 1, tag := fieldAt b 21 4, check := fieldAt b 25 2, at_ := s.now }])) ∧
  (∀ (a : Arrival) (b : List Byte) (key : Nat) (s : State), s.camp.a.skey = some key → b.drop 60 ≠ safetyCode key (b.take 60) →
    Does (.safetyMessageReceived ⟨a, b⟩) s fun u => KeptBut [.net] s u) ∧
  (∀ (k : Fin 16) (src t : Nat) (s : State), (connOf s k).valid = true → (connOf s k).acceptedAt = some t → t + s.keyN .unit .SMTIMEOUT ≤ s.now →
    s.key (.safein k) .FROM = .u src → s.key (.safein k) .TYPE = .w "RELEASE" → s.key .unit .RELUNIT = .u src →
    Does (.safetyConnectionTimeout k) s fun u => connOf u k = { connOf s k with valid := false, payload := safeContent "RELEASE" } ∧ u.camp.msgZeroSince = none
      ∧ (∀ j, connKey s j ≠ connKey s k → connOf u j = connOf s j) ∧ KeptBut [.camp, .sess, .sup, .jrn] s u
      ∧ (∀ x, (u.lane x).masks = allSlices.map fun p => (p, laneMask u x p)))

/-- Yarrow at work (R307 to R310, R316 to R318, R321 to R323): a tick measures the buses, offers the waiting moves and marks the one that
fails a test, charges and starts one that passes, or makes it tentative on a grouped bus; a wait beyond its class's ends with E08; a dimmed
object rises by 10 points; D follows the temperature; frames of the group are sent and taken, and
those of a unit in conflict dropped (R360); a tentative move starts, a reservation is
renewed or expires. -/
def Obligations.BudgetAtWork : Prop :=
  (∀ (t s : State), s.head.started = true → s.noTime .bud = false → waiting s = [] → t = meanFeeds s →
    Does .admissionTick s fun u => KeptBut [.bus, .yar, .sl, .st, .net, .work] s u ∧ u.yar.charges = s.yar.charges ∧ u.st = t.st
      ∧ (∀ b, b < 4 → (u.busOf b).meas = measuredBus t b
        ∧ (busBin t b 0 < measuredBus t b → (u.busOf b).unexplained.head? = some (measuredBus t b - busBin t b 0, s.now + 1000000)))
      ∧ (∀ p, p < 8 → (u.slc p).heatFail = decide (sliceCap u p ≤ sliceHeat u p)) ∧ u.yar.crateFail = decide (crateCap u ≤ crateHeat u)
      ∧ (s.engDown .net = false → u.net.groups = wantedGroups s)) ∧
  (∀ (n b : Nat) (w : Wait) (t : State) (s : State), waiting s = [(n, w)] → (s.stn n).wait = some w →
    mayAdmit s = true → t = forEach [0, 1, 2, 3] measureBus (noteLosses (meanFeeds s)) → offered t n w = true → stillFit t n w = true →
    (candCharges t n w).all (fun x => groupHeard t x.bus) = true → failedTest t { n, w, charges := candCharges t n w } = some (.bus b) →
    Does .admissionTick s fun u => u.stn n = { t.stn n with wait := some { w with failed := some (.bus b) } } ∧ otherStations n t u
      ∧ u.yar.charges = s.yar.charges ∧ KeptBut [.st, .bus, .yar, .sl, .net, .work] s u) ∧
  (∀ (n : Nat) (w : Wait) (t : State) (s : State), waiting s = [(n, w)] → (s.stn n).wait = some w →
    mayAdmit s = true → t = forEach [0, 1, 2, 3] measureBus (noteLosses (meanFeeds s)) → offered t n w = true → stillFit t n w = true →
    (candCharges t n w).all (fun x => groupHeard t x.bus) = true → failedTest t { n, w, charges := candCharges t n w } = none →
    Does .admissionTick s fun u =>
      ((∀ c ∈ candCharges t n w, groupOf s c.bus = 0) → (s.ax n).motion = none → w.opening = true → (s.stn n).leaf = .closedLocked →
        limitActive s n false = false → stepReferenced s n = true → (u.stn n).wait = none ∧ (u.stn n).leaf = .unlocking ∧ u.yar.charges = s.yar.charges ++ candCharges t n w)
      ∧ (∀ c, candCharges t n w = [c] → groupOf s c.bus ≠ 0 →
        u.stn n = { t.stn n with wait := some { w with tentative := some (s.yar.nextId, s.time + 20000000) } } ∧ otherStations n t u
        ∧ u.yar.charges = s.yar.charges ++ [{ c with res := some (s.yar.nextId, s.time + 20000000 + 1000000 * resLength c) }])) ∧
  (∀ (n : Fin 64) (w : Wait) (us : Nat) (s : State), (s.stn n).wait = some w → longestWait w.cls = some us → w.since + us < s.now →
    w.reported = false → s.noTime .bud = false →
    Does (.admissionWaitExceeded n) s fun u => otherStations n s u
      ∧ ((w.why = .permission ∨ w.why = .autoclose) → u.stn n = { s.stn n with wait := some { w with reported := true } }
        ∧ KeptBut [.st, .sess, .sup, .jrn] s u)
      ∧ (w.why ≠ .permission → w.why ≠ .autoclose → (s.ax n).motion = none → leafMoves (s.stn n).leaf = false →
        u.stn n = { s.stn n with wait := none, doorOp := none } ∧ KeptBut (.st :: .yar :: .jrn :: overParts) s u)
      ∧ (∀ m, w.why ≠ .permission → w.why ≠ .autoclose → (s.ax n).motion = some m → m.phase = .waiting →
        (u.ax n).motion = none ∧ (u.stn n).wait = none ∧ commandOver m u ∧ KeptBut (.st :: .yar :: .jrn :: overParts) s u)) ∧
  (∀ (p : Fin 8) (t : Nat) (s : State), tget 100 s.yar.dims p < 100 → s.yar.freeSince.find? (·.1 = p.val) = some (p.val, t) → t + 10000000 ≤ s.now →
    10 * sliceHeat s p ≤ 9 * sliceCap s p → s.noTime .bud = false →
    Does (.dimRestore (.slice p)) s fun u => tget 100 u.yar.dims p = min 100 (tget 100 s.yar.dims p + 10) ∧ tget 0 u.yar.freeSince p = t + 1000000
      ∧ (∀ x ∈ dimChans s (.sl p), (u.sw x.1 x.2).dim = dimOf u x.1 x.2) ∧ KeptBut [.yar, .st, .sl, .sess, .sup, .jrn] s u) ∧
  (∀ s : State, s.head.started = true → s.noTime .bud = false →
    Does .deratingUpdate s fun u => KeptBut [.st] s u ∧ (∀ n ∈ allStations, (derateTemp s n = none → u.stn n = s.stn n)
      ∧ (∀ t, derateTemp s n = some t → u.stn n = { s.stn n with derate := factorD s t }))) ∧
  (∀ s : State, s.noTime .bud = false → groupUp s = true →
    Does .groupReportSend s fun u => KeptBut [.net, .yar, .work] s u ∧ { u.yar with seq := s.yar.seq } = s.yar
      ∧ ∃ l, u.net.tx = s.net.tx ++ l ∧ l.length = [0, 1, 2, 3].countP (fun b => groupOf s b ≠ 0)
        ∧ ∀ f ∈ l, f.svc = .budget ∧ f.dst = none ∧ fieldAt f.data 0 2 = ownUnit s % 65536 ∧ fieldAt f.data 3 1 = 1) ∧
  (∀ (a : Arrival) (b : List Byte) (src g : Nat) (r : Reserve) (s : State), arrives s a = true → takesPart s = true → s.noTime .bud = false → b.length = 32 →
    fieldAt b 28 4 = (crc32 (b.take 28)).toNat → fieldAt b 0 2 = src → seenSeq s.yar.seen src (fieldAt b 26 2) = false → src ≠ ownUnit s → src < 1024 →
    (s.peer src).conflict = false → fieldAt b 2 1 = g → g ≠ 0 → (∃ k, k < 4 ∧ groupOf s k = g) →
    r = { source := src, id := fieldAt b 4 4, group := g, peak := 100 * fieldAt b 8 2, cls := fieldAt b 10 1, firm := true,
          start := unleI (slice b 12 8), duration := fieldAt b 20 4, seenAt := s.now } →
    Does (.budgetFrameReceived ⟨a, b⟩) s fun u => seenSeq u.yar.seen src (fieldAt b 26 2) = true ∧ KeptBut [.yar, .bus, .net, .sess, .sup, .work, .jrn, .st] s u
      ∧ (fieldAt b 3 1 = 1 → ∃ m, tget none (u.yar.members.map fun e => (e.1, some e.2)) (memberKey src (fieldAt b 11 1)) = some m
        ∧ m.group = g ∧ m.base = 100 * fieldAt b 8 2 ∧ m.gpeak = 100 * fieldAt b 24 2 ∧ m.seenAt = s.now)
      ∧ ((fieldAt b 3 1 = 3 ∨ fieldAt b 3 1 = 5) → u.yar.reserves = s.yar.reserves.filter (fun q => decide (q.source ≠ src ∨ q.id ≠ r.id)) ++ [r])
      ∧ (fieldAt b 3 1 = 4 → u.yar.reserves = s.yar.reserves.filter fun q => decide (q.source ≠ src ∨ q.id ≠ r.id))
      ∧ (fieldAt b 3 1 = 6 → ∀ q ∈ u.yar.reserves, q.source = src → q.group ≠ g)) ∧
  (∀ (a : Arrival) (b : List Byte) (s : State), arrives s a = true → (s.peer (fieldAt b 0 2)).conflict = true →
    Does (.budgetFrameReceived ⟨a, b⟩) s fun u => u.yar = s.yar ∧ u.net.peers = s.net.peers ∧ KeptBut [.net] s u) ∧
  (∀ (n : Fin 64) (w : Wait) (i : Nat) (t : Int) (s : State), (s.stn n).wait = some w → w.tentative = some (i, t) → mayAdmit s = true →
    Does (.tentativeStartInstant n) s fun u => (s.time < t → u = s)
      ∧ (t ≤ s.time → (s.ax n).motion = none → w.opening = true → (s.stn n).leaf = .closedLocked → limitActive s n false = false →
        stepReferenced s n = true → (u.stn n).wait = none ∧ (u.stn n).leaf = .unlocking
        ∧ (u.stn n).unlockT = some (afterUs (s.stK n .UNLOCKT).toNat s) ∧ otherButStep n s u)) ∧
  (∀ (n : Fin 64) (s : State), s.noTime .bud = false →
    Does (.reservationRenew n) s fun u => KeptBut [.yar, .net, .work] s u ∧ u.yar.reserves = s.yar.reserves
      ∧ ((∀ c ∈ s.yar.charges, c.of = n.val → c.byOut = false → ∀ i t, c.res = some (i, t) → s.time + 100000000 < t) → u = s)
      ∧ (∀ c i t, s.yar.charges = [c] → c.of = n.val → c.byOut = false → c.res = some (i, t) → t ≤ s.time + 100000000 →
        u.yar.charges = [{ c with res := some (i, t + 1000000000) }])) ∧
  (∀ (src id : Nat) (r : Reserve) (s : State), s.yar.reserves.find? (fun q => decide (q.source = src ∧ q.id = id)) = some r →
    Does (.reservationExpired src id) s fun u => KeptBut [.yar, .jrn] s u
      ∧ (s.time < r.start + 1000000 * r.duration → s.now < r.seenAt + 5000000 → u = s)
      ∧ ((r.start + 1000000 * r.duration ≤ s.time ∨ r.seenAt + 5000000 ≤ s.now) → ∀ q ∈ u.yar.reserves, q.source = src → q.id ≠ id))

/-- The isolation link (R19, R27, R290 to R299, R437 to R439, R481, R536): a valid downlink frame gives the field side its commands; an
uplink frame gives the head its readings, or loses or gains the link; fail-safe states, a lost link, an absent slice, its self-test, its
return to service and its seating have the effects named. -/
def Obligations.SlicesLink : Prop :=
  (∀ (p : Fin 8) (b : List Byte) (s : State), (s.slc p).powered = true → frameCrc b = true →
    Does (.downlinkFrame p b) s fun u => (∀ m, m ∉ stationsOf p → u.stn m = s.stn m)
      ∧ (frameValid 2 1 (s.slc p).downRef b = false → u.slc p = { s.slc p with downRef := some (fbyte b 1) } ∧ KeptBut [.sl] s u)
      ∧ (frameValid 2 1 (s.slc p).downRef b = true → (u.slc p).downAt = some s.now ∧ (u.slc p).downRef = some (fbyte b 1)
        ∧ (u.slc p).failSafe = false ∧ (u.slc p).stepQuiet = false ∧ (u.slc p).flash = some (frameFlash b, s.now)
        ∧ (fieldAt b 16 2 ≠ 0 → (u.slc p).accepted = fieldAt b 16 2)
        ∧ ∀ n ∈ stationsOf p, ∀ c, c = fbyte b (2 + n % 8) → (u.stn n).failSafe = false
          ∧ ((u.stn n).outp false).cmd = c.getLsbD 5 ∧ ((u.stn n).outp true).cmd = c.getLsbD 6
          ∧ (c.toNat % 4 = 0 → (u.stn n).la.cmd = false ∧ (u.stn n).la.flash = none) ∧ (c.toNat % 4 = 1 → (u.stn n).la.cmd = true ∧ (u.stn n).la.flash = none)
          ∧ (chFitted s n .fd = true → c.getLsbD 4 = false → (u.stn n).fd.cmd = false)
          ∧ (chFitted s n .fd = true → fieldKey s n .fd .UNOM ≠ .unset → c.getLsbD 4 = true → (u.stn n).fd.cmd = true))) ∧
  (∀ (p : Fin 8) (b : List Byte) (s : State), frameCrc b = false → Does (.downlinkFrame p b) s fun u => u = s) ∧
  (∀ (p : Fin 8) (b : List Byte) (s : State), s.head.started = true → enabled s p = true → (s.slc p).powered = true → (s.slc p).link = true →
    s.inbuf = [] → noSaving s = true → (fbyte b 0).toNat % 64 ∉ [0, 5, 10, 15] →
    Does (.uplinkFrame p b) s fun u =>
      (frameCrc b = false → u.slc p = { s.slc p with crcSeen := true } ∧ KeptBut [.sl, .camp] s u)
      ∧ (frameCrc b = true → frameValid 1 25 (s.slc p).upRef b = false → u.slc p = { s.slc p with upRef := some (fbyte b 1) } ∧ KeptBut [.sl, .camp] s u)
      ∧ (∀ x, laneRuns s x = true → (frameCrc b && frameValid 1 25 (s.laneSlc x p).ref b) = false →
        (u.laneSlc x p).ok = false ∧ (u.laneSlc x p).bad = true ∧ ∀ n ∈ stationsOf p, (u.laneStn x n).known = false)
      ∧ (∀ x, laneRuns s x = true → (frameCrc b && frameValid 1 25 (s.laneSlc x p).ref b) = true →
        (u.laneSlc x p).ok = true ∧ (u.laneSlc x p).ref = some (fbyte b 1) ∧ (u.laneSlc x p).at_ = some s.now
        ∧ (u.laneSlc x p).safe = (fbyte b 8).getLsbD 0 ∧ (u.laneSlc x p).elemA = fbyte b 6 ∧ (u.laneSlc x p).elemB = fbyte b 7)
      ∧ (frameCrc b = true → frameValid 1 25 (s.slc p).upRef b = true → (u.slc p).upRef = some (fbyte b 1) ∧ (u.slc p).upAt = some s.now
        ∧ (s.noTime .io = false → (fbyte b 8).getLsbD 0 = true → (u.slc p).link = false ∧ (u.slc p).lostAt = some s.now ∧ ∀ n ∈ stationsOf p, (u.stn n).outOfService = true)
        ∧ (s.noTime .io = false → (fbyte b 8).getLsbD 0 = false → (fbyte b 0).toNat % 64 = 9 → (u.slc p).link = true
          ∧ ∀ n ∈ stationsOf p, (u.stn n).field = 10 * fieldAt b (10 + 2 * (n % 8)) 2))) ∧
  (∀ (p : Fin 8) (b : List Byte) (s : State), s.head.started = true → enabled s p = true → (s.slc p).powered = true → (s.slc p).link = false →
    frameCrc b = true → frameValid 1 25 (s.slc p).upRef b = true → (fbyte b 8).getLsbD 0 = false → s.inbuf = [] → noSaving s = true → s.noTime .io = false →
    Does (.linkReturn p b) s fun u =>
      ((fbyte b 0).toNat % 64 ∉ [0, 5, 10, 15, 21] →
        u.slc p = { s.slc p with
          upRef := some (fbyte b 1), upAt := some s.now, recs := tset (s.slc p).recs ((fbyte b 0).toNat % 64) (slice b 10 20) }
        ∧ KeptBut [.sl, .camp, .work] s u)
      ∧ ((fbyte b 0).toNat % 64 = 21 → (u.slc p).link = true ∧ (u.slc p).absent = false ∧ (u.slc p).upAt = some s.now
        ∧ (u.slc p).ident = some (identPair b)
        ∧ (u.slc p).typeRead = (if fbyte b 15 = 1 ∨ fbyte b 15 = 2 then some (fbyte b 15).toNat else none))) ∧
  (∀ (p : Fin 8) (s : State), (s.slc p).powered = true → (s.slc p).failSafe = false → headSilent s p = true →
    Does (.failSafeApplied p) s fun u => u.slc p = { s.slc p with failSafe := true } ∧ (∀ m, m ∉ stationsOf p → u.stn m = s.stn m) ∧ KeptBut [.sl, .st] s u
      ∧ ∀ n ∈ stationsOf p, (u.stn n).failSafe = true ∧ (u.ax n).ahead = [] ∧ (u.stn n).fd.on = false ∧ (u.stn n).fd.cmd = false
        ∧ ((u.stn n).outp false).on = false ∧ ((u.stn n).outp true).on = false) ∧
  (∀ (p : Fin 8) (s : State), linkGone s p = true → s.inbuf = [] → noSaving s = true →
    Does (.sliceLinkLost p) s fun u => (u.slc p).link = false ∧ (u.slc p).lostAt = some s.now ∧ (u.slc p).writes = []
      ∧ (∀ n ∈ stationsOf p, (u.stn n).outOfService = true ∧ (u.stn n).linkLost = true ∧ (u.ax n).motion = none ∧ (u.stn n).wait = none
        ∧ (u.ax n).referenced = false ∧ (u.stn n).doorOp = none
        ∧ (isLeaf u n = true → (s.stn n).leaf ≠ .isolated → (u.stn n).leaf = .fault ∧ (u.stn n).cause = "link"))) ∧
  (∀ (p : Fin 8) (s : State), absentDue s p = true →
    Does (.sliceAbsent p) s fun u => (u.slc p).absent = true ∧ (u.slc p).lostAt = none ∧ (u.slc p).link = false ∧ (u.slc p).resetOp = none) ∧
  (∀ (p : Fin 8) (passed : Bool) (s : State), (s.slc p).powered = true → (s.slc p).link = true → (s.slc p).passed = false → (s.slc p).failed = false →
    Does (.sliceSelfTestEnd p passed) s fun u => (u.slc p).passed = passed ∧ (u.slc p).failed = !passed ∧ (u.slc p).link = true) ∧
  (∀ (p : Fin 8) (s : State),
    Does (.sliceReturn p) s fun u => (mayReturn s p = false → u = s)
      ∧ (mayReturn s p = true → anyOut s p = true → s.head.bit31 = false → (u.slc p).startUp = false
        ∧ ∀ n ∈ stationsOf p, (u.stn n).outOfService = false ∧ (u.stn n).linkLost = false ∧ (u.stn n).failSafe = false
          ∧ (isLeaf s n = true → bothMade s n = true → (u.stn n).leaf = .closedLocked ∧ (u.ax n).referenced = true ∧ (u.ax n).pos = 0)
          ∧ (isLeaf s n = true → bothMade s n = false → (u.stn n).leaf = .held ∧ (u.stn n).kept = none))) ∧
  (∀ (p : Fin 8) (type : Fin 4) (serial : Nat) (ins : W16) (s : State), (type.val = 1 ∨ type.val = 2) → (s.slc p).link = false →
    Does (.sliceSeated p type serial ins) s fun u => (u.slc p).latch = [] ∧ (∀ k, k ≠ p.val → u.slc k = s.slc k) ∧ KeptBut [.sl, .st, .reports, .camp] s u
      ∧ (∀ m, m ∉ stationsOf p → u.stn m = s.stn m) ∧ (∀ n ∈ stationsOf p, ∀ w, (u.sw n w).on = false ∧ (u.sw n w).cmd = false)
      ∧ (s.head.powered = true → (s.slc p).restoreAt = none → enabled s p = true → (u.slc p).powered = true ∧ (u.slc p).keys = []
        ∧ (u.slc p).seated = some { type := type.val, serial, ins := if ins = 0xFFFF#16 then ins else ins + 1 })
      ∧ (s.head.powered = false → (u.slc p).powered = false ∧ (u.slc p).seated = some { type := type.val, serial, ins }))

/-- Power and start-up (R9, R22, R24, R29 to R31, R108, R205, R356, R357, R462, R469 to R473, R514): the hold-up and its end, the input's
return, power restored, the head's start with its plug, and the tests whose end clears bit 31; a lane's self-test lets the safe state go
where both lanes passed. -/
def Obligations.PowerAndStart : Prop :=
  (∀ s : State, s.sup.lowSince = none →
    Does .crateInputLow s fun u => u.sup.lowSince = some s.now ∧ u.sup.goodSince = none ∧ u.sup.vin < 16800 ∧ u.st = s.st ∧ u.sl = s.sl ∧ u.camp = s.camp
      ∧ u.cfg = s.cfg ∧ u.sess = s.sess ∧ u.ops = s.ops ∧ (s.head.powered = false → KeptBut [.sup, .ids] s u)) ∧
  (∀ s : State, heldFor s.sup.lowSince s.now 10000 = true → s.head.powered = true →
    Does .holdUpEnd s fun u => u.head.powered = false ∧ u.head.started = false ∧ (∀ p, p < 8 → (u.slc p).powered = false) ∧ (∀ k, (u.ses k).st = .free)
      ∧ u.line = {} ∧ u.camp.safe = s.camp.safe ∧ u.sup.st = (if s.sup.st = .pending then .asleep else s.sup.st) ∧ u.sup.commitAt = none
      ∧ u.clk.timeFs = s.clk.timeFs) ∧
  (∀ (t : Nat) (s : State), s.sup.lowSince = some t →
    Does .crateInputReturn s fun u => u.sup.lowSince = none ∧ u.sup.goodSince = some s.now ∧ 16800 ≤ u.sup.vin ∧ u.sup.st = s.sup.st
      ∧ (s.now ≤ t + 1000000 → KeptBut [.sup, .ids] s u)
      ∧ (t + 1000000 < s.now → u.sup.tags = [] ∧ u.sup.out = [] ∧ (∀ o ∈ u.ops, o.port ≠ .supervisor) ∧ KeptBut [.sup, .ids, .ops] s u)) ∧
  (∀ s : State, mayRestore s = true →
    Does .powerRestore s fun u => u.head.powered = true ∧ u.head.started = false ∧ u.head.bit31 = true ∧ u.head.startAt = s.now ∧ u.sup.offUntil = none
      ∧ u.head.cause = (if s.sup.offUntil.isSome then .resetPwr else if s.sup.st = .boot then .wake else .power)
      ∧ (∀ k, (u.ses k).st = .free) ∧ u.line = {} ∧ u.camp.safe = s.camp.safe
      ∧ (∀ p m, p < 8 → enabled s p = true → (s.slc p).seated = some m → (u.slc p).powered = true
        ∧ (u.slc p).seated = some { m with ins := if m.ins = 0xFFFF#16 then m.ins else m.ins + 1 })) ∧
  (∀ (plug : Fin 2048) (h : State) (s : State), s.head.powered = true → s.head.started = false →
    h = { s with head := { s.head with started := true, unit := plugUnit plug } } →
    Does (.headStart plug) s fun u => u.head.started = true ∧ u.head.unit = plugUnit plug ∧ (u.ses 0).st = .opn ∧ (u.ses 0).mode = .typed
      ∧ ((∀ o ∈ s.ops, o.within = none) → othersKept 0 s u) ∧ u.sup.latch = false ∧ u.sup.st = (if s.sup.st = .boot then .awake else s.sup.st)
      ∧ (chooseBank h = none → u.cfg = s.cfg ∧ u.head.loaded = s.head.loaded)
      ∧ (∀ w, chooseBank h = some w → u.head.loaded = true ∧ u.cfg.plain = (if w then s.store.bankB else s.store.bankA).set.text)
      ∧ KeptBut [.head, .jrn, .sess, .ids, .sup, .store, .cfg, .net, .camp, .pool, .ops, .work] s u ∧ u.camp.safe = s.camp.safe) ∧
  (∀ (p : Fin 8) (a b : Byte) (s : State), s.head.started = true → (s.slc p).link = true → (s.slc p).tested = false → s.camp.a.tested = true →
    s.camp.b.tested = true →
    Does (.elementTest p a b) s fun u => u.slc p = { s.slc p with tested := true } ∧ (∀ k, k ≠ p.val → u.slc k = s.slc k) ∧ KeptBut [.sl, .camp, .jrn] s u
      ∧ ((laneFit s.camp.a = true → a = 0xFF#8) → (laneFit s.camp.b = true → b = 0xFF#8) → u.camp.safe = s.camp.safe)
      ∧ ((laneFit s.camp.a = true ∧ a ≠ 0xFF#8 ∨ laneFit s.camp.b = true ∧ b ≠ 0xFF#8) → u.camp.safe = true)) ∧
  (∀ (passed : Bool) (s : State), s.head.memRun = true → s.head.powered = true → s.head.started = true →
    Does (.headMemoryTestEnd passed) s fun u => u.head = { s.head with memRun := false, memFail := !passed } ∧ KeptBut [.head] s u) ∧
  (∀ s : State, startDone s = true →
    Does .startUpComplete s fun u => u.head.bit31 = false ∧ (∀ o ∈ s.ops, (∃ w, o.prog = .waking w) → ∀ q ∈ u.ops, q.id ≠ o.id)
      ∧ (∀ p, p < 8 → mayReturn s p = true → ∀ n ∈ stationsOf p, (u.stn n).outOfService = false)) ∧
  (∀ (x : Lane) (passed equal : Bool) (s : State), s.head.powered = true → s.head.started = true → (s.lane x).tested = false →
    ∃ u, exec (.laneSelfTestEnd x passed equal) s = .next (settleWith true s u) ∧ (u.lane x).tested = true ∧ (u.lane x).passed = passed
      ∧ ((∃ y, y ≠ x ∧ (s.lane y).tested = false) → u.camp.safe = s.camp.safe)
      ∧ (passed = false → u.camp.safe = s.camp.safe ∧ (u.lane x).gaveUp = true)
      ∧ (passed = true → (∀ y, y ≠ x → (s.lane y).tested = true ∧ (s.lane y).passed = true) → u.camp.safe = false))

/-! ## Network, twins, sleep, stores -/

/-- Announces, paths, peers and relays (R359 to R363, R377, R379, R380): an announce is sent and one from another unit enters the peer
table, a foreign serial under our number is a conflict, which clears; a PHY that loses its link, supervision that stops or runs 500 ms set
the path bit; a silent peer is marked; a relayed line passes to its near session, the near unit takes the hello and the replies to its own lines
itself, a relay joins its session again by the token, and one that cannot is dropped. A relay's far unit is not silent: its relays are dropped
when it becomes so (R379). -/
def Obligations.NetworkPeers : Prop :=
  (∀ s : State, inSystem s = true →
    Does .announceSend s fun u => u.net.annSeq = (s.net.annSeq + 1) % 65536 ∧ KeptBut [.net, .work] s u
      ∧ (∃ f, u.net.tx = s.net.tx ++ [f] ∧ f.svc = .announce ∧ f.dst = none ∧ f.data.length = 64 ∧ fieldAt f.data 2 1 = 1
        ∧ f.src = ownMac s ∧ f.addr = some (groupIp 0 1, 4784) ∧ f.ttl = some 1 ∧ f.trailer = [(.a, s.net.prpSeq), (.b, s.net.prpSeq)] ∧ u.net.prpSeq = (s.net.prpSeq + 1) % 65536)) ∧
  (∀ (a : Arrival) (b : List Byte) (n : Nat) (s : State), arrives s a = true → inSystem s = true → b.length = 64 → fieldAt b 60 4 = (crc32 (b.take 60)).toNat → fieldAt b 2 1 = 1 →
    fieldAt b 0 2 = n → n < 1024 →
    Does (.announceReceived ⟨a, b⟩) s fun u => KeptBut [.net, .sess, .sup, .jrn, .work] s u
      ∧ (s.head.unit ≠ some n → (u.peer n).known = true ∧ (u.peer n).ip = fieldAt b 18 4 ∧ (u.peer n).status = BitVec.ofNat 32 (fieldAt b 14 4)
        ∧ (u.peer n).up = fieldAt b 22 4 ∧ (u.peer n).annSeq = fieldAt b 26 2 ∧ (u.peer n).version = slice b 28 4
        ∧ (u.peer n).seenAt = s.now ∧ (u.peer n).silent = false ∧ u.net.conflict = s.net.conflict ∧ (∀ m, m ≠ n → u.peer m = s.peer m))
      ∧ (s.head.unit = some n → ∀ r, r = (slice b 4 5).foldl (fun a x => 100 * a + 10 * (x.toNat / 16) + x.toNat % 16) 0 →
        (r = s.head.serial → u = receive a id s) ∧ (r ≠ s.head.serial → u.net.conflict = true))) ∧
  (∀ (a : Arrival) (b : List Byte) (s : State), fieldAt b 60 4 ≠ (crc32 (b.take 60)).toNat →
    Does (.announceReceived ⟨a, b⟩) s fun u => u = receive a id s) ∧
  (∀ (a : Arrival) (b : List Byte) (s : State), s.head.started = true → s.engDown .net = false →
    Does (.announceReceived ⟨a, b⟩) s fun u => ((s.path a.path).link = false → u = s)
      ∧ ((s.path a.path).link = true → a.fcs = true → u.path a.path = { s.path a.path with fcs := (s.path a.path).fcs + 1 }
        ∧ u.net.peers = s.net.peers ∧ KeptBut [.net] s u)
      ∧ ((s.path a.path).link = true → a.fcs = false →
        (∃ p q, a.trailer = some (p, q) ∧ ∃ c ∈ s.net.window, c.node = a.node ∧ c.seq = q ∧ s.now < c.at_ + 400000) →
        (u.path a.path).dup = (s.path a.path).dup + 1 ∧ (u.path a.path).received = (s.path a.path).received + 1
          ∧ u.net.peers = s.net.peers ∧ KeptBut [.net] s u)) ∧
  (∀ (n : Fin 1024) (s : State), (s.peer n).serials.all (fun e => decide (e.2 + 5000000 ≤ s.now)) = true →
    Does (.conflictClear n) s fun u => KeptBut [.net] s u ∧ (s.head.unit = some n.val → u.net.conflict = false)
      ∧ (s.head.unit ≠ some n.val → (u.peer n).conflict = false ∧ u.net.conflict = s.net.conflict)) ∧
  (∀ (p : Path) (up : Bool) (s : State), s.head.powered = true → (s.path p).link ≠ up →
    Does (.phyLinkChange p up) s fun u => (u.path p).link = up ∧ (u.path p).links = (s.path p).links + 1 ∧ (u.path p).gapless = none
      ∧ (u.path p).bit = (up && (s.path p).bit) ∧ (∀ q, q ≠ p → u.path q = s.path q) ∧ KeptBut [.net, .sess, .sup, .jrn] s u) ∧
  (∀ (p : Path) (s : State), heldFor (s.path p).supAt s.now 100000 = true →
    Does (.pathSupervisionTimeout p none) s fun u => (u.path p).bit = false ∧ (u.path p).gapless = none ∧ (∀ q, q ≠ p → u.path q = s.path q)
      ∧ KeptBut [.net, .sess, .sup, .jrn] s u) ∧
  (∀ (p : Path) (n : Fin 1024) (s : State), heldFor (peerSup (s.peer n) p) s.now 100000 = true →
    Does (.pathSupervisionTimeout p (some n)) s fun u => peerOn (u.peer n) p = false ∧ (∀ m, m ≠ n.val → u.peer m = s.peer m)
      ∧ (∀ q, u.path q = s.path q) ∧ KeptBut [.net, .sess, .sup] s u) ∧
  (∀ s : State, netUp s = true →
    Does .prpSupervisionSend s fun u => u.net.supSeq = (s.net.supSeq + 1) % 65536 ∧ KeptBut [.net, .work] s u
      ∧ u.net.tx = s.net.tx ++ [{ svc := .prp, dst := none, path := some .a, data := le 2 s.net.supSeq, src := ownMac s, tag := prioTag s .prp },
          { svc := .prp, dst := none, path := some .b, data := le 2 s.net.supSeq, src := ownMac s, tag := prioTag s .prp }]) ∧
  (∀ (p : Path) (node t : Nat) (s : State), netUp s = true → (s.path p).link = true → (s.path p).supAt = some t → s.now < t + 100000 → t ≤ s.now →
    Does (.prpSupervisionReceived p ⟨node, none⟩) s fun u => (u.path p).supAt = some s.now ∧ (u.path p).received = (s.path p).received + 1
      ∧ (u.path p).gapless = some ((s.path p).gapless.getD s.now) ∧ (∀ q, q ≠ p → u.path q = s.path q) ∧ KeptBut [.net, .sess, .sup, .jrn, .work] s u
      ∧ (u.path p).bit = ((s.path p).bit || heldFor (s.path p).gapless s.now 500000)) ∧
  (∀ (p : Path) (node : Nat) (n : Fin 1024) (s : State), netUp s = true → (s.path p).link = true → (s.peer n).known = true →
    Does (.prpSupervisionReceived p ⟨node, some n⟩) s fun u => peerOn (u.peer n) p = true ∧ peerSup (u.peer n) p = some s.now ∧ (u.peer n).seenAt = s.now
      ∧ (u.peer n).silent = false ∧ (∀ m, m ≠ n.val → u.peer m = s.peer m) ∧ KeptBut [.net, .sess, .sup, .jrn, .work] s u) ∧
  (∀ (n : Fin 1024) (s : State), netUp s = true → (s.peer n).known = true → (s.peer n).silent = false →
    (s.peer n).seenAt + s.keyN .unit .PEERTO ≤ s.now →
    Does (.peerSilent n) s fun u => u.peer n = { s.peer n with silent := true } ∧ (∀ m, m ≠ n.val → u.peer m = s.peer m)
      ∧ (∀ r ∈ u.net.relays, r.far ≠ n.val) ∧ KeptBut [.net, .sess, .sup, .jrn, .pool, .work] s u) ∧
  (∀ (k : Nat) (tag : Option Nat) (final : Bool) (text : String) (r : Relay) (s : State), netUp s = true → s.net.relays.find? (·.id = k) = some r →
    ownLine r (relayedReply text) = false → hears s r.near = true → (s.peer r.far).silent = false →
    Does (.relayReply k tag final text) s fun u => ((u.ses r.near).out.getLast?).map (·.word) = some (relayedReply text).word
      ∧ (u.ses r.near).out.length = (s.ses r.near).out.length + 1 ∧ othersKept r.near s u ∧ KeptBut [.net, .sess, .pool, .work] s u
      ∧ ((s.peer r.far).known = true → (u.peer r.far).seenAt = s.now)
      ∧ (final = false → u.net.relays = s.net.relays ∧ u.pool = s.pool)) ∧
  (∀ (k : Nat) (tag : Option Nat) (final : Bool) (text : String) (r : Relay) (s : State), netUp s = true → s.net.relays.find? (·.id = k) = some r →
    (s.peer r.far).silent = false → (relayedReply text).pre = .tilde → (relayedReply text).word.startsWith "hello" = true → r.hello = none →
    Does (.relayReply k tag final text) s fun u => (∃ q ∈ u.net.relays, q.id = k ∧ q.hello.isSome = true) ∧ KeptBut [.net, .work] s u) ∧
  (∀ (k : Nat) (tag : Option Nat) (final : Bool) (text : String) (r : Relay) (s : State), netUp s = true → s.net.relays.find? (·.id = k) = some r →
    (s.peer r.far).silent = false → (relayedReply text).pre ≠ .tilde → 0 < r.own →
    Does (.relayReply k tag final text) s fun u => (∃ q ∈ u.net.relays, q = { r with own := r.own - 1 }) ∧ KeptBut [.net, .work] s u) ∧
  (∀ (k : Nat) (r : Relay) (s : State), s.net.relays.find? (·.id = k) = some r →
    Does (.relayClosed k .refused) s fun u => (∀ q ∈ u.net.relays, q.id ≠ k) ∧ othersKept r.near s u ∧ KeptBut [.net, .sess, .pool, .work] s u) ∧
  (∀ (k : Nat) (r : Relay) (s : State), s.net.relays.find? (·.id = k) = some r →
    Does (.relayClosed k .resumed) s fun u => u.net.relays.map (·.id) = s.net.relays.map (·.id) ∧ KeptBut [.net, .work] s u
      ∧ ∃ l, u.net.tx = s.net.tx ++ l ∧ l ≠ [] ∧ (∀ f ∈ l, f.svc = .session ∧ f.dst = some r.far)
        ∧ ∀ m t, r.hello = some (m, t) → l.map (·.data) = [framedLine (ascii ("LOGIN RESUME=" ++ m ++ " TOKEN=" ++ t))])

/-- PTP and multicast (R268, R365, R366, R370 to R373): a Sync of the selected master corrects TIME's rate, and the second large offset of
one sign steps it; missed Syncs and Announces end the synchronisation, bit 28 follows 25 s later; the best master is selected; a grandmaster
sends and answers; group reports and ARP or ICMP answers go out. -/
def Obligations.NetworkTime : Prop :=
  (∀ (g : PtpSet) (o : Int) (s : State), inSystem s = true → s.net.ptp.self = false → s.net.ptp.gm = some g → s.net.ptp.path = .b →
    ptpSteady s = true → (s.path .b).link = true →
    Does (.ptpSync .b g.identity o) s fun u => u.net.ptp.offset = o ∧ u.net.ptp.syncAt = some s.now ∧ u.net.b.missed = 0
      ∧ u.net.b.received = s.net.b.received + 1
      ∧ (100000 < o.natAbs → bigSign o = s.net.ptp.lastBig → u.clk.timeFs = s.clk.timeFs - 1000000 * o ∧ u.net.ptp.lastBig = 0 ∧ u.clk.ppb = s.clk.ppb)
      ∧ ((o.natAbs ≤ 100000 ∨ bigSign o ≠ s.net.ptp.lastBig) → u.clk.timeFs = s.clk.timeFs ∧ u.clk.ppb = clampI (-100000) 100000 (Config.servoPpb o)
        ∧ u.net.ptp.lastBig = bigSign o ∧ KeptBut [.net, .clk, .sess, .sup] s u)
      ∧ (1000 < o.natAbs → u.net.ptp.bit7 = false)
      ∧ (o.natAbs ≤ 500 → 7 ≤ s.net.ptp.good → u.net.ptp.bit7 = true)) ∧
  (∀ (p : Path) (m : Nat) (o : Int) (s : State), (s.net.ptp.self = true ∨ s.net.ptp.gm.map (·.identity) ≠ some m) →
    ptpSteady s = true →
    Does (.ptpSync p m o) s fun u => u.net.ptp = s.net.ptp ∧ KeptBut [.net, .sess, .sup] s u) ∧
  (∀ (k : PtpKeys) (s : State), inSystem s = true → s.net.ptp.keys = some k → s.net.ptp.keysAt + pow2us k.annInt ≤ s.now →
    Does .ptpAnnounceTimeout s fun u => u.net.ptp.keys = some (ptpKeysNow s) ∧ KeptBut [.net] s u) ∧
  (∀ (p : Path) (s : State), inSystem s = true → ptpSteady s = true →
    heldFor (some ((s.path p).syncAt.getD s.head.startAt)) s.now (((s.path p).missed + 1) * pow2us s.ptp.syncInt) = true →
    Does (.ptpSyncMissed p) s fun u => (u.path p).missed = (s.path p).missed + 1 ∧ (u.path p).cleanSince = none ∧ (∀ q, q ≠ p → u.path q = s.path q)
      ∧ KeptBut [.net, .jrn] s u ∧ (p = .a → s.net.ptp.path = .a → u.net.ptp.path = (if 1 ≤ s.net.a.missed then .b else .a))
      ∧ u.net.ptp.bit7 = (s.net.ptp.bit7 && (s.net.ptp.self || !heldFor s.net.ptp.syncAt s.now (3 * pow2us s.ptp.syncInt)))) ∧
  (∀ (g : PtpSet) (t w : Nat) (s : State), inSystem s = true → s.net.ptp.self = false → s.net.ptp.gm = some g → s.net.ptp.foreign = [(g, w)] →
    ptpSteady s = true → s.net.ptp.annAt = some t → t + s.ptp.annTo * pow2us s.ptp.annInt ≤ s.now →
    Does .ptpAnnounceTimeout s fun u => u.net.ptp.foreign = [] ∧ u.net.ptp.gm = none ∧ KeptBut [.net] s u
      ∧ u.net.ptp.self = s.ptp.masterCap ∧ u.net.ptp.bit7 = s.ptp.masterCap) ∧
  (∀ s : State, s.net.ptp.bit7 = false → heldFor s.net.ptp.clearedAt s.now 25000000 = true →
    Does .flashAlignmentLost s fun u => u.net = { s.net with ptp := { s.net.ptp with bit28 := false } } ∧ KeptBut [.net] s u) ∧
  (∀ (p : Path) (d : PtpSet) (s : State), inSystem s = true → ptpSteady s = true → (s.path p).link = true →
    d.domain = s.ptp.domain → s.net.ptp.foreign = [] → 0 < s.ptp.annTo →
    Does (.ptpAnnounceReceived p d) s fun u => u.net.ptp.foreign = [(d, s.now)] ∧ KeptBut [.net, .sess, .sup] s u
      ∧ (∀ k, d.unit = some k → (s.peer k).known = true → (u.peer k).seenAt = s.now ∧ (u.peer k).silent = false)
      ∧ ((s.ptp.masterCap = false ∨ betterClock (ownClock s) d = false) → u.net.ptp.self = false ∧ u.net.ptp.gm = some d)
      ∧ (s.ptp.masterCap = true → betterClock (ownClock s) d = true → u.net.ptp.self = true)) ∧
  (∀ (k : PtpKind) (s : State), inSystem s = true → s.net.ptp.self = true → ptpSteady s = true →
    Does (.ptpMasterSend k) s fun u => KeptBut [.net, .work] s u
      ∧ u.net.tx = s.net.tx ++ [{ svc := .ptp, dst := none, path := some .a, data := ptpMessage k s, src := ownMac s, tag := prioTag s .ptp },
        { svc := .ptp, dst := none, path := some .b, data := ptpMessage k s, src := ownMac s, tag := prioTag s .ptp }]) ∧
  (∀ (p : Path) (s : State), inSystem s = true → s.net.ptp.self = true → ptpSteady s = true → (s.path p).link = true →
    Does (.ptpDelayReqReceived p) s fun u => KeptBut [.net, .work] s u ∧ (u.path p).received = (s.path p).received + 1
      ∧ u.net.tx = s.net.tx ++ [{ svc := .ptp, dst := none, path := some p, data := 9 :: le 1 s.ptp.delayInt, src := ownMac s, tag := prioTag s .ptp }]) ∧
  (∀ (a : Arrival) (q : Option Nat) (s : State), arrives s a = true →
    Does (.igmpQuery ⟨a, q⟩) s fun u => KeptBut [.net, .work] s u
      ∧ ∃ l, u.net.tx = s.net.tx ++ l ∧ l.length = s.net.groups.countP (fun g => q.isNone || decide (q = some g))
        ∧ ∀ f ∈ l, f.svc = .igmp ∧ ∃ g ∈ s.net.groups, (q = none ∨ q = some g) ∧ f.data = [22, 0, 0, 0, 239, 80, BitVec.ofNat 8 (g / 256), BitVec.ofNat 8 g]) ∧
  (∀ s : State, netUp s = true →
    Does .igmpMembershipReport s fun u => KeptBut [.net, .work] s u ∧ u.net.groups = s.net.groups
      ∧ ∃ l, u.net.tx = s.net.tx ++ l
      ∧ l.map (fun f => (f.svc, f.data)) = s.net.groups.map fun g => (Svc.igmp, [22, 0, 0, 0, 239, 80, BitVec.ofNat 8 (g / 256), BitVec.ofNat 8 g])) ∧
  (∀ (a : Arrival) (icmp : Bool) (s : State), arrives s a = true →
    Does (.arpIcmpRequest a icmp) s fun u => KeptBut [.net, .work] s u ∧ (u.path a.path).received = (s.path a.path).received + 1
      ∧ ∃ f, u.net.tx = s.net.tx ++ [f] ∧ f.svc = (if icmp then .icmp else .arp) ∧ f.data = [])

/-- The twin link (R384 to R398): PAIR, PAIR ATTACH and PAIR RELEASE begin; heartbeats are sent, form the pair or end it, and no
pair forms while the unit's own number is in conflict; a partner unheard
for 500 ms is silent; offers, pulls, blocks and releases act as their frames say; and the waits of PAIR, ATTACH and RELEASE end. -/
def Obligations.TwinLink : Prop :=
  (∀ (l : Line) (k n : Nat) (s : State), taken n l (pairSpec l.port k) s = true → (s.ses n).staging = none → s.cfg.twin = none →
    Does (.pair l k) s fun u => begun n l s u (.pair k) (.pairing k (s.now + 10000000)) ∧ answered n l s u (colR "pairing" [.obj (.unitNo k)])
      ∧ u.cfg.twin = some k ∧ u.twin.formed = false ∧ u.twin.custody = none ∧ othersKept n s u ∧ KeptBut (.cfg :: .twin :: .pool :: .ops :: heardParts) s u) ∧
  (∀ (l : Line) (src : Option Nat) (n : Nat) (s : State), taken n l (pairAttachSpec src) s = true →
    Does (.pairAttach l src) s fun u => begun n l s u (.pairAttach src) (.attaching src (s.now + 10000000)) ∧ answered n l s u (colR "attaching")
      ∧ u.twin = { s.twin with suspended := false, pullFrom := none, offer := none, blocks := [], pulled := none, records := [] }
      ∧ othersKept n s u ∧ KeptBut (.twin :: .pool :: .ops :: heardParts) s u) ∧
  (∀ (l : Line) (n : Nat) (s : State), taken n l pairReleaseSpec s = true →
    Does (.pairRelease l) s fun u => u.cfg.twin = none ∧ othersKept n s u
      ∧ (s.cfg.twin = none → answered n l s u (eqR "pair" [.w "release"]) ∧ KeptBut heardParts s u)
      ∧ (∀ v, s.cfg.twin = some v → begun n l s u .pairRelease (.releasing v (s.now + 1000000) (s.now + 60000000))
        ∧ answered n l s u (colR "releasing") ∧ u.twin.formed = false ∧ u.twin.custody = none
        ∧ KeptBut (.cfg :: .twin :: .net :: .pool :: .ops :: heardParts) s u)) ∧
  (∀ (v : Nat) (s : State), twinUp s = true → s.cfg.twin = some v → (s.peer v).known = true →
    Does .heartbeatSend s fun u => KeptBut [.net, .twin, .work] s u ∧ u.twin = { s.twin with seq := s.twin.seq + 1 }
      ∧ ∃ f, u.net.tx = s.net.tx ++ [f] ∧ f.svc = .twin ∧ f.dst = some v ∧ fieldAt f.data 4 1 = 1) ∧
  (∀ (a : Arrival) (v i : Nat) (f p : List Byte) (s : State), arrives s a = true → readTwin 1 f s = some (v, i, p) → s.cfg.twin = some v →
    36 ≤ p.length → Does (.heartbeatReceived ⟨a, f⟩) s fun u => u.twin.hbAt = some s.now ∧ u.twin.silent = false ∧ u.twin.asleep = false ∧ u.twin.hbSeq = fieldAt p 4 4
      ∧ u.twin.hbHeld = fieldAt p 20 4 ∧ KeptBut [.twin, .net, .sess, .sup, .jrn, .ops, .pool, .work] s u
      ∧ (s.net.conflict = true → s.twin.formed = false → u.twin.formed = false)
      ∧ (s.head.unit = some (fieldAt p 0 2) → (s.peer v).conflict = false → s.net.conflict = false → s.twin.formed = false → u.twin.formed = true
        ∧ ∀ o ∈ s.ops, (∃ d, o.prog = .pairing v d) → ∀ q ∈ u.ops, q.id ≠ o.id)
      ∧ (s.head.unit ≠ some (fieldAt p 0 2) → fieldAt p 0 2 < 1024 → u.twin.formed = false ∧ u.twin.refused = true ∧ ∀ c, u.twin.custody = some c → c.unit ≠ v)) ∧
  (∀ (v : Nat) (s : State), s.cfg.twin = some v → s.head.started = true → heldFor s.twin.hbAt s.now 500000 = true → s.twin.silent = false →
    Does .partnerSilent s fun u => u.twin = { s.twin with silent := true, asleep := decide (s.twin.hbFlags / 4 % 2 = 1) } ∧ KeptBut [.twin, .sess, .sup, .jrn] s u) ∧
  (∀ (c : Custody) (b : BankSet) (s : State), twinUp s = true → s.twin.custody = some c → c.set = some b → s.cfg.twin = some c.unit →
    s.twin.hbFlags / 2 % 2 = 1 → (∀ t, s.twin.offerAt = some t → t + 1000000 ≤ s.now) →
    Does .offerSend s fun u => u.twin = { s.twin with offerAt := some s.now, seq := s.twin.seq + 1 } ∧ KeptBut [.net, .twin, .work] s u
      ∧ ∃ f, u.net.tx = s.net.tx ++ [f] ∧ f.svc = .twin ∧ f.dst = some c.unit ∧ fieldAt f.data 4 1 = 2) ∧
  (∀ (a : Arrival) (v i : Nat) (f p : List Byte) (s : State), arrives s a = true → readTwin 2 f s = some (v, i, p) → mayPull s v = true → s.twin.pullFrom = none → 28 ≤ p.length →
    s.store.write = none →
    Does (.offerReceived ⟨a, f⟩) s fun u => u.twin.pullFrom = some v ∧ u.twin.frameAt = s.now ∧ u.twin.blocks = [] ∧ u.twin.pulled = none ∧ u.twin.records = []
      ∧ u.twin.offer = some (fieldAt p 0 4, BitVec.ofNat 32 (fieldAt p 4 4), fieldAt p 8 4, fieldAt p 12 8, fieldAt p 20 8)
      ∧ KeptBut [.twin, .net, .sess, .sup, .work] s u) ∧
  (∀ (a : Arrival) (v i : Nat) (f p : List Byte) (c : Custody) (s : State), arrives s a = true → readTwin 3 f s = some (v, i, p) → custodyOf s v = some c → c.seq = fieldAt p 0 4 →
    c.set.isSome = true →
    Does (.pullReceived ⟨a, f⟩) s fun u => u.twin.sendTo = some v ∧ u.twin.sendFrom = some 0 ∧ u.twin.sentRec = 0 ∧ u.twin.custody = s.twin.custody
      ∧ KeptBut [.twin, .net, .sess, .sup, .work] s u) ∧
  (∀ s : State, Does .twinBlockSend s fun u => KeptBut [.net, .twin, .work] s u ∧ (∀ t, s.twin.blocksAt = some t → s.now < t + 100000 → u = s) ∧ ∃ l, u.net.tx = s.net.tx ++ l ∧ l.length ≤ 64
      ∧ (∀ f ∈ l, f.svc = .twin ∧ (fieldAt f.data 4 1 = 4 ∨ fieldAt f.data 4 1 = 5))
      ∧ (∀ v i c b, (∀ t, s.twin.blocksAt = some t → t + 100000 ≤ s.now) → twinUp s = true → s.twin.sendTo = some v → custodyOf s v = some c → c.set = some b → s.twin.sendFrom = some i →
        i + 64 ≤ setBlocks b → u.twin = { s.twin with sendFrom := some (i + 64), seq := s.twin.seq + 64, blocksAt := some s.now } ∧ l.length = 64
          ∧ ∀ f ∈ l, f.dst = some v ∧ fieldAt f.data 4 1 = 4)) ∧
  (∀ (a : Arrival) (v : Nat) (f p : List Byte) (b : BankSet) (s : State), arrives s a = true → readTwin 4 f s = some (v, 0, p) → s.twin.pullFrom ≠ some v → s.cfg.twin = some v →
    pairStands s = true → s.twin.custody = none → 0 < s.twin.hbSeq →
    Does (.configurationBlock ⟨a, f⟩ b) s fun u => KeptBut [.twin, .net, .sess, .sup, .work] s u
      ∧ (setBlocks b = 1 → setCrc s.twin.hbSeq b = s.twin.hbCrc → u.twin.custody = some { unit := v, seq := s.twin.hbSeq, set := some b })
      ∧ (setBlocks b ≠ 1 → u.twin.custody = some { unit := v, partSeq := s.twin.hbSeq, part := [0] })) ∧
  (∀ (a : Arrival) (v i : Nat) (f p : List Byte) (c : Custody) (s : State), arrives s a = true → readTwin 5 f s = some (v, i, p) → s.twin.pullFrom ≠ some v → s.cfg.twin = some v →
    pairStands s = true → custodyOf s v = some c → c.records = [] → p.length = 128 → 0 < fieldAt p 0 8 →
    Does (.journalBlock ⟨a, f⟩) s fun u => u.twin.custody = some { c with records := [p] } ∧ KeptBut [.twin, .net, .sess, .sup, .work] s u) ∧
  (∀ (a : Arrival) (v i : Nat) (f p : List Byte) (s : State), arrives s a = true → readTwin 6 f s = some (v, i, p) → s.cfg.twin = some v →
    Does (.releaseReceived ⟨a, f⟩) s fun u => u.twin.formed = false ∧ (∀ c, u.twin.custody = some c → c.unit ≠ v) ∧ KeptBut [.twin, .net, .sess, .sup, .work] s u
      ∧ (twinUp s = true → ∃ g, u.net.tx = s.net.tx ++ [g] ∧ g.svc = .twin ∧ g.dst = some v ∧ fieldAt g.data 4 1 = 7)) ∧
  (∀ (a : Arrival) (v i : Nat) (f p : List Byte) (s : State), arrives s a = true → readTwin 7 f s = some (v, i, p) →
    Does (.releaseAcknowledgement ⟨a, f⟩) s fun u => KeptBut (.twin :: .net :: overParts) s u
      ∧ ∀ o ∈ s.ops, (∃ a d, o.prog = .releasing v a d) → ∀ q ∈ u.ops, q.id ≠ o.id) ∧
  (∀ s : State,
    Does .pairPendingTimeout s fun u => KeptBut overParts s u ∧ (∀ o ∈ s.ops, (∃ v d, o.prog = .pairing v d ∧ d ≤ s.now) → ∀ q ∈ u.ops, q.id ≠ o.id)
      ∧ ((∀ o ∈ s.ops, ∀ v d, o.prog = .pairing v d → s.now < d) → u = s)) ∧
  (∀ s : State,
    Does .attachOfferTimeout s fun u => KeptBut overParts s u ∧ (s.twin.offer.isSome = true → u = s)
      ∧ (s.twin.offer = none → ∀ o ∈ s.ops, (∃ v d, o.prog = .attaching v d ∧ d ≤ s.now) → ∀ q ∈ u.ops, q.id ≠ o.id)) ∧
  (∀ (o : Op) (v next d : Nat) (s : State), s.ops = [o] → o.prog = .releasing v next d → twinUp s = true →
    Does .releaseFrameRetry s fun u => (d ≤ s.now → ∀ q ∈ u.ops, q.id ≠ o.id) ∧ (s.now < d → s.now < next → u = s)
      ∧ (s.now < d → next ≤ s.now → u.ops = [{ o with prog := .releasing v (next + 1000000) d }] ∧ KeptBut [.ops, .net, .twin, .work] s u
        ∧ ∃ g, u.net.tx = s.net.tx ++ [g] ∧ g.svc = .twin ∧ g.dst = some v ∧ fieldAt g.data 4 1 = 6))

/-- Sleep and wake (R399 to R410): SLEEP opens a vote, WAKE ends it or latches; frames propose, vote, commit and wake; a vote that is late
is dropped; at the commit instant the head closes its sessions and the supervisor removes power; WAKEIN latches a remote wake; the latch
boots the crate, and the wake's own waits end. -/
def Obligations.SleepAndWake : Prop :=
  (∀ (l : Line) (system : Bool) (n : Nat) (e : List Nat) (s : State), taken n l (sleepSpec system) s = true → s.noTime .jrn = false →
    e = (if system then electorate s else [ownUnit s]) →
    Does (.sleep l system) s fun u => u.slp.number = s.slp.number + 1 ∧ u.slp.commit = none ∧ othersKept n s u
      ∧ ((notReady s = 0 ∨ notReady s = 2) → begun n l s u (.sleep system) .sleeping ∧ answered n l s u (colR "voting" [.n e.length])
        ∧ u.slp.vote = some { coord := ownUnit s, number := s.slp.number + 1, electors := e, at_ := s.now, op := some s.nextOp }
        ∧ KeptBut (.slp :: .net :: .pool :: .ops :: heardParts) s u)
      ∧ (notReady s ≠ 0 → notReady s ≠ 2 → system = false → u.slp.vote = none
        ∧ answeredAll n l s u [colR "voting" [.n 1], errR { code := 6, detail := .obj (.unitNo (ownUnit s)) }]
        ∧ KeptBut (.slp :: .pool :: .ops :: heardParts) s u)) ∧
  (∀ (l : Line) (n : Nat) (s : State), taken n l (wakeSpec l.port) s = true →
    Does (.wake l) s fun u =>
      (s.slp.reached = true → u.sup.latch = true ∧ u.sup.host = true ∧ answered n l s u (eqR "wake" [.w "latched"]) ∧ u.slp = s.slp
        ∧ KeptBut (.sup :: heardParts) s u)
      ∧ (s.slp.reached = false → s.slp.commit.isSome = true → u.slp.commit = none ∧ u.slp.vote = none ∧ u.sup.commitAt = none
        ∧ lastAnswer n l s u (eqR "wake" [.kw "cause" "host"]) ∧ KeptBut (.slp :: .sup :: .net :: heardParts) s u)
      ∧ (s.slp.reached = false → s.slp.commit = none → s.slp.vote.isSome = true → u.slp.vote = none ∧ lastAnswer n l s u (eqR "wake" [.kw "cause" "host"]))
      ∧ (s.slp.reached = false → s.slp.commit = none → s.slp.vote = none → answered n l s u (eqR "wake" [.w "awake"]) ∧ othersKept n s u
        ∧ KeptBut heardParts s u)) ∧
  (∀ (a : Arrival) (f : List Byte) (s : State), arrives s a = true → sleepFrame f s = true → fieldAt f 2 1 = 1 → (fieldAt f 4 2, fieldAt f 6 4, 1 + 16 * fieldAt f 0 2) ∉ s.slp.acted →
    s.slp.commit = none → s.slp.reached = false → s.slp.vote = none →
    Does (.proposeReceived ⟨a, f⟩) s fun u => KeptBut [.slp, .net, .sess, .sup, .work] s u ∧ u.slp.commit = none
      ∧ (elected f s = false → u.slp.vote = none ∧ u.net.tx = s.net.tx)
      ∧ (elected f s = true → u.slp.vote = some {
          coord := fieldAt f 4 2, number := fieldAt f 6 4, electors := electorsOf f, at_ := s.now, voted := true
          notReady := if notReady s = 0 then [] else [ownUnit s] }
        ∧ ∃ g, u.net.tx = s.net.tx ++ g ∧ g.length = 3
          ∧ ∀ x ∈ g, x.svc = .sleepVote ∧ fieldAt x.data 2 1 = (if notReady s = 0 then 2 else 3))) ∧
  (∀ (a : Arrival) (f : List Byte) (v : Vote) (s : State), arrives s a = true → sleepFrame f s = true → (fieldAt f 2 1 = 2 ∨ fieldAt f 2 1 = 3) →
    (fieldAt f 4 2, fieldAt f 6 4, fieldAt f 2 1 + 16 * fieldAt f 0 2) ∉ s.slp.acted → s.slp.vote = some v → v.coord = ownUnit s → fieldAt f 4 2 = v.coord →
    fieldAt f 6 4 = v.number → fieldAt f 0 2 ∈ v.electors → s.slp.commit = none → v.notReady = [] →
    Does (.voteReceived ⟨a, f⟩) s fun u =>
      (fieldAt f 2 1 = 2 → v.electors.all (· ∈ fieldAt f 0 2 :: v.ready) = true → u.slp.commit = some (s.time + 2000000000)
        ∧ u.sup.commitAt = some (s.now + 2000000) ∧ ∀ id, v.op = some id → ∀ q ∈ u.ops, q.id ≠ id)
      ∧ (fieldAt f 2 1 = 2 → v.electors.all (· ∈ fieldAt f 0 2 :: v.ready) = false → u.slp.commit = none
        ∧ u.slp.vote = some { v with ready := fieldAt f 0 2 :: v.ready } ∧ KeptBut [.slp, .net, .sess, .sup, .work] s u)
      ∧ (fieldAt f 2 1 = 3 → v.electors.all (· ∈ v.ready) = false → u.slp.commit = none ∧ u.slp.vote = none ∧ ∀ id, v.op = some id → ∀ q ∈ u.ops, q.id ≠ id)) ∧
  (∀ (v : Vote) (s : State), s.slp.vote = some v → v.coord = ownUnit s → s.slp.commit = none → v.at_ + 1000000 ≤ s.now →
    Does .voteTimeout s fun u => u.slp.vote = none ∧ u.slp.commit = none ∧ (∀ id, v.op = some id → ∀ q ∈ u.ops, q.id ≠ id)
      ∧ KeptBut (.slp :: .net :: overParts) s u) ∧
  (∀ (v : Vote) (s : State), s.slp.vote = some v → v.coord ≠ ownUnit s → s.slp.commit = none → v.at_ + 1500000 ≤ s.now →
    Does .electorDeadline s fun u => u.slp.vote = none ∧ u.slp.commit = none ∧ KeptBut (.slp :: .net :: overParts) s u) ∧
  (∀ (a : Arrival) (f : List Byte) (v : Vote) (s : State), arrives s a = true → sleepFrame f s = true → fieldAt f 2 1 = 4 → (fieldAt f 4 2, fieldAt f 6 4, 4 + 16 * fieldAt f 0 2) ∉ s.slp.acted →
    s.slp.vote = some v → elected f s = true → v.coord = fieldAt f 4 2 → v.number = fieldAt f 6 4 → s.slp.commit = none →
    Does (.commitReceived ⟨a, f⟩) s fun u => u.slp.commit = some (unleI (slice f 10 8)) ∧ u.slp.vote = some v
      ∧ u.sup.commitAt = some (s.now + ((unleI (slice f 10 8) - s.time) / 1000).toNat) ∧ KeptBut [.slp, .net, .sess, .sup, .work] s u) ∧
  (∀ (a : Arrival) (f : List Byte) (s : State), arrives s a = true → sleepFrame f s = true → fieldAt f 2 1 = 5 → (fieldAt f 4 2, fieldAt f 6 4, 5 + 16 * fieldAt f 0 2) ∉ s.slp.acted →
    Does (.wakeFrameReceived ⟨a, f⟩) s fun u =>
      (s.slp.reached = true → u.sup.latch = true ∧ u.sup.remote = true ∧ u.slp.commit = s.slp.commit ∧ KeptBut [.slp, .net, .sess, .sup, .work] s u)
      ∧ (s.slp.reached = false → s.slp.commit.isSome = true → u.slp.commit = none ∧ u.slp.vote = none ∧ u.sup.commitAt = none
        ∧ KeptBut [.slp, .net, .sess, .sup, .jrn, .work] s u)
      ∧ (s.slp.reached = false → s.slp.commit = none → u.slp.vote = none ∧ KeptBut (.slp :: .net :: overParts) s u)) ∧
  (∀ (t : Int) (s : State), s.slp.commit = some t → t ≤ s.time → s.head.powered = true → s.slp.reached = false →
    Does .commitInstant s fun u => u.slp.reached = true ∧ u.slp.vote = none ∧ u.sup.st = .pending ∧ (∀ k, 0 < k → k < 64 → (u.ses k).st = .free)
      ∧ u.head.powered = true ∧ u.camp.safe = s.camp.safe) ∧
  (∀ (t : Nat) (s : State), s.sup.commitAt = some t →
    Does .supervisorCommitFallback s fun u =>
      ((s.sup.st = .pending ∨ (s.slp.commit = none ∧ t ≤ s.now) ∨ t + 500000 ≤ s.now) → u.sup.st = .asleep ∧ u.sup.commitAt = none
        ∧ u.sup.downAt = (if s.sup.latch then some s.now else none) ∧ u.head.powered = false ∧ (∀ p, p < 8 → (u.slc p).powered = false) ∧ u.camp.safe = s.camp.safe)
      ∧ (s.sup.st ≠ .pending → s.slp.commit.isSome = true → s.now < t + 500000 → u = s)) ∧
  (∀ (v : Nat) (x : LineIn) (s : State), x = lineSample s 20000 v s.sup.wakein →
    Does (.wakein v) s fun u => u.sup.wakein = x
      ∧ ((x.on = false ∨ s.sup.wakein.on = true) → u.sup = { s.sup with wakein := x } ∧ KeptBut [.sup] s u)
      ∧ (x.on = true → s.sup.wakein.on = false → s.sup.st ≠ .awake → u.sup = { s.sup with wakein := x, latch := true, remote := true } ∧ KeptBut [.sup] s u)
      ∧ (x.on = true → s.sup.wakein.on = false → s.sup.st = .awake → s.head.started = true → s.slp.reached = true → u.sup.latch = true ∧ u.sup.remote = true)
      ∧ (x.on = true → s.sup.wakein.on = false → s.sup.st = .awake → s.head.started = true → s.slp.reached = false → s.slp.commit.isSome = true →
        u.slp.commit = none)) ∧
  (∀ s : State, s.sup.st = .asleep → s.sup.latch = true → (∀ t, s.sup.downAt = some t → t + 200000 ≤ s.now) → s.sup.goodSince.isSome = true →
    Does .boot s fun u => u.sup.st = .boot ∧ u.sup.bootAt = some s.now ∧ u.sup.latch = true ∧ u.head.powered = true ∧ u.head.started = false
      ∧ u.head.cause = .wake ∧ u.camp.safe = s.camp.safe ∧ (∀ k, (u.ses k).st = .free)
      ∧ (∀ p m, p < 8 → enabled s p = true → (s.slc p).seated = some m → (u.slc p).powered = true)) ∧
  (∀ s : State, due s.sup.wakeout s.now = true →
    Does .wakepulseEnd s fun u => u.sup = { s.sup with wakeout := none } ∧ KeptBut [.sup] s u) ∧
  (∀ s : State, s.head.bit31 = true →
    Does .wakeBootTimeout s fun u => KeptBut overParts s u ∧ ∀ o ∈ s.ops, (∃ d, o.prog = .waking d ∧ 0 < d ∧ d ≤ s.now) → ∀ q ∈ u.ops, q.id ≠ o.id)

/-- Stores (R345, R346, R427, R453, R457, R459, R461, R476 to R478, R502): SAVE begins a write of the set in force, SAVE SAFETY one with the
candidate, either answered E05 naming SAVE where it is too long for a bank, SAVE BEGIN opens a staging and SAVE ABORT drops it; JOURNAL READ and SNAPSHOT list what they read and change no store but what
has been read; RELEASE unpins; the buffer is written out; and a bank write's end makes its bank the loaded one, or leaves
it invalid; a SAVE SAFETY that a lane's store or a latch fails leaves the bank invalid and the committed set in force. -/
def Obligations.StoresAndJournal : Prop :=
  (∀ (l : Line) (n : Nat) (s : State), taken n l saveSpec s = true → (s.ses n).staging = none →
    Does (.save l) s fun u => othersKept n s u
      ∧ (∀ e, tooLong (setInForce s) = some e → answered n l s u (errR e) ∧ KeptBut heardParts s u)
      ∧ (tooLong (setInForce s) = none → begun n l s u .save (.save false) ∧ answered n l s u (colR "saving")
        ∧ KeptBut (.store :: .pool :: .ops :: heardParts) s u
        ∧ (∃ w, u.store.write = some w ∧ w.bankB = nextBank s ∧ w.both = false ∧ w.staged = false ∧ w.op = some s.nextOp ∧ w.bank.seq = nextSeq s
          ∧ w.bank.unit = s.head.unit ∧ w.bank.set = setInForce s ∧ w.bank.valid = true)
        ∧ (if nextBank s then u.store.bankB.valid = false ∧ u.store.bankA = s.store.bankA else u.store.bankA.valid = false ∧ u.store.bankB = s.store.bankB))) ∧
  (∀ (l : Line) (n : Nat) (s : State), taken n l { saveSafetySpec with values := fun _ => none } s = true →
    Does (.saveSafety l) s fun u => othersKept n s u ∧ { u.camp with auths := s.camp.auths } = s.camp
      ∧ (∀ e, saveSafetySpec.values s = some e → e = { code := 5, detail := .word "SAVE" } ∧ answered n l s u (errR e) ∧ KeptBut (.camp :: heardParts) s u)
      ∧ (saveSafetySpec.values s = none → begun n l s u .saveSafety (.saveSafety false) ∧ answered n l s u (colR "saving")
        ∧ KeptBut (.store :: .camp :: .pool :: .ops :: heardParts) s u
        ∧ (∃ w, u.store.write = some w ∧ w.bankB = nextBank s ∧ w.op = some s.nextOp ∧ w.bank.set.safety = some (candOf s) ∧ w.bank.seq = nextSeq s))) ∧
  (∀ (l : Line) (n : Nat) (s : State), taken n l saveBeginSpec s = true →
    Does (.saveBegin l) s fun u => answeredAll n l s u [colR "staging", eqR "save" [.w "begin"]] ∧ (u.ses n).staging = some []
      ∧ (u.ses n).stagedLines = 0 ∧ (u.ses n).stagedBytes = 0 ∧ othersKept n s u ∧ KeptBut heardParts s u) ∧
  (∀ (l : Line) (n : Nat) (s : State), taken n l saveAbortSpec s = true →
    Does (.saveAbort l) s fun u => othersKept n s u ∧ KeptBut heardParts s u ∧ (u.ses n).staging = none
      ∧ ((s.ses n).staging = none → answered n l s u (errR { code := 6, detail := .word "SAVE" }))
      ∧ ((s.ses n).staging.isSome = true → (u.ses n).stagedLines = 0
        ∧ answeredAll n l s u [colR "aborting", eqR "save" [.w "abort", .n (s.ses n).stagedLines]])) ∧
  (∀ (l : Line) (q : JQuery) (n : Nat) (r : List JRec) (t : List Reply) (s : State), taken n l (journalReadSpec false q) s = true →
    r = ((byNum s).filter fun x => inQuery q x.num x.stamp x.code x.station x.bad).take q.count →
    t = gapLine q ((((byNum s).filter fun x => !x.bad).head?).map (·.num)) ++ (r.map fun x => recLines x.num (recBytes x) x.bad).flatten →
    Does (.journalRead l q) s fun u => othersKept n s u ∧ KeptBut (.pool :: .ops :: heardParts) s u ∧ u.jrn = s.jrn
      ∧ (s.noTime .jrn = true → begun n l s u (.journalRead false q) (.journal t r.length none none) ∧ answered n l s u (colR "reading"))
      ∧ (s.noTime .jrn = false → ∃ m, listed n l s u (.journalRead false q) t m (.journal (t.drop m) r.length none none)
        (eqR "journal" [.n r.length, .kn "last" (newestRec s) ""]))) ∧
  (∀ (l : Line) (q : JQuery) (n z : Nat) (c : Custody) (r : List (List Byte)) (t : List Reply) (s : State), taken n l (journalReadSpec true q) s = true →
    s.twin.custody = some c → r = (c.records.filter fun x => inQuery q (fieldAt x 0 8) (unleI (slice x 8 8)) (fieldAt x 16 2) (fieldAt x 22 1) false).take q.count →
    z = (c.records.getLast?.map fun x => fieldAt x 0 8).getD 0 →
    t = gapLine q (c.records.head?.map fun x => fieldAt x 0 8) ++ (r.map fun x => recLines (fieldAt x 0 8) (markCustody x) false).flatten →
    Does (.journalReadCustody l q) s fun u => othersKept n s u ∧ KeptBut (.pool :: .ops :: heardParts) s u ∧ u.jrn = s.jrn
      ∧ (s.noTime .jrn = true → begun n l s u (.journalRead true q) (.journal t r.length (some z) none) ∧ answered n l s u (colR "reading"))
      ∧ (s.noTime .jrn = false → ∃ m, listed n l s u (.journalRead true q) t m (.journal (t.drop m) r.length (some z) none)
        (eqR "journal" [.n r.length, .kn "last" z ""]))) ∧
  (∀ (l : Line) (n : Nat) (s : State), taken n l snapshotListSpec s = true →
    Does (.journalSnapshotList l) s fun u => othersKept n s u ∧ KeptBut heardParts s u
      ∧ ∃ a b, answeredAll n l s u [colR "reading", a, b, eqR "journal" [.n 2]]
        ∧ (s.store.snapA = none → a = colR "snap" [.kw "bank" "A", .w "empty"]) ∧ (s.store.snapB = none → b = colR "snap" [.kw "bank" "B", .w "empty"])
        ∧ (∀ q, s.store.snapA = some q → a = colR "snap" [.kw "bank" "A", .kn "n" q.num "", .kw "rung" (rungWord q.rung), .kw "obj" (snapObject q),
          fBit "pinned" q.pinned, .kn "len" q.len ""])) ∧
  (∀ (l : Line) (start len : Option Nat) (n a e : Nat) (b : Bool) (q : Snapshot) (t : List Reply) (s : State),
    taken n l (snapshotReadSpec none start len) s = true → newestSnap s = some (b, q) → a = start.getD 0 →
    e = (match len with | some k => min q.len (a + k) | none => q.len) → t = snapLines s q 16385 a e →
    Does (.journalSnapshot l none start len) s fun u => othersKept n s u ∧ KeptBut (.store :: .head :: .pool :: .ops :: heardParts) s u
      ∧ (s.noTime .jrn = true → begun n l s u (.snapshotRead none start len) (.journal t (e - a) none (some (b, a, e)))
        ∧ answered n l s u (colR "reading"))
      ∧ (s.noTime .jrn = false → ∃ m, listed n l s u (.snapshotRead none start len) t m
          (.journal (t.drop m) (e - a) none (some (b, min e (a + 64 * m), e))) (eqR "journal" [.n ((e - a : Nat) : Int)])
        ∧ (m = 0 → u.store = s.store ∧ u.head.unread = s.head.unread)
        ∧ (a = 0 → e = q.len → 0 < e → m = t.length → u.head.unread = false))) ∧
  (∀ (l : Line) (k n : Nat) (s : State), taken n l (snapshotReleaseSpec k) s = true →
    Does (.journalSnapshotRelease l k) s fun u => answeredAll n l s u [colR "reading", eqR "journal" [.w "release", .n k]] ∧ othersKept n s u
      ∧ KeptBut (.store :: heardParts) s u ∧ { u.store with snapA := s.store.snapA, snapB := s.store.snapB } = s.store
      ∧ u.store.snapA = s.store.snapA.map (fun q => if q.num = k then { q with pinned := false } else q)
      ∧ u.store.snapB = s.store.snapB.map (fun q => if q.num = k then { q with pinned := false } else q)) ∧
  (∀ s : State, s.head.powered = true → s.noTime .jrn = false → s.jrn.badPlaces = [] → s.slp.vote = none →
    Does .journalFlush s fun u => KeptBut [.jrn, .work] s u ∧ u.jrn.nextNum = s.jrn.nextNum
      ∧ ((32 ≤ s.jrn.buf.length ∨ (s.jrn.buf ≠ [] ∧ (s.jrn.bufSince + 100000 ≤ s.now ∨ s.sup.lowSince.isSome = true))) → u.jrn.buf = [])
      ∧ (s.jrn.buf.length < 32 → s.now < s.jrn.bufSince + 100000 → s.sup.lowSince = none → u = s)) ∧
  (∀ (w : BankWrite) (s : State), s.store.write = some w → s.head.powered = true → s.noTime .jrn = false →
    Does (.bankWriteComplete .bank) s fun u => u.store = { s.store with write := none } ∧ KeptBut (.store :: overParts) s u
      ∧ ∀ id, w.op = some id → ∀ q ∈ u.ops, q.id ≠ id) ∧
  (∀ (w : BankWrite) (o : Op) (s : State), s.store.write = some w → s.head.powered = true → s.noTime .jrn = false → w.both = false →
    w.op = some o.id → s.opOf o.id = some o →
    Does (.bankWriteComplete .good) s fun u => u.store.write = none ∧ u.store.bothLoaded = false
      ∧ ((o.prog ≠ .saveSafety false ∨ ∀ p, p < 8 → latchFitted s p = true → (s.slc p).link = true) → noSaving s = true →
        u.head.loaded = true ∧ u.store.loaded = some w.bankB
        ∧ (if w.bankB then u.store.bankB = w.bank ∧ u.store.bankA = s.store.bankA else u.store.bankA = w.bank ∧ u.store.bankB = s.store.bankB))
      ∧ (o.prog = .save false → w.staged = false → u.cfg = s.cfg ∧ u.st = s.st ∧ u.camp = s.camp ∧ ∀ q ∈ u.ops, q.id ≠ o.id)
      ∧ (o.prog = .save true → w.staged = true → (∀ q ∈ u.ops, q.id ≠ o.id) ∧ u.cfg.twin = w.bank.set.twin ∧ u.head.refused = false
        ∧ (∀ t, t = { s with cfg := { s.cfg with plain := w.bank.set.text } } → (∀ e ∈ clipKeys t, clipOf t e.1 e.2 (kInt (t.key e.1 e.2)) = none) →
          u.cfg.plain = w.bank.set.text))
      ∧ (o.prog = .saveSafety false → (∃ p, p < 8 ∧ latchFitted s p = true ∧ (s.slc p).link = false) →
        (∀ q ∈ u.ops, q.id ≠ o.id) ∧ u.cfg = { s.cfg with saving := none } ∧ u.camp = s.camp
        ∧ (noSaving s = true → w.bank.set.safety.isSome = true → bankUnsaved w s u))
      ∧ (o.prog = .saveSafety false → (∃ p, p < 8 ∧ latchFitted s p = true) → (∀ p, p < 8 → latchFitted s p = true → (s.slc p).link = true) →
        (∃ q ∈ u.ops, q.id = o.id ∧ q.prog = .saveSafety true) ∧ u.camp = s.camp ∧ u.cfg.safety = s.cfg.safety
        ∧ (∃ x, u.cfg.saving = some x ∧ x.keys = w.bank.set.safety.getD [] ∧ x.profiles = w.bank.set.profiles ∧ x.skey = s.cfg.candSkey)
        ∧ ∀ p, p < 8 → latchFitted s p = true → (u.slc p).latched = false ∧ (u.slc p).latchAt = some s.now
          ∧ (u.slc p).writes = (s.slc p).writes ++ latchWrites u p)
      ∧ (o.prog = .saveSafety false → (∀ p, p < 8 → latchFitted s p = false) → (∀ q ∈ u.ops, q.id ≠ o.id)
        ∧ u.cfg.safety = w.bank.set.safety.getD [] ∧ u.cfg.cand = none ∧ u.cfg.candSkey = none
        ∧ u.camp.a.loop = false ∧ u.camp.b.loop = false ∧ u.camp.a.store = some (w.bank.set.safety.getD []) ∧ u.camp.b.store = u.camp.a.store
        ∧ u.camp.a.profiles = w.bank.set.profiles ∧ u.camp.b.profiles = w.bank.set.profiles)) ∧
  (∀ (w : BankWrite) (o : Op) (x : Lane) (s : State), s.store.write = some w → s.head.powered = true → s.noTime .jrn = false → w.both = false →
    w.op = some o.id → s.opOf o.id = some o → o.prog = .saveSafety false → w.bank.set.safety.isSome = true →
    Does (.bankWriteComplete (.lane x)) s fun u => (∀ q ∈ u.ops, q.id ≠ o.id) ∧ u.cfg = { s.cfg with saving := none } ∧ u.camp = s.camp
      ∧ bankUnsaved w s u)
end

