-- ==== Sys2Proof/Laws/State.lean ====
section
/-! SUPPORT. What each named update of the state leaves in every field: one lemma per field per update. -/

namespace Sys2Proof.Machine

open Sys2Proof

/-! ## modSes -/

@[simp] theorem modSes_fit (s : State) (n : Nat) (f : Session → Session) : (s.modSes n f).fit = s.fit := rfl
@[simp] theorem modSes_clk (s : State) (n : Nat) (f : Session → Session) : (s.modSes n f).clk = s.clk := rfl
@[simp] theorem modSes_head (s : State) (n : Nat) (f : Session → Session) : (s.modSes n f).head = s.head := rfl
@[simp] theorem modSes_sup (s : State) (n : Nat) (f : Session → Session) : (s.modSes n f).sup = s.sup := rfl
@[simp] theorem modSes_pool (s : State) (n : Nat) (f : Session → Session) : (s.modSes n f).pool = s.pool := rfl
@[simp] theorem modSes_poolFull (s : State) (n : Nat) (f : Session → Session) : (s.modSes n f).poolFull = s.poolFull := rfl
@[simp] theorem modSes_ops (s : State) (n : Nat) (f : Session → Session) : (s.modSes n f).ops = s.ops := rfl
@[simp] theorem modSes_nextOp (s : State) (n : Nat) (f : Session → Session) : (s.modSes n f).nextOp = s.nextOp := rfl
@[simp] theorem modSes_accNo (s : State) (n : Nat) (f : Session → Session) : (s.modSes n f).accNo = s.accNo := rfl
@[simp] theorem modSes_crossings (s : State) (n : Nat) (f : Session → Session) : (s.modSes n f).crossings = s.crossings := rfl
@[simp] theorem modSes_cfg (s : State) (n : Nat) (f : Session → Session) : (s.modSes n f).cfg = s.cfg := rfl
@[simp] theorem modSes_st (s : State) (n : Nat) (f : Session → Session) : (s.modSes n f).st = s.st := rfl
@[simp] theorem modSes_sl (s : State) (n : Nat) (f : Session → Session) : (s.modSes n f).sl = s.sl := rfl
@[simp] theorem modSes_line (s : State) (n : Nat) (f : Session → Session) : (s.modSes n f).line = s.line := rfl
@[simp] theorem modSes_camp (s : State) (n : Nat) (f : Session → Session) : (s.modSes n f).camp = s.camp := rfl
@[simp] theorem modSes_yar (s : State) (n : Nat) (f : Session → Session) : (s.modSes n f).yar = s.yar := rfl
@[simp] theorem modSes_bus (s : State) (n : Nat) (f : Session → Session) : (s.modSes n f).bus = s.bus := rfl
@[simp] theorem modSes_reports (s : State) (n : Nat) (f : Session → Session) : (s.modSes n f).reports = s.reports := rfl
@[simp] theorem modSes_net (s : State) (n : Nat) (f : Session → Session) : (s.modSes n f).net = s.net := rfl
@[simp] theorem modSes_twin (s : State) (n : Nat) (f : Session → Session) : (s.modSes n f).twin = s.twin := rfl
@[simp] theorem modSes_slp (s : State) (n : Nat) (f : Session → Session) : (s.modSes n f).slp = s.slp := rfl
@[simp] theorem modSes_jrn (s : State) (n : Nat) (f : Session → Session) : (s.modSes n f).jrn = s.jrn := rfl
@[simp] theorem modSes_store (s : State) (n : Nat) (f : Session → Session) : (s.modSes n f).store = s.store := rfl
@[simp] theorem modSes_free (s : State) (n : Nat) (f : Session → Session) : (s.modSes n f).free = s.free := rfl
@[simp] theorem modSes_inbuf (s : State) (n : Nat) (f : Session → Session) : (s.modSes n f).inbuf = s.inbuf := rfl
@[simp] theorem modSes_left (s : State) (n : Nat) (f : Session → Session) : (s.modSes n f).left = s.left := rfl
@[simp] theorem modSes_returns (s : State) (n : Nat) (f : Session → Session) : (s.modSes n f).returns = s.returns := rfl
@[simp] theorem modSes_pending (s : State) (n : Nat) (f : Session → Session) : (s.modSes n f).pending = s.pending := rfl

/-! ## modEnt -/

@[simp] theorem modEnt_fit (s : State) (n : Nat) (f : PoolEntry → PoolEntry) : (s.modEnt n f).fit = s.fit := rfl
@[simp] theorem modEnt_clk (s : State) (n : Nat) (f : PoolEntry → PoolEntry) : (s.modEnt n f).clk = s.clk := rfl
@[simp] theorem modEnt_head (s : State) (n : Nat) (f : PoolEntry → PoolEntry) : (s.modEnt n f).head = s.head := rfl
@[simp] theorem modEnt_sup (s : State) (n : Nat) (f : PoolEntry → PoolEntry) : (s.modEnt n f).sup = s.sup := rfl
@[simp] theorem modEnt_sess (s : State) (n : Nat) (f : PoolEntry → PoolEntry) : (s.modEnt n f).sess = s.sess := rfl
@[simp] theorem modEnt_poolFull (s : State) (n : Nat) (f : PoolEntry → PoolEntry) : (s.modEnt n f).poolFull = s.poolFull := rfl
@[simp] theorem modEnt_ops (s : State) (n : Nat) (f : PoolEntry → PoolEntry) : (s.modEnt n f).ops = s.ops := rfl
@[simp] theorem modEnt_nextOp (s : State) (n : Nat) (f : PoolEntry → PoolEntry) : (s.modEnt n f).nextOp = s.nextOp := rfl
@[simp] theorem modEnt_accNo (s : State) (n : Nat) (f : PoolEntry → PoolEntry) : (s.modEnt n f).accNo = s.accNo := rfl
@[simp] theorem modEnt_crossings (s : State) (n : Nat) (f : PoolEntry → PoolEntry) : (s.modEnt n f).crossings = s.crossings := rfl
@[simp] theorem modEnt_cfg (s : State) (n : Nat) (f : PoolEntry → PoolEntry) : (s.modEnt n f).cfg = s.cfg := rfl
@[simp] theorem modEnt_st (s : State) (n : Nat) (f : PoolEntry → PoolEntry) : (s.modEnt n f).st = s.st := rfl
@[simp] theorem modEnt_sl (s : State) (n : Nat) (f : PoolEntry → PoolEntry) : (s.modEnt n f).sl = s.sl := rfl
@[simp] theorem modEnt_line (s : State) (n : Nat) (f : PoolEntry → PoolEntry) : (s.modEnt n f).line = s.line := rfl
@[simp] theorem modEnt_camp (s : State) (n : Nat) (f : PoolEntry → PoolEntry) : (s.modEnt n f).camp = s.camp := rfl
@[simp] theorem modEnt_yar (s : State) (n : Nat) (f : PoolEntry → PoolEntry) : (s.modEnt n f).yar = s.yar := rfl
@[simp] theorem modEnt_bus (s : State) (n : Nat) (f : PoolEntry → PoolEntry) : (s.modEnt n f).bus = s.bus := rfl
@[simp] theorem modEnt_reports (s : State) (n : Nat) (f : PoolEntry → PoolEntry) : (s.modEnt n f).reports = s.reports := rfl
@[simp] theorem modEnt_net (s : State) (n : Nat) (f : PoolEntry → PoolEntry) : (s.modEnt n f).net = s.net := rfl
@[simp] theorem modEnt_twin (s : State) (n : Nat) (f : PoolEntry → PoolEntry) : (s.modEnt n f).twin = s.twin := rfl
@[simp] theorem modEnt_slp (s : State) (n : Nat) (f : PoolEntry → PoolEntry) : (s.modEnt n f).slp = s.slp := rfl
@[simp] theorem modEnt_jrn (s : State) (n : Nat) (f : PoolEntry → PoolEntry) : (s.modEnt n f).jrn = s.jrn := rfl
@[simp] theorem modEnt_store (s : State) (n : Nat) (f : PoolEntry → PoolEntry) : (s.modEnt n f).store = s.store := rfl
@[simp] theorem modEnt_free (s : State) (n : Nat) (f : PoolEntry → PoolEntry) : (s.modEnt n f).free = s.free := rfl
@[simp] theorem modEnt_inbuf (s : State) (n : Nat) (f : PoolEntry → PoolEntry) : (s.modEnt n f).inbuf = s.inbuf := rfl
@[simp] theorem modEnt_left (s : State) (n : Nat) (f : PoolEntry → PoolEntry) : (s.modEnt n f).left = s.left := rfl
@[simp] theorem modEnt_returns (s : State) (n : Nat) (f : PoolEntry → PoolEntry) : (s.modEnt n f).returns = s.returns := rfl
@[simp] theorem modEnt_pending (s : State) (n : Nat) (f : PoolEntry → PoolEntry) : (s.modEnt n f).pending = s.pending := rfl

/-! ## modStn -/

@[simp] theorem modStn_fit (s : State) (n : Nat) (f : Station → Station) : (s.modStn n f).fit = s.fit := rfl
@[simp] theorem modStn_clk (s : State) (n : Nat) (f : Station → Station) : (s.modStn n f).clk = s.clk := rfl
@[simp] theorem modStn_head (s : State) (n : Nat) (f : Station → Station) : (s.modStn n f).head = s.head := rfl
@[simp] theorem modStn_sup (s : State) (n : Nat) (f : Station → Station) : (s.modStn n f).sup = s.sup := rfl
@[simp] theorem modStn_sess (s : State) (n : Nat) (f : Station → Station) : (s.modStn n f).sess = s.sess := rfl
@[simp] theorem modStn_pool (s : State) (n : Nat) (f : Station → Station) : (s.modStn n f).pool = s.pool := rfl
@[simp] theorem modStn_poolFull (s : State) (n : Nat) (f : Station → Station) : (s.modStn n f).poolFull = s.poolFull := rfl
@[simp] theorem modStn_ops (s : State) (n : Nat) (f : Station → Station) : (s.modStn n f).ops = s.ops := rfl
@[simp] theorem modStn_nextOp (s : State) (n : Nat) (f : Station → Station) : (s.modStn n f).nextOp = s.nextOp := rfl
@[simp] theorem modStn_accNo (s : State) (n : Nat) (f : Station → Station) : (s.modStn n f).accNo = s.accNo := rfl
@[simp] theorem modStn_crossings (s : State) (n : Nat) (f : Station → Station) : (s.modStn n f).crossings = s.crossings := rfl
@[simp] theorem modStn_cfg (s : State) (n : Nat) (f : Station → Station) : (s.modStn n f).cfg = s.cfg := rfl
@[simp] theorem modStn_sl (s : State) (n : Nat) (f : Station → Station) : (s.modStn n f).sl = s.sl := rfl
@[simp] theorem modStn_line (s : State) (n : Nat) (f : Station → Station) : (s.modStn n f).line = s.line := rfl
@[simp] theorem modStn_camp (s : State) (n : Nat) (f : Station → Station) : (s.modStn n f).camp = s.camp := rfl
@[simp] theorem modStn_yar (s : State) (n : Nat) (f : Station → Station) : (s.modStn n f).yar = s.yar := rfl
@[simp] theorem modStn_bus (s : State) (n : Nat) (f : Station → Station) : (s.modStn n f).bus = s.bus := rfl
@[simp] theorem modStn_reports (s : State) (n : Nat) (f : Station → Station) : (s.modStn n f).reports = s.reports := rfl
@[simp] theorem modStn_net (s : State) (n : Nat) (f : Station → Station) : (s.modStn n f).net = s.net := rfl
@[simp] theorem modStn_twin (s : State) (n : Nat) (f : Station → Station) : (s.modStn n f).twin = s.twin := rfl
@[simp] theorem modStn_slp (s : State) (n : Nat) (f : Station → Station) : (s.modStn n f).slp = s.slp := rfl
@[simp] theorem modStn_jrn (s : State) (n : Nat) (f : Station → Station) : (s.modStn n f).jrn = s.jrn := rfl
@[simp] theorem modStn_store (s : State) (n : Nat) (f : Station → Station) : (s.modStn n f).store = s.store := rfl
@[simp] theorem modStn_free (s : State) (n : Nat) (f : Station → Station) : (s.modStn n f).free = s.free := rfl
@[simp] theorem modStn_inbuf (s : State) (n : Nat) (f : Station → Station) : (s.modStn n f).inbuf = s.inbuf := rfl
@[simp] theorem modStn_left (s : State) (n : Nat) (f : Station → Station) : (s.modStn n f).left = s.left := rfl
@[simp] theorem modStn_returns (s : State) (n : Nat) (f : Station → Station) : (s.modStn n f).returns = s.returns := rfl
@[simp] theorem modStn_pending (s : State) (n : Nat) (f : Station → Station) : (s.modStn n f).pending = s.pending := rfl

/-! ## modAx -/

@[simp] theorem modAx_fit (s : State) (n : Nat) (f : Axis → Axis) : (s.modAx n f).fit = s.fit := rfl
@[simp] theorem modAx_clk (s : State) (n : Nat) (f : Axis → Axis) : (s.modAx n f).clk = s.clk := rfl
@[simp] theorem modAx_head (s : State) (n : Nat) (f : Axis → Axis) : (s.modAx n f).head = s.head := rfl
@[simp] theorem modAx_sup (s : State) (n : Nat) (f : Axis → Axis) : (s.modAx n f).sup = s.sup := rfl
@[simp] theorem modAx_sess (s : State) (n : Nat) (f : Axis → Axis) : (s.modAx n f).sess = s.sess := rfl
@[simp] theorem modAx_pool (s : State) (n : Nat) (f : Axis → Axis) : (s.modAx n f).pool = s.pool := rfl
@[simp] theorem modAx_poolFull (s : State) (n : Nat) (f : Axis → Axis) : (s.modAx n f).poolFull = s.poolFull := rfl
@[simp] theorem modAx_ops (s : State) (n : Nat) (f : Axis → Axis) : (s.modAx n f).ops = s.ops := rfl
@[simp] theorem modAx_nextOp (s : State) (n : Nat) (f : Axis → Axis) : (s.modAx n f).nextOp = s.nextOp := rfl
@[simp] theorem modAx_accNo (s : State) (n : Nat) (f : Axis → Axis) : (s.modAx n f).accNo = s.accNo := rfl
@[simp] theorem modAx_crossings (s : State) (n : Nat) (f : Axis → Axis) : (s.modAx n f).crossings = s.crossings := rfl
@[simp] theorem modAx_cfg (s : State) (n : Nat) (f : Axis → Axis) : (s.modAx n f).cfg = s.cfg := rfl
@[simp] theorem modAx_sl (s : State) (n : Nat) (f : Axis → Axis) : (s.modAx n f).sl = s.sl := rfl
@[simp] theorem modAx_line (s : State) (n : Nat) (f : Axis → Axis) : (s.modAx n f).line = s.line := rfl
@[simp] theorem modAx_camp (s : State) (n : Nat) (f : Axis → Axis) : (s.modAx n f).camp = s.camp := rfl
@[simp] theorem modAx_yar (s : State) (n : Nat) (f : Axis → Axis) : (s.modAx n f).yar = s.yar := rfl
@[simp] theorem modAx_bus (s : State) (n : Nat) (f : Axis → Axis) : (s.modAx n f).bus = s.bus := rfl
@[simp] theorem modAx_reports (s : State) (n : Nat) (f : Axis → Axis) : (s.modAx n f).reports = s.reports := rfl
@[simp] theorem modAx_net (s : State) (n : Nat) (f : Axis → Axis) : (s.modAx n f).net = s.net := rfl
@[simp] theorem modAx_twin (s : State) (n : Nat) (f : Axis → Axis) : (s.modAx n f).twin = s.twin := rfl
@[simp] theorem modAx_slp (s : State) (n : Nat) (f : Axis → Axis) : (s.modAx n f).slp = s.slp := rfl
@[simp] theorem modAx_jrn (s : State) (n : Nat) (f : Axis → Axis) : (s.modAx n f).jrn = s.jrn := rfl
@[simp] theorem modAx_store (s : State) (n : Nat) (f : Axis → Axis) : (s.modAx n f).store = s.store := rfl
@[simp] theorem modAx_free (s : State) (n : Nat) (f : Axis → Axis) : (s.modAx n f).free = s.free := rfl
@[simp] theorem modAx_inbuf (s : State) (n : Nat) (f : Axis → Axis) : (s.modAx n f).inbuf = s.inbuf := rfl
@[simp] theorem modAx_left (s : State) (n : Nat) (f : Axis → Axis) : (s.modAx n f).left = s.left := rfl
@[simp] theorem modAx_returns (s : State) (n : Nat) (f : Axis → Axis) : (s.modAx n f).returns = s.returns := rfl
@[simp] theorem modAx_pending (s : State) (n : Nat) (f : Axis → Axis) : (s.modAx n f).pending = s.pending := rfl

/-! ## modSw -/

@[simp] theorem modSw_fit (s : State) (n : Nat) (w : Sw) (f : Switch → Switch) : (s.modSw n w f).fit = s.fit := rfl
@[simp] theorem modSw_clk (s : State) (n : Nat) (w : Sw) (f : Switch → Switch) : (s.modSw n w f).clk = s.clk := rfl
@[simp] theorem modSw_head (s : State) (n : Nat) (w : Sw) (f : Switch → Switch) : (s.modSw n w f).head = s.head := rfl
@[simp] theorem modSw_sup (s : State) (n : Nat) (w : Sw) (f : Switch → Switch) : (s.modSw n w f).sup = s.sup := rfl
@[simp] theorem modSw_sess (s : State) (n : Nat) (w : Sw) (f : Switch → Switch) : (s.modSw n w f).sess = s.sess := rfl
@[simp] theorem modSw_pool (s : State) (n : Nat) (w : Sw) (f : Switch → Switch) : (s.modSw n w f).pool = s.pool := rfl
@[simp] theorem modSw_poolFull (s : State) (n : Nat) (w : Sw) (f : Switch → Switch) : (s.modSw n w f).poolFull = s.poolFull := rfl
@[simp] theorem modSw_ops (s : State) (n : Nat) (w : Sw) (f : Switch → Switch) : (s.modSw n w f).ops = s.ops := rfl
@[simp] theorem modSw_nextOp (s : State) (n : Nat) (w : Sw) (f : Switch → Switch) : (s.modSw n w f).nextOp = s.nextOp := rfl
@[simp] theorem modSw_accNo (s : State) (n : Nat) (w : Sw) (f : Switch → Switch) : (s.modSw n w f).accNo = s.accNo := rfl
@[simp] theorem modSw_crossings (s : State) (n : Nat) (w : Sw) (f : Switch → Switch) : (s.modSw n w f).crossings = s.crossings := rfl
@[simp] theorem modSw_cfg (s : State) (n : Nat) (w : Sw) (f : Switch → Switch) : (s.modSw n w f).cfg = s.cfg := rfl
@[simp] theorem modSw_sl (s : State) (n : Nat) (w : Sw) (f : Switch → Switch) : (s.modSw n w f).sl = s.sl := rfl
@[simp] theorem modSw_line (s : State) (n : Nat) (w : Sw) (f : Switch → Switch) : (s.modSw n w f).line = s.line := rfl
@[simp] theorem modSw_camp (s : State) (n : Nat) (w : Sw) (f : Switch → Switch) : (s.modSw n w f).camp = s.camp := rfl
@[simp] theorem modSw_yar (s : State) (n : Nat) (w : Sw) (f : Switch → Switch) : (s.modSw n w f).yar = s.yar := rfl
@[simp] theorem modSw_bus (s : State) (n : Nat) (w : Sw) (f : Switch → Switch) : (s.modSw n w f).bus = s.bus := rfl
@[simp] theorem modSw_reports (s : State) (n : Nat) (w : Sw) (f : Switch → Switch) : (s.modSw n w f).reports = s.reports := rfl
@[simp] theorem modSw_net (s : State) (n : Nat) (w : Sw) (f : Switch → Switch) : (s.modSw n w f).net = s.net := rfl
@[simp] theorem modSw_twin (s : State) (n : Nat) (w : Sw) (f : Switch → Switch) : (s.modSw n w f).twin = s.twin := rfl
@[simp] theorem modSw_slp (s : State) (n : Nat) (w : Sw) (f : Switch → Switch) : (s.modSw n w f).slp = s.slp := rfl
@[simp] theorem modSw_jrn (s : State) (n : Nat) (w : Sw) (f : Switch → Switch) : (s.modSw n w f).jrn = s.jrn := rfl
@[simp] theorem modSw_store (s : State) (n : Nat) (w : Sw) (f : Switch → Switch) : (s.modSw n w f).store = s.store := rfl
@[simp] theorem modSw_free (s : State) (n : Nat) (w : Sw) (f : Switch → Switch) : (s.modSw n w f).free = s.free := rfl
@[simp] theorem modSw_inbuf (s : State) (n : Nat) (w : Sw) (f : Switch → Switch) : (s.modSw n w f).inbuf = s.inbuf := rfl
@[simp] theorem modSw_left (s : State) (n : Nat) (w : Sw) (f : Switch → Switch) : (s.modSw n w f).left = s.left := rfl
@[simp] theorem modSw_returns (s : State) (n : Nat) (w : Sw) (f : Switch → Switch) : (s.modSw n w f).returns = s.returns := rfl
@[simp] theorem modSw_pending (s : State) (n : Nat) (w : Sw) (f : Switch → Switch) : (s.modSw n w f).pending = s.pending := rfl

/-! ## modLamp -/

@[simp] theorem modLamp_fit (s : State) (n : Nat) (w : Sw) (f : Lamp → Lamp) : (s.modLamp n w f).fit = s.fit := rfl
@[simp] theorem modLamp_clk (s : State) (n : Nat) (w : Sw) (f : Lamp → Lamp) : (s.modLamp n w f).clk = s.clk := rfl
@[simp] theorem modLamp_head (s : State) (n : Nat) (w : Sw) (f : Lamp → Lamp) : (s.modLamp n w f).head = s.head := rfl
@[simp] theorem modLamp_sup (s : State) (n : Nat) (w : Sw) (f : Lamp → Lamp) : (s.modLamp n w f).sup = s.sup := rfl
@[simp] theorem modLamp_sess (s : State) (n : Nat) (w : Sw) (f : Lamp → Lamp) : (s.modLamp n w f).sess = s.sess := rfl
@[simp] theorem modLamp_pool (s : State) (n : Nat) (w : Sw) (f : Lamp → Lamp) : (s.modLamp n w f).pool = s.pool := rfl
@[simp] theorem modLamp_poolFull (s : State) (n : Nat) (w : Sw) (f : Lamp → Lamp) : (s.modLamp n w f).poolFull = s.poolFull := rfl
@[simp] theorem modLamp_ops (s : State) (n : Nat) (w : Sw) (f : Lamp → Lamp) : (s.modLamp n w f).ops = s.ops := rfl
@[simp] theorem modLamp_nextOp (s : State) (n : Nat) (w : Sw) (f : Lamp → Lamp) : (s.modLamp n w f).nextOp = s.nextOp := rfl
@[simp] theorem modLamp_accNo (s : State) (n : Nat) (w : Sw) (f : Lamp → Lamp) : (s.modLamp n w f).accNo = s.accNo := rfl
@[simp] theorem modLamp_crossings (s : State) (n : Nat) (w : Sw) (f : Lamp → Lamp) : (s.modLamp n w f).crossings = s.crossings := rfl
@[simp] theorem modLamp_cfg (s : State) (n : Nat) (w : Sw) (f : Lamp → Lamp) : (s.modLamp n w f).cfg = s.cfg := rfl
@[simp] theorem modLamp_sl (s : State) (n : Nat) (w : Sw) (f : Lamp → Lamp) : (s.modLamp n w f).sl = s.sl := rfl
@[simp] theorem modLamp_line (s : State) (n : Nat) (w : Sw) (f : Lamp → Lamp) : (s.modLamp n w f).line = s.line := rfl
@[simp] theorem modLamp_camp (s : State) (n : Nat) (w : Sw) (f : Lamp → Lamp) : (s.modLamp n w f).camp = s.camp := rfl
@[simp] theorem modLamp_yar (s : State) (n : Nat) (w : Sw) (f : Lamp → Lamp) : (s.modLamp n w f).yar = s.yar := rfl
@[simp] theorem modLamp_bus (s : State) (n : Nat) (w : Sw) (f : Lamp → Lamp) : (s.modLamp n w f).bus = s.bus := rfl
@[simp] theorem modLamp_reports (s : State) (n : Nat) (w : Sw) (f : Lamp → Lamp) : (s.modLamp n w f).reports = s.reports := rfl
@[simp] theorem modLamp_net (s : State) (n : Nat) (w : Sw) (f : Lamp → Lamp) : (s.modLamp n w f).net = s.net := rfl
@[simp] theorem modLamp_twin (s : State) (n : Nat) (w : Sw) (f : Lamp → Lamp) : (s.modLamp n w f).twin = s.twin := rfl
@[simp] theorem modLamp_slp (s : State) (n : Nat) (w : Sw) (f : Lamp → Lamp) : (s.modLamp n w f).slp = s.slp := rfl
@[simp] theorem modLamp_jrn (s : State) (n : Nat) (w : Sw) (f : Lamp → Lamp) : (s.modLamp n w f).jrn = s.jrn := rfl
@[simp] theorem modLamp_store (s : State) (n : Nat) (w : Sw) (f : Lamp → Lamp) : (s.modLamp n w f).store = s.store := rfl
@[simp] theorem modLamp_free (s : State) (n : Nat) (w : Sw) (f : Lamp → Lamp) : (s.modLamp n w f).free = s.free := rfl
@[simp] theorem modLamp_inbuf (s : State) (n : Nat) (w : Sw) (f : Lamp → Lamp) : (s.modLamp n w f).inbuf = s.inbuf := rfl
@[simp] theorem modLamp_left (s : State) (n : Nat) (w : Sw) (f : Lamp → Lamp) : (s.modLamp n w f).left = s.left := rfl
@[simp] theorem modLamp_returns (s : State) (n : Nat) (w : Sw) (f : Lamp → Lamp) : (s.modLamp n w f).returns = s.returns := rfl
@[simp] theorem modLamp_pending (s : State) (n : Nat) (w : Sw) (f : Lamp → Lamp) : (s.modLamp n w f).pending = s.pending := rfl

/-! ## modInp -/

@[simp] theorem modInp_fit (s : State) (n k : Nat) (f : Input → Input) : (s.modInp n k f).fit = s.fit := rfl
@[simp] theorem modInp_clk (s : State) (n k : Nat) (f : Input → Input) : (s.modInp n k f).clk = s.clk := rfl
@[simp] theorem modInp_head (s : State) (n k : Nat) (f : Input → Input) : (s.modInp n k f).head = s.head := rfl
@[simp] theorem modInp_sup (s : State) (n k : Nat) (f : Input → Input) : (s.modInp n k f).sup = s.sup := rfl
@[simp] theorem modInp_sess (s : State) (n k : Nat) (f : Input → Input) : (s.modInp n k f).sess = s.sess := rfl
@[simp] theorem modInp_pool (s : State) (n k : Nat) (f : Input → Input) : (s.modInp n k f).pool = s.pool := rfl
@[simp] theorem modInp_poolFull (s : State) (n k : Nat) (f : Input → Input) : (s.modInp n k f).poolFull = s.poolFull := rfl
@[simp] theorem modInp_ops (s : State) (n k : Nat) (f : Input → Input) : (s.modInp n k f).ops = s.ops := rfl
@[simp] theorem modInp_nextOp (s : State) (n k : Nat) (f : Input → Input) : (s.modInp n k f).nextOp = s.nextOp := rfl
@[simp] theorem modInp_accNo (s : State) (n k : Nat) (f : Input → Input) : (s.modInp n k f).accNo = s.accNo := rfl
@[simp] theorem modInp_crossings (s : State) (n k : Nat) (f : Input → Input) : (s.modInp n k f).crossings = s.crossings := rfl
@[simp] theorem modInp_cfg (s : State) (n k : Nat) (f : Input → Input) : (s.modInp n k f).cfg = s.cfg := rfl
@[simp] theorem modInp_sl (s : State) (n k : Nat) (f : Input → Input) : (s.modInp n k f).sl = s.sl := rfl
@[simp] theorem modInp_line (s : State) (n k : Nat) (f : Input → Input) : (s.modInp n k f).line = s.line := rfl
@[simp] theorem modInp_camp (s : State) (n k : Nat) (f : Input → Input) : (s.modInp n k f).camp = s.camp := rfl
@[simp] theorem modInp_yar (s : State) (n k : Nat) (f : Input → Input) : (s.modInp n k f).yar = s.yar := rfl
@[simp] theorem modInp_bus (s : State) (n k : Nat) (f : Input → Input) : (s.modInp n k f).bus = s.bus := rfl
@[simp] theorem modInp_reports (s : State) (n k : Nat) (f : Input → Input) : (s.modInp n k f).reports = s.reports := rfl
@[simp] theorem modInp_net (s : State) (n k : Nat) (f : Input → Input) : (s.modInp n k f).net = s.net := rfl
@[simp] theorem modInp_twin (s : State) (n k : Nat) (f : Input → Input) : (s.modInp n k f).twin = s.twin := rfl
@[simp] theorem modInp_slp (s : State) (n k : Nat) (f : Input → Input) : (s.modInp n k f).slp = s.slp := rfl
@[simp] theorem modInp_jrn (s : State) (n k : Nat) (f : Input → Input) : (s.modInp n k f).jrn = s.jrn := rfl
@[simp] theorem modInp_store (s : State) (n k : Nat) (f : Input → Input) : (s.modInp n k f).store = s.store := rfl
@[simp] theorem modInp_free (s : State) (n k : Nat) (f : Input → Input) : (s.modInp n k f).free = s.free := rfl
@[simp] theorem modInp_inbuf (s : State) (n k : Nat) (f : Input → Input) : (s.modInp n k f).inbuf = s.inbuf := rfl
@[simp] theorem modInp_left (s : State) (n k : Nat) (f : Input → Input) : (s.modInp n k f).left = s.left := rfl
@[simp] theorem modInp_returns (s : State) (n k : Nat) (f : Input → Input) : (s.modInp n k f).returns = s.returns := rfl
@[simp] theorem modInp_pending (s : State) (n k : Nat) (f : Input → Input) : (s.modInp n k f).pending = s.pending := rfl

/-! ## modOut -/

@[simp] theorem modOut_fit (s : State) (n : Nat) (b : Bool) (f : Output → Output) : (s.modOut n b f).fit = s.fit := rfl
@[simp] theorem modOut_clk (s : State) (n : Nat) (b : Bool) (f : Output → Output) : (s.modOut n b f).clk = s.clk := rfl
@[simp] theorem modOut_head (s : State) (n : Nat) (b : Bool) (f : Output → Output) : (s.modOut n b f).head = s.head := rfl
@[simp] theorem modOut_sup (s : State) (n : Nat) (b : Bool) (f : Output → Output) : (s.modOut n b f).sup = s.sup := rfl
@[simp] theorem modOut_sess (s : State) (n : Nat) (b : Bool) (f : Output → Output) : (s.modOut n b f).sess = s.sess := rfl
@[simp] theorem modOut_pool (s : State) (n : Nat) (b : Bool) (f : Output → Output) : (s.modOut n b f).pool = s.pool := rfl
@[simp] theorem modOut_poolFull (s : State) (n : Nat) (b : Bool) (f : Output → Output) : (s.modOut n b f).poolFull = s.poolFull := rfl
@[simp] theorem modOut_ops (s : State) (n : Nat) (b : Bool) (f : Output → Output) : (s.modOut n b f).ops = s.ops := rfl
@[simp] theorem modOut_nextOp (s : State) (n : Nat) (b : Bool) (f : Output → Output) : (s.modOut n b f).nextOp = s.nextOp := rfl
@[simp] theorem modOut_accNo (s : State) (n : Nat) (b : Bool) (f : Output → Output) : (s.modOut n b f).accNo = s.accNo := rfl
@[simp] theorem modOut_crossings (s : State) (n : Nat) (b : Bool) (f : Output → Output) : (s.modOut n b f).crossings = s.crossings := rfl
@[simp] theorem modOut_cfg (s : State) (n : Nat) (b : Bool) (f : Output → Output) : (s.modOut n b f).cfg = s.cfg := rfl
@[simp] theorem modOut_sl (s : State) (n : Nat) (b : Bool) (f : Output → Output) : (s.modOut n b f).sl = s.sl := rfl
@[simp] theorem modOut_line (s : State) (n : Nat) (b : Bool) (f : Output → Output) : (s.modOut n b f).line = s.line := rfl
@[simp] theorem modOut_camp (s : State) (n : Nat) (b : Bool) (f : Output → Output) : (s.modOut n b f).camp = s.camp := rfl
@[simp] theorem modOut_yar (s : State) (n : Nat) (b : Bool) (f : Output → Output) : (s.modOut n b f).yar = s.yar := rfl
@[simp] theorem modOut_bus (s : State) (n : Nat) (b : Bool) (f : Output → Output) : (s.modOut n b f).bus = s.bus := rfl
@[simp] theorem modOut_reports (s : State) (n : Nat) (b : Bool) (f : Output → Output) : (s.modOut n b f).reports = s.reports := rfl
@[simp] theorem modOut_net (s : State) (n : Nat) (b : Bool) (f : Output → Output) : (s.modOut n b f).net = s.net := rfl
@[simp] theorem modOut_twin (s : State) (n : Nat) (b : Bool) (f : Output → Output) : (s.modOut n b f).twin = s.twin := rfl
@[simp] theorem modOut_slp (s : State) (n : Nat) (b : Bool) (f : Output → Output) : (s.modOut n b f).slp = s.slp := rfl
@[simp] theorem modOut_jrn (s : State) (n : Nat) (b : Bool) (f : Output → Output) : (s.modOut n b f).jrn = s.jrn := rfl
@[simp] theorem modOut_store (s : State) (n : Nat) (b : Bool) (f : Output → Output) : (s.modOut n b f).store = s.store := rfl
@[simp] theorem modOut_free (s : State) (n : Nat) (b : Bool) (f : Output → Output) : (s.modOut n b f).free = s.free := rfl
@[simp] theorem modOut_inbuf (s : State) (n : Nat) (b : Bool) (f : Output → Output) : (s.modOut n b f).inbuf = s.inbuf := rfl
@[simp] theorem modOut_left (s : State) (n : Nat) (b : Bool) (f : Output → Output) : (s.modOut n b f).left = s.left := rfl
@[simp] theorem modOut_returns (s : State) (n : Nat) (b : Bool) (f : Output → Output) : (s.modOut n b f).returns = s.returns := rfl
@[simp] theorem modOut_pending (s : State) (n : Nat) (b : Bool) (f : Output → Output) : (s.modOut n b f).pending = s.pending := rfl

/-! ## modSlc -/

@[simp] theorem modSlc_fit (s : State) (n : Nat) (f : Slice → Slice) : (s.modSlc n f).fit = s.fit := rfl
@[simp] theorem modSlc_clk (s : State) (n : Nat) (f : Slice → Slice) : (s.modSlc n f).clk = s.clk := rfl
@[simp] theorem modSlc_head (s : State) (n : Nat) (f : Slice → Slice) : (s.modSlc n f).head = s.head := rfl
@[simp] theorem modSlc_sup (s : State) (n : Nat) (f : Slice → Slice) : (s.modSlc n f).sup = s.sup := rfl
@[simp] theorem modSlc_sess (s : State) (n : Nat) (f : Slice → Slice) : (s.modSlc n f).sess = s.sess := rfl
@[simp] theorem modSlc_pool (s : State) (n : Nat) (f : Slice → Slice) : (s.modSlc n f).pool = s.pool := rfl
@[simp] theorem modSlc_poolFull (s : State) (n : Nat) (f : Slice → Slice) : (s.modSlc n f).poolFull = s.poolFull := rfl
@[simp] theorem modSlc_ops (s : State) (n : Nat) (f : Slice → Slice) : (s.modSlc n f).ops = s.ops := rfl
@[simp] theorem modSlc_nextOp (s : State) (n : Nat) (f : Slice → Slice) : (s.modSlc n f).nextOp = s.nextOp := rfl
@[simp] theorem modSlc_accNo (s : State) (n : Nat) (f : Slice → Slice) : (s.modSlc n f).accNo = s.accNo := rfl
@[simp] theorem modSlc_crossings (s : State) (n : Nat) (f : Slice → Slice) : (s.modSlc n f).crossings = s.crossings := rfl
@[simp] theorem modSlc_cfg (s : State) (n : Nat) (f : Slice → Slice) : (s.modSlc n f).cfg = s.cfg := rfl
@[simp] theorem modSlc_st (s : State) (n : Nat) (f : Slice → Slice) : (s.modSlc n f).st = s.st := rfl
@[simp] theorem modSlc_line (s : State) (n : Nat) (f : Slice → Slice) : (s.modSlc n f).line = s.line := rfl
@[simp] theorem modSlc_camp (s : State) (n : Nat) (f : Slice → Slice) : (s.modSlc n f).camp = s.camp := rfl
@[simp] theorem modSlc_yar (s : State) (n : Nat) (f : Slice → Slice) : (s.modSlc n f).yar = s.yar := rfl
@[simp] theorem modSlc_bus (s : State) (n : Nat) (f : Slice → Slice) : (s.modSlc n f).bus = s.bus := rfl
@[simp] theorem modSlc_reports (s : State) (n : Nat) (f : Slice → Slice) : (s.modSlc n f).reports = s.reports := rfl
@[simp] theorem modSlc_net (s : State) (n : Nat) (f : Slice → Slice) : (s.modSlc n f).net = s.net := rfl
@[simp] theorem modSlc_twin (s : State) (n : Nat) (f : Slice → Slice) : (s.modSlc n f).twin = s.twin := rfl
@[simp] theorem modSlc_slp (s : State) (n : Nat) (f : Slice → Slice) : (s.modSlc n f).slp = s.slp := rfl
@[simp] theorem modSlc_jrn (s : State) (n : Nat) (f : Slice → Slice) : (s.modSlc n f).jrn = s.jrn := rfl
@[simp] theorem modSlc_store (s : State) (n : Nat) (f : Slice → Slice) : (s.modSlc n f).store = s.store := rfl
@[simp] theorem modSlc_free (s : State) (n : Nat) (f : Slice → Slice) : (s.modSlc n f).free = s.free := rfl
@[simp] theorem modSlc_inbuf (s : State) (n : Nat) (f : Slice → Slice) : (s.modSlc n f).inbuf = s.inbuf := rfl
@[simp] theorem modSlc_left (s : State) (n : Nat) (f : Slice → Slice) : (s.modSlc n f).left = s.left := rfl
@[simp] theorem modSlc_returns (s : State) (n : Nat) (f : Slice → Slice) : (s.modSlc n f).returns = s.returns := rfl
@[simp] theorem modSlc_pending (s : State) (n : Nat) (f : Slice → Slice) : (s.modSlc n f).pending = s.pending := rfl

/-! ## modBus -/

@[simp] theorem modBus_fit (s : State) (n : Nat) (f : BusSt → BusSt) : (s.modBus n f).fit = s.fit := rfl
@[simp] theorem modBus_clk (s : State) (n : Nat) (f : BusSt → BusSt) : (s.modBus n f).clk = s.clk := rfl
@[simp] theorem modBus_head (s : State) (n : Nat) (f : BusSt → BusSt) : (s.modBus n f).head = s.head := rfl
@[simp] theorem modBus_sup (s : State) (n : Nat) (f : BusSt → BusSt) : (s.modBus n f).sup = s.sup := rfl
@[simp] theorem modBus_sess (s : State) (n : Nat) (f : BusSt → BusSt) : (s.modBus n f).sess = s.sess := rfl
@[simp] theorem modBus_pool (s : State) (n : Nat) (f : BusSt → BusSt) : (s.modBus n f).pool = s.pool := rfl
@[simp] theorem modBus_poolFull (s : State) (n : Nat) (f : BusSt → BusSt) : (s.modBus n f).poolFull = s.poolFull := rfl
@[simp] theorem modBus_ops (s : State) (n : Nat) (f : BusSt → BusSt) : (s.modBus n f).ops = s.ops := rfl
@[simp] theorem modBus_nextOp (s : State) (n : Nat) (f : BusSt → BusSt) : (s.modBus n f).nextOp = s.nextOp := rfl
@[simp] theorem modBus_accNo (s : State) (n : Nat) (f : BusSt → BusSt) : (s.modBus n f).accNo = s.accNo := rfl
@[simp] theorem modBus_crossings (s : State) (n : Nat) (f : BusSt → BusSt) : (s.modBus n f).crossings = s.crossings := rfl
@[simp] theorem modBus_cfg (s : State) (n : Nat) (f : BusSt → BusSt) : (s.modBus n f).cfg = s.cfg := rfl
@[simp] theorem modBus_st (s : State) (n : Nat) (f : BusSt → BusSt) : (s.modBus n f).st = s.st := rfl
@[simp] theorem modBus_sl (s : State) (n : Nat) (f : BusSt → BusSt) : (s.modBus n f).sl = s.sl := rfl
@[simp] theorem modBus_line (s : State) (n : Nat) (f : BusSt → BusSt) : (s.modBus n f).line = s.line := rfl
@[simp] theorem modBus_camp (s : State) (n : Nat) (f : BusSt → BusSt) : (s.modBus n f).camp = s.camp := rfl
@[simp] theorem modBus_yar (s : State) (n : Nat) (f : BusSt → BusSt) : (s.modBus n f).yar = s.yar := rfl
@[simp] theorem modBus_reports (s : State) (n : Nat) (f : BusSt → BusSt) : (s.modBus n f).reports = s.reports := rfl
@[simp] theorem modBus_net (s : State) (n : Nat) (f : BusSt → BusSt) : (s.modBus n f).net = s.net := rfl
@[simp] theorem modBus_twin (s : State) (n : Nat) (f : BusSt → BusSt) : (s.modBus n f).twin = s.twin := rfl
@[simp] theorem modBus_slp (s : State) (n : Nat) (f : BusSt → BusSt) : (s.modBus n f).slp = s.slp := rfl
@[simp] theorem modBus_jrn (s : State) (n : Nat) (f : BusSt → BusSt) : (s.modBus n f).jrn = s.jrn := rfl
@[simp] theorem modBus_store (s : State) (n : Nat) (f : BusSt → BusSt) : (s.modBus n f).store = s.store := rfl
@[simp] theorem modBus_free (s : State) (n : Nat) (f : BusSt → BusSt) : (s.modBus n f).free = s.free := rfl
@[simp] theorem modBus_inbuf (s : State) (n : Nat) (f : BusSt → BusSt) : (s.modBus n f).inbuf = s.inbuf := rfl
@[simp] theorem modBus_left (s : State) (n : Nat) (f : BusSt → BusSt) : (s.modBus n f).left = s.left := rfl
@[simp] theorem modBus_returns (s : State) (n : Nat) (f : BusSt → BusSt) : (s.modBus n f).returns = s.returns := rfl
@[simp] theorem modBus_pending (s : State) (n : Nat) (f : BusSt → BusSt) : (s.modBus n f).pending = s.pending := rfl

/-! ## modCamp -/

@[simp] theorem modCamp_fit (s : State) (f : Campion → Campion) : (s.modCamp f).fit = s.fit := rfl
@[simp] theorem modCamp_clk (s : State) (f : Campion → Campion) : (s.modCamp f).clk = s.clk := rfl
@[simp] theorem modCamp_head (s : State) (f : Campion → Campion) : (s.modCamp f).head = s.head := rfl
@[simp] theorem modCamp_sup (s : State) (f : Campion → Campion) : (s.modCamp f).sup = s.sup := rfl
@[simp] theorem modCamp_sess (s : State) (f : Campion → Campion) : (s.modCamp f).sess = s.sess := rfl
@[simp] theorem modCamp_pool (s : State) (f : Campion → Campion) : (s.modCamp f).pool = s.pool := rfl
@[simp] theorem modCamp_poolFull (s : State) (f : Campion → Campion) : (s.modCamp f).poolFull = s.poolFull := rfl
@[simp] theorem modCamp_ops (s : State) (f : Campion → Campion) : (s.modCamp f).ops = s.ops := rfl
@[simp] theorem modCamp_nextOp (s : State) (f : Campion → Campion) : (s.modCamp f).nextOp = s.nextOp := rfl
@[simp] theorem modCamp_accNo (s : State) (f : Campion → Campion) : (s.modCamp f).accNo = s.accNo := rfl
@[simp] theorem modCamp_crossings (s : State) (f : Campion → Campion) : (s.modCamp f).crossings = s.crossings := rfl
@[simp] theorem modCamp_cfg (s : State) (f : Campion → Campion) : (s.modCamp f).cfg = s.cfg := rfl
@[simp] theorem modCamp_st (s : State) (f : Campion → Campion) : (s.modCamp f).st = s.st := rfl
@[simp] theorem modCamp_sl (s : State) (f : Campion → Campion) : (s.modCamp f).sl = s.sl := rfl
@[simp] theorem modCamp_line (s : State) (f : Campion → Campion) : (s.modCamp f).line = s.line := rfl
@[simp] theorem modCamp_yar (s : State) (f : Campion → Campion) : (s.modCamp f).yar = s.yar := rfl
@[simp] theorem modCamp_bus (s : State) (f : Campion → Campion) : (s.modCamp f).bus = s.bus := rfl
@[simp] theorem modCamp_reports (s : State) (f : Campion → Campion) : (s.modCamp f).reports = s.reports := rfl
@[simp] theorem modCamp_net (s : State) (f : Campion → Campion) : (s.modCamp f).net = s.net := rfl
@[simp] theorem modCamp_twin (s : State) (f : Campion → Campion) : (s.modCamp f).twin = s.twin := rfl
@[simp] theorem modCamp_slp (s : State) (f : Campion → Campion) : (s.modCamp f).slp = s.slp := rfl
@[simp] theorem modCamp_jrn (s : State) (f : Campion → Campion) : (s.modCamp f).jrn = s.jrn := rfl
@[simp] theorem modCamp_store (s : State) (f : Campion → Campion) : (s.modCamp f).store = s.store := rfl
@[simp] theorem modCamp_free (s : State) (f : Campion → Campion) : (s.modCamp f).free = s.free := rfl
@[simp] theorem modCamp_inbuf (s : State) (f : Campion → Campion) : (s.modCamp f).inbuf = s.inbuf := rfl
@[simp] theorem modCamp_left (s : State) (f : Campion → Campion) : (s.modCamp f).left = s.left := rfl
@[simp] theorem modCamp_returns (s : State) (f : Campion → Campion) : (s.modCamp f).returns = s.returns := rfl
@[simp] theorem modCamp_pending (s : State) (f : Campion → Campion) : (s.modCamp f).pending = s.pending := rfl

/-! ## modNet -/

@[simp] theorem modNet_fit (s : State) (f : Net → Net) : (s.modNet f).fit = s.fit := rfl
@[simp] theorem modNet_clk (s : State) (f : Net → Net) : (s.modNet f).clk = s.clk := rfl
@[simp] theorem modNet_head (s : State) (f : Net → Net) : (s.modNet f).head = s.head := rfl
@[simp] theorem modNet_sup (s : State) (f : Net → Net) : (s.modNet f).sup = s.sup := rfl
@[simp] theorem modNet_sess (s : State) (f : Net → Net) : (s.modNet f).sess = s.sess := rfl
@[simp] theorem modNet_pool (s : State) (f : Net → Net) : (s.modNet f).pool = s.pool := rfl
@[simp] theorem modNet_poolFull (s : State) (f : Net → Net) : (s.modNet f).poolFull = s.poolFull := rfl
@[simp] theorem modNet_ops (s : State) (f : Net → Net) : (s.modNet f).ops = s.ops := rfl
@[simp] theorem modNet_nextOp (s : State) (f : Net → Net) : (s.modNet f).nextOp = s.nextOp := rfl
@[simp] theorem modNet_accNo (s : State) (f : Net → Net) : (s.modNet f).accNo = s.accNo := rfl
@[simp] theorem modNet_crossings (s : State) (f : Net → Net) : (s.modNet f).crossings = s.crossings := rfl
@[simp] theorem modNet_cfg (s : State) (f : Net → Net) : (s.modNet f).cfg = s.cfg := rfl
@[simp] theorem modNet_st (s : State) (f : Net → Net) : (s.modNet f).st = s.st := rfl
@[simp] theorem modNet_sl (s : State) (f : Net → Net) : (s.modNet f).sl = s.sl := rfl
@[simp] theorem modNet_line (s : State) (f : Net → Net) : (s.modNet f).line = s.line := rfl
@[simp] theorem modNet_camp (s : State) (f : Net → Net) : (s.modNet f).camp = s.camp := rfl
@[simp] theorem modNet_yar (s : State) (f : Net → Net) : (s.modNet f).yar = s.yar := rfl
@[simp] theorem modNet_bus (s : State) (f : Net → Net) : (s.modNet f).bus = s.bus := rfl
@[simp] theorem modNet_reports (s : State) (f : Net → Net) : (s.modNet f).reports = s.reports := rfl
@[simp] theorem modNet_twin (s : State) (f : Net → Net) : (s.modNet f).twin = s.twin := rfl
@[simp] theorem modNet_slp (s : State) (f : Net → Net) : (s.modNet f).slp = s.slp := rfl
@[simp] theorem modNet_jrn (s : State) (f : Net → Net) : (s.modNet f).jrn = s.jrn := rfl
@[simp] theorem modNet_store (s : State) (f : Net → Net) : (s.modNet f).store = s.store := rfl
@[simp] theorem modNet_free (s : State) (f : Net → Net) : (s.modNet f).free = s.free := rfl
@[simp] theorem modNet_inbuf (s : State) (f : Net → Net) : (s.modNet f).inbuf = s.inbuf := rfl
@[simp] theorem modNet_left (s : State) (f : Net → Net) : (s.modNet f).left = s.left := rfl
@[simp] theorem modNet_returns (s : State) (f : Net → Net) : (s.modNet f).returns = s.returns := rfl
@[simp] theorem modNet_pending (s : State) (f : Net → Net) : (s.modNet f).pending = s.pending := rfl

/-! ## modPeer -/

@[simp] theorem modPeer_fit (s : State) (n : Nat) (f : Peer → Peer) : (s.modPeer n f).fit = s.fit := rfl
@[simp] theorem modPeer_clk (s : State) (n : Nat) (f : Peer → Peer) : (s.modPeer n f).clk = s.clk := rfl
@[simp] theorem modPeer_head (s : State) (n : Nat) (f : Peer → Peer) : (s.modPeer n f).head = s.head := rfl
@[simp] theorem modPeer_sup (s : State) (n : Nat) (f : Peer → Peer) : (s.modPeer n f).sup = s.sup := rfl
@[simp] theorem modPeer_sess (s : State) (n : Nat) (f : Peer → Peer) : (s.modPeer n f).sess = s.sess := rfl
@[simp] theorem modPeer_pool (s : State) (n : Nat) (f : Peer → Peer) : (s.modPeer n f).pool = s.pool := rfl
@[simp] theorem modPeer_poolFull (s : State) (n : Nat) (f : Peer → Peer) : (s.modPeer n f).poolFull = s.poolFull := rfl
@[simp] theorem modPeer_ops (s : State) (n : Nat) (f : Peer → Peer) : (s.modPeer n f).ops = s.ops := rfl
@[simp] theorem modPeer_nextOp (s : State) (n : Nat) (f : Peer → Peer) : (s.modPeer n f).nextOp = s.nextOp := rfl
@[simp] theorem modPeer_accNo (s : State) (n : Nat) (f : Peer → Peer) : (s.modPeer n f).accNo = s.accNo := rfl
@[simp] theorem modPeer_crossings (s : State) (n : Nat) (f : Peer → Peer) : (s.modPeer n f).crossings = s.crossings := rfl
@[simp] theorem modPeer_cfg (s : State) (n : Nat) (f : Peer → Peer) : (s.modPeer n f).cfg = s.cfg := rfl
@[simp] theorem modPeer_st (s : State) (n : Nat) (f : Peer → Peer) : (s.modPeer n f).st = s.st := rfl
@[simp] theorem modPeer_sl (s : State) (n : Nat) (f : Peer → Peer) : (s.modPeer n f).sl = s.sl := rfl
@[simp] theorem modPeer_line (s : State) (n : Nat) (f : Peer → Peer) : (s.modPeer n f).line = s.line := rfl
@[simp] theorem modPeer_camp (s : State) (n : Nat) (f : Peer → Peer) : (s.modPeer n f).camp = s.camp := rfl
@[simp] theorem modPeer_yar (s : State) (n : Nat) (f : Peer → Peer) : (s.modPeer n f).yar = s.yar := rfl
@[simp] theorem modPeer_bus (s : State) (n : Nat) (f : Peer → Peer) : (s.modPeer n f).bus = s.bus := rfl
@[simp] theorem modPeer_reports (s : State) (n : Nat) (f : Peer → Peer) : (s.modPeer n f).reports = s.reports := rfl
@[simp] theorem modPeer_twin (s : State) (n : Nat) (f : Peer → Peer) : (s.modPeer n f).twin = s.twin := rfl
@[simp] theorem modPeer_slp (s : State) (n : Nat) (f : Peer → Peer) : (s.modPeer n f).slp = s.slp := rfl
@[simp] theorem modPeer_jrn (s : State) (n : Nat) (f : Peer → Peer) : (s.modPeer n f).jrn = s.jrn := rfl
@[simp] theorem modPeer_store (s : State) (n : Nat) (f : Peer → Peer) : (s.modPeer n f).store = s.store := rfl
@[simp] theorem modPeer_free (s : State) (n : Nat) (f : Peer → Peer) : (s.modPeer n f).free = s.free := rfl
@[simp] theorem modPeer_inbuf (s : State) (n : Nat) (f : Peer → Peer) : (s.modPeer n f).inbuf = s.inbuf := rfl
@[simp] theorem modPeer_left (s : State) (n : Nat) (f : Peer → Peer) : (s.modPeer n f).left = s.left := rfl
@[simp] theorem modPeer_returns (s : State) (n : Nat) (f : Peer → Peer) : (s.modPeer n f).returns = s.returns := rfl
@[simp] theorem modPeer_pending (s : State) (n : Nat) (f : Peer → Peer) : (s.modPeer n f).pending = s.pending := rfl

/-! ## modTwin -/

@[simp] theorem modTwin_fit (s : State) (f : Twin → Twin) : (s.modTwin f).fit = s.fit := rfl
@[simp] theorem modTwin_clk (s : State) (f : Twin → Twin) : (s.modTwin f).clk = s.clk := rfl
@[simp] theorem modTwin_head (s : State) (f : Twin → Twin) : (s.modTwin f).head = s.head := rfl
@[simp] theorem modTwin_sup (s : State) (f : Twin → Twin) : (s.modTwin f).sup = s.sup := rfl
@[simp] theorem modTwin_sess (s : State) (f : Twin → Twin) : (s.modTwin f).sess = s.sess := rfl
@[simp] theorem modTwin_pool (s : State) (f : Twin → Twin) : (s.modTwin f).pool = s.pool := rfl
@[simp] theorem modTwin_poolFull (s : State) (f : Twin → Twin) : (s.modTwin f).poolFull = s.poolFull := rfl
@[simp] theorem modTwin_ops (s : State) (f : Twin → Twin) : (s.modTwin f).ops = s.ops := rfl
@[simp] theorem modTwin_nextOp (s : State) (f : Twin → Twin) : (s.modTwin f).nextOp = s.nextOp := rfl
@[simp] theorem modTwin_accNo (s : State) (f : Twin → Twin) : (s.modTwin f).accNo = s.accNo := rfl
@[simp] theorem modTwin_crossings (s : State) (f : Twin → Twin) : (s.modTwin f).crossings = s.crossings := rfl
@[simp] theorem modTwin_cfg (s : State) (f : Twin → Twin) : (s.modTwin f).cfg = s.cfg := rfl
@[simp] theorem modTwin_st (s : State) (f : Twin → Twin) : (s.modTwin f).st = s.st := rfl
@[simp] theorem modTwin_sl (s : State) (f : Twin → Twin) : (s.modTwin f).sl = s.sl := rfl
@[simp] theorem modTwin_line (s : State) (f : Twin → Twin) : (s.modTwin f).line = s.line := rfl
@[simp] theorem modTwin_camp (s : State) (f : Twin → Twin) : (s.modTwin f).camp = s.camp := rfl
@[simp] theorem modTwin_yar (s : State) (f : Twin → Twin) : (s.modTwin f).yar = s.yar := rfl
@[simp] theorem modTwin_bus (s : State) (f : Twin → Twin) : (s.modTwin f).bus = s.bus := rfl
@[simp] theorem modTwin_reports (s : State) (f : Twin → Twin) : (s.modTwin f).reports = s.reports := rfl
@[simp] theorem modTwin_net (s : State) (f : Twin → Twin) : (s.modTwin f).net = s.net := rfl
@[simp] theorem modTwin_slp (s : State) (f : Twin → Twin) : (s.modTwin f).slp = s.slp := rfl
@[simp] theorem modTwin_jrn (s : State) (f : Twin → Twin) : (s.modTwin f).jrn = s.jrn := rfl
@[simp] theorem modTwin_store (s : State) (f : Twin → Twin) : (s.modTwin f).store = s.store := rfl
@[simp] theorem modTwin_free (s : State) (f : Twin → Twin) : (s.modTwin f).free = s.free := rfl
@[simp] theorem modTwin_inbuf (s : State) (f : Twin → Twin) : (s.modTwin f).inbuf = s.inbuf := rfl
@[simp] theorem modTwin_left (s : State) (f : Twin → Twin) : (s.modTwin f).left = s.left := rfl
@[simp] theorem modTwin_returns (s : State) (f : Twin → Twin) : (s.modTwin f).returns = s.returns := rfl
@[simp] theorem modTwin_pending (s : State) (f : Twin → Twin) : (s.modTwin f).pending = s.pending := rfl

/-! ## modYar -/

@[simp] theorem modYar_fit (s : State) (f : Yarrow → Yarrow) : (s.modYar f).fit = s.fit := rfl
@[simp] theorem modYar_clk (s : State) (f : Yarrow → Yarrow) : (s.modYar f).clk = s.clk := rfl
@[simp] theorem modYar_head (s : State) (f : Yarrow → Yarrow) : (s.modYar f).head = s.head := rfl
@[simp] theorem modYar_sup (s : State) (f : Yarrow → Yarrow) : (s.modYar f).sup = s.sup := rfl
@[simp] theorem modYar_sess (s : State) (f : Yarrow → Yarrow) : (s.modYar f).sess = s.sess := rfl
@[simp] theorem modYar_pool (s : State) (f : Yarrow → Yarrow) : (s.modYar f).pool = s.pool := rfl
@[simp] theorem modYar_poolFull (s : State) (f : Yarrow → Yarrow) : (s.modYar f).poolFull = s.poolFull := rfl
@[simp] theorem modYar_ops (s : State) (f : Yarrow → Yarrow) : (s.modYar f).ops = s.ops := rfl
@[simp] theorem modYar_nextOp (s : State) (f : Yarrow → Yarrow) : (s.modYar f).nextOp = s.nextOp := rfl
@[simp] theorem modYar_accNo (s : State) (f : Yarrow → Yarrow) : (s.modYar f).accNo = s.accNo := rfl
@[simp] theorem modYar_crossings (s : State) (f : Yarrow → Yarrow) : (s.modYar f).crossings = s.crossings := rfl
@[simp] theorem modYar_cfg (s : State) (f : Yarrow → Yarrow) : (s.modYar f).cfg = s.cfg := rfl
@[simp] theorem modYar_st (s : State) (f : Yarrow → Yarrow) : (s.modYar f).st = s.st := rfl
@[simp] theorem modYar_sl (s : State) (f : Yarrow → Yarrow) : (s.modYar f).sl = s.sl := rfl
@[simp] theorem modYar_line (s : State) (f : Yarrow → Yarrow) : (s.modYar f).line = s.line := rfl
@[simp] theorem modYar_camp (s : State) (f : Yarrow → Yarrow) : (s.modYar f).camp = s.camp := rfl
@[simp] theorem modYar_bus (s : State) (f : Yarrow → Yarrow) : (s.modYar f).bus = s.bus := rfl
@[simp] theorem modYar_reports (s : State) (f : Yarrow → Yarrow) : (s.modYar f).reports = s.reports := rfl
@[simp] theorem modYar_net (s : State) (f : Yarrow → Yarrow) : (s.modYar f).net = s.net := rfl
@[simp] theorem modYar_twin (s : State) (f : Yarrow → Yarrow) : (s.modYar f).twin = s.twin := rfl
@[simp] theorem modYar_slp (s : State) (f : Yarrow → Yarrow) : (s.modYar f).slp = s.slp := rfl
@[simp] theorem modYar_jrn (s : State) (f : Yarrow → Yarrow) : (s.modYar f).jrn = s.jrn := rfl
@[simp] theorem modYar_store (s : State) (f : Yarrow → Yarrow) : (s.modYar f).store = s.store := rfl
@[simp] theorem modYar_free (s : State) (f : Yarrow → Yarrow) : (s.modYar f).free = s.free := rfl
@[simp] theorem modYar_inbuf (s : State) (f : Yarrow → Yarrow) : (s.modYar f).inbuf = s.inbuf := rfl
@[simp] theorem modYar_left (s : State) (f : Yarrow → Yarrow) : (s.modYar f).left = s.left := rfl
@[simp] theorem modYar_returns (s : State) (f : Yarrow → Yarrow) : (s.modYar f).returns = s.returns := rfl
@[simp] theorem modYar_pending (s : State) (f : Yarrow → Yarrow) : (s.modYar f).pending = s.pending := rfl

/-! ## modLine -/

@[simp] theorem modLine_fit (s : State) (f : LineTb → LineTb) : (s.modLine f).fit = s.fit := rfl
@[simp] theorem modLine_clk (s : State) (f : LineTb → LineTb) : (s.modLine f).clk = s.clk := rfl
@[simp] theorem modLine_head (s : State) (f : LineTb → LineTb) : (s.modLine f).head = s.head := rfl
@[simp] theorem modLine_sup (s : State) (f : LineTb → LineTb) : (s.modLine f).sup = s.sup := rfl
@[simp] theorem modLine_sess (s : State) (f : LineTb → LineTb) : (s.modLine f).sess = s.sess := rfl
@[simp] theorem modLine_pool (s : State) (f : LineTb → LineTb) : (s.modLine f).pool = s.pool := rfl
@[simp] theorem modLine_poolFull (s : State) (f : LineTb → LineTb) : (s.modLine f).poolFull = s.poolFull := rfl
@[simp] theorem modLine_ops (s : State) (f : LineTb → LineTb) : (s.modLine f).ops = s.ops := rfl
@[simp] theorem modLine_nextOp (s : State) (f : LineTb → LineTb) : (s.modLine f).nextOp = s.nextOp := rfl
@[simp] theorem modLine_accNo (s : State) (f : LineTb → LineTb) : (s.modLine f).accNo = s.accNo := rfl
@[simp] theorem modLine_crossings (s : State) (f : LineTb → LineTb) : (s.modLine f).crossings = s.crossings := rfl
@[simp] theorem modLine_cfg (s : State) (f : LineTb → LineTb) : (s.modLine f).cfg = s.cfg := rfl
@[simp] theorem modLine_st (s : State) (f : LineTb → LineTb) : (s.modLine f).st = s.st := rfl
@[simp] theorem modLine_sl (s : State) (f : LineTb → LineTb) : (s.modLine f).sl = s.sl := rfl
@[simp] theorem modLine_camp (s : State) (f : LineTb → LineTb) : (s.modLine f).camp = s.camp := rfl
@[simp] theorem modLine_yar (s : State) (f : LineTb → LineTb) : (s.modLine f).yar = s.yar := rfl
@[simp] theorem modLine_bus (s : State) (f : LineTb → LineTb) : (s.modLine f).bus = s.bus := rfl
@[simp] theorem modLine_reports (s : State) (f : LineTb → LineTb) : (s.modLine f).reports = s.reports := rfl
@[simp] theorem modLine_net (s : State) (f : LineTb → LineTb) : (s.modLine f).net = s.net := rfl
@[simp] theorem modLine_twin (s : State) (f : LineTb → LineTb) : (s.modLine f).twin = s.twin := rfl
@[simp] theorem modLine_slp (s : State) (f : LineTb → LineTb) : (s.modLine f).slp = s.slp := rfl
@[simp] theorem modLine_jrn (s : State) (f : LineTb → LineTb) : (s.modLine f).jrn = s.jrn := rfl
@[simp] theorem modLine_store (s : State) (f : LineTb → LineTb) : (s.modLine f).store = s.store := rfl
@[simp] theorem modLine_free (s : State) (f : LineTb → LineTb) : (s.modLine f).free = s.free := rfl
@[simp] theorem modLine_inbuf (s : State) (f : LineTb → LineTb) : (s.modLine f).inbuf = s.inbuf := rfl
@[simp] theorem modLine_left (s : State) (f : LineTb → LineTb) : (s.modLine f).left = s.left := rfl
@[simp] theorem modLine_returns (s : State) (f : LineTb → LineTb) : (s.modLine f).returns = s.returns := rfl
@[simp] theorem modLine_pending (s : State) (f : LineTb → LineTb) : (s.modLine f).pending = s.pending := rfl

/-! ## modSup -/

@[simp] theorem modSup_fit (s : State) (f : Super → Super) : (s.modSup f).fit = s.fit := rfl
@[simp] theorem modSup_clk (s : State) (f : Super → Super) : (s.modSup f).clk = s.clk := rfl
@[simp] theorem modSup_head (s : State) (f : Super → Super) : (s.modSup f).head = s.head := rfl
@[simp] theorem modSup_sess (s : State) (f : Super → Super) : (s.modSup f).sess = s.sess := rfl
@[simp] theorem modSup_pool (s : State) (f : Super → Super) : (s.modSup f).pool = s.pool := rfl
@[simp] theorem modSup_poolFull (s : State) (f : Super → Super) : (s.modSup f).poolFull = s.poolFull := rfl
@[simp] theorem modSup_ops (s : State) (f : Super → Super) : (s.modSup f).ops = s.ops := rfl
@[simp] theorem modSup_nextOp (s : State) (f : Super → Super) : (s.modSup f).nextOp = s.nextOp := rfl
@[simp] theorem modSup_accNo (s : State) (f : Super → Super) : (s.modSup f).accNo = s.accNo := rfl
@[simp] theorem modSup_crossings (s : State) (f : Super → Super) : (s.modSup f).crossings = s.crossings := rfl
@[simp] theorem modSup_cfg (s : State) (f : Super → Super) : (s.modSup f).cfg = s.cfg := rfl
@[simp] theorem modSup_st (s : State) (f : Super → Super) : (s.modSup f).st = s.st := rfl
@[simp] theorem modSup_sl (s : State) (f : Super → Super) : (s.modSup f).sl = s.sl := rfl
@[simp] theorem modSup_line (s : State) (f : Super → Super) : (s.modSup f).line = s.line := rfl
@[simp] theorem modSup_camp (s : State) (f : Super → Super) : (s.modSup f).camp = s.camp := rfl
@[simp] theorem modSup_yar (s : State) (f : Super → Super) : (s.modSup f).yar = s.yar := rfl
@[simp] theorem modSup_bus (s : State) (f : Super → Super) : (s.modSup f).bus = s.bus := rfl
@[simp] theorem modSup_reports (s : State) (f : Super → Super) : (s.modSup f).reports = s.reports := rfl
@[simp] theorem modSup_net (s : State) (f : Super → Super) : (s.modSup f).net = s.net := rfl
@[simp] theorem modSup_twin (s : State) (f : Super → Super) : (s.modSup f).twin = s.twin := rfl
@[simp] theorem modSup_slp (s : State) (f : Super → Super) : (s.modSup f).slp = s.slp := rfl
@[simp] theorem modSup_jrn (s : State) (f : Super → Super) : (s.modSup f).jrn = s.jrn := rfl
@[simp] theorem modSup_store (s : State) (f : Super → Super) : (s.modSup f).store = s.store := rfl
@[simp] theorem modSup_free (s : State) (f : Super → Super) : (s.modSup f).free = s.free := rfl
@[simp] theorem modSup_inbuf (s : State) (f : Super → Super) : (s.modSup f).inbuf = s.inbuf := rfl
@[simp] theorem modSup_left (s : State) (f : Super → Super) : (s.modSup f).left = s.left := rfl
@[simp] theorem modSup_returns (s : State) (f : Super → Super) : (s.modSup f).returns = s.returns := rfl
@[simp] theorem modSup_pending (s : State) (f : Super → Super) : (s.modSup f).pending = s.pending := rfl

/-! ## modHead -/

@[simp] theorem modHead_fit (s : State) (f : Head → Head) : (s.modHead f).fit = s.fit := rfl
@[simp] theorem modHead_clk (s : State) (f : Head → Head) : (s.modHead f).clk = s.clk := rfl
@[simp] theorem modHead_sup (s : State) (f : Head → Head) : (s.modHead f).sup = s.sup := rfl
@[simp] theorem modHead_sess (s : State) (f : Head → Head) : (s.modHead f).sess = s.sess := rfl
@[simp] theorem modHead_pool (s : State) (f : Head → Head) : (s.modHead f).pool = s.pool := rfl
@[simp] theorem modHead_poolFull (s : State) (f : Head → Head) : (s.modHead f).poolFull = s.poolFull := rfl
@[simp] theorem modHead_ops (s : State) (f : Head → Head) : (s.modHead f).ops = s.ops := rfl
@[simp] theorem modHead_nextOp (s : State) (f : Head → Head) : (s.modHead f).nextOp = s.nextOp := rfl
@[simp] theorem modHead_accNo (s : State) (f : Head → Head) : (s.modHead f).accNo = s.accNo := rfl
@[simp] theorem modHead_crossings (s : State) (f : Head → Head) : (s.modHead f).crossings = s.crossings := rfl
@[simp] theorem modHead_cfg (s : State) (f : Head → Head) : (s.modHead f).cfg = s.cfg := rfl
@[simp] theorem modHead_st (s : State) (f : Head → Head) : (s.modHead f).st = s.st := rfl
@[simp] theorem modHead_sl (s : State) (f : Head → Head) : (s.modHead f).sl = s.sl := rfl
@[simp] theorem modHead_line (s : State) (f : Head → Head) : (s.modHead f).line = s.line := rfl
@[simp] theorem modHead_camp (s : State) (f : Head → Head) : (s.modHead f).camp = s.camp := rfl
@[simp] theorem modHead_yar (s : State) (f : Head → Head) : (s.modHead f).yar = s.yar := rfl
@[simp] theorem modHead_bus (s : State) (f : Head → Head) : (s.modHead f).bus = s.bus := rfl
@[simp] theorem modHead_reports (s : State) (f : Head → Head) : (s.modHead f).reports = s.reports := rfl
@[simp] theorem modHead_net (s : State) (f : Head → Head) : (s.modHead f).net = s.net := rfl
@[simp] theorem modHead_twin (s : State) (f : Head → Head) : (s.modHead f).twin = s.twin := rfl
@[simp] theorem modHead_slp (s : State) (f : Head → Head) : (s.modHead f).slp = s.slp := rfl
@[simp] theorem modHead_jrn (s : State) (f : Head → Head) : (s.modHead f).jrn = s.jrn := rfl
@[simp] theorem modHead_store (s : State) (f : Head → Head) : (s.modHead f).store = s.store := rfl
@[simp] theorem modHead_free (s : State) (f : Head → Head) : (s.modHead f).free = s.free := rfl
@[simp] theorem modHead_inbuf (s : State) (f : Head → Head) : (s.modHead f).inbuf = s.inbuf := rfl
@[simp] theorem modHead_left (s : State) (f : Head → Head) : (s.modHead f).left = s.left := rfl
@[simp] theorem modHead_returns (s : State) (f : Head → Head) : (s.modHead f).returns = s.returns := rfl
@[simp] theorem modHead_pending (s : State) (f : Head → Head) : (s.modHead f).pending = s.pending := rfl

/-! ## modEng -/

@[simp] theorem modEng_fit (s : State) (e : Engine) (f : EngineSt → EngineSt) : (s.modEng e f).fit = s.fit := rfl
@[simp] theorem modEng_clk (s : State) (e : Engine) (f : EngineSt → EngineSt) : (s.modEng e f).clk = s.clk := rfl
@[simp] theorem modEng_sup (s : State) (e : Engine) (f : EngineSt → EngineSt) : (s.modEng e f).sup = s.sup := rfl
@[simp] theorem modEng_sess (s : State) (e : Engine) (f : EngineSt → EngineSt) : (s.modEng e f).sess = s.sess := rfl
@[simp] theorem modEng_pool (s : State) (e : Engine) (f : EngineSt → EngineSt) : (s.modEng e f).pool = s.pool := rfl
@[simp] theorem modEng_poolFull (s : State) (e : Engine) (f : EngineSt → EngineSt) : (s.modEng e f).poolFull = s.poolFull := rfl
@[simp] theorem modEng_ops (s : State) (e : Engine) (f : EngineSt → EngineSt) : (s.modEng e f).ops = s.ops := rfl
@[simp] theorem modEng_nextOp (s : State) (e : Engine) (f : EngineSt → EngineSt) : (s.modEng e f).nextOp = s.nextOp := rfl
@[simp] theorem modEng_accNo (s : State) (e : Engine) (f : EngineSt → EngineSt) : (s.modEng e f).accNo = s.accNo := rfl
@[simp] theorem modEng_crossings (s : State) (e : Engine) (f : EngineSt → EngineSt) : (s.modEng e f).crossings = s.crossings := rfl
@[simp] theorem modEng_cfg (s : State) (e : Engine) (f : EngineSt → EngineSt) : (s.modEng e f).cfg = s.cfg := rfl
@[simp] theorem modEng_st (s : State) (e : Engine) (f : EngineSt → EngineSt) : (s.modEng e f).st = s.st := rfl
@[simp] theorem modEng_sl (s : State) (e : Engine) (f : EngineSt → EngineSt) : (s.modEng e f).sl = s.sl := rfl
@[simp] theorem modEng_line (s : State) (e : Engine) (f : EngineSt → EngineSt) : (s.modEng e f).line = s.line := rfl
@[simp] theorem modEng_camp (s : State) (e : Engine) (f : EngineSt → EngineSt) : (s.modEng e f).camp = s.camp := rfl
@[simp] theorem modEng_yar (s : State) (e : Engine) (f : EngineSt → EngineSt) : (s.modEng e f).yar = s.yar := rfl
@[simp] theorem modEng_bus (s : State) (e : Engine) (f : EngineSt → EngineSt) : (s.modEng e f).bus = s.bus := rfl
@[simp] theorem modEng_reports (s : State) (e : Engine) (f : EngineSt → EngineSt) : (s.modEng e f).reports = s.reports := rfl
@[simp] theorem modEng_net (s : State) (e : Engine) (f : EngineSt → EngineSt) : (s.modEng e f).net = s.net := rfl
@[simp] theorem modEng_twin (s : State) (e : Engine) (f : EngineSt → EngineSt) : (s.modEng e f).twin = s.twin := rfl
@[simp] theorem modEng_slp (s : State) (e : Engine) (f : EngineSt → EngineSt) : (s.modEng e f).slp = s.slp := rfl
@[simp] theorem modEng_jrn (s : State) (e : Engine) (f : EngineSt → EngineSt) : (s.modEng e f).jrn = s.jrn := rfl
@[simp] theorem modEng_store (s : State) (e : Engine) (f : EngineSt → EngineSt) : (s.modEng e f).store = s.store := rfl
@[simp] theorem modEng_free (s : State) (e : Engine) (f : EngineSt → EngineSt) : (s.modEng e f).free = s.free := rfl
@[simp] theorem modEng_inbuf (s : State) (e : Engine) (f : EngineSt → EngineSt) : (s.modEng e f).inbuf = s.inbuf := rfl
@[simp] theorem modEng_left (s : State) (e : Engine) (f : EngineSt → EngineSt) : (s.modEng e f).left = s.left := rfl
@[simp] theorem modEng_returns (s : State) (e : Engine) (f : EngineSt → EngineSt) : (s.modEng e f).returns = s.returns := rfl
@[simp] theorem modEng_pending (s : State) (e : Engine) (f : EngineSt → EngineSt) : (s.modEng e f).pending = s.pending := rfl

/-! ## worked -/

@[simp] theorem worked_fit (s : State) (e : Engine) (k : Nat) : (s.worked e k).fit = s.fit := rfl
@[simp] theorem worked_clk (s : State) (e : Engine) (k : Nat) : (s.worked e k).clk = s.clk := rfl
@[simp] theorem worked_sup (s : State) (e : Engine) (k : Nat) : (s.worked e k).sup = s.sup := rfl
@[simp] theorem worked_sess (s : State) (e : Engine) (k : Nat) : (s.worked e k).sess = s.sess := rfl
@[simp] theorem worked_pool (s : State) (e : Engine) (k : Nat) : (s.worked e k).pool = s.pool := rfl
@[simp] theorem worked_poolFull (s : State) (e : Engine) (k : Nat) : (s.worked e k).poolFull = s.poolFull := rfl
@[simp] theorem worked_ops (s : State) (e : Engine) (k : Nat) : (s.worked e k).ops = s.ops := rfl
@[simp] theorem worked_nextOp (s : State) (e : Engine) (k : Nat) : (s.worked e k).nextOp = s.nextOp := rfl
@[simp] theorem worked_accNo (s : State) (e : Engine) (k : Nat) : (s.worked e k).accNo = s.accNo := rfl
@[simp] theorem worked_crossings (s : State) (e : Engine) (k : Nat) : (s.worked e k).crossings = s.crossings := rfl
@[simp] theorem worked_cfg (s : State) (e : Engine) (k : Nat) : (s.worked e k).cfg = s.cfg := rfl
@[simp] theorem worked_st (s : State) (e : Engine) (k : Nat) : (s.worked e k).st = s.st := rfl
@[simp] theorem worked_sl (s : State) (e : Engine) (k : Nat) : (s.worked e k).sl = s.sl := rfl
@[simp] theorem worked_line (s : State) (e : Engine) (k : Nat) : (s.worked e k).line = s.line := rfl
@[simp] theorem worked_camp (s : State) (e : Engine) (k : Nat) : (s.worked e k).camp = s.camp := rfl
@[simp] theorem worked_yar (s : State) (e : Engine) (k : Nat) : (s.worked e k).yar = s.yar := rfl
@[simp] theorem worked_bus (s : State) (e : Engine) (k : Nat) : (s.worked e k).bus = s.bus := rfl
@[simp] theorem worked_reports (s : State) (e : Engine) (k : Nat) : (s.worked e k).reports = s.reports := rfl
@[simp] theorem worked_net (s : State) (e : Engine) (k : Nat) : (s.worked e k).net = s.net := rfl
@[simp] theorem worked_twin (s : State) (e : Engine) (k : Nat) : (s.worked e k).twin = s.twin := rfl
@[simp] theorem worked_slp (s : State) (e : Engine) (k : Nat) : (s.worked e k).slp = s.slp := rfl
@[simp] theorem worked_jrn (s : State) (e : Engine) (k : Nat) : (s.worked e k).jrn = s.jrn := rfl
@[simp] theorem worked_store (s : State) (e : Engine) (k : Nat) : (s.worked e k).store = s.store := rfl
@[simp] theorem worked_free (s : State) (e : Engine) (k : Nat) : (s.worked e k).free = s.free := rfl
@[simp] theorem worked_inbuf (s : State) (e : Engine) (k : Nat) : (s.worked e k).inbuf = s.inbuf := rfl
@[simp] theorem worked_left (s : State) (e : Engine) (k : Nat) : (s.worked e k).left = s.left := rfl
@[simp] theorem worked_returns (s : State) (e : Engine) (k : Nat) : (s.worked e k).returns = s.returns := rfl
@[simp] theorem worked_pending (s : State) (e : Engine) (k : Nat) : (s.worked e k).pending = s.pending := rfl

/-! ## modSlp -/

@[simp] theorem modSlp_fit (s : State) (f : SleepSt → SleepSt) : (s.modSlp f).fit = s.fit := rfl
@[simp] theorem modSlp_clk (s : State) (f : SleepSt → SleepSt) : (s.modSlp f).clk = s.clk := rfl
@[simp] theorem modSlp_head (s : State) (f : SleepSt → SleepSt) : (s.modSlp f).head = s.head := rfl
@[simp] theorem modSlp_sup (s : State) (f : SleepSt → SleepSt) : (s.modSlp f).sup = s.sup := rfl
@[simp] theorem modSlp_sess (s : State) (f : SleepSt → SleepSt) : (s.modSlp f).sess = s.sess := rfl
@[simp] theorem modSlp_pool (s : State) (f : SleepSt → SleepSt) : (s.modSlp f).pool = s.pool := rfl
@[simp] theorem modSlp_poolFull (s : State) (f : SleepSt → SleepSt) : (s.modSlp f).poolFull = s.poolFull := rfl
@[simp] theorem modSlp_ops (s : State) (f : SleepSt → SleepSt) : (s.modSlp f).ops = s.ops := rfl
@[simp] theorem modSlp_nextOp (s : State) (f : SleepSt → SleepSt) : (s.modSlp f).nextOp = s.nextOp := rfl
@[simp] theorem modSlp_accNo (s : State) (f : SleepSt → SleepSt) : (s.modSlp f).accNo = s.accNo := rfl
@[simp] theorem modSlp_crossings (s : State) (f : SleepSt → SleepSt) : (s.modSlp f).crossings = s.crossings := rfl
@[simp] theorem modSlp_cfg (s : State) (f : SleepSt → SleepSt) : (s.modSlp f).cfg = s.cfg := rfl
@[simp] theorem modSlp_st (s : State) (f : SleepSt → SleepSt) : (s.modSlp f).st = s.st := rfl
@[simp] theorem modSlp_sl (s : State) (f : SleepSt → SleepSt) : (s.modSlp f).sl = s.sl := rfl
@[simp] theorem modSlp_line (s : State) (f : SleepSt → SleepSt) : (s.modSlp f).line = s.line := rfl
@[simp] theorem modSlp_camp (s : State) (f : SleepSt → SleepSt) : (s.modSlp f).camp = s.camp := rfl
@[simp] theorem modSlp_yar (s : State) (f : SleepSt → SleepSt) : (s.modSlp f).yar = s.yar := rfl
@[simp] theorem modSlp_bus (s : State) (f : SleepSt → SleepSt) : (s.modSlp f).bus = s.bus := rfl
@[simp] theorem modSlp_reports (s : State) (f : SleepSt → SleepSt) : (s.modSlp f).reports = s.reports := rfl
@[simp] theorem modSlp_net (s : State) (f : SleepSt → SleepSt) : (s.modSlp f).net = s.net := rfl
@[simp] theorem modSlp_twin (s : State) (f : SleepSt → SleepSt) : (s.modSlp f).twin = s.twin := rfl
@[simp] theorem modSlp_jrn (s : State) (f : SleepSt → SleepSt) : (s.modSlp f).jrn = s.jrn := rfl
@[simp] theorem modSlp_store (s : State) (f : SleepSt → SleepSt) : (s.modSlp f).store = s.store := rfl
@[simp] theorem modSlp_free (s : State) (f : SleepSt → SleepSt) : (s.modSlp f).free = s.free := rfl
@[simp] theorem modSlp_inbuf (s : State) (f : SleepSt → SleepSt) : (s.modSlp f).inbuf = s.inbuf := rfl
@[simp] theorem modSlp_left (s : State) (f : SleepSt → SleepSt) : (s.modSlp f).left = s.left := rfl
@[simp] theorem modSlp_returns (s : State) (f : SleepSt → SleepSt) : (s.modSlp f).returns = s.returns := rfl
@[simp] theorem modSlp_pending (s : State) (f : SleepSt → SleepSt) : (s.modSlp f).pending = s.pending := rfl

/-! ## modJrn -/

@[simp] theorem modJrn_fit (s : State) (f : Journal → Journal) : (s.modJrn f).fit = s.fit := rfl
@[simp] theorem modJrn_clk (s : State) (f : Journal → Journal) : (s.modJrn f).clk = s.clk := rfl
@[simp] theorem modJrn_head (s : State) (f : Journal → Journal) : (s.modJrn f).head = s.head := rfl
@[simp] theorem modJrn_sup (s : State) (f : Journal → Journal) : (s.modJrn f).sup = s.sup := rfl
@[simp] theorem modJrn_sess (s : State) (f : Journal → Journal) : (s.modJrn f).sess = s.sess := rfl
@[simp] theorem modJrn_pool (s : State) (f : Journal → Journal) : (s.modJrn f).pool = s.pool := rfl
@[simp] theorem modJrn_poolFull (s : State) (f : Journal → Journal) : (s.modJrn f).poolFull = s.poolFull := rfl
@[simp] theorem modJrn_ops (s : State) (f : Journal → Journal) : (s.modJrn f).ops = s.ops := rfl
@[simp] theorem modJrn_nextOp (s : State) (f : Journal → Journal) : (s.modJrn f).nextOp = s.nextOp := rfl
@[simp] theorem modJrn_accNo (s : State) (f : Journal → Journal) : (s.modJrn f).accNo = s.accNo := rfl
@[simp] theorem modJrn_crossings (s : State) (f : Journal → Journal) : (s.modJrn f).crossings = s.crossings := rfl
@[simp] theorem modJrn_cfg (s : State) (f : Journal → Journal) : (s.modJrn f).cfg = s.cfg := rfl
@[simp] theorem modJrn_st (s : State) (f : Journal → Journal) : (s.modJrn f).st = s.st := rfl
@[simp] theorem modJrn_sl (s : State) (f : Journal → Journal) : (s.modJrn f).sl = s.sl := rfl
@[simp] theorem modJrn_line (s : State) (f : Journal → Journal) : (s.modJrn f).line = s.line := rfl
@[simp] theorem modJrn_camp (s : State) (f : Journal → Journal) : (s.modJrn f).camp = s.camp := rfl
@[simp] theorem modJrn_yar (s : State) (f : Journal → Journal) : (s.modJrn f).yar = s.yar := rfl
@[simp] theorem modJrn_bus (s : State) (f : Journal → Journal) : (s.modJrn f).bus = s.bus := rfl
@[simp] theorem modJrn_reports (s : State) (f : Journal → Journal) : (s.modJrn f).reports = s.reports := rfl
@[simp] theorem modJrn_net (s : State) (f : Journal → Journal) : (s.modJrn f).net = s.net := rfl
@[simp] theorem modJrn_twin (s : State) (f : Journal → Journal) : (s.modJrn f).twin = s.twin := rfl
@[simp] theorem modJrn_slp (s : State) (f : Journal → Journal) : (s.modJrn f).slp = s.slp := rfl
@[simp] theorem modJrn_store (s : State) (f : Journal → Journal) : (s.modJrn f).store = s.store := rfl
@[simp] theorem modJrn_free (s : State) (f : Journal → Journal) : (s.modJrn f).free = s.free := rfl
@[simp] theorem modJrn_inbuf (s : State) (f : Journal → Journal) : (s.modJrn f).inbuf = s.inbuf := rfl
@[simp] theorem modJrn_left (s : State) (f : Journal → Journal) : (s.modJrn f).left = s.left := rfl
@[simp] theorem modJrn_returns (s : State) (f : Journal → Journal) : (s.modJrn f).returns = s.returns := rfl
@[simp] theorem modJrn_pending (s : State) (f : Journal → Journal) : (s.modJrn f).pending = s.pending := rfl

/-! ## modStore -/

@[simp] theorem modStore_fit (s : State) (f : Stores → Stores) : (s.modStore f).fit = s.fit := rfl
@[simp] theorem modStore_clk (s : State) (f : Stores → Stores) : (s.modStore f).clk = s.clk := rfl
@[simp] theorem modStore_head (s : State) (f : Stores → Stores) : (s.modStore f).head = s.head := rfl
@[simp] theorem modStore_sup (s : State) (f : Stores → Stores) : (s.modStore f).sup = s.sup := rfl
@[simp] theorem modStore_sess (s : State) (f : Stores → Stores) : (s.modStore f).sess = s.sess := rfl
@[simp] theorem modStore_pool (s : State) (f : Stores → Stores) : (s.modStore f).pool = s.pool := rfl
@[simp] theorem modStore_poolFull (s : State) (f : Stores → Stores) : (s.modStore f).poolFull = s.poolFull := rfl
@[simp] theorem modStore_ops (s : State) (f : Stores → Stores) : (s.modStore f).ops = s.ops := rfl
@[simp] theorem modStore_nextOp (s : State) (f : Stores → Stores) : (s.modStore f).nextOp = s.nextOp := rfl
@[simp] theorem modStore_accNo (s : State) (f : Stores → Stores) : (s.modStore f).accNo = s.accNo := rfl
@[simp] theorem modStore_crossings (s : State) (f : Stores → Stores) : (s.modStore f).crossings = s.crossings := rfl
@[simp] theorem modStore_cfg (s : State) (f : Stores → Stores) : (s.modStore f).cfg = s.cfg := rfl
@[simp] theorem modStore_st (s : State) (f : Stores → Stores) : (s.modStore f).st = s.st := rfl
@[simp] theorem modStore_sl (s : State) (f : Stores → Stores) : (s.modStore f).sl = s.sl := rfl
@[simp] theorem modStore_line (s : State) (f : Stores → Stores) : (s.modStore f).line = s.line := rfl
@[simp] theorem modStore_camp (s : State) (f : Stores → Stores) : (s.modStore f).camp = s.camp := rfl
@[simp] theorem modStore_yar (s : State) (f : Stores → Stores) : (s.modStore f).yar = s.yar := rfl
@[simp] theorem modStore_bus (s : State) (f : Stores → Stores) : (s.modStore f).bus = s.bus := rfl
@[simp] theorem modStore_reports (s : State) (f : Stores → Stores) : (s.modStore f).reports = s.reports := rfl
@[simp] theorem modStore_net (s : State) (f : Stores → Stores) : (s.modStore f).net = s.net := rfl
@[simp] theorem modStore_twin (s : State) (f : Stores → Stores) : (s.modStore f).twin = s.twin := rfl
@[simp] theorem modStore_slp (s : State) (f : Stores → Stores) : (s.modStore f).slp = s.slp := rfl
@[simp] theorem modStore_jrn (s : State) (f : Stores → Stores) : (s.modStore f).jrn = s.jrn := rfl
@[simp] theorem modStore_free (s : State) (f : Stores → Stores) : (s.modStore f).free = s.free := rfl
@[simp] theorem modStore_inbuf (s : State) (f : Stores → Stores) : (s.modStore f).inbuf = s.inbuf := rfl
@[simp] theorem modStore_left (s : State) (f : Stores → Stores) : (s.modStore f).left = s.left := rfl
@[simp] theorem modStore_returns (s : State) (f : Stores → Stores) : (s.modStore f).returns = s.returns := rfl
@[simp] theorem modStore_pending (s : State) (f : Stores → Stores) : (s.modStore f).pending = s.pending := rfl

/-! ## modCfg -/

@[simp] theorem modCfg_fit (s : State) (f : Cfg → Cfg) : (s.modCfg f).fit = s.fit := rfl
@[simp] theorem modCfg_clk (s : State) (f : Cfg → Cfg) : (s.modCfg f).clk = s.clk := rfl
@[simp] theorem modCfg_head (s : State) (f : Cfg → Cfg) : (s.modCfg f).head = s.head := rfl
@[simp] theorem modCfg_sup (s : State) (f : Cfg → Cfg) : (s.modCfg f).sup = s.sup := rfl
@[simp] theorem modCfg_sess (s : State) (f : Cfg → Cfg) : (s.modCfg f).sess = s.sess := rfl
@[simp] theorem modCfg_pool (s : State) (f : Cfg → Cfg) : (s.modCfg f).pool = s.pool := rfl
@[simp] theorem modCfg_poolFull (s : State) (f : Cfg → Cfg) : (s.modCfg f).poolFull = s.poolFull := rfl
@[simp] theorem modCfg_ops (s : State) (f : Cfg → Cfg) : (s.modCfg f).ops = s.ops := rfl
@[simp] theorem modCfg_nextOp (s : State) (f : Cfg → Cfg) : (s.modCfg f).nextOp = s.nextOp := rfl
@[simp] theorem modCfg_accNo (s : State) (f : Cfg → Cfg) : (s.modCfg f).accNo = s.accNo := rfl
@[simp] theorem modCfg_crossings (s : State) (f : Cfg → Cfg) : (s.modCfg f).crossings = s.crossings := rfl
@[simp] theorem modCfg_st (s : State) (f : Cfg → Cfg) : (s.modCfg f).st = s.st := rfl
@[simp] theorem modCfg_sl (s : State) (f : Cfg → Cfg) : (s.modCfg f).sl = s.sl := rfl
@[simp] theorem modCfg_line (s : State) (f : Cfg → Cfg) : (s.modCfg f).line = s.line := rfl
@[simp] theorem modCfg_camp (s : State) (f : Cfg → Cfg) : (s.modCfg f).camp = s.camp := rfl
@[simp] theorem modCfg_yar (s : State) (f : Cfg → Cfg) : (s.modCfg f).yar = s.yar := rfl
@[simp] theorem modCfg_bus (s : State) (f : Cfg → Cfg) : (s.modCfg f).bus = s.bus := rfl
@[simp] theorem modCfg_reports (s : State) (f : Cfg → Cfg) : (s.modCfg f).reports = s.reports := rfl
@[simp] theorem modCfg_net (s : State) (f : Cfg → Cfg) : (s.modCfg f).net = s.net := rfl
@[simp] theorem modCfg_twin (s : State) (f : Cfg → Cfg) : (s.modCfg f).twin = s.twin := rfl
@[simp] theorem modCfg_slp (s : State) (f : Cfg → Cfg) : (s.modCfg f).slp = s.slp := rfl
@[simp] theorem modCfg_jrn (s : State) (f : Cfg → Cfg) : (s.modCfg f).jrn = s.jrn := rfl
@[simp] theorem modCfg_store (s : State) (f : Cfg → Cfg) : (s.modCfg f).store = s.store := rfl
@[simp] theorem modCfg_free (s : State) (f : Cfg → Cfg) : (s.modCfg f).free = s.free := rfl
@[simp] theorem modCfg_inbuf (s : State) (f : Cfg → Cfg) : (s.modCfg f).inbuf = s.inbuf := rfl
@[simp] theorem modCfg_left (s : State) (f : Cfg → Cfg) : (s.modCfg f).left = s.left := rfl
@[simp] theorem modCfg_returns (s : State) (f : Cfg → Cfg) : (s.modCfg f).returns = s.returns := rfl
@[simp] theorem modCfg_pending (s : State) (f : Cfg → Cfg) : (s.modCfg f).pending = s.pending := rfl

/-! ## modOp -/

@[simp] theorem modOp_fit (s : State) (n : Nat) (f : Op → Op) : (s.modOp n f).fit = s.fit := rfl
@[simp] theorem modOp_clk (s : State) (n : Nat) (f : Op → Op) : (s.modOp n f).clk = s.clk := rfl
@[simp] theorem modOp_head (s : State) (n : Nat) (f : Op → Op) : (s.modOp n f).head = s.head := rfl
@[simp] theorem modOp_sup (s : State) (n : Nat) (f : Op → Op) : (s.modOp n f).sup = s.sup := rfl
@[simp] theorem modOp_sess (s : State) (n : Nat) (f : Op → Op) : (s.modOp n f).sess = s.sess := rfl
@[simp] theorem modOp_pool (s : State) (n : Nat) (f : Op → Op) : (s.modOp n f).pool = s.pool := rfl
@[simp] theorem modOp_poolFull (s : State) (n : Nat) (f : Op → Op) : (s.modOp n f).poolFull = s.poolFull := rfl
@[simp] theorem modOp_nextOp (s : State) (n : Nat) (f : Op → Op) : (s.modOp n f).nextOp = s.nextOp := rfl
@[simp] theorem modOp_accNo (s : State) (n : Nat) (f : Op → Op) : (s.modOp n f).accNo = s.accNo := rfl
@[simp] theorem modOp_crossings (s : State) (n : Nat) (f : Op → Op) : (s.modOp n f).crossings = s.crossings := rfl
@[simp] theorem modOp_cfg (s : State) (n : Nat) (f : Op → Op) : (s.modOp n f).cfg = s.cfg := rfl
@[simp] theorem modOp_st (s : State) (n : Nat) (f : Op → Op) : (s.modOp n f).st = s.st := rfl
@[simp] theorem modOp_sl (s : State) (n : Nat) (f : Op → Op) : (s.modOp n f).sl = s.sl := rfl
@[simp] theorem modOp_line (s : State) (n : Nat) (f : Op → Op) : (s.modOp n f).line = s.line := rfl
@[simp] theorem modOp_camp (s : State) (n : Nat) (f : Op → Op) : (s.modOp n f).camp = s.camp := rfl
@[simp] theorem modOp_yar (s : State) (n : Nat) (f : Op → Op) : (s.modOp n f).yar = s.yar := rfl
@[simp] theorem modOp_bus (s : State) (n : Nat) (f : Op → Op) : (s.modOp n f).bus = s.bus := rfl
@[simp] theorem modOp_reports (s : State) (n : Nat) (f : Op → Op) : (s.modOp n f).reports = s.reports := rfl
@[simp] theorem modOp_net (s : State) (n : Nat) (f : Op → Op) : (s.modOp n f).net = s.net := rfl
@[simp] theorem modOp_twin (s : State) (n : Nat) (f : Op → Op) : (s.modOp n f).twin = s.twin := rfl
@[simp] theorem modOp_slp (s : State) (n : Nat) (f : Op → Op) : (s.modOp n f).slp = s.slp := rfl
@[simp] theorem modOp_jrn (s : State) (n : Nat) (f : Op → Op) : (s.modOp n f).jrn = s.jrn := rfl
@[simp] theorem modOp_store (s : State) (n : Nat) (f : Op → Op) : (s.modOp n f).store = s.store := rfl
@[simp] theorem modOp_free (s : State) (n : Nat) (f : Op → Op) : (s.modOp n f).free = s.free := rfl
@[simp] theorem modOp_inbuf (s : State) (n : Nat) (f : Op → Op) : (s.modOp n f).inbuf = s.inbuf := rfl
@[simp] theorem modOp_left (s : State) (n : Nat) (f : Op → Op) : (s.modOp n f).left = s.left := rfl
@[simp] theorem modOp_returns (s : State) (n : Nat) (f : Op → Op) : (s.modOp n f).returns = s.returns := rfl
@[simp] theorem modOp_pending (s : State) (n : Nat) (f : Op → Op) : (s.modOp n f).pending = s.pending := rfl

/-! ## modLane -/

@[simp] theorem modLane_fit (s : State) (x : Lane) (f : LaneSt → LaneSt) : (s.modLane x f).fit = s.fit := by cases x <;> rfl
@[simp] theorem modLane_clk (s : State) (x : Lane) (f : LaneSt → LaneSt) : (s.modLane x f).clk = s.clk := by cases x <;> rfl
@[simp] theorem modLane_head (s : State) (x : Lane) (f : LaneSt → LaneSt) : (s.modLane x f).head = s.head := by cases x <;> rfl
@[simp] theorem modLane_sup (s : State) (x : Lane) (f : LaneSt → LaneSt) : (s.modLane x f).sup = s.sup := by cases x <;> rfl
@[simp] theorem modLane_sess (s : State) (x : Lane) (f : LaneSt → LaneSt) : (s.modLane x f).sess = s.sess := by cases x <;> rfl
@[simp] theorem modLane_pool (s : State) (x : Lane) (f : LaneSt → LaneSt) : (s.modLane x f).pool = s.pool := by cases x <;> rfl
@[simp] theorem modLane_poolFull (s : State) (x : Lane) (f : LaneSt → LaneSt) : (s.modLane x f).poolFull = s.poolFull := by cases x <;> rfl
@[simp] theorem modLane_ops (s : State) (x : Lane) (f : LaneSt → LaneSt) : (s.modLane x f).ops = s.ops := by cases x <;> rfl
@[simp] theorem modLane_nextOp (s : State) (x : Lane) (f : LaneSt → LaneSt) : (s.modLane x f).nextOp = s.nextOp := by cases x <;> rfl
@[simp] theorem modLane_accNo (s : State) (x : Lane) (f : LaneSt → LaneSt) : (s.modLane x f).accNo = s.accNo := by cases x <;> rfl
@[simp] theorem modLane_crossings (s : State) (x : Lane) (f : LaneSt → LaneSt) : (s.modLane x f).crossings = s.crossings := by cases x <;> rfl
@[simp] theorem modLane_cfg (s : State) (x : Lane) (f : LaneSt → LaneSt) : (s.modLane x f).cfg = s.cfg := by cases x <;> rfl
@[simp] theorem modLane_st (s : State) (x : Lane) (f : LaneSt → LaneSt) : (s.modLane x f).st = s.st := by cases x <;> rfl
@[simp] theorem modLane_sl (s : State) (x : Lane) (f : LaneSt → LaneSt) : (s.modLane x f).sl = s.sl := by cases x <;> rfl
@[simp] theorem modLane_line (s : State) (x : Lane) (f : LaneSt → LaneSt) : (s.modLane x f).line = s.line := by cases x <;> rfl
@[simp] theorem modLane_yar (s : State) (x : Lane) (f : LaneSt → LaneSt) : (s.modLane x f).yar = s.yar := by cases x <;> rfl
@[simp] theorem modLane_bus (s : State) (x : Lane) (f : LaneSt → LaneSt) : (s.modLane x f).bus = s.bus := by cases x <;> rfl
@[simp] theorem modLane_reports (s : State) (x : Lane) (f : LaneSt → LaneSt) : (s.modLane x f).reports = s.reports := by cases x <;> rfl
@[simp] theorem modLane_net (s : State) (x : Lane) (f : LaneSt → LaneSt) : (s.modLane x f).net = s.net := by cases x <;> rfl
@[simp] theorem modLane_twin (s : State) (x : Lane) (f : LaneSt → LaneSt) : (s.modLane x f).twin = s.twin := by cases x <;> rfl
@[simp] theorem modLane_slp (s : State) (x : Lane) (f : LaneSt → LaneSt) : (s.modLane x f).slp = s.slp := by cases x <;> rfl
@[simp] theorem modLane_jrn (s : State) (x : Lane) (f : LaneSt → LaneSt) : (s.modLane x f).jrn = s.jrn := by cases x <;> rfl
@[simp] theorem modLane_store (s : State) (x : Lane) (f : LaneSt → LaneSt) : (s.modLane x f).store = s.store := by cases x <;> rfl
@[simp] theorem modLane_free (s : State) (x : Lane) (f : LaneSt → LaneSt) : (s.modLane x f).free = s.free := by cases x <;> rfl
@[simp] theorem modLane_inbuf (s : State) (x : Lane) (f : LaneSt → LaneSt) : (s.modLane x f).inbuf = s.inbuf := by cases x <;> rfl
@[simp] theorem modLane_left (s : State) (x : Lane) (f : LaneSt → LaneSt) : (s.modLane x f).left = s.left := by cases x <;> rfl
@[simp] theorem modLane_returns (s : State) (x : Lane) (f : LaneSt → LaneSt) : (s.modLane x f).returns = s.returns := by cases x <;> rfl
@[simp] theorem modLane_pending (s : State) (x : Lane) (f : LaneSt → LaneSt) : (s.modLane x f).pending = s.pending := by cases x <;> rfl

/-! ## modLaneStn -/

@[simp] theorem modLaneStn_fit (s : State) (x : Lane) (n : Nat) (f : LaneStn → LaneStn) : (s.modLaneStn x n f).fit = s.fit := by cases x <;> rfl
@[simp] theorem modLaneStn_clk (s : State) (x : Lane) (n : Nat) (f : LaneStn → LaneStn) : (s.modLaneStn x n f).clk = s.clk := by cases x <;> rfl
@[simp] theorem modLaneStn_head (s : State) (x : Lane) (n : Nat) (f : LaneStn → LaneStn) : (s.modLaneStn x n f).head = s.head := by cases x <;> rfl
@[simp] theorem modLaneStn_sup (s : State) (x : Lane) (n : Nat) (f : LaneStn → LaneStn) : (s.modLaneStn x n f).sup = s.sup := by cases x <;> rfl
@[simp] theorem modLaneStn_sess (s : State) (x : Lane) (n : Nat) (f : LaneStn → LaneStn) : (s.modLaneStn x n f).sess = s.sess := by cases x <;> rfl
@[simp] theorem modLaneStn_pool (s : State) (x : Lane) (n : Nat) (f : LaneStn → LaneStn) : (s.modLaneStn x n f).pool = s.pool := by cases x <;> rfl
@[simp] theorem modLaneStn_poolFull (s : State) (x : Lane) (n : Nat) (f : LaneStn → LaneStn) : (s.modLaneStn x n f).poolFull = s.poolFull := by cases x <;> rfl
@[simp] theorem modLaneStn_ops (s : State) (x : Lane) (n : Nat) (f : LaneStn → LaneStn) : (s.modLaneStn x n f).ops = s.ops := by cases x <;> rfl
@[simp] theorem modLaneStn_nextOp (s : State) (x : Lane) (n : Nat) (f : LaneStn → LaneStn) : (s.modLaneStn x n f).nextOp = s.nextOp := by cases x <;> rfl
@[simp] theorem modLaneStn_accNo (s : State) (x : Lane) (n : Nat) (f : LaneStn → LaneStn) : (s.modLaneStn x n f).accNo = s.accNo := by cases x <;> rfl
@[simp] theorem modLaneStn_crossings (s : State) (x : Lane) (n : Nat) (f : LaneStn → LaneStn) : (s.modLaneStn x n f).crossings = s.crossings := by cases x <;> rfl
@[simp] theorem modLaneStn_cfg (s : State) (x : Lane) (n : Nat) (f : LaneStn → LaneStn) : (s.modLaneStn x n f).cfg = s.cfg := by cases x <;> rfl
@[simp] theorem modLaneStn_st (s : State) (x : Lane) (n : Nat) (f : LaneStn → LaneStn) : (s.modLaneStn x n f).st = s.st := by cases x <;> rfl
@[simp] theorem modLaneStn_sl (s : State) (x : Lane) (n : Nat) (f : LaneStn → LaneStn) : (s.modLaneStn x n f).sl = s.sl := by cases x <;> rfl
@[simp] theorem modLaneStn_line (s : State) (x : Lane) (n : Nat) (f : LaneStn → LaneStn) : (s.modLaneStn x n f).line = s.line := by cases x <;> rfl
@[simp] theorem modLaneStn_yar (s : State) (x : Lane) (n : Nat) (f : LaneStn → LaneStn) : (s.modLaneStn x n f).yar = s.yar := by cases x <;> rfl
@[simp] theorem modLaneStn_bus (s : State) (x : Lane) (n : Nat) (f : LaneStn → LaneStn) : (s.modLaneStn x n f).bus = s.bus := by cases x <;> rfl
@[simp] theorem modLaneStn_reports (s : State) (x : Lane) (n : Nat) (f : LaneStn → LaneStn) : (s.modLaneStn x n f).reports = s.reports := by cases x <;> rfl
@[simp] theorem modLaneStn_net (s : State) (x : Lane) (n : Nat) (f : LaneStn → LaneStn) : (s.modLaneStn x n f).net = s.net := by cases x <;> rfl
@[simp] theorem modLaneStn_twin (s : State) (x : Lane) (n : Nat) (f : LaneStn → LaneStn) : (s.modLaneStn x n f).twin = s.twin := by cases x <;> rfl
@[simp] theorem modLaneStn_slp (s : State) (x : Lane) (n : Nat) (f : LaneStn → LaneStn) : (s.modLaneStn x n f).slp = s.slp := by cases x <;> rfl
@[simp] theorem modLaneStn_jrn (s : State) (x : Lane) (n : Nat) (f : LaneStn → LaneStn) : (s.modLaneStn x n f).jrn = s.jrn := by cases x <;> rfl
@[simp] theorem modLaneStn_store (s : State) (x : Lane) (n : Nat) (f : LaneStn → LaneStn) : (s.modLaneStn x n f).store = s.store := by cases x <;> rfl
@[simp] theorem modLaneStn_free (s : State) (x : Lane) (n : Nat) (f : LaneStn → LaneStn) : (s.modLaneStn x n f).free = s.free := by cases x <;> rfl
@[simp] theorem modLaneStn_inbuf (s : State) (x : Lane) (n : Nat) (f : LaneStn → LaneStn) : (s.modLaneStn x n f).inbuf = s.inbuf := by cases x <;> rfl
@[simp] theorem modLaneStn_left (s : State) (x : Lane) (n : Nat) (f : LaneStn → LaneStn) : (s.modLaneStn x n f).left = s.left := by cases x <;> rfl
@[simp] theorem modLaneStn_returns (s : State) (x : Lane) (n : Nat) (f : LaneStn → LaneStn) : (s.modLaneStn x n f).returns = s.returns := by cases x <;> rfl
@[simp] theorem modLaneStn_pending (s : State) (x : Lane) (n : Nat) (f : LaneStn → LaneStn) : (s.modLaneStn x n f).pending = s.pending := by cases x <;> rfl

/-! ## modLaneSlc -/

@[simp] theorem modLaneSlc_fit (s : State) (x : Lane) (p : Nat) (f : LaneSlc → LaneSlc) : (s.modLaneSlc x p f).fit = s.fit := by cases x <;> rfl
@[simp] theorem modLaneSlc_clk (s : State) (x : Lane) (p : Nat) (f : LaneSlc → LaneSlc) : (s.modLaneSlc x p f).clk = s.clk := by cases x <;> rfl
@[simp] theorem modLaneSlc_head (s : State) (x : Lane) (p : Nat) (f : LaneSlc → LaneSlc) : (s.modLaneSlc x p f).head = s.head := by cases x <;> rfl
@[simp] theorem modLaneSlc_sup (s : State) (x : Lane) (p : Nat) (f : LaneSlc → LaneSlc) : (s.modLaneSlc x p f).sup = s.sup := by cases x <;> rfl
@[simp] theorem modLaneSlc_sess (s : State) (x : Lane) (p : Nat) (f : LaneSlc → LaneSlc) : (s.modLaneSlc x p f).sess = s.sess := by cases x <;> rfl
@[simp] theorem modLaneSlc_pool (s : State) (x : Lane) (p : Nat) (f : LaneSlc → LaneSlc) : (s.modLaneSlc x p f).pool = s.pool := by cases x <;> rfl
@[simp] theorem modLaneSlc_poolFull (s : State) (x : Lane) (p : Nat) (f : LaneSlc → LaneSlc) : (s.modLaneSlc x p f).poolFull = s.poolFull := by cases x <;> rfl
@[simp] theorem modLaneSlc_ops (s : State) (x : Lane) (p : Nat) (f : LaneSlc → LaneSlc) : (s.modLaneSlc x p f).ops = s.ops := by cases x <;> rfl
@[simp] theorem modLaneSlc_nextOp (s : State) (x : Lane) (p : Nat) (f : LaneSlc → LaneSlc) : (s.modLaneSlc x p f).nextOp = s.nextOp := by cases x <;> rfl
@[simp] theorem modLaneSlc_accNo (s : State) (x : Lane) (p : Nat) (f : LaneSlc → LaneSlc) : (s.modLaneSlc x p f).accNo = s.accNo := by cases x <;> rfl
@[simp] theorem modLaneSlc_crossings (s : State) (x : Lane) (p : Nat) (f : LaneSlc → LaneSlc) : (s.modLaneSlc x p f).crossings = s.crossings := by cases x <;> rfl
@[simp] theorem modLaneSlc_cfg (s : State) (x : Lane) (p : Nat) (f : LaneSlc → LaneSlc) : (s.modLaneSlc x p f).cfg = s.cfg := by cases x <;> rfl
@[simp] theorem modLaneSlc_st (s : State) (x : Lane) (p : Nat) (f : LaneSlc → LaneSlc) : (s.modLaneSlc x p f).st = s.st := by cases x <;> rfl
@[simp] theorem modLaneSlc_sl (s : State) (x : Lane) (p : Nat) (f : LaneSlc → LaneSlc) : (s.modLaneSlc x p f).sl = s.sl := by cases x <;> rfl
@[simp] theorem modLaneSlc_line (s : State) (x : Lane) (p : Nat) (f : LaneSlc → LaneSlc) : (s.modLaneSlc x p f).line = s.line := by cases x <;> rfl
@[simp] theorem modLaneSlc_yar (s : State) (x : Lane) (p : Nat) (f : LaneSlc → LaneSlc) : (s.modLaneSlc x p f).yar = s.yar := by cases x <;> rfl
@[simp] theorem modLaneSlc_bus (s : State) (x : Lane) (p : Nat) (f : LaneSlc → LaneSlc) : (s.modLaneSlc x p f).bus = s.bus := by cases x <;> rfl
@[simp] theorem modLaneSlc_reports (s : State) (x : Lane) (p : Nat) (f : LaneSlc → LaneSlc) : (s.modLaneSlc x p f).reports = s.reports := by cases x <;> rfl
@[simp] theorem modLaneSlc_net (s : State) (x : Lane) (p : Nat) (f : LaneSlc → LaneSlc) : (s.modLaneSlc x p f).net = s.net := by cases x <;> rfl
@[simp] theorem modLaneSlc_twin (s : State) (x : Lane) (p : Nat) (f : LaneSlc → LaneSlc) : (s.modLaneSlc x p f).twin = s.twin := by cases x <;> rfl
@[simp] theorem modLaneSlc_slp (s : State) (x : Lane) (p : Nat) (f : LaneSlc → LaneSlc) : (s.modLaneSlc x p f).slp = s.slp := by cases x <;> rfl
@[simp] theorem modLaneSlc_jrn (s : State) (x : Lane) (p : Nat) (f : LaneSlc → LaneSlc) : (s.modLaneSlc x p f).jrn = s.jrn := by cases x <;> rfl
@[simp] theorem modLaneSlc_store (s : State) (x : Lane) (p : Nat) (f : LaneSlc → LaneSlc) : (s.modLaneSlc x p f).store = s.store := by cases x <;> rfl
@[simp] theorem modLaneSlc_free (s : State) (x : Lane) (p : Nat) (f : LaneSlc → LaneSlc) : (s.modLaneSlc x p f).free = s.free := by cases x <;> rfl
@[simp] theorem modLaneSlc_inbuf (s : State) (x : Lane) (p : Nat) (f : LaneSlc → LaneSlc) : (s.modLaneSlc x p f).inbuf = s.inbuf := by cases x <;> rfl
@[simp] theorem modLaneSlc_left (s : State) (x : Lane) (p : Nat) (f : LaneSlc → LaneSlc) : (s.modLaneSlc x p f).left = s.left := by cases x <;> rfl
@[simp] theorem modLaneSlc_returns (s : State) (x : Lane) (p : Nat) (f : LaneSlc → LaneSlc) : (s.modLaneSlc x p f).returns = s.returns := by cases x <;> rfl
@[simp] theorem modLaneSlc_pending (s : State) (x : Lane) (p : Nat) (f : LaneSlc → LaneSlc) : (s.modLaneSlc x p f).pending = s.pending := by cases x <;> rfl

/-! ## modLaneSw -/

@[simp] theorem modLaneSw_fit (s : State) (x : Lane) (n : Nat) (w : Sw) (f : LaneLamp → LaneLamp) : (s.modLaneSw x n w f).fit = s.fit := by cases x <;> rfl
@[simp] theorem modLaneSw_clk (s : State) (x : Lane) (n : Nat) (w : Sw) (f : LaneLamp → LaneLamp) : (s.modLaneSw x n w f).clk = s.clk := by cases x <;> rfl
@[simp] theorem modLaneSw_head (s : State) (x : Lane) (n : Nat) (w : Sw) (f : LaneLamp → LaneLamp) : (s.modLaneSw x n w f).head = s.head := by cases x <;> rfl
@[simp] theorem modLaneSw_sup (s : State) (x : Lane) (n : Nat) (w : Sw) (f : LaneLamp → LaneLamp) : (s.modLaneSw x n w f).sup = s.sup := by cases x <;> rfl
@[simp] theorem modLaneSw_sess (s : State) (x : Lane) (n : Nat) (w : Sw) (f : LaneLamp → LaneLamp) : (s.modLaneSw x n w f).sess = s.sess := by cases x <;> rfl
@[simp] theorem modLaneSw_pool (s : State) (x : Lane) (n : Nat) (w : Sw) (f : LaneLamp → LaneLamp) : (s.modLaneSw x n w f).pool = s.pool := by cases x <;> rfl
@[simp] theorem modLaneSw_poolFull (s : State) (x : Lane) (n : Nat) (w : Sw) (f : LaneLamp → LaneLamp) : (s.modLaneSw x n w f).poolFull = s.poolFull := by cases x <;> rfl
@[simp] theorem modLaneSw_ops (s : State) (x : Lane) (n : Nat) (w : Sw) (f : LaneLamp → LaneLamp) : (s.modLaneSw x n w f).ops = s.ops := by cases x <;> rfl
@[simp] theorem modLaneSw_nextOp (s : State) (x : Lane) (n : Nat) (w : Sw) (f : LaneLamp → LaneLamp) : (s.modLaneSw x n w f).nextOp = s.nextOp := by cases x <;> rfl
@[simp] theorem modLaneSw_accNo (s : State) (x : Lane) (n : Nat) (w : Sw) (f : LaneLamp → LaneLamp) : (s.modLaneSw x n w f).accNo = s.accNo := by cases x <;> rfl
@[simp] theorem modLaneSw_crossings (s : State) (x : Lane) (n : Nat) (w : Sw) (f : LaneLamp → LaneLamp) : (s.modLaneSw x n w f).crossings = s.crossings := by cases x <;> rfl
@[simp] theorem modLaneSw_cfg (s : State) (x : Lane) (n : Nat) (w : Sw) (f : LaneLamp → LaneLamp) : (s.modLaneSw x n w f).cfg = s.cfg := by cases x <;> rfl
@[simp] theorem modLaneSw_st (s : State) (x : Lane) (n : Nat) (w : Sw) (f : LaneLamp → LaneLamp) : (s.modLaneSw x n w f).st = s.st := by cases x <;> rfl
@[simp] theorem modLaneSw_sl (s : State) (x : Lane) (n : Nat) (w : Sw) (f : LaneLamp → LaneLamp) : (s.modLaneSw x n w f).sl = s.sl := by cases x <;> rfl
@[simp] theorem modLaneSw_line (s : State) (x : Lane) (n : Nat) (w : Sw) (f : LaneLamp → LaneLamp) : (s.modLaneSw x n w f).line = s.line := by cases x <;> rfl
@[simp] theorem modLaneSw_yar (s : State) (x : Lane) (n : Nat) (w : Sw) (f : LaneLamp → LaneLamp) : (s.modLaneSw x n w f).yar = s.yar := by cases x <;> rfl
@[simp] theorem modLaneSw_bus (s : State) (x : Lane) (n : Nat) (w : Sw) (f : LaneLamp → LaneLamp) : (s.modLaneSw x n w f).bus = s.bus := by cases x <;> rfl
@[simp] theorem modLaneSw_reports (s : State) (x : Lane) (n : Nat) (w : Sw) (f : LaneLamp → LaneLamp) : (s.modLaneSw x n w f).reports = s.reports := by cases x <;> rfl
@[simp] theorem modLaneSw_net (s : State) (x : Lane) (n : Nat) (w : Sw) (f : LaneLamp → LaneLamp) : (s.modLaneSw x n w f).net = s.net := by cases x <;> rfl
@[simp] theorem modLaneSw_twin (s : State) (x : Lane) (n : Nat) (w : Sw) (f : LaneLamp → LaneLamp) : (s.modLaneSw x n w f).twin = s.twin := by cases x <;> rfl
@[simp] theorem modLaneSw_slp (s : State) (x : Lane) (n : Nat) (w : Sw) (f : LaneLamp → LaneLamp) : (s.modLaneSw x n w f).slp = s.slp := by cases x <;> rfl
@[simp] theorem modLaneSw_jrn (s : State) (x : Lane) (n : Nat) (w : Sw) (f : LaneLamp → LaneLamp) : (s.modLaneSw x n w f).jrn = s.jrn := by cases x <;> rfl
@[simp] theorem modLaneSw_store (s : State) (x : Lane) (n : Nat) (w : Sw) (f : LaneLamp → LaneLamp) : (s.modLaneSw x n w f).store = s.store := by cases x <;> rfl
@[simp] theorem modLaneSw_free (s : State) (x : Lane) (n : Nat) (w : Sw) (f : LaneLamp → LaneLamp) : (s.modLaneSw x n w f).free = s.free := by cases x <;> rfl
@[simp] theorem modLaneSw_inbuf (s : State) (x : Lane) (n : Nat) (w : Sw) (f : LaneLamp → LaneLamp) : (s.modLaneSw x n w f).inbuf = s.inbuf := by cases x <;> rfl
@[simp] theorem modLaneSw_left (s : State) (x : Lane) (n : Nat) (w : Sw) (f : LaneLamp → LaneLamp) : (s.modLaneSw x n w f).left = s.left := by cases x <;> rfl
@[simp] theorem modLaneSw_returns (s : State) (x : Lane) (n : Nat) (w : Sw) (f : LaneLamp → LaneLamp) : (s.modLaneSw x n w f).returns = s.returns := by cases x <;> rfl
@[simp] theorem modLaneSw_pending (s : State) (x : Lane) (n : Nat) (w : Sw) (f : LaneLamp → LaneLamp) : (s.modLaneSw x n w f).pending = s.pending := by cases x <;> rfl

/-! ## modBuf -/

@[simp] theorem modBuf_fit (s : State) (n : Nat) (f : FrameBuf → FrameBuf) : (s.modBuf n f).fit = s.fit := rfl
@[simp] theorem modBuf_clk (s : State) (n : Nat) (f : FrameBuf → FrameBuf) : (s.modBuf n f).clk = s.clk := rfl
@[simp] theorem modBuf_head (s : State) (n : Nat) (f : FrameBuf → FrameBuf) : (s.modBuf n f).head = s.head := rfl
@[simp] theorem modBuf_sup (s : State) (n : Nat) (f : FrameBuf → FrameBuf) : (s.modBuf n f).sup = s.sup := rfl
@[simp] theorem modBuf_sess (s : State) (n : Nat) (f : FrameBuf → FrameBuf) : (s.modBuf n f).sess = s.sess := rfl
@[simp] theorem modBuf_pool (s : State) (n : Nat) (f : FrameBuf → FrameBuf) : (s.modBuf n f).pool = s.pool := rfl
@[simp] theorem modBuf_poolFull (s : State) (n : Nat) (f : FrameBuf → FrameBuf) : (s.modBuf n f).poolFull = s.poolFull := rfl
@[simp] theorem modBuf_ops (s : State) (n : Nat) (f : FrameBuf → FrameBuf) : (s.modBuf n f).ops = s.ops := rfl
@[simp] theorem modBuf_nextOp (s : State) (n : Nat) (f : FrameBuf → FrameBuf) : (s.modBuf n f).nextOp = s.nextOp := rfl
@[simp] theorem modBuf_accNo (s : State) (n : Nat) (f : FrameBuf → FrameBuf) : (s.modBuf n f).accNo = s.accNo := rfl
@[simp] theorem modBuf_crossings (s : State) (n : Nat) (f : FrameBuf → FrameBuf) : (s.modBuf n f).crossings = s.crossings := rfl
@[simp] theorem modBuf_cfg (s : State) (n : Nat) (f : FrameBuf → FrameBuf) : (s.modBuf n f).cfg = s.cfg := rfl
@[simp] theorem modBuf_sl (s : State) (n : Nat) (f : FrameBuf → FrameBuf) : (s.modBuf n f).sl = s.sl := rfl
@[simp] theorem modBuf_line (s : State) (n : Nat) (f : FrameBuf → FrameBuf) : (s.modBuf n f).line = s.line := rfl
@[simp] theorem modBuf_camp (s : State) (n : Nat) (f : FrameBuf → FrameBuf) : (s.modBuf n f).camp = s.camp := rfl
@[simp] theorem modBuf_yar (s : State) (n : Nat) (f : FrameBuf → FrameBuf) : (s.modBuf n f).yar = s.yar := rfl
@[simp] theorem modBuf_bus (s : State) (n : Nat) (f : FrameBuf → FrameBuf) : (s.modBuf n f).bus = s.bus := rfl
@[simp] theorem modBuf_reports (s : State) (n : Nat) (f : FrameBuf → FrameBuf) : (s.modBuf n f).reports = s.reports := rfl
@[simp] theorem modBuf_net (s : State) (n : Nat) (f : FrameBuf → FrameBuf) : (s.modBuf n f).net = s.net := rfl
@[simp] theorem modBuf_twin (s : State) (n : Nat) (f : FrameBuf → FrameBuf) : (s.modBuf n f).twin = s.twin := rfl
@[simp] theorem modBuf_slp (s : State) (n : Nat) (f : FrameBuf → FrameBuf) : (s.modBuf n f).slp = s.slp := rfl
@[simp] theorem modBuf_jrn (s : State) (n : Nat) (f : FrameBuf → FrameBuf) : (s.modBuf n f).jrn = s.jrn := rfl
@[simp] theorem modBuf_store (s : State) (n : Nat) (f : FrameBuf → FrameBuf) : (s.modBuf n f).store = s.store := rfl
@[simp] theorem modBuf_free (s : State) (n : Nat) (f : FrameBuf → FrameBuf) : (s.modBuf n f).free = s.free := rfl
@[simp] theorem modBuf_inbuf (s : State) (n : Nat) (f : FrameBuf → FrameBuf) : (s.modBuf n f).inbuf = s.inbuf := rfl
@[simp] theorem modBuf_left (s : State) (n : Nat) (f : FrameBuf → FrameBuf) : (s.modBuf n f).left = s.left := rfl
@[simp] theorem modBuf_returns (s : State) (n : Nat) (f : FrameBuf → FrameBuf) : (s.modBuf n f).returns = s.returns := rfl
@[simp] theorem modBuf_pending (s : State) (n : Nat) (f : FrameBuf → FrameBuf) : (s.modBuf n f).pending = s.pending := rfl

/-! ## modPath -/

@[simp] theorem modPath_fit (s : State) (x : Path) (f : PathSt → PathSt) : (s.modPath x f).fit = s.fit := by cases x <;> rfl
@[simp] theorem modPath_clk (s : State) (x : Path) (f : PathSt → PathSt) : (s.modPath x f).clk = s.clk := by cases x <;> rfl
@[simp] theorem modPath_head (s : State) (x : Path) (f : PathSt → PathSt) : (s.modPath x f).head = s.head := by cases x <;> rfl
@[simp] theorem modPath_sup (s : State) (x : Path) (f : PathSt → PathSt) : (s.modPath x f).sup = s.sup := by cases x <;> rfl
@[simp] theorem modPath_sess (s : State) (x : Path) (f : PathSt → PathSt) : (s.modPath x f).sess = s.sess := by cases x <;> rfl
@[simp] theorem modPath_pool (s : State) (x : Path) (f : PathSt → PathSt) : (s.modPath x f).pool = s.pool := by cases x <;> rfl
@[simp] theorem modPath_poolFull (s : State) (x : Path) (f : PathSt → PathSt) : (s.modPath x f).poolFull = s.poolFull := by cases x <;> rfl
@[simp] theorem modPath_ops (s : State) (x : Path) (f : PathSt → PathSt) : (s.modPath x f).ops = s.ops := by cases x <;> rfl
@[simp] theorem modPath_nextOp (s : State) (x : Path) (f : PathSt → PathSt) : (s.modPath x f).nextOp = s.nextOp := by cases x <;> rfl
@[simp] theorem modPath_accNo (s : State) (x : Path) (f : PathSt → PathSt) : (s.modPath x f).accNo = s.accNo := by cases x <;> rfl
@[simp] theorem modPath_crossings (s : State) (x : Path) (f : PathSt → PathSt) : (s.modPath x f).crossings = s.crossings := by cases x <;> rfl
@[simp] theorem modPath_cfg (s : State) (x : Path) (f : PathSt → PathSt) : (s.modPath x f).cfg = s.cfg := by cases x <;> rfl
@[simp] theorem modPath_st (s : State) (x : Path) (f : PathSt → PathSt) : (s.modPath x f).st = s.st := by cases x <;> rfl
@[simp] theorem modPath_sl (s : State) (x : Path) (f : PathSt → PathSt) : (s.modPath x f).sl = s.sl := by cases x <;> rfl
@[simp] theorem modPath_line (s : State) (x : Path) (f : PathSt → PathSt) : (s.modPath x f).line = s.line := by cases x <;> rfl
@[simp] theorem modPath_camp (s : State) (x : Path) (f : PathSt → PathSt) : (s.modPath x f).camp = s.camp := by cases x <;> rfl
@[simp] theorem modPath_yar (s : State) (x : Path) (f : PathSt → PathSt) : (s.modPath x f).yar = s.yar := by cases x <;> rfl
@[simp] theorem modPath_bus (s : State) (x : Path) (f : PathSt → PathSt) : (s.modPath x f).bus = s.bus := by cases x <;> rfl
@[simp] theorem modPath_reports (s : State) (x : Path) (f : PathSt → PathSt) : (s.modPath x f).reports = s.reports := by cases x <;> rfl
@[simp] theorem modPath_twin (s : State) (x : Path) (f : PathSt → PathSt) : (s.modPath x f).twin = s.twin := by cases x <;> rfl
@[simp] theorem modPath_slp (s : State) (x : Path) (f : PathSt → PathSt) : (s.modPath x f).slp = s.slp := by cases x <;> rfl
@[simp] theorem modPath_jrn (s : State) (x : Path) (f : PathSt → PathSt) : (s.modPath x f).jrn = s.jrn := by cases x <;> rfl
@[simp] theorem modPath_store (s : State) (x : Path) (f : PathSt → PathSt) : (s.modPath x f).store = s.store := by cases x <;> rfl
@[simp] theorem modPath_free (s : State) (x : Path) (f : PathSt → PathSt) : (s.modPath x f).free = s.free := by cases x <;> rfl
@[simp] theorem modPath_inbuf (s : State) (x : Path) (f : PathSt → PathSt) : (s.modPath x f).inbuf = s.inbuf := by cases x <;> rfl
@[simp] theorem modPath_left (s : State) (x : Path) (f : PathSt → PathSt) : (s.modPath x f).left = s.left := by cases x <;> rfl
@[simp] theorem modPath_returns (s : State) (x : Path) (f : PathSt → PathSt) : (s.modPath x f).returns = s.returns := by cases x <;> rfl
@[simp] theorem modPath_pending (s : State) (x : Path) (f : PathSt → PathSt) : (s.modPath x f).pending = s.pending := by cases x <;> rfl

@[simp] theorem modCamp_camp (s : State) (f : Campion → Campion) : (s.modCamp f).camp = f s.camp := rfl
@[simp] theorem modNet_net (s : State) (f : Net → Net) : (s.modNet f).net = f s.net := rfl
@[simp] theorem modTwin_twin (s : State) (f : Twin → Twin) : (s.modTwin f).twin = f s.twin := rfl
@[simp] theorem modYar_yar (s : State) (f : Yarrow → Yarrow) : (s.modYar f).yar = f s.yar := rfl
@[simp] theorem modLine_line (s : State) (f : LineTb → LineTb) : (s.modLine f).line = f s.line := rfl
@[simp] theorem modSup_sup (s : State) (f : Super → Super) : (s.modSup f).sup = f s.sup := rfl
@[simp] theorem modHead_head (s : State) (f : Head → Head) : (s.modHead f).head = f s.head := rfl
@[simp] theorem modSlp_slp (s : State) (f : SleepSt → SleepSt) : (s.modSlp f).slp = f s.slp := rfl
@[simp] theorem modJrn_jrn (s : State) (f : Journal → Journal) : (s.modJrn f).jrn = f s.jrn := rfl
@[simp] theorem modStore_store (s : State) (f : Stores → Stores) : (s.modStore f).store = f s.store := rfl
@[simp] theorem modCfg_cfg (s : State) (f : Cfg → Cfg) : (s.modCfg f).cfg = f s.cfg := rfl
@[simp] theorem modHead_now (s : State) (f : Head → Head) : (s.modHead f).now = s.now := rfl

end Sys2Proof.Machine
end

