-- ==== Sys2Proof/Laws/Tables.lean ====
section
/-! SUPPORT. Reading back what a table, and a part kept in one, was given. -/

namespace Sys2Proof.Machine

open Sys2Proof

theorem tget_tset_same {α : Type} (d : α) (t : Tbl α) (n : Nat) (a : α) : tget d (tset t n a) n = a := by
  induction t with
  | nil => simp [tset, tget]
  | cons e t ih =>
    obtain ⟨k, v⟩ := e
    simp only [tset]
    split
    · subst_vars; simp [tget]
    · split
      · simp [tget]
      · have : k ≠ n := by omega
        simp [tget, this, ih]

theorem tget_tset_other {α : Type} (d : α) (t : Tbl α) (n m : Nat) (a : α) (h : m ≠ n) : tget d (tset t n a) m = tget d t m := by
  induction t with
  | nil => simp [tset, tget, Ne.symm h]
  | cons e t ih =>
    obtain ⟨k, v⟩ := e
    simp only [tset]
    split
    · subst_vars; simp [tget, Ne.symm h]
    · split
      · simp [tget, Ne.symm h]
      · by_cases hk : k = m
        · simp [tget, hk]
        · simp [tget, hk, ih]

@[simp] theorem tget_tmod {α : Type} (d : α) (t : Tbl α) (n m : Nat) (f : α → α) :
    tget d (tmod d t n f) m = if m = n then f (tget d t n) else tget d t m := by
  by_cases h : m = n
  · subst h; simp [tmod, tget_tset_same]
  · simp [tmod, h, tget_tset_other]

theorem tset_tset {α : Type} (t : Tbl α) (n : Nat) (a b : α) : tset (tset t n a) n b = tset t n b := by
  induction t with
  | nil => simp [tset]
  | cons e t ih =>
    obtain ⟨k, v⟩ := e
    by_cases h1 : n = k
    · simp [tset, h1]
    · by_cases h2 : n < k
      · simp [tset, h1, h2]
      · simp [tset, h1, h2, ih]

theorem tmod_tmod {α : Type} (d : α) (t : Tbl α) (n : Nat) (f g : α → α) : tmod d (tmod d t n f) n g = tmod d t n (g ∘ f) := by
  simp [tmod, tset_tset, tget_tset_same]

/-! ## Parts read back -/

@[simp] theorem ses_modSes (s : State) (n m : Nat) (f : Session → Session) :
    (s.modSes n f).ses m = if m = n then f (s.ses n) else s.ses m := by simp [State.ses, State.modSes]
@[simp] theorem ent_modEnt (s : State) (n m : Nat) (f : PoolEntry → PoolEntry) :
    (s.modEnt n f).ent m = if m = n then f (s.ent n) else s.ent m := by simp [State.ent, State.modEnt]
@[simp] theorem stn_modStn (s : State) (n m : Nat) (f : Station → Station) :
    (s.modStn n f).stn m = if m = n then f (s.stn n) else s.stn m := by simp [State.stn, State.modStn]
@[simp] theorem slc_modSlc (s : State) (n m : Nat) (f : Slice → Slice) :
    (s.modSlc n f).slc m = if m = n then f (s.slc n) else s.slc m := by simp [State.slc, State.modSlc]
@[simp] theorem busOf_modBus (s : State) (n m : Nat) (f : BusSt → BusSt) :
    (s.modBus n f).busOf m = if m = n then f (s.busOf n) else s.busOf m := by simp [State.busOf, State.modBus]
@[simp] theorem peer_modPeer (s : State) (n m : Nat) (f : Peer → Peer) :
    (s.modPeer n f).peer m = if m = n then f (s.peer n) else s.peer m := by simp [State.peer, State.modPeer, State.modNet]
@[simp] theorem ax_modAx (s : State) (n m : Nat) (f : Axis → Axis) :
    (s.modAx n f).ax m = if m = n then f (s.ax n) else s.ax m := by
  simp only [State.ax, State.modAx, stn_modStn]; split <;> simp_all
@[simp] theorem stn_modAx (s : State) (n m : Nat) (f : Axis → Axis) :
    (s.modAx n f).stn m = if m = n then { s.stn n with axis := f (s.stn n).axis } else s.stn m := by simp [State.modAx]
@[simp] theorem stn_modSw (s : State) (n m : Nat) (w : Sw) (f : Switch → Switch) :
    (s.modSw n w f).stn m = if m = n then (s.stn n).modSw w f else s.stn m := by simp [State.modSw]
@[simp] theorem station_sw_modSw (t : Station) (w v : Sw) (f : Switch → Switch) :
    (t.modSw w f).sw v = if v = w then f (t.sw w) else t.sw v := by cases w <;> cases v <;> simp [Station.modSw, Station.sw]
@[simp] theorem sw_modSw (s : State) (n m : Nat) (w v : Sw) (f : Switch → Switch) :
    (s.modSw n w f).sw m v = if m = n ∧ v = w then f (s.sw n w) else s.sw m v := by
  simp only [State.sw, stn_modSw]
  by_cases h : m = n
  · subst h; by_cases hv : v = w <;> simp [hv]
  · simp [h]
@[simp] theorem inp_modInp (s : State) (n m k j : Nat) (f : Input → Input) :
    ((s.modInp n k f).stn m).inp j = if m = n ∧ j = k then f ((s.stn n).inp k) else (s.stn m).inp j := by
  simp only [State.modInp, stn_modStn, Station.inp]
  by_cases h : m = n
  · subst h; by_cases hv : j = k <;> simp [hv]
  · simp [h]
@[simp] theorem outp_modOut (s : State) (n m : Nat) (b c : Bool) (f : Output → Output) :
    ((s.modOut n b f).stn m).outp c = if m = n ∧ c = b then f ((s.stn n).outp b) else (s.stn m).outp c := by
  simp only [State.modOut, stn_modStn, Station.outp]
  by_cases h : m = n
  · subst h; cases b <;> cases c <;> simp
  · simp [h]
@[simp] theorem lane_modLane (s : State) (x y : Lane) (f : LaneSt → LaneSt) :
    (s.modLane x f).lane y = if y = x then f (s.lane x) else s.lane y := by cases x <;> cases y <;> simp [State.lane, State.modLane]
@[simp] theorem path_modPath (s : State) (x y : Path) (f : PathSt → PathSt) :
    (s.modPath x f).path y = if y = x then f (s.path x) else s.path y := by cases x <;> cases y <;> simp [State.path, State.modPath]
@[simp] theorem eng_worked (s : State) (e d : Engine) (k : Nat) :
    (s.worked e k).eng d = if d = e then { s.eng e with ctr := (s.eng e).ctr + BitVec.ofNat 32 (if s.engDown e then 0 else k) } else s.eng d := by
  simp only [State.worked, State.modEng, State.modHead, State.eng, tget_tmod]
  cases e <;> cases d <;> simp [engCode]

end Sys2Proof.Machine
end

