-- ==== Sys2Proof/Laws/Kept.lean ====
section
/-! SUPPORT. Frames: how they compose, and the frame of each operation that replies, reports, records or sends. -/

namespace Sys2Proof.Machine

open Sys2Proof

/-! ## How frames compose -/

theorem samePart_trans {s t u : State} {p : Part} (h : samePart s t p) (g : samePart t u p) : samePart s u p := by
  cases p <;> simp_all [samePart]
theorem KeptBut.refl (l : List Part) (s : State) : KeptBut l s s := by intro p _; cases p <;> simp [samePart]
theorem KeptBut.trans {l : List Part} {s t u : State} (h : KeptBut l s t) (g : KeptBut l t u) : KeptBut l s u :=
  fun p hp => samePart_trans (h p hp) (g p hp)
theorem KeptBut.mono {l m : List Part} {s u : State} (h : KeptBut l s u) (hl : l ⊆ m) : KeptBut m s u :=
  fun p hp => h p fun x => hp (hl x)
theorem forEach_kept {α : Type} {l : List Part} (xs : List α) (f : α → State → State) (s : State)
    (h : ∀ a, ∀ s, KeptBut l s (f a s)) : KeptBut l s (forEach xs f s) := by
  induction xs generalizing s with
  | nil => exact KeptBut.refl l s
  | cons a xs ih => exact (h a s).trans (ih (f a s))
theorem forEach_cons {α σ : Type} (a : α) (l : List α) (f : α → σ → σ) (s : σ) : forEach (a :: l) f s = forEach l f (f a s) := rfl
@[simp] theorem forEach_nil {α σ : Type} (f : α → σ → σ) (s : σ) : forEach [] f s = s := rfl

/-! ## Updates -/

theorem modSes_kept (s : State) (n : Nat) (f : Session → Session) : KeptBut [.sess] s (s.modSes n f) := by
  intro p hp; cases p <;> simp_all [samePart]
theorem modEnt_kept (s : State) (n : Nat) (f : PoolEntry → PoolEntry) : KeptBut [.pool] s (s.modEnt n f) := by
  intro p hp; cases p <;> simp_all [samePart]
theorem modStn_kept (s : State) (n : Nat) (f : Station → Station) : KeptBut [.st] s (s.modStn n f) := by
  intro p hp; cases p <;> simp_all [samePart]
theorem modAx_kept (s : State) (n : Nat) (f : Axis → Axis) : KeptBut [.st] s (s.modAx n f) := modStn_kept s n _
theorem modSw_kept (s : State) (n : Nat) (w : Sw) (f : Switch → Switch) : KeptBut [.st] s (s.modSw n w f) := modStn_kept s n _
theorem modLamp_kept (s : State) (n : Nat) (w : Sw) (f : Lamp → Lamp) : KeptBut [.st] s (s.modLamp n w f) := modStn_kept s n _
theorem modInp_kept (s : State) (n k : Nat) (f : Input → Input) : KeptBut [.st] s (s.modInp n k f) := modStn_kept s n _
theorem modOut_kept (s : State) (n : Nat) (b : Bool) (f : Output → Output) : KeptBut [.st] s (s.modOut n b f) := modStn_kept s n _
theorem modSlc_kept (s : State) (n : Nat) (f : Slice → Slice) : KeptBut [.sl] s (s.modSlc n f) := by
  intro p hp; cases p <;> simp_all [samePart]
theorem modNet_kept (s : State) (f : Net → Net) : KeptBut [.net] s (s.modNet f) := by
  intro p hp; cases p <;> simp_all [samePart]
theorem modPath_kept (s : State) (x : Path) (f : PathSt → PathSt) : KeptBut [.net] s (s.modPath x f) := by
  intro p hp; cases p <;> simp_all [samePart]
theorem modYar_kept (s : State) (f : Yarrow → Yarrow) : KeptBut [.yar] s (s.modYar f) := by
  intro p hp; cases p <;> simp_all [samePart]
theorem modCamp_kept (s : State) (f : Campion → Campion) : KeptBut [.camp] s (s.modCamp f) := by
  intro p hp; cases p <;> simp_all [samePart]
theorem modLane_kept (s : State) (x : Lane) (f : LaneSt → LaneSt) : KeptBut [.camp] s (s.modLane x f) := by
  intro p hp; cases p <;> simp_all [samePart]
theorem modTwin_kept (s : State) (f : Twin → Twin) : KeptBut [.twin] s (s.modTwin f) := by
  intro p hp; cases p <;> simp_all [samePart]
theorem modSlp_kept (s : State) (f : SleepSt → SleepSt) : KeptBut [.slp] s (s.modSlp f) := by
  intro p hp; cases p <;> simp_all [samePart]
theorem modSup_kept (s : State) (f : Super → Super) : KeptBut [.sup] s (s.modSup f) := by
  intro p hp; cases p <;> simp_all [samePart]
theorem modLine_kept (s : State) (f : LineTb → LineTb) : KeptBut [.line] s (s.modLine f) := by
  intro p hp; cases p <;> simp_all [samePart]
theorem modJrn_kept (s : State) (f : Journal → Journal) : KeptBut [.jrn] s (s.modJrn f) := by
  intro p hp; cases p <;> simp_all [samePart]
theorem modOp_kept (s : State) (n : Nat) (f : Op → Op) : KeptBut [.ops] s (s.modOp n f) := by
  intro p hp; cases p <;> simp_all [samePart]
theorem worked_kept (s : State) (e : Engine) (k : Nat) : KeptBut [.work] s (s.worked e k) := by
  intro p hp; cases p <;> simp_all [samePart, State.worked, State.modEng, headRest]

/-! ## Replies, reports, records -/

/-- A record changes the journal alone, or the lost-records flag with it (R15, R453). -/
theorem record_kept (code : Nat) (pl : List Byte) (hd : RecHd) (s : State) : KeptBut [.jrn] s (record code pl hd s) := by
  unfold record
  dsimp only
  split
  · split
    · exact modJrn_kept s _
    · intro p hp; cases p <;> simp_all [samePart, headRest]
  · exact modJrn_kept s _
/-- A line sent changes one session, or the supervisor line (R107, R112). -/
theorem send_kept (p : Port) (r : Reply) (s : State) : KeptBut [.sess, .sup] s (send p r s) := by
  unfold send
  split
  · split
    · exact KeptBut.refl _ s
    · exact (modSes_kept s _ _).mono (by simp)
  · split
    · exact KeptBut.refl _ s
    · exact (modSup_kept s _).mono (by simp)
theorem sendAll_kept (r : Reply) (s : State) : KeptBut [.sess, .sup] s (sendAll r s) :=
  forEach_kept _ _ s fun _ s => send_kept _ r s
theorem remember_kept (p : Port) (t : Option Nat) (r : Reply) (s : State) : KeptBut [.sess, .sup] s (remember p t r s) := by
  unfold remember
  split
  · exact KeptBut.refl _ s
  · dsimp only
    split
    · exact (modSes_kept s _ _).mono (by simp)
    · exact (modSup_kept s _).mono (by simp)
theorem sayIn_kept (k : Nat) (c : Ctx) (r : Reply) (s : State) : KeptBut [.sess, .sup] s (sayIn k c r s) := by
  induction k generalizing c s with
  | zero => exact KeptBut.refl _ s
  | succ k ih =>
    unfold sayIn
    split
    · exact send_kept _ _ s
    · split
      · exact send_kept _ _ s
      · split
        · exact send_kept _ _ s
        · split
          · exact KeptBut.refl _ s
          · exact ih _ s
theorem say_kept (c : Ctx) (r : Reply) (s : State) : KeptBut [.sess, .sup] s (say c r s) := sayIn_kept 4 c r s
theorem report_kept (l : List Obj) (o : Obj) (f : List Fld) (s : State) : KeptBut [.sess, .sup] s (report l o f s) :=
  forEach_kept _ _ s fun _ s => say_kept _ _ s
theorem reportCh_kept (n : Nat) (c : Chan) (f : List Fld) (s : State) : KeptBut [.sess, .sup] s (reportCh n c f s) := report_kept _ _ f s
theorem reportPeer_kept (u : Nat) (f : List Fld) (s : State) : KeptBut [.sess, .sup] s (reportPeer u f s) :=
  forEach_kept _ _ s fun _ s => say_kept _ _ s
/-- A field-side report reaches its watchers and the journal, or waits (R237, R242). -/
theorem fieldReport_kept (n : Nat) (c : Chan) (w : List String) (code : Nat) (pl : List Byte) (b : Bool) (s : State) :
    KeptBut [.sess, .sup, .jrn, .reports] s (fieldReport n c w code pl b s) := by
  unfold fieldReport
  dsimp only
  split
  · split
    · exact (reportCh_kept n c _ s).mono (by simp)
    · exact ((reportCh_kept n c _ s).mono (by simp)).trans ((record_kept _ _ _ _).mono (by simp))
  · intro p hp; cases p <;> simp_all [samePart]
/-- The pool's records change the journal and the pool-full flag (R56). -/
theorem poolRecord_kept (s : State) : KeptBut [.pool, .jrn] s (poolRecord s) := by
  have h : ∀ c b, KeptBut [.pool, .jrn] s { record c [] { engine := 2 } s with poolFull := b } := fun c b =>
    ((record_kept c [] { engine := 2 } s).mono (by simp)).trans (by intro p hp; cases p <;> simp_all [samePart])
  unfold poolRecord
  split
  · exact h _ _
  · split
    · exact h _ _
    · exact KeptBut.refl _ s
/-- A slot taken changes the pool, its records and the event engine's counter (R51, R56). -/
theorem takeSlot_kept (n : Nat) (f : PoolEntry → PoolEntry) (s : State) : KeptBut [.pool, .work, .jrn] s (takeSlot n f s) :=
  (((modEnt_kept s n f).mono (by simp)).trans ((worked_kept _ .evt 1).mono (by simp))).trans ((poolRecord_kept _).mono (by simp))
theorem releaseSlots_kept (l : List Nat) (s : State) : KeptBut [.pool, .work, .jrn] s (releaseSlots l s) :=
  forEach_kept _ _ s fun a s => takeSlot_kept a PoolEntry.released s
theorem dropOp_kept (o : Op) (s : State) : KeptBut [.pool, .work, .ops, .jrn] s (dropOp o s) := by
  unfold dropOp
  refine KeptBut.trans ?_ ((releaseSlots_kept _ _).mono (by simp))
  intro p hp; cases p <;> simp_all [samePart]
theorem finIn_kept (k : Nat) (c : Ctx) (r : Reply) (s : State) : KeptBut [.sess, .sup, .pool, .work, .ops, .jrn] s (finIn k c r s) := by
  induction k generalizing c r s with
  | zero => exact KeptBut.refl _ s
  | succ k ih =>
    unfold finIn
    split
    · exact ((send_kept _ _ s).mono (by simp)).trans ((remember_kept _ _ _ _).mono (by simp))
    · split
      · exact KeptBut.refl _ s
      · dsimp only
        split
        · have h1 : ∀ q : State, KeptBut [.sess, .sup, .pool, .work, .ops, .jrn] s q → ∀ n f, KeptBut [.sess, .sup, .pool, .work, .ops, .jrn] s (q.modOp n f) :=
            fun q hq n f => hq.trans ((modOp_kept q n f).mono (by simp))
          have h2 := fun po r => h1 _ ((send_kept po r s).mono (by simp))
          split
          · refine KeptBut.trans ?_ (ih _ _ _)
            split
            · exact ((h2 _ _ _ _).trans ((dropOp_kept _ _).mono (by simp))).trans ((modSes_kept _ _ _).mono (by simp))
            · exact (h2 _ _ _ _).trans ((dropOp_kept _ _).mono (by simp))
          · split
            · exact (((h2 _ _ _ _).trans ((dropOp_kept _ _).mono (by simp))).trans ((modSes_kept _ _ _).mono (by simp))).trans (ih _ _ _)
            · exact h2 _ _ _ _
        · split
          · exact KeptBut.refl _ s
          · split
            · split
              · exact ((((modOp_kept s _ _).mono (by simp)).trans ((sayIn_kept k _ _ _).mono (by simp))).trans
                  ((dropOp_kept _ _).mono (by simp))).trans (ih _ _ _)
              · exact ((modOp_kept s _ _).mono (by simp)).trans ((sayIn_kept k _ _ _).mono (by simp))
            · exact ((dropOp_kept _ s).mono (by simp)).trans (ih _ _ _)
        · exact KeptBut.refl _ s
theorem fin_kept (c : Ctx) (r : Reply) (s : State) : KeptBut [.sess, .sup, .pool, .work, .ops, .jrn] s (fin c r s) := finIn_kept 4 c r s
theorem finOp_kept (id : Nat) (r : Reply) (s : State) : KeptBut [.sess, .sup, .pool, .work, .ops, .jrn] s (finOp id r s) := by
  unfold finOp
  split
  · exact KeptBut.refl _ s
  · exact ((dropOp_kept _ s).mono (by simp)).trans (fin_kept _ _ _)
theorem failOp_kept (id : Nat) (e : Err) (s : State) : KeptBut [.sess, .sup, .pool, .work, .ops, .jrn] s (failOp id e s) := finOp_kept id _ s
theorem sayOp_kept (id : Nat) (r : Reply) (s : State) : KeptBut [.sess, .sup] s (sayOp id r s) := by
  unfold sayOp
  split
  · exact KeptBut.refl _ s
  · exact say_kept _ _ s
theorem cutOp_kept (id : Nat) (e : Err) (s : State) : KeptBut [.sess, .sup, .pool, .work, .ops, .jrn] s (cutOp id e s) := by
  unfold cutOp
  split
  · exact KeptBut.refl _ s
  · split
    · exact ((dropOp_kept _ s).mono (by simp)).trans (fin_kept _ _ _)
    · exact (dropOp_kept _ s).mono (by simp)
/-- A frame handed to the ports changes the network engine's data and its counter (R361, R364, R414). -/
theorem transmit_kept (v : Svc) (d : Option Nat) (b : List Byte) (s : State) (x : Option BankSet) :
    KeptBut [.net, .work] s (transmit v d b s x) := by
  unfold transmit
  exact ((modNet_kept s _).mono (by simp)).trans ((worked_kept _ _ _).mono (by simp))
theorem transmitOn_kept (p : Path) (v : Svc) (d : Option Nat) (b : List Byte) (s : State) : KeptBut [.net, .work] s (transmitOn p v d b s) := by
  unfold transmitOn
  exact (((modNet_kept s _).mono (by simp)).trans ((modPath_kept _ _ _).mono (by simp))).trans ((worked_kept _ _ _).mono (by simp))

end Sys2Proof.Machine
end

