-- ==== Sys2Proof/Laws/Line.lean ====
section
/-! SUPPORT. A taken line runs its verb in the state the line leaves; what a line's reading touches; where its replies go. -/

namespace Sys2Proof.Machine

open Sys2Proof

/-- A session's line is seen to end in that session's state before its tests. -/
theorem session_entry (n : Nat) (s : State) (b : Option Nat) (h : (s.ses n).heldBack.isEmpty = true) :
    ((s.modSes n fun x => { x with lastLine := s.now }).worked .int).modSes n
      (fun x => { x with heldBack := if x.heldBack.isEmpty then [] else x.heldBack ++ [.line b] })
      = (s.modSes n fun x => { x with lastLine := s.now }).worked .int := by
  have hb : (tget {} s.sess n).heldBack = [] := by simpa [State.ses] using h
  have e : tmod {} (tmod {} s.sess n fun x => { x with lastLine := s.now }) n
      (fun x => { x with heldBack := if x.heldBack.isEmpty then [] else x.heldBack ++ [.line b] })
      = tmod {} s.sess n fun x => { x with lastLine := s.now } := by
    rw [tmod_tmod]
    unfold tmod
    generalize hx : tget {} s.sess n = x at hb
    cases x
    simp only at hb
    subst hb
    rfl
  unfold State.worked State.modEng State.modHead State.modSes
  exact congrArg (fun t => ({ s with sess := t, head := { s.head with engines := tmod {} s.head.engines (engCode .int) fun x => { x with ctr := x.ctr + BitVec.ofNat 32 (if s.engDown .int then 0 else 1) } } } : State)) e

@[simp] theorem worked_ses (s : State) (e : Engine) (k n : Nat) : (s.worked e k).ses n = s.ses n := rfl
@[simp] theorem worked_now (s : State) (e : Engine) (k : Nat) : (s.worked e k).now = s.now := rfl
@[simp] theorem modSes_now (s : State) (n : Nat) (f : Session → Session) : (s.modSes n f).now = s.now := rfl

/-- Every command that is a line is handled by the specification that a waiting line is read with (R34, R105). -/
theorem exec_line (i : Instr) (l : Line) (s : State) (h : lineOf i = some l) (hc : i ≠ .commentLine l) :
    exec i s = .next (settle s (handleLine i l (lineSpec s l.port l i) s)) := by
  cases i <;> simp only [lineOf, reduceCtorEq, Option.some.injEq] at h <;> subst h <;> first | rfl | exact absurd rfl hc
/-- A line that is heard and waits for no slot is read at once, and passes the tests of steps 1 to 4 (R105): its form is wrong, or its verb is
judged. -/
theorem heard_reads (i : Instr) (n : Nat) (l : Line) (sp : Spec) (s : State) (h : heard n l s = true) (hw : slotWaits n l sp s = false) :
    handleLine i l sp s =
      (match formError l sp ((s.modSes n fun x => { x with lastLine := s.now }).worked .int) with
        | some w => send (.session n) { errR { code := 1, detail := if w = "" then .none else .word w } with tag := lineTag l }
            ((s.modSes n fun x => { x with lastLine := s.now }).worked .int)
        | none => readOn l s.now sp { port := l.port, tag := lineTag l, text := lineText l } (lineRead n l s)) := by
  simp only [heard, reached, Bool.and_eq_true, decide_eq_true_eq] at h
  obtain ⟨⟨⟨⟨⟨⟨⟨⟨⟨⟨hp, hst⟩, ho⟩, hc⟩, hi⟩, hb⟩, hfr⟩, hig⟩, hnr⟩, he⟩, ht⟩ := h
  have hcr : ∀ k, canRead (s.modSes n fun x => { x with lastLine := s.now }) k = canRead s k := by
    intro k
    have h1 : ((s.modSes n fun x => { x with lastLine := s.now }).ses k).out = (s.ses k).out := by
      by_cases hk : k = n <;> simp [hk]
    unfold canRead
    rw [h1]
    rfl
  unfold slotWaits at hw
  have hlost : consoleFull (s.modSes n fun x => { x with lastLine := s.now }) n = false := by
    have hw : s.inbuf.filter (·.ses = n) = [] := by
      rw [List.filter_eq_nil_iff]
      intro e he
      have := List.all_eq_true.1 hi e he
      simp only [decide_eq_true_eq]
      intro hn
      rw [hn, hc] at this
      simp at this
    simp [consoleFull, hw]
  have he' : earlyTests l ((s.modSes n fun x => { x with lastLine := s.now }).worked .int) = none := by
    have h1 : needsCheck ((s.modSes n fun x => { x with lastLine := s.now }).worked .int) l.port = needsCheck s l.port := by
      rw [hp]; simp [needsCheck]
    have h2 : earlyTests l ((s.modSes n fun x => { x with lastLine := s.now }).worked .int) = earlyTests l s := by
      unfold earlyTests; rw [h1]
    rw [h2]; simpa using he
  have htg : tagReply l ((s.modSes n fun x => { x with lastLine := s.now }).worked .int) = none := by
    unfold tagReply
    cases hl : lineTag l with
    | none => rfl
    | some t =>
      simp only [hl] at ht
      have hf : (tagsOf ((s.modSes n fun x => { x with lastLine := s.now }).worked .int) (.session n)).find? (·.tag = t) = none := by
        simpa [tagsOf] using ht
      simp only [hp, hf, Option.map_none]
  have hd : handleLine i l sp s = readLine l s.now sp (s.modSes n fun x => { x with lastLine := s.now }) := by
    unfold handleLine
    rw [hp]
    refine Eq.trans (if_neg ?_) ?_
    · simp [hst, ho]
    · simp only [hfr]
      rw [if_neg (by simpa using hnr), if_neg (by simpa using hig)]
      unfold lineComes
      have hin : (s.modSes n fun x => { x with lastLine := s.now }).inbuf = s.inbuf := rfl
      have hnow : (s.modSes n fun x => { x with lastLine := s.now }).now = s.now := rfl
      simp only [hcr, hlost, hin, hnow, hc, hi, hw, Bool.and_self, if_true, Bool.false_eq_true, if_false]
  rw [hd]
  unfold readLine
  simp only [hp, lineTurn]
  rw [session_entry n s (lineTag l) hb, he']
  simp only [htg]
  rfl

/-- A taken line runs its verb (R105). -/
theorem taken_runs (i : Instr) (n : Nat) (l : Line) (sp : Spec) (s : State) (h : taken n l sp s = true) :
    handleLine i l sp s = sp.run (lineCtx l s) (lineGo n l sp s) := by
  simp only [taken, worded, Bool.and_eq_true, Bool.not_eq_true'] at h
  obtain ⟨⟨⟨⟨⟨⟨⟨hh, hsw⟩, hwd, hmx⟩, hl⟩, hf⟩, hk⟩, hu⟩, hr⟩ := h
  rw [heard_reads i n l sp s hh hsw]
  have hp : l.port = .session n ∧ s.head.started = true := by
    simp only [heard, reached, Bool.and_eq_true, decide_eq_true_eq] at hh; exact ⟨hh.1.1.1.1.1.1.1.1.1.1, hh.1.1.1.1.1.1.1.1.1.2⟩
  have h1 : ¬ (sp.local_ = true ∧ l.unit.isSome = true) := by
    intro x; rw [x.1, x.2] at hl; simp at hl
  obtain ⟨c, hcm⟩ : ∃ c, readText l = .cmd c := by
    cases hrt : readText l <;> simp_all
  have hun : ((s.modSes n fun x => { x with lastLine := s.now }).worked .int).head.unit = s.head.unit := by rfl
  have hfe : formError l sp ((s.modSes n fun x => { x with lastLine := s.now }).worked .int) = none := by
    unfold formError
    rw [hcm, hun]
    simp only []
    have : mixedUnits s.head.unit l.chars = none := by simpa using hmx
    rw [this]
    simp only [if_neg h1]
    simpa using hf
  rw [hfe]
  have hrd : (lineRead n l s).head.unit = s.head.unit ∧ (lineRead n l s).head.started = s.head.started ∧ (lineRead n l s).accNo = s.accNo := by
    unfold lineRead noteTag; cases lineTag l <;> simp [enterTag, hp.1, State.worked, State.modEng]
  have hsn : (lineSeen n l sp s).head.started = true ∧ (lineSeen n l sp s).accNo = s.accNo := by
    unfold lineSeen useAuthority; split
    · split <;> simp [hrd, hp.2]
    · simp [hrd, hp.2]
  have h3 : farUnit l (lineRead n l s) = none := by
    have : farUnit l (lineRead n l s) = farUnit l s := by simp [farUnit, hrd.1]
    rw [this]; simpa using hu
  have hvk : verbKnown l sp = true := by
    unfold verbKnown
    rw [hcm, hp.1]
    simp [hk]
  have hts : textSpec l sp = sp := by
    unfold textSpec; rw [hcm]
  simp only [readOn, hvk, hts, h3, Bool.not_true, Bool.false_eq_true, if_false]
  simp only [runSpec]
  have h4 : lateTests l.port (hasAuthority l s.now (lineRead n l s)) sp (lineSeen n l sp s) = none := by simpa using hr
  have h5 : (if sp.safety = true then useAuthority l (lineRead n l s) else lineRead n l s) = lineSeen n l sp s := rfl
  rw [h5, h4]
  simp only [lineGo, lineCtx, hsn, and_true]

/-! ## The state in which a verb runs -/

theorem lineRead_kept (n : Nat) (l : Line) (s : State) (hp : l.port = .session n) : KeptBut [.sess, .work] s (lineRead n l s) := by
  unfold lineRead noteTag
  have h : KeptBut [.sess, .work] s ((s.modSes n fun x => { x with lastLine := s.now }).worked .int) :=
    ((modSes_kept s n _).mono (by simp)).trans ((worked_kept _ _ _).mono (by simp))
  split
  · exact h
  · simp only [enterTag, hp]; exact h.trans ((modSes_kept _ _ _).mono (by simp))
theorem useAuthority_kept (l : Line) (s : State) : KeptBut [.camp] s (useAuthority l s) := by
  unfold useAuthority
  split
  · exact modCamp_kept s _
  · exact KeptBut.refl _ s
/-- What a line's acceptance touches: its session, the journal, the interpreter's counter and the acceptance number (R448), and the
authorisations with a safety line (R353). -/
theorem lineGo_kept (n : Nat) (l : Line) (sp : Spec) (s : State) (hp : l.port = .session n) :
    KeptBut [.sess, .work, .camp, .ids, .jrn] s (lineGo n l sp s) := by
  unfold lineGo lineSeen
  have h1 : KeptBut [.sess, .work, .camp, .ids, .jrn] s (if sp.safety then useAuthority l (lineRead n l s) else lineRead n l s) := by
    split
    · exact ((lineRead_kept n l s hp).mono (by simp)).trans ((useAuthority_kept l _).mono (by simp))
    · exact (lineRead_kept n l s hp).mono (by simp)
  have h2 : ∀ u : State, KeptBut [.sess, .work, .camp, .ids, .jrn] u { u with accNo := u.accNo + 1 } := by
    intro u p _; cases p <;> simp_all [samePart]
  dsimp only
  split
  · exact (h1.trans (h2 _)).trans ((record_kept _ _ _ _).mono (by simp))
  · exact h1.trans (h2 _)
/-- A line that asks for no authority leaves Campion's state alone. -/
theorem lineGo_camp (n : Nat) (l : Line) (sp : Spec) (s : State) (hp : l.port = .session n) (h : sp.safety = false) :
    (lineGo n l sp s).camp = s.camp := by
  have h0 : (lineRead n l s).camp = s.camp := (lineRead_kept n l s hp) .camp (by simp)
  unfold lineGo lineSeen
  simp only [h, Bool.false_eq_true, if_false]
  split
  · exact ((record_kept _ _ _ _) .camp (by simp)).trans h0
  · exact h0
theorem lineGo_ses (n : Nat) (l : Line) (sp : Spec) (s : State) :
    (lineGo n l sp s).sess = (lineRead n l s).sess := by
  unfold lineGo lineSeen
  have h : ∀ u : State, (useAuthority l u).sess = u.sess := fun u => (useAuthority_kept l u) .sess (by simp)
  dsimp only
  split
  · exact ((record_kept _ _ _ _) .sess (by simp)).trans (by dsimp only; split <;> simp [h])
  · dsimp only; split <;> simp [h]
/-- The session of a line keeps what no reply touches. -/
theorem lineRead_own (n : Nat) (l : Line) (s : State) (hp : l.port = .session n) :
    ∃ g, (lineRead n l s).ses n = { s.ses n with lastLine := s.now, tags := g } := by
  unfold lineRead noteTag
  split
  · exact ⟨(s.ses n).tags, by simp⟩
  · simp only [enterTag, hp]; exact ⟨_, by simp; rfl⟩
theorem lineRead_other (n k : Nat) (l : Line) (s : State) (hp : l.port = .session n) (hk : k ≠ n) : (lineRead n l s).ses k = s.ses k := by
  unfold lineRead noteTag
  split <;> simp [enterTag, hp, hk]
theorem lineGo_own (n : Nat) (l : Line) (sp : Spec) (s : State) (hp : l.port = .session n) :
    ∃ g, (lineGo n l sp s).ses n = { s.ses n with lastLine := s.now, tags := g } := by
  obtain ⟨g, h⟩ := lineRead_own n l s hp
  exact ⟨g, by unfold State.ses; rw [lineGo_ses n l sp s]; exact h⟩
theorem lineGo_other (n k : Nat) (l : Line) (sp : Spec) (s : State) (hp : l.port = .session n) (hk : k ≠ n) :
    (lineGo n l sp s).ses k = s.ses k := by
  unfold State.ses; rw [lineGo_ses n l sp s]; exact lineRead_other n k l s hp hk

/-! ## Final replies of a line -/

/-- A final reply to a session's own line goes to that session's buffer and tag memory alone (R101, R117). -/
theorem fin_line (c : Ctx) (n : Nat) (r : Reply) (s : State) (hp : c.port = .session n) (hw : c.within = none) :
    KeptBut [.sess] s (fin c r s) ∧ (∀ k, k ≠ n → (fin c r s).ses k = s.ses k)
      ∧ ∃ g, (fin c r s).ses n = { (if (s.ses n).st = .free then s.ses n else (s.ses n).put { r with tag := c.tag }) with tags := g } := by
  simp only [fin, finIn, hw, hp]
  have hs : KeptBut [.sess] s (send (.session n) { r with tag := c.tag } s) := by
    simp only [send]; split
    · exact KeptBut.refl _ s
    · exact modSes_kept s _ _
  unfold remember
  split
  · rename_i ht
    simp only [ht] at hs ⊢
    refine ⟨hs, ?_, (if (s.ses n).st = .free then s.ses n else (s.ses n).put { r with tag := none }).tags, ?_⟩
    · intro k hk; simp only [send]; split <;> simp [hk]
    · simp only [send]; split <;> simp
  · refine ⟨hs.trans (modSes_kept _ _ _), ?_, ?_⟩
    · intro k hk; simp only [ses_modSes, hk, if_false, send]; split <;> simp [hk]
    · simp only [ses_modSes, if_true, send]; split
      · exact ⟨_, rfl⟩
      · simp only [ses_modSes, if_true]; exact ⟨_, rfl⟩
/-- A line put into a buffer that holds nothing back stands last in it (R107). -/
theorem put_out (x : Session) (r : Reply) (h : x.heldBack = []) (hr : r.pre ≠ .tilde) :
    (x.put r).out = x.out ++ [{ r with checked := x.rcheck && decide (x.mode = .gen) }]
      ∧ { x.put r with out := x.out } = x := by
  cases x; simp only at h; subst h
  simp [Session.put, Session.putFor, hr]

end Sys2Proof.Machine
end

