-- ==== Sys2Proof/WellFormed.lean ====
section
/-! DEFINITION. Which commands a line, a frame or the world can spell. Each check is decidable; a meaning is given to every
command, whether or not it passes. -/

namespace Sys2Proof

open Sys2Proof.Machine

/-- A session number is 0 to 63 (R108). -/
def Port.wf : Port → Bool
  | .session n => decide (n < 64)
  | .supervisor => true

/-- A line comes from a session that exists, and its unit is the one its characters name (R89, R91, R108). -/
def Line.wf (l : Line) : Bool := l.port.wf && decide (l.unit = unitOfText l.chars)

/-- The operands of a line's command are what its characters spell (R87 to R93, R484). -/
def spelled (l : Line) (i : Instr) : Bool := decide (lineCommand l = i)

/-- A frame fits an Ethernet payload (R8). -/
def frameWf (b : List Byte) : Bool := decide (b.length ≤ 1500)

/-- A command that can be spelled. -/
def Instr.wf (i : Instr) : Bool :=
  match lineOf i with
  | some l => l.wf && spelled l i
  | none => match i with
    | .downlinkFrame _ b => frameWf b
    | .uplinkFrame _ b => frameWf b
    | .linkReturn _ b => frameWf b
    | .budgetFrameReceived f => frameWf f.bytes
    | .safetyMessageReceived f => frameWf f.bytes
    | .announceReceived f => frameWf f.bytes
    | .heartbeatReceived f => frameWf f.bytes
    | .offerReceived f => frameWf f.bytes
    | .pullReceived f => frameWf f.bytes
    | .configurationBlock f _ => frameWf f.bytes
    | .journalBlock f => frameWf f.bytes
    | .releaseReceived f => frameWf f.bytes
    | .releaseAcknowledgement f => frameWf f.bytes
    | .proposeReceived f => frameWf f.bytes
    | .voteReceived f => frameWf f.bytes
    | .commitReceived f => frameWf f.bytes
    | .wakeFrameReceived f => frameWf f.bytes
    | _ => true

/-- A command that can be spelled, as a proposition. -/
def Instr.WellFormed (i : Instr) : Prop := i.wf = true

end Sys2Proof
end

