-- ==== Sys2Proof/Tests/Slice0.lean ====
section
/-! SUPPORT. Tests of the model: worked numbers of the manual, ill-formed terms that the checks of WellFormed refuse, and for each
statement with hypotheses a state and operands that meet all of them, one for each of its clauses. -/

namespace Sys2Proof.Tests

set_option maxRecDepth 20000
set_option Elab.async false
set_option linter.unusedVariables false

open Sys2Proof Sys2Proof.Machine

/-! ## Worked numbers of the manual -/

/-- The check value of R95: 0x29B1 over the nine characters 123456789. -/
theorem test_crc16_check_value : crc16 (ascii "123456789") = 0x29B1 := by decide +kernel
/-- The worked line of R95 is sent with the check 5006. -/
theorem test_crc16_live : crc16 (ascii "#2 LIVE?") = 0x5006 := by decide +kernel
/-- The worked gate of 08: 36 intervals in 88.4 ms (132,600,000 ticks) are 407.239 Hz. -/
theorem test_frequency : freqOf 36 132600000 = 407239 := by decide +kernel
/-- The plan of the worked leaf move of 04: 41,600 microsteps at 32,000 a second and 64,000 a second squared. -/
def leafMove : List Seg := plan false (32000 * rateUnit) (64000 * rateUnit) (64000 * rateUnit) 0 41600 false
/-- The worked leaf move of 04 accelerates over 8,000 microsteps, cruises over 25,600 and decelerates over 8,000. -/
theorem test_leaf_move_steps : leafMove.map (·.len) = [some 8000, some 25600, some 8000] := by decide +kernel
/-- Its last edge falls at 2,700,000,000 ticks. -/
theorem test_leaf_move_time : planTime leafMove = 2700000000 * subTick := by decide +kernel
/-- Its first edges fall at 8,385,255, 11,858,541 and 14,523,688 ticks. -/
theorem test_leaf_move_edges : ((leafMove.head?).map fun g => [1, 2, 3].map fun k => roundUp (edgeTime g k) subTick)
    = some [8385255, 11858541, 14523688] := by decide +kernel

/-! ## States and operands that the tests and the witnesses are about -/

/-- A unit at work: its head runs, sessions 0 and 1 are open, slice 0 is in service with a GZ module of eight stations. -/
def up : State :=
  { State.reset with
    head := { State.reset.head with started := true, bit31 := false, memRun := false, unit := some 5, loaded := true }
    sess := [(0, { st := .opn, mode := .typed }), (1, { st := .opn, mode := .typed })]
    st := (List.range 8).map fun n => (n, { outOfService := false, leaf := .closedLocked })
    sl := [(0, { seated := some { type := 1, serial := 1, ins := 1 }, powered := true, link := true, passed := true, latched := true, tested := true, typeRead := some 1, seen := true })]
    clk := { now := 100000000, timeFs := 100000000000000000 } }
/-- A line of session 1 in typed mode. -/
def ln (t : String) : Line := { port := .session 1, chars := ascii t, framed := .typed, term := .cr }
/-- A line of the console. -/
def ln0 (t : String) : Line := { port := .session 0, chars := ascii t, framed := .typed, term := .cr }
/-- A number without a point. -/
def num (v : Int) : Lit := { mant := v }
/-- One station. -/
def one (n : Nat) : StSel := .items [⟨n, n⟩]
def pl (s : State) (l : KMap) : State := { s with cfg := { s.cfg with plain := l ++ s.cfg.plain } }
def sf (s : State) (l : KMap) : State := { s with cfg := { s.cfg with safety := l ++ s.cfg.safety } }
/-- The keys of stations 0 and 1 as leaves ready to run: 10 counts per mm, a lock zone of 20 mm, open at 700 mm. -/
def leafKeys : KMap := [((.ch 0 .ax, .SCALE), .i 1000), ((.ch 0 .fd, .UNOM), .i 110), ((.ch 1 .ax, .SCALE), .i 1000), ((.ch 1 .fd, .UNOM), .i 110)]
/-- A unit whose stations 0 and 1 are closed leaves that may open: ZERO and the left release are active, the feeds conduct. -/
def doors : State :=
  { up with
    cfg := { up.cfg with
      plain := leafKeys
      safety := [((.st 0, .OPENPOS), .i 700000), ((.st 0, .MARGINMAX), .i 300), ((.st 1, .OPENPOS), .i 700000), ((.st 1, .MARGINMAX), .i 300)]
      profiles := [(0, [], []), (1, [], [])] }
    st := (List.range 8).map fun n => (n, { outOfService := false, leaf := .closedLocked, fd := { on := true, cmd := true } })
    sl := [(0, { up.slc 0 with elemA := 0xFF, elemB := 0xFF })]
    camp := { up.camp with zero := { active := true }, rell := { active := true } } }
def dl (s : State) (n : Nat) (l : Leaf) : State := s.modStn n fun t => { t with leaf := l, axis := { t.axis with referenced := true, pos := 5000, cmd := 5000 } }
def lockMade (s : State) (n : Nat) : State := (s.modInp n 0 fun i => { i with on := true }).modInp n 1 fun i => { i with on := true }
def mv (ph : MPhase) (op : Option Nat) : Motion := { kind := .move, phase := ph, op, target := some 100, speed := 1000000000000, acc := 1000000000000, dec := 1000000000000 }
def ivl : Ivl := { edge := 1000000, ticks := 7500 }
def moving (s : State) (n : Nat) (op : Option Nat) (k : MKind := .move) (ph : MPhase := .running) : State := s.modAx n fun a => { a with motion := some { mv ph op with kind := k, segs := [{ typ := 1, len := some 100, v0q := 1000000000000, v1q := 1000000000000 }] }, loaded := some ivl, ahead := [{ edge := 1100000, ticks := 7500 }], moving := true }
def lampSt (s : State) (n : Nat) : State := pl s [((.st n, .ROLE), .w "LAMP")]
def mOp : Op := { slot := some 1100, id := 0, port := .session 1, tag := some 9, acc := 1, verb := .ref 2, text := ascii " REF S02", prog := .motion 2 }
def lm : State := pl (lampSt doors 2) [((.ch 2 .ax, .SCALE), .i 1000), ((.ch 2 .fd, .UNOM), .i 110)]
def lmv : State := moving { lm with ops := [mOp], nextOp := 1 } 2 (some 0)
def authed (s : State) : State := s.modSes 0 fun x => { x with auth := true }
def gs : State := up.modSes 1 fun x => { x with mode := .gen }
def tg : State := up.modSes 1 fun x => { x with tags := [{ tag := 7, text := ascii " REF S00", reply := some (eqR "ref" [.n 1]) }] }
def keyed : State := { up with camp := { up.camp with key := { up.camp.key with active := true } } }
def heldS : State := up.modSes 2 fun x => { x with st := .held, token := 9 }
def ty : State := up.modSes 1 fun x => { x with typed := [65], afterCr := false }
def brim : State := { up with inbuf := [{ ses := 1, line := ln "REF S01", cmd := .ref (ln "REF S01") 1, at_ := 5, outside := true }] }
def full16 : State := { up with inbuf := List.replicate 16 { ses := 0, line := ln0 "LIVE?", cmd := .live (ln0 "LIVE?"), at_ := 5 } }
def ioRst : State := { up with head := { up.head with resetting := some .io } }
def ah : State := up.modSes 0 fun x => { x with auth := true }
def sg : State := up.modSes 1 fun x => { x with staging := some [] }
def dmv : State := moving (dl doors 0 .closing) 0 none .doorClose
def lmh : State := { lm with ops := [mOp], nextOp := 1 }.modAx 2 fun a => { a with motion := some (mv .held (some 0)), referenced := true }
def iso : State := (doors.modSes 0 fun x => { x with auth := true }).modStn 0 fun t => { t with leaf := .isolated }
def ret : State := lm.modStn 2 fun t => { t with reserveInUse := true }
def looped (s : State) : State := { s with camp := { s.camp with a := { s.camp.a with driving := true, loop := true, contact := true }, b := { s.camp.b with driving := true, loop := true, contact := true } } }
def homed (s : State) : State := pl s [((.ch 2 .ax, .HOME), .w "IN0"), ((.ch 2 .ax, .REVCNT), .i 400)]
def cammed (s : State) : State := pl s [((.cam 3, .N), .i 2), ((.camPt 3 0, .X), .i 0), ((.camPt 3 0, .Y), .i 0), ((.camPt 3 1, .X), .i 100), ((.camPt 3 1, .Y), .i 100)]
def at0 : AtArgs := { tb := .time, value := some (num 1000), relative := true, doVerb := .lamp (.items [.over 2 2 .lb]) true, doText := ascii "LAMP S02/LB ON" }
def wtM : State := { lm with ops := [mOp], nextOp := 1 }.modAx 2 fun a => { a with motion := some (mv .waiting (some 0)) }
def cr4 : Crossing := { at_ := 5, slot := 1024, tb := .time, value := 5 }
def cr3 : Crossing := { at_ := 5, slot := 3, tb := .ax 0, value := 5 }
def evOp : Op := { slot := some 1024, id := 0, port := .session 1, tag := some 9, acc := 1, verb := .event .time, text := ascii " LAMP", prog := .event (.lamp (.items [.over 2 2 .lb]) true) 0 [] }
def evS : State := { up with crossings := [cr4], ops := [evOp], nextOp := 1 }.modEnt 1024 fun e => { e with kind := .event, st := .armed, tb := BitVec.ofNat 8 (tbCode .time), session := 1 }
def rOp : Op := { evOp with verb := .event .line, prog := .event (.lamp (.items [.over 2 2 .lb]) true) 0 [] }
def rearm : State := { up with ops := [rOp], nextOp := 1 }.modEnt 1024 fun e => { e with kind := .event, st := .rearm, tb := BitVec.ofNat 8 (tbCode .line), dir := 1, trigger := 500, aux := 100, rep := true }
def wOp : Op := { slot := some 1024, id := 0, port := .session 1, tag := some 9, acc := 1, verb := .watch [.obj (.st 0)] none, text := ascii " WATCH", prog := .watch [.st 0] 10000 [(.st 0, 5, 2)] }
def resOp : Op := { slot := none, id := 0, port := .session 1, tag := some 9, acc := 1, verb := .reset, text := ascii " RESET", prog := .resetting "engine" (some (.w "MOT")) "1" }
def resS : State := ({ up with ops := [resOp], nextOp := 1 }.modHead fun h => { h with resetting := some .mot }).modEng .mot fun e => { e with op := some 0 }
def sOff : State := up.modSlc 0 fun x => { x with powered := false, restoreAt := some 5, resetOp := none }
def snap : Snapshot := { num := 1, rung := 4, object := 0, full := true, at_ := 0, len := 100, pinned := true, groups := [1] }
def snapped (i : List SnapItem) : State := { up with store := { up.store with snapA := some { snap with items := i } } }
def item : SnapItem := { slot := 1024, entry := { kind := .command, session := 1 }, acc := 1, verb := .lamp (.items [.over 2 2 .lb]) true, text := ascii " LAMP S02/LB ON", port := .session 1 }
def rpOp : Op := { slot := some 1024, id := 0, port := .session 1, tag := some 9, acc := 1, verb := .replay 1 none none, text := ascii " REPLAY", prog := .replaying 2 1 [2] 5 1 }
def inOnS (s : State) (n k : Nat) (b : Bool := true) : State := s.modInp n k fun i => { i with on := b }
def fk (s : State) (n : Nat) (c : Chan) (l : List (Key × KVal)) : State :=
  let m : KMap := l.map fun e => ((.ch n c, e.1), e.2)
  (pl s m).modSlc (slotOf n) fun x => { x with keys := m ++ x.keys }
def rawS (s : State) (k : Nat) (raw fOn : Bool) (rawAt held : Nat) : State := s.modInp 2 k fun i => { i with raw, fOn, rawAt, held }
def fi (s : State) (k v : Nat) : Input × Bool × Nat :=
  let i := (s.stn 2).inp k
  let raw := inState s 2 i.raw v
  (i, raw, if raw = i.raw then i.held + (openUs s 2 (s.now - (s.slc 0).epoch) - openUs s 2 (i.rawAt - (s.slc 0).epoch)) else 0)
def f0 : State := rawS lm 3 true false 99990000 0
def sen (s : State) (n : Nat) (t : Nat) : State := { s with clk := { s.clk with now := t } }.modStn n fun t => { t with sensor := { t.sensor with on := true } }
def fOnS (s : State) (n k : Nat) : State := s.modInp n k fun i => { i with fOn := true }
def tp : State := fk (fk (sen lm 2 100000980) 2 .in0 [(.TEST, .w "ON")]) 2 .in1 [(.TEST, .w "ON")]
def tpS : State := fOnS (fOnS tp 2 0) 2 1
def tpAt (t : Nat) : State := { tpS with clk := { tpS.clk with now := 100000000 + (tpw tpS 2 - 20).toNat + t } }
def owd (s : State) : State := fk s 2 .in3 [(.OWDET, .w "ON")]
def ov3 (f : Input → Input) : State := lm.modInp 2 3 f
def cnt : State := fk (fk lm 2 .in0 [(.CNT, .w "RISE")]) 2 .in1 [(.CNT, .w "BOTH")]
def fg : State := cnt.modInp 2 0 fun i => { i with first := some 5, last := some 1500000005, ever := some 1500000005, edges := 11, count := 20 }
def shp : State := cnt.modInp 2 0 fun i => { i with edgeAt := some (1500 * 100000000 - 5000), count := 4, undo := some (3, 0, none, none, none) }
def ss5 (f : Sensor → Sensor) : State := lm.modStn 2 fun t => { t with sensor := f { t.sensor with on := true } }
def sv (s : State) : Sensor := (s.stn 2).sensor
def ovl : State := lm.modStn 2 fun t => { t with sensor := { overload := true, retryAt := 99000000, taps := [(3, 98000000)] } }
def rst (f : Sensor → Sensor) : State := lm.modStn 2 fun t => { t with sensor := f { restart := true, trying := some 99995000 } }
def s4 (f : Sensor → Sensor) : State := lm.modStn 2 fun t => { t with sensor := f {} }
def oS (f : Output → Output) : State := fk (lm.modOut 2 false f) 2 .out0 [(.OLDET, .w "ON")]
def ou (s : State) : Output := (s.stn 2).outp false
def oN (f : Output → Output) : State := oS fun o => f { o with on := true, cmd := true }
def op6 (f : Output → Output) : State := let s := fk (oN f) 2 .out0 [(.TPULSE, .w "ON")]; { s with clk := { s.clk with now := 100002500 } }
def sS (w : Sw) (f : Switch → Switch) : State := fk (lm.modSw 2 w f) 2 .fd [(.UNOM, .i 110)]
def cv (low : Nat) (u : Nat := 24000) (out : Int := 24000) (die : Int := 30) : Conv := { low, high := low, u, out, die }
def onW (w : Sw) (f : Switch → Switch) : State := sS w fun x => f { x with on := true, cmd := true, u := 24000 }
def te (s : State) (w : Sw) (c : Conv) : Nat := (s.sw 2 w).energy + 5 * (c.u - c.out).toNat * min (sense w (s.sw 2 w).high (s.sw 2 w).downNext c).i (inrushLimit w)
def tn (w : Sw) (e : Nat) : State := onW w fun x => { x with inrush := some 99999000, window := 20000, energy := e }
def fi3 (s : State) (w : Sw) (c : Conv) : Nat := if outputOn s 2 w then min (sense w (s.sw 2 w).high (s.sw 2 w).downNext c).i (steadyLimit w) else 0
def fh3 (s : State) (w : Sw) (c : Conv) : Nat := fuseStep (fuseSteps ((s.now - (s.sw 2 w).heatAt) / 50 - 1) (s.sw 2 w).heat (if outputOn s 2 w then (s.sw 2 w).cur else 0) (wireIn s 2 w) (wireTau s 2 w)) (fi3 s w c) (wireIn s 2 w) (wireTau s 2 w)
def hs (h : Nat) : State := onW .la fun x => { x with heat := h, heatAt := 99999950 }
def sh (t : Nat) : State := onW .la fun x => { x with shortSince := some t, heatAt := 99999950, high := true }
def cl (f : Switch → Switch) : State := sS .la fun x => f { x with lastClamp := some 95000000, u := 24000 }
def uw (w : Sw) (f : Switch → Switch) : State := sS w fun x => f { x with cmd := true, uvOff := true, uvWait := true, on := false }
def ol (o : Bool) (t : Nat) (p : Nat := 0) : State := onW .la fun x => { x with olDet := true, olThr := 100, olTime := 20000, olSince := some t, openLoad := o, olPasses := p, heatAt := 99999950, acc := { count := 19, sum := 19 * 50, onCount := 19, onSum := 19 * 50, uSum := 19 * 24000 } }
def cc (c : Bool) (t : Nat) : State := fk (onW .la fun x => { x with comply := c, complySince := some t, heatAt := 99999950 }) 2 .la [(.MODE, .w "CC"), (.ISET, .i 10000)]
def cp : State := fk (onW .la id) 2 .la [(.MODE, .w "CP"), (.PWR, .i 100), (.UREF, .i 24000)]
def fl5 : Flash := { period := 1000 }
def flS (f : Switch → Switch) (ph : Int) : State := (sS .la fun x => f { x with flash := some fl5, u := 24000 }).modSlc 0 fun x => { x with flash := some (ph, 100000000) }
def pv (k : List (Key × KVal)) (w : Chan := .la) : State := fk (fk lm 2 w ([(.PROVED, .w "ON"), (.ONTHR, .i 500), (.PTHR, .i 50), (.UREF, .i 24000)] ++ k)) 2 .fd [(.UNOM, .i 110)]
def ac (i : Nat) : Acc := { count := 19, sum := 19 * i, onCount := 19, onSum := 19 * i, uSum := 19 * 24000 }
def lit (i : Nat) (l : Lamp) (k : List (Key × KVal) := []) (w : Sw := .la) : State := (pv k (swChan w)).modSw 2 w fun x => { x with cmd := true, on := true, u := 24000, heatAt := 99999950, acc := ac i, lamp := l }
def at_ (t : Nat) (s : State) : State := { s with clk := { s.clk with now := t } }
def gr (l : Lamp) (k : List (Key × KVal) := []) (f : Switch → Switch := id) : State := at_ 100010050 ((pv k).modSw 2 .la fun x => f { x with lamp := l })
def rp (l : Lamp) (k : List (Key × KVal) := []) : State := at_ 100011150 ((pv k).modSw 2 .la fun x => { x with lamp := { l with repeatDue := true } })
def two (a b : Nat) : List Conv := [cv a, cv b]
def lop (t : Option Nat) : Op := { slot := none, id := 0, port := .session 0, tag := some 9, acc := 1, verb := .proveLearn (.ch 2 .la), text := [], prog := .proveLearn 2 [false, true] [] t [] 0 }
def lst (v : Int) (t : Option Nat) : State := ({ up with ops := [lop t], nextOp := 1 }).modSw 2 .la fun x => { x with cmd := true, on := true, lamp := { x.lamp with litSum := 1000 * v, litCount := 1000 } }
def tin (s : State) (i : PulseIn) (x : LineIn) : State := { s with line := s.line.setPulseIn i x }
def li (um half : Int) (st : LineSt := .certain) (k : KMap := []) : State := pl { lm with line := { um, half, st } , fit := { lm.fit with optP := true } } ([((.line, .DPP), .i 800)] ++ k)
def due_ (s : State) : State := { s with line := { s.line with markDue := true } }
def mk6 : KMap := [((.mark 3, .POS), .i 10000), ((.mark 1, .POS), .i 50000)]
def mp6 : State := let s := li 35000300 1 .certain mk6; { s with line := { s.line with passed := [3] } }
def dl2 (st : LineSt) (r : Nat) : State := let s := li 20000300 1 st (((.line, .TACHO), .w "DUAL") :: mk6); { s with line := { s.line with run1 := r } }
def ax2 (f : Axis → Axis) : State := lm.modAx 2 f
def ixd (f : Axis → Axis) : State := pl (ax2 f) [((.ch 2 .ax, .INDEX), .w "ON"), ((.ch 2 .ax, .REVCNT), .i 400), ((.ch 2 .ax, .ITOL), .i 4)]
def mR : Motion := { mv .running (some 0) with segs := [{ typ := 1, len := some 100, v0q := 1000000000000, v1q := 1000000000000 }] }
def lim (hard : Bool) : State := pl (lmv.modInp 2 0 fun i => { i with on := true }) ([((.ch 2 .ax, .LIMPOS), .w "IN0")] ++ (if hard then [((.ch 2 .ax, .LIMSTOP), .w "HARD")] else []))
def fo (ph : MPhase) (f : Bool) : Motion := { mv ph (some 0) with kind := .follow, target := none, follow := some { fact := 4, following := f } }
def foS (m : Motion) : State := { lm with ops := [mOp], nextOp := 1 }.modAx 2 fun a => { a with motion := some m }
def cou (f : Couple → Couple := id) : Couple := f { table := 3, master := .time, offset := 10, t0 := 99999950 }
def cm (c : Couple) : Motion := { mv .running (some 0) with kind := .cam, target := none, couple := some c }
def cS (c : Couple) : State := pl (foS (cm c)) [((.cam 3, .N), .i 2), ((.camPt 3 0, .X), .i 0), ((.camPt 3 0, .Y), .i 0), ((.camPt 3 1, .X), .i 100), ((.camPt 3 1, .Y), .i 100)]
def mE : Motion := { mv .running (some 0) with target := some 0 }
def stF (s : State) (f : Station → Station) : State := s.modStn 0 f
def atz (s : State) : State := moving (stF (dl s 0 .closing) fun t => { t with axis := { t.axis with pos := 150 } }) 0 none .doorClose
def step1 (s : State) : State := pl (sf s [((.st 0, .STEP), .w "OUT1")]) [((.st 0, .STOWSW), .w "IN3")]
def eatz (s : State) : State := pl (inOnS (atz s) 0 2) [((.st 0, .EDGE), .w "IN2"), ((.st 0, .EDGEMUTE), .i 5000)]
def lck (s : State) : State := (stF (dl s 0 .locking) fun t => { t with finalT := some 500000000, axis := { t.axis with pos := 50 } })
def noPerm (s : State) : State := { s with camp := { s.camp with zero := {} } }
def clsg (t0 : Nat) : State := moving (stF (dl doors 0 .closing) fun t => { t with armed := true, forceSince := some t0 }) 0 none .doorClose
def edg (lf : Leaf) : State := pl (inOnS (moving (dl doors 0 lf) 0 none .doorClose) 0 2) [((.st 0, .EDGE), .w "IN2")]
def rev (a : Nat) : State := stF (dl doors 0 .reversing) fun t => { t with reopened := true, attempts := a }
def seenBy (s : State) (x : Lane) : State := s.modLaneSlc x 0 fun q => { q with ok := true, at_ := some 99999900 }
def lanes (s : State) : State := seenBy (seenBy { s with camp := { s.camp with a := { s.camp.a with tested := true, passed := true, driving := true, configOk := true, skey := some 77, peerAt := 99999900 }, b := { s.camp.b with tested := true, passed := true, driving := true, configOk := true, skey := some 77, peerAt := 99999900 } } } .a) .b
def L0 : State := lanes doors
def laneMade (x : Lane) (s : State) : State := s.modLaneStn x 0 fun t => { t with inputs := [(0, { on := true }), (1, { on := true })] }
def shut : State := laneMade .a (laneMade .b (lockMade ((List.range 7).foldl (fun s k => s.modStn (k+1) fun t => { t with leaf := .isolated }) L0) 0))
def lpS : State := { shut with camp := { shut.camp with a := { shut.camp.a with holdSince := some 5 } } }
def prvd (s : State) : State := sf s [((.ch 2 .la, .PROVED), .w "ON")]
def late (s : State) : State := { s with clk := { s.clk with now := 86400000005 } }
def mk_ (x : Lane) (m : Byte) (s : State) : State := s.modLane x fun l => { l with masks := [(0, m)] }
def bs (f : LaneStn → LaneStn := id) : State := ((moving (dl L0 0 .closing) 0 none .doorClose).modLaneStn .a 0 fun t => f { t with conducts := true, known := true, pos := 100 }).modLaneStn .b 0 fun t => f { t with conducts := true, known := true, pos := 100 }
def bsA (t : Nat) : State := bs.modLaneStn .a 0 fun x => { x with overSince := some t }
def fr8 (l : List Byte) : List Byte := let b := padTo 30 0 l; let c := (crc16 b).toNat; b ++ [BitVec.ofNat 8 (c / 256), BitVec.ofNat 8 c]
def L1 : State := L0.modLaneSlc .a 0 fun q => { q with ref := some 3 }
def ax0 (v : Byte) : List Byte := fr8 (([0x40, 4] : List Byte) ++ (List.replicate 25 0) ++ [v])
def pathUp (s : State) : State := { s with net := { s.net with a := { s.net.a with link := true } } }
def sys (s : State) : State := pathUp <| pl (sf s [((.unit, .SYSID), .i 9), ((.safeout 0, .TYPE), .w "DOORS"), ((.safeout 0, .TO), .u 8), ((.safeout 1, .TYPE), .w "LAMPS"), ((.safeout 1, .TO), .w "ALL"), ((.safein 2, .FROM), .u 8), ((.safein 2, .TYPE), .w "RELEASE"), ((.safein 3, .FROM), .u 9), ((.safein 3, .TYPE), .w "AUTH"), ((.unit, .RELUNIT), .u 8)]) [((.unit, .SYSID), .i 9)]
def msg (src type : Nat) (seq : Nat := 4) : List Byte := let b := le 2 src ++ le 2 5 ++ le 1 type ++ [1] ++ le 2 9 ++ le 4 seq ++ leI 8 ((sys L0).time) ++ padTo 40 0 [7,3,0,0,0,9]; b ++ safetyCode 77 b
def wt : Wait := { cls := 2, since := 99000000, opening := true }
def wS : State := doors.modStn 0 fun t => { t with wait := some wt }
def tt (s : State) : State := forEach [0, 1, 2, 3] measureBus s
def wF : State := pl wS [((.bus (busOfSt wS 0), .PEAK), .i 0)]
def wG : State := let s := pathUp <| pl wS [((.bus (busOfSt wS 0), .GROUP), .i 3), ((.bus (busOfSt wS 0), .GPEAK), .i 500000)]; { s with bus := [(busOfSt wS 0, { reportsSince := some 5 })] }
def wo (w : Wait) : State := (doors.modStn 0 fun t => { t with wait := some w })
def oldW : Wait := { cls := 2, since := 5, opening := true }
def bf (src g type id cur : Nat) : List Byte := let f := le 2 src ++ le 1 g ++ le 1 type ++ le 4 id ++ le 2 cur ++ le 1 2 ++ le 1 1 ++ leI 8 wG.time ++ le 4 700 ++ le 2 5000 ++ le 2 9; f ++ le 4 (crc32 f).toNat
def rsv (g id cur : Nat) : Reserve := { source := 8, id, group := g, peak := 100 * cur, cls := 2, firm := true, start := wG.time, duration := 700, seenAt := wG.now }
def wT (t : Int) : State := wS.modStn 0 fun x => { x with wait := some { wt with tentative := some (4, t) } }
def chg (t : Int) : State := { wG with yar := { wG.yar with charges := [{ station := 0, bus := 0, cls := 2, env := [5, 6], res := some (4, t) }] } }
def fr9 (l : List Byte) : List Byte := let b := padTo 30 0 l; let c := (crc16 b).toNat; b ++ [BitVec.ofNat 8 (c / 256), BitVec.ofNat 8 c]
def lk9 : State := { doors with sl := [(0, { doors.slc 0 with downRef := some 3, upRef := some 3, upAt := some 99999900, downAt := some 99999900 })] }
def dn9 : State := { lk9 with sl := [(0, { lk9.slc 0 with link := false, lostAt := some 99000000 })] }
def rt : State := lockMade ({ lk9 with sl := [(0, { lk9.slc 0 with service := true, startUp := true })] , st := (List.range 8).map fun n => (n, { outOfService := true, linkLost := true, failSafe := true, leaf := .fault }) }) 0
def watchOp : Op := { slot := some 1024, id := 0, port := .session 1, tag := some 9, acc := 1, verb := .watch [.obj .unit] none, text := ascii " WATCH UNIT", prog := .watch [.unit] 10000 [] }
def offS : State := doors.modHead fun h => { h with powered := false, started := false }
def st0 : State := { State.reset with clk := doors.clk }
def hS (p : Nat) (s : State) : State := { s with head := { s.head with started := true, unit := plugUnit p } }
def etS : State := { L0 with sl := [(0, { L0.slc 0 with tested := false })] }
def wkOp : Op := { watchOp with port := .supervisor, slot := none, verb := .wake, prog := .waking 5 }
def sd : State := { lanes rt with ops := [wkOp], nextOp := 1 }.modHead fun h => { h with bit31 := true }
def lt (a b : LaneSt → LaneSt) : State := { doors with camp := { doors.camp with a := a doors.camp.a, b := b doors.camp.b, safe := true } }
def pathUp10 (s : State) : State := { s with net := { s.net with a := { s.net.a with link := true }, b := { s.net.b with link := true } } }
def AA : Arrival := { path := .a, node := 8, trailer := none, fcs := false }
def nt : State := pathUp10 doors
def withP (s : State) (n : Nat) (p : Peer) : State := { s with net := { s.net with peers := [(n, p)] } }
def ann (n serial : Nat) : List Byte := let b := padTo 60 0 (le 2 n ++ [1, 0] ++ bcd10 serial ++ [0] ++ le 4 6 ++ le 4 7 ++ le 4 99); b ++ le 4 (crc32 b).toNat
def pa (s : State) (x : PathSt) : State := { s with net := { s.net with a := x } }
def rel10 : Relay := { id := 3, near := 1, far := 8 }
def rl (s : State) (r : Relay) : State := { s with net := { s.net with relays := [r] } }
def relW : Relay := { rel10 with waiting := [(some 9, 1030), (none, 1031)] }
def rlw : State := (((rl nt relW).modEnt 1030 fun e => { e with kind := .command, st := .executing, session := 1 }).modEnt 1031 fun e => { e with kind := .command, st := .executing, session := 1 }).modSes 1 fun x => { x with tags := [{ tag := 9, text := ascii " SHOW U0008" }] }
def wp (s : State) : State := { s with net := { s.net with peers := [(8, { known := true, seenAt := 5 })] } }
def gmD : PtpSet := { identity := 4, prio1 := 1, clockClass := 6, accuracy := 1, variance := 1, prio2 := 1, unit := some 8, domain := nt.keyN .unit .PTPDOMAIN }
def steady (s : State) : State := { s with net := { s.net with ptp := { s.net.ptp with keys := some (ptpKeysNow s), keysAt := s.now, reselect := false } } }
def pt (p : Ptp) : State := steady { nt with net := { nt.net with ptp := p } }
def gr10 : State := { nt with net := { nt.net with groups := [1, 2, 259] } }
def tw (f : Twin → Twin) (k : Nat := 8) : State := let s := wp nt; { s with cfg := { s.cfg with twin := some k }, twin := f s.twin }
def tf10 (type idx : Nat) (p : List Byte) : List Byte := let b := le 2 8 ++ le 2 5 ++ le 1 type ++ [1] ++ le 2 p.length ++ le 4 44 ++ leI 8 5 ++ le 4 idx ++ p; b ++ le 4 (crc32 b).toNat
def hb10 (t : Nat) (hs : Nat := 0) : List Byte := padTo 36 0 (le 2 t ++ [1, 0] ++ le 4 7 ++ le 4 99 ++ le 8 4 ++ le 4 hs)
def cb : BankSet := { text := [((.unit, .SYSID), .i 4)] }
def cu : Custody := { unit := 8, seq := 4, set := some cb }
def tOp (p : Prog) : Op := { slot := some 1024, id := 0, port := .session 1, tag := some 9, acc := 1, verb := .pairRelease, text := [], prog := p }
def withOp (s : State) (p : Prog) : State := { s with ops := [tOp p], nextOp := 1 }
def wp11 (s : State) : State := { s with net := { s.net with peers := [(8, { known := true, seenAt := 5 })], a := { s.net.a with link := true } } }
def vt : Vote := { coord := 5, number := 3, electors := [5, 8, 9], at_ := 5, ready := [5], op := some 0, voted := true }
def slp (f : SleepSt → SleepSt) : State := let s := withOp (wp11 doors) .sleeping; { s with slp := f s.slp }
def sfr (src type coord num : Nat) (inst : Int) (el : List Nat) : List Byte := let b := padTo 152 0 (le 2 src ++ [BitVec.ofNat 8 type, 1] ++ le 2 coord ++ le 4 num ++ leI 8 inst ++ [4, 0] ++ le 4 77 ++ ((List.range 128).map fun k => BitVec.ofNat 8 (((List.range 8).map fun j => if 8 * k + j ∈ el then 2 ^ j else 0).sum))); b ++ le 4 (crc32 b).toNat
def spp (f : Super → Super) : State := { slp (fun x => x) with sup := f doors.sup }
def jr (n : Nat) : JRec := { num := n, stamp := 5, code := 0x0C01, payload := [1,2,3] }
def js (c : Nat := 1000) : State := { doors with jrn := { doors.jrn with store := [(0, jr 1), (1, jr 2), (2, { jr 3 with bad := true })], nextNum := 4, nextPlace := 3 } }
def cuR : Custody := { unit := 8, seq := 4, records := [padTo 128 0 [4], padTo 128 0 [5]] }
def cs11 : State := { doors with twin := { doors.twin with custody := some cuR } }
def snp : Snapshot := { num := 1, rung := 4, object := 0, full := true, at_ := 0, len := 100, pinned := true, groups := [1] }
def ss11 : State := { doors with store := { doors.store with snapA := some snp } }
def bufS (k : Nat) (t : Nat) : State := { doors with jrn := { doors.jrn with buf := (List.range k).map fun i => jr (i + 1), bufSince := t, nextNum := k + 1 } }
def bw (op : Option Nat) (st : Bool) : BankWrite := { bankB := true, bank := { valid := true, unit := some 5, seq := 7, set := { text := [((.st 4, .ROLE), .w "LAMP")], safety := some [((.unit, .SYSID), .i 9)], twin := some 8 } }, op, staged := st, started := 5 }
def bws (p : Prog) (st : Bool) : State := let s := withOp doors p; { s with store := { s.store with write := some (bw (some 0) st) } }
def wk1 (s : State) (v : Nat) : LineIn := lineSample s 20000 v s.sup.wakein
def jR (q : JQuery) : List JRec := ((byNum js).filter fun x => inQuery q x.num x.stamp x.code x.station x.bad).take q.count
def jT (q : JQuery) : List Reply := gapLine q ((((byNum js).filter fun x => !x.bad).head?).map (·.num)) ++ ((jR q).map fun x => recLines x.num (recBytes x) x.bad).flatten
def cT : List Reply := gapLine {} (cuR.records.head?.map fun x => fieldAt x 0 8) ++ ((cuR.records.take 1000).map fun x => recLines (fieldAt x 0 8) (markCustody x) false).flatten

/-! ## Ill-formed commands -/

theorem test_wf_session : Port.wf (.session 64) = false ∧ Port.wf (.session 63) = true := by decide
theorem test_wf_unit : Line.wf { ln "SHOW U0412/S03" with unit := some 411 } = false ∧ Line.wf { ln "SHOW U0412/S03" with unit := some 412 } = true := by
  decide +kernel
theorem test_wf_spelled : Instr.wf (.lamp (ln "LAMP S02/LB OFF") (.items [.over 2 2 .lb]) true) = false
    ∧ Instr.wf (.lamp (ln "LAMP S02/LB ON") (.items [.over 2 2 .lb]) true) = true := by decide +kernel
theorem test_wf_frame : frameWf (List.replicate 1501 0) = false ∧ frameWf (List.replicate 1500 0) = true := by decide +kernel
theorem test_wf_instruction_frame : Instr.wf (.downlinkFrame 0 (List.replicate 1501 0)) = false := by decide +kernel

/-! ## Lines as their characters spell them (R87 to R93) -/

/-- A station has two digits (R89): `S7` is answered E01 and names the field. -/
theorem test_spell_station : lineCommand (ln "OPEN S7") = .unknownVerb (ln "OPEN S7") (some "S7") := by decide +kernel
/-- A range whose first is greater than its last is answered E01 (R90). -/
theorem test_spell_range : lineCommand (ln "OPEN S05-S04") = .unknownVerb (ln "OPEN S05-S04") (some "S05-S04") := by decide +kernel
/-- A move to 12.5 mm (R92, R484). -/
theorem test_spell_move : lineCommand (ln "MOVE S02 POS=12.5mm") = .move (ln "MOVE S02 POS=12.5mm") 2 (.pos { mant := 125, decimals := 1, suffix := some .mm }) {} := by
  decide +kernel

/-- What holds of the content of an option holds of everything it is. -/
theorem all_some {α : Type} {o : Option α} {p : α → Prop} [DecidablePred p]
    (h : (match o with | none => true | some a => decide (p a)) = true) : ∀ a, o = some a → p a := by
  intro a ha
  subst ha
  exact of_decide_eq_true h


/-! ## Witnesses of the statements about the whole machine -/

theorem witness_StepRunsFront :
    ∃ (c : Instr) (rest : List Instr) (s : State), s.pending = c :: rest :=
  ⟨.journalFlush, [.live (ln "LIVE?")], { State.reset with pending := [.journalFlush, .live (ln "LIVE?")] }, rfl⟩
theorem witness_EmptyQueueLetsTimePass : ∃ s : State, s.pending = [] := ⟨up, rfl⟩
theorem witness_EveryCommandCompletes :
    ∃ i : Instr, ∀ x p e, i ≠ .laneSelfTestEnd x p e := ⟨.journalFlush, fun _ _ _ h => nomatch h⟩
theorem witness_SafeStateStaysLatched :
    ∃ s t : State, step s = .next t ∧ (∀ x p e, s.pending.head? ≠ some (.laneSelfTestEnd x p e)) ∧ s.camp.safe = true :=
  ⟨{ up with pending := [.journalFlush], camp := { up.camp with safe := true } }, _, rfl,
    (by intro x p e h; exact absurd (Option.some.inj h) (fun h => nomatch h)), rfl⟩
theorem witness_PoolFlagKeptByEveryStep : ∃ s t : State, poolFlagged s ∧ step s = .next t :=
  ⟨{ up with pending := [.journalFlush] }, _, by unfold poolFlagged; decide +kernel, rfl⟩
theorem witness_OperationIdsFresh : ∃ s t : State, idsFresh s ∧ step s = .next t :=
  ⟨{ up with pending := [.journalFlush] }, _, by unfold idsFresh; decide +kernel, rfl⟩
theorem witness_SettleOfACalmUnit : ∃ s u : State, calm s u = true := ⟨up, up, by decide +kernel⟩
theorem witness_SettleKeeps : ∃ u : State, u.slp.commit = none ∧ (∀ e ∈ u.sess, e.2.st ≠ .held) ∧ (∀ e ∈ u.st, e.2.stepRefs = false) :=
  ⟨up, by decide +kernel⟩

/-! ## Witnesses of the clauses of the other statements -/

theorem witness_EarlyErrorsAnswered :
    (∃ (i : Instr) (l : Line) (n : Nat) (s : State) (e : Err), lineOf i = some l ∧ i ≠ .commentLine l ∧ reached n l s = true ∧ earlyTests l s = some e) :=
  ⟨(.ref { ln "REF S00" with framed := .gen, term := .crlf} 0), { ln "REF S00" with framed := .gen, term := .crlf}, 1, gs, { code := 10, detail := .word "missing" }, by decide +kernel⟩

theorem witness_TagsAndUnreadLines :
    (∃ (i : Instr) (l : Line) (n t : Nat) (s : State) (e : TagEntry), lineOf i = some l ∧ i ≠ .commentLine l ∧ reached n l s = true ∧ earlyTests l s = none ∧ lineTag l = some t ∧ (s.ses n).tags.find? (·.tag = t) = some e) ∧
    (∃ (i : Instr) (l : Line) (n : Nat) (s : State), lineOf i = some l ∧ i ≠ .commentLine l ∧ l.port = .session n ∧ n ≠ 0 ∧ s.head.started = true ∧ (s.ses n).st = .opn ∧ noRoom l n s = false ∧ ignoredLine (framedIn s l) = false ∧ (canRead s n = false ∨ ∃ e ∈ s.inbuf, canRead s e.ses = true)) ∧
    (∃ (i : Instr) (l : Line) (n : Nat) (s : State), lineOf i = some l ∧ i ≠ .commentLine l ∧ l.port = .session n ∧ s.head.started = true ∧ (s.ses n).st = .opn ∧ noRoom l n s = true) ∧
    (∃ (i : Instr) (l : Line) (n : Nat) (s : State), lineOf i = some l ∧ i ≠ .commentLine l ∧ reached n l s = true ∧ slotWaits n l (lineSpec s l.port l i) s = true) :=
  ⟨⟨(.ref (ln "#7 REF S00") 0), (ln "#7 REF S00"), 1, 7, tg, { tag := 7, text := ascii " REF S00", reply := some (eqR "ref" [.n 1]) }, by decide +kernel⟩,
   ⟨(.ref (ln "#7 REF S00") 0), (ln "#7 REF S00"), 1, { up with inbuf := [{ ses := 1, line := ln "REF S01", cmd := .ref (ln "REF S01") 1, at_ := 5 }] }, by decide +kernel⟩,
   ⟨(.ref (ln "#7 REF S00") 0), (ln "#7 REF S00"), 1, brim, by decide +kernel⟩,
   ⟨(.save (ln "SAVE")), (ln "SAVE"), 1, ioRst, by decide +kernel⟩⟩

theorem witness_UnknownAndCommentLines :
    (∃ (l : Line) (f : Option String) (n : Nat) (s : State), heard n l s = true) ∧
    (∃ (l : Line) (n : Nat) (s : State), l.port = .session n ∧ s.head.started = true ∧ (s.ses n).st = .opn) :=
  ⟨⟨(ln "#7 FOO"), none, 1, up, by decide +kernel⟩,
   ⟨(ln "; x"), 1, up, by decide +kernel⟩⟩

theorem witness_ModeVerbs :
    (∃ (l : Line) (n : Nat) (s : State), taken n l (modeSpec .typed none) s = true) ∧
    (∃ (l : Line) (r : Option Bool) (n : Nat) (s : State), taken n l (modeSpec .gen r) s = true) :=
  ⟨⟨(ln "MODE TYPED"), 1, up, by decide +kernel⟩,
   ⟨(ln "MODE GEN"), none, 1, up, by decide +kernel⟩⟩

theorem witness_LoginGivesAuthority :
    (∃ (l : Line) (n : Nat) (s : State), taken n l (loginSafetySpec l.port) s = true) ∧
    (∃ (l : Line) (n : Nat) (s : State), heard n l s = true ∧ worded l s = true ∧ l.unit = none ∧ (n ≠ 0 ∨ s.camp.key.active = false)) ∧
    (∃ (l : Line) (n : Nat) (s : State), taken n l loginOffSpec s = true) :=
  ⟨⟨(ln0 "LOGIN SAFETY"), 0, keyed, by decide +kernel⟩,
   ⟨(ln "LOGIN SAFETY"), 1, up, by decide +kernel⟩,
   ⟨(ln "LOGIN OFF"), 1, up, by decide +kernel⟩⟩

theorem witness_TypedEditing :
    (∃ (n : Fin 64) (b : Byte) (s : State), s.head.started = true ∧ (s.ses n).st = .opn ∧ (s.ses n).mode = .typed ∧ (b = 0x0D#8 ∨ b = 0x0A#8 ∧ (s.ses n).afterCr = false) ∧ (s.ses n).typedLost = false ∧ consoleFull s n = false) ∧
    (∃ (n : Fin 64) (b : Byte) (s : State), s.head.started = true ∧ (s.ses n).st = .opn ∧ (s.ses n).mode = .typed ∧ b ≠ 0x0D#8 ∧ (b = 0x0A#8 → (s.ses n).afterCr = true) ∧ consoleFull s n = false) ∧
    (∃ (n : Fin 64) (b : Byte) (s : State), s.head.started = true ∧ (s.ses n).st = .opn ∧ (s.ses n).mode = .typed ∧ b ≠ 0x0D#8 ∧ b ≠ 0x0A#8 ∧ consoleFull s n = true) :=
  ⟨⟨1, 0x0D#8, ty, by decide +kernel⟩,
   ⟨1, 8, ty, by decide +kernel⟩,
   ⟨0, 0x42#8, full16, by decide +kernel⟩⟩

theorem witness_ConnectionsAndHolds :
    (∃ (s : State) (n : Nat), netUp s = true ∧ 0 < n ∧ n < 64 ∧ (s.ses n).st = .free ∧ (∀ k, 0 < k → k < n → (s.ses k).st ≠ .free)) ∧
    (∃ (n : Fin 64) (s : State), n ≠ 0 ∧ (s.ses n).st = .opn ∧ 0 < (s.ses n).hold) ∧
    (∃ (n : Fin 64) (s : State), n ≠ 0 ∧ (s.ses n).st = .opn ∧ 0 < (s.ses n).hold ∧ 0 < (s.ses n).idle ∧ (s.ses n).lastLine + 1000000 * (s.ses n).idle ≤ s.now) ∧
    (∃ (n : Fin 64) (s : State), (s.ses n).st = .held ∧ (s.ses n).holdUntil ≤ s.now) ∧
    (∃ (n : Fin 64) (k : Nat) (s : State), (s.ses n).st = .opn ∧ (s.ses n).lost = 0 ∧ (∀ e ∈ s.inbuf, e.ses ≠ n ∧ canRead s e.ses = false) ∧ noJournal s = true) ∧
    (∃ (l : Line) (m n : Nat) (token : W32) (s : State), taken m l (loginResumeSpec l.port n token) s = true) ∧
    (∃ (l : Line) (n : Nat) (s : State), taken n l (loginEndSpec l.port) s = true) :=
  ⟨⟨up, 2, by refine ⟨?_, ?_, ?_, ?_, (by intro k h0 h1; have h : k = 1 := (by omega); subst h; decide +kernel)⟩ <;> decide +kernel⟩,
   ⟨1, up, by decide +kernel⟩,
   ⟨1, up, by decide +kernel⟩,
   ⟨2, heldS, by decide +kernel⟩,
   ⟨1, 1, (up.modSes 1 fun x => { x with out := [eqR "a", eqR "b"] }), by decide +kernel⟩,
   ⟨(ln "LOGIN RESUME=2 TOKEN=0000_0009"), 1, 2, 9, heldS, by decide +kernel⟩,
   ⟨(ln "LOGIN END"), 1, up, by decide +kernel⟩⟩

theorem witness_QuestionsOnlyAnswer :
    (∃ (l : Line) (n : Nat) (s : State), taken n l askUnitsSpec s = true) ∧
    (∃ (l : Line) (n : Nat) (s : State), taken n l askVersionSpec s = true) ∧
    (∃ (l : Line) (o : Obj) (ks : List Key) (n : Nat) (s : State), taken n l (getSpec l.port o ks) s = true) ∧
    (∃ (l : Line) (o : ShowObj) (n : Nat) (s : State), taken n l (showSpec l.port o) s = true) ∧
    (∃ (l : Line) (n : Nat) (s : State), taken n l (liveSpec l.port) s = true) :=
  ⟨⟨(ln "ASK UNITS"), 1, up, by decide +kernel⟩,
   ⟨(ln "ASK VERSION"), 1, up, by decide +kernel⟩,
   ⟨(ln "GET S00 ROLE"), (.st 0), [.ROLE], 1, up, by decide +kernel⟩,
   ⟨(ln "SHOW S00"), (.obj (.st 0)), 1, up, by decide +kernel⟩,
   ⟨(ln "LIVE?"), 1, up, by decide +kernel⟩⟩

theorem witness_SetOneKey :
    (∃ (l : Line) (o : Obj) (k : Key) (v : Val) (w : KVal) (n : Nat) (s : State), taken n l (setSpecIn s l.port (.obj o) [(k, v)]) s = true ∧ (s.ses n).staging = none ∧ (∀ c, o ≠ .cam c) ∧ k ≠ .SKEY ∧ asgVal s (o, k, v) = some w ∧ actionKey o k = false ∧ isSafety s o k = true) ∧
    (∃ (l : Line) (o : Obj) (k : Key) (v : Val) (w : KVal) (n : Nat) (s : State), taken n l (setSpecIn s l.port (.obj o) [(k, v)]) s = true ∧ (s.ses n).staging = none ∧ (∀ c, o ≠ .cam c) ∧ k ≠ .ROLE ∧ asgVal s (o, k, v) = some w ∧ actionKey o k = false ∧ isSafety s o k = false ∧ clipOf s o k (kInt w) = none) ∧
    (∃ (l : Line) (x n : Nat) (s : State), taken n l (setSpecIn s l.port (.obj .unit) [(.SKEY, .hexkey x)]) s = true ∧ (s.ses n).staging = none) :=
  ⟨⟨(ln0 "SET S00 CSPEED=100"), (.st 0), .CSPEED, (.num (num 100)), (.i 100000), 0, ah, by decide +kernel, by decide +kernel, (fun _ h => nomatch h), by decide +kernel⟩,
   ⟨(ln "SET S00 SIDE=R"), (.st 0), .SIDE, (.word "R"), (.w "R"), 1, up, by decide +kernel, by decide +kernel, (fun _ h => nomatch h), by decide +kernel⟩,
   ⟨(ln0 "SET UNIT SKEY=01"), 1, 0, ah, by decide +kernel⟩⟩

theorem witness_SetClippedOrStaged :
    (∃ (l : Line) (m : Nat) (k : Key) (v : Val) (w : KVal) (x : Int) (n : Nat) (s : State), taken n l (setSpecIn s l.port (.obj (.st m)) [(k, v)]) s = true ∧ (s.ses n).staging = none ∧ k ≠ .ROLE ∧ asgVal s (.st m, k, v) = some w ∧ isSafety s (.st m) k = false ∧ clipOf s (.st m) k (kInt w) = some x) ∧
    (∃ (l : Line) (o : Obj) (k : Key) (v : Val) (w : KVal) (q : List (Sum ((Obj × Key) × KVal) Err)) (n : Nat) (s : State), taken n l (setSpecIn s l.port (.obj o) [(k, v)]) s = true ∧ (s.ses n).staging = some q ∧ (∀ c, o ≠ .cam c) ∧ asgVal s (o, k, v) = some w ∧ actionKey o k = false ∧ isSafety s o k = false ∧ (s.ses n).stagedBytes + (lineText l).length ≤ 524220) :=
  ⟨⟨(ln "SET S00 PERSIST=16"), 0, .PERSIST, (.num (num 16)), (.i 16000), 15000, 1, up, by decide +kernel⟩,
   ⟨(ln "SET S00 SIDE=R"), (.st 0), .SIDE, (.word "R"), (.w "R"), [], 1, sg, by decide +kernel, by decide +kernel, (fun _ h => nomatch h), by decide +kernel⟩⟩

theorem witness_ActionKeys :
    (∃ (l : Line) (v : Lit) (x : Int) (n : Nat) (s : State), taken n l (setSpecIn s l.port (.obj .line) (posKvs v)) s = true ∧ asgVal s (.line, .POS, .num v) = some (.i x)) ∧
    (∃ (l : Line) (v : Lit) (x : Int) (n : Nat) (s : State), taken n l (setSpecIn s l.port (.obj .time) [(.VALUE, .num v)]) s = true ∧ asgVal s (.time, .VALUE, .num v) = some (.i x)) ∧
    (∃ (l : Line) (p n : Nat) (s : State), taken n l (setSpecIn s l.port (.obj (.sl p)) [(.SERVICE, .word "ON")]) s = true) ∧
    (∃ (l : Line) (m : Nat) (c : Chan) (v : Lit) (x : Int) (n : Nat) (s : State), taken n l (setSpecIn s l.port (.obj (.ch m c)) [(.COUNT, .num v)]) s = true ∧ asgVal s (.ch m c, .COUNT, .num v) = some (.i x)) :=
  ⟨⟨(ln "SET LINE POS=5"), (num 5), 5, 1, up, by decide +kernel⟩,
   ⟨(ln "SET TIME VALUE=5"), (num 5), 5, 1, up, by decide +kernel⟩,
   ⟨(ln "SET SL0 SERVICE=ON"), 0, 1, (up.modSlc 0 fun x => { x with service := false }), by decide +kernel⟩,
   ⟨(ln "SET S00/IN0 COUNT=5"), 0, .in0, (num 5), 5, 1, up, by decide +kernel⟩⟩

theorem witness_WatchBegins :
    (∃ (l : Line) (objs : List ObjSel) (rate : Option Lit) (r : Int) (n : Nat) (s : State), taken n l (watchSpec objs rate) s = true ∧ watchRate rate = some r) :=
  ⟨(ln "WATCH S00"), [.obj (.st 0)], none, 10, 1, up, by decide +kernel⟩

theorem witness_BudgetPolicies :
    (∃ (l : Line) (o : Obj) (k : Key) (x : Lit) (lo bound v : Int) (n : Nat) (s : State), taken n l (budgetSpec o [(k, x)]) s = true ∧ budgetVal s o k x = some (lo, bound, some v)) ∧
    (∃ (l : Line) (n : Nat) (s : State), taken n l budgetClearSpec s = true) :=
  ⟨⟨(ln "BUDGET BUSA PEAK=50"), (.bus 0), .PEAK, (num 50), 1000, 100000, 50000, 1, up, by decide +kernel⟩,
   ⟨(ln "BUDGET CLEAR"), 1, (up.modYar fun y => { y with unitCap := some 5 }), by decide +kernel⟩⟩

theorem witness_DoorsAskAdmission :
    (∃ (l : Line) (sts : StSel) (side : Option Side) (auto : Option Bool) (n : Nat) (s : State), taken n l (openSpec sts side auto) s = true ∧ (∀ m ∈ openKept s sts side auto, isRole s m "STEP" = false ∧ (s.stn m).doorOp = none ∧ (s.stn m).wait = none ∧ (s.stn m).learning = none ∧ (s.stn m).stepRefs = false ∧ ((s.stn m).leaf = .closedLocked ∨ (s.stn m).leaf = .held))) ∧
    (∃ (l : Line) (sts : StSel) (side : Option Side) (n : Nat) (s : State), taken n l (closeSpec sts side) s = true ∧ (∀ m ∈ closeKept s sts side, isRole s m "STEP" = false ∧ (s.stn m).doorOp = none ∧ (s.stn m).wait = none ∧ (s.stn m).learning = none ∧ ((s.stn m).leaf = .opn ∨ (s.stn m).leaf = .held))) :=
  ⟨⟨(ln "OPEN S00"), (one 0), none, none, 1, doors, by decide +kernel⟩,
   ⟨(ln "CLOSE S00"), (one 0), none, 1, (doors.modStn 0 fun t => { t with leaf := .opn }), by decide +kernel⟩⟩

theorem witness_DoorCommandsTurn :
    (∃ (l : Line) (sts : StSel) (side : Option Side) (auto : Option Bool) (m n : Nat) (s : State), taken n l (openSpec sts side auto) s = true ∧ openKept s sts side auto = [m] ∧ isRole s m "STEP" = false ∧ (s.stn m).leaf = .closing ∧ (s.ax m).motion = none) ∧
    (∃ (l : Line) (sts : StSel) (side : Option Side) (m n : Nat) (s : State), taken n l (closeSpec sts side) s = true ∧ closeKept s sts side = [m] ∧ isRole s m "STEP" = false) :=
  ⟨⟨(ln "OPEN S00"), (one 0), none, none, 0, 1, (dl doors 0 .closing), by decide +kernel⟩,
   ⟨(ln "CLOSE S00"), (one 0), none, 0, 1, (dl doors 0 .opening), by decide +kernel⟩⟩

theorem witness_StopAndResume :
    (∃ (l : Line) (sts : StSel) (hard : Bool) (n : Nat) (s : State), taken n l (stopSpec sts hard) s = true ∧ (∀ m ∈ axNamed s sts, (s.ax m).motion = none ∧ (isLeaf s m = true → leafMoves (s.stn m).leaf = false)) ∧ idsFresh s) ∧
    (∃ (l : Line) (sts : StSel) (hard : Bool) (m i n : Nat) (x : Motion) (s : State), taken n l (stopSpec sts hard) s = true ∧ axNamed s sts = [m] ∧ (s.ax m).motion = some x ∧ x.phase ≠ .held ∧ x.op = some i ∧ isLeaf s m = false) ∧
    (∃ (l : Line) (sts : StSel) (hard : Bool) (m n : Nat) (x : Motion) (s : State), taken n l (stopSpec sts hard) s = true ∧ axNamed s sts = [m] ∧ (s.ax m).motion = some x ∧ x.phase ≠ .held ∧ x.op = none ∧ isLeaf s m = true ∧ leafMoves (s.stn m).leaf = true) ∧
    (∃ (l : Line) (sts : StSel) (n : Nat) (s : State), taken n l (resumeSpec sts) s = true ∧ (axNamed s sts).filter (resumable s) = []) ∧
    (∃ (l : Line) (sts : StSel) (m n : Nat) (b : Bool) (s : State), taken n l (resumeSpec sts) s = true ∧ (axNamed s sts).filter (resumable s) = [m] ∧ (s.ax m).motion = none ∧ (s.stn m).kept = some b) ∧
    (∃ (l : Line) (sts : StSel) (m n : Nat) (x : Motion) (s : State), taken n l (resumeSpec sts) s = true ∧ (axNamed s sts).filter (resumable s) = [m] ∧ (s.ax m).motion = some x ∧ x.phase = .held) :=
  ⟨⟨(ln "STOP S00"), (one 0), false, 1, doors, by decide +kernel, by decide +kernel, by unfold idsFresh; decide +kernel⟩,
   ⟨(ln "STOP S02"), (one 2), false, 2, 0, 1, ((lmv.ax 2).motion.getD (mv .held none)), lmv, by decide +kernel⟩,
   ⟨(ln "STOP S00"), (one 0), false, 0, 1, ((dmv.ax 0).motion.getD (mv .held none)), dmv, by decide +kernel⟩,
   ⟨(ln "RESUME S00"), (one 0), 1, doors, by decide +kernel⟩,
   ⟨(ln "RESUME S00"), (one 0), 0, 1, true, ((dl doors 0 .held).modStn 0 fun t => { t with kept := some true }), by decide +kernel⟩,
   ⟨(ln "RESUME S02"), (one 2), 2, 1, (mv .held (some 0)), lmh, by decide +kernel⟩⟩

theorem witness_IsolateLeaves :
    (∃ (l : Line) (sts : StSel) (n : Nat) (s : State), taken n l (isolateSpec sts true) s = true) ∧
    (∃ (l : Line) (sts : StSel) (n : Nat) (s : State), taken n l (isolateSpec sts false) s = true) :=
  ⟨⟨(ln0 "ISOLATE S00 ON"), (one 0), 0, (doors.modSes 0 fun x => { x with auth := true }), by decide +kernel⟩,
   ⟨(ln0 "ISOLATE S00 OFF"), (one 0), 0, iso, by decide +kernel⟩⟩

theorem witness_LampAndFlash :
    (∃ (l : Line) (chs : ChSel) (on : Bool) (n : Nat) (s : State), taken n l (lampSpec chs on) s = true) ∧
    (∃ (l : Line) (chs : ChSel) (p : Lit) (ph d : Option Lit) (n : Nat) (s : State), taken n l (flashSpec chs p ph d) s = true) :=
  ⟨⟨(ln "LAMP S00/LB ON"), (.items [.over 0 1 .lb]), true, 1, up, by decide +kernel⟩,
   ⟨(ln "FLASH S00/LB PERIOD=1000"), (.items [.over 0 1 .lb]), (num 1000), none, none, 1, up, by decide +kernel⟩⟩

theorem witness_OutDrives :
    (∃ (l : Line) (chs : ChSel) (on : Bool) (n : Nat) (s : State), taken n l (outSpec chs on) s = true) :=
  ⟨(ln "OUT S02/OUT0 ON"), (.items [.over 2 3 .out1]), true, 1, doors, by decide +kernel⟩

theorem witness_ProveForms :
    (∃ (l : Line) (o : Obj) (m : Nat) (b : Bool) (t : List (Nat × Bool)) (n : Nat) (s : State), taken n l (proveLearnSpec o) s = true ∧ learnChannels s o = (m, b) :: t) ∧
    (∃ (l : Line) (o : Obj) (m n : Nat) (s : State), taken n l (proveReturnSpec o) s = true ∧ (o = .st m ∨ o = .ch m .la)) ∧
    (∃ (l : Line) (n : Nat) (s : State), taken n l proveLoopSpec s = true ∧ s.camp.a.loop = true ∧ s.camp.b.loop = true) ∧
    (∃ (l : Line) (n : Nat) (s : State), taken n l proveLoopSpec s = true ∧ (s.camp.a.loop = false ∨ s.camp.b.loop = false) ∧ idsFresh s) :=
  ⟨⟨(ln0 "PROVE S02/LA LEARN"), (.ch 2 .la), 2, false, [], 0, (authed lm), by decide +kernel⟩,
   ⟨(ln "PROVE S02/LA RETURN"), (.ch 2 .la), 2, 1, ret, by decide +kernel⟩,
   ⟨(ln "PROVE LOOP"), 1, (looped up), by decide +kernel⟩,
   ⟨(ln "PROVE LOOP"), 1, up, by decide +kernel, by decide +kernel, by unfold idsFresh; decide +kernel⟩⟩

theorem witness_MotionsBegin :
    (∃ (l : Line) (m : Nat) (t : MoveTgt) (k : MotionKeys) (g : Int × Bool) (n : Nat) (s : State), taken n l (moveSpec m t k) s = true ∧ moveGoal s m t = some g ∧ idsFresh s) ∧
    (∃ (l : Line) (m : Nat) (f : Option Nat) (n : Nat) (s : State), taken n l (followSpec m f) s = true ∧ idsFresh s) ∧
    (∃ (l : Line) (m : Nat) (t : MoveTgt) (k : MotionKeys) (n : Nat) (s : State), taken n l (jogSpec m t k) s = true ∧ idsFresh s) ∧
    (∃ (l : Line) (m n : Nat) (s : State), taken n l (refSpec m) s = true ∧ idsFresh s) ∧
    (∃ (l : Line) (m c : Nat) (t : TB) (off : Option Lit) (n : Nat) (s : State), taken n l (camSpec m c (.tb t) off) s = true ∧ idsFresh s) ∧
    (∃ (l : Line) (m times n : Nat) (s : State), taken n l (refLearnSpec m times) s = true ∧ idsFresh s) :=
  ⟨⟨(ln "MOVE S02 DIST=100"), 2, (.dist (num 100)), {}, (100, true), 1, (lm.modAx 2 fun a => { a with referenced := true }), by decide +kernel, by decide +kernel, by unfold idsFresh; decide +kernel⟩,
   ⟨(ln "MOVE S02 FOLLOW=PORT FACT=4"), 2, (some 4), 1, lm, by decide +kernel, by unfold idsFresh; decide +kernel⟩,
   ⟨(ln "JOG S02 DIST=100"), 2, (.dist (num 100)), {}, 1, lm, by decide +kernel, by unfold idsFresh; decide +kernel⟩,
   ⟨(ln "REF S02"), 2, 1, (homed lm), by decide +kernel, by unfold idsFresh; decide +kernel⟩,
   ⟨(ln "CAM S02 TABLE=3 MASTER=TIME"), 2, 3, .time, none, 1, (cammed (lm.modAx 2 fun a => { a with referenced := true })), by decide +kernel, by unfold idsFresh; decide +kernel⟩,
   ⟨(ln0 "REF S00 LEARN=3"), 0, 3, 0, (authed doors), by decide +kernel, by unfold idsFresh; decide +kernel⟩⟩

theorem witness_AtArms :
    (∃ (l : Line) (a : AtArgs) (k : Nat) (v : Int) (n : Nat) (s : State), taken n l (atSpec l a (verbSpec s l.port a.doVerb)) s = true ∧ idsFresh s ∧ freeSlot s = some k ∧ triggerOf s a = some v) :=
  ⟨(ln "AT TIME VALUE=+1000 DO=(LAMP S02/LB ON)"), at0, 1024, 100000001000, 1, up, by decide +kernel, by unfold idsFresh; decide +kernel, by decide +kernel⟩

theorem witness_CancelEnds :
    (∃ (l : Line) (tag : Option Nat) (n : Nat) (s : State), taken n l (cancelSpec verbSpec l tag) s = true ∧ relayedTo s n tag = none ∧ cancelled s n tag = []) ∧
    (∃ (l : Line) (tag : Option Nat) (m n : Nat) (o : Op) (x : Motion) (s : State), taken n l (cancelSpec verbSpec l tag) s = true ∧ relayedTo s n tag = none ∧ s.crossings = [] ∧ cancelled s n tag = [o] ∧ s.opOf o.id = some o ∧ o.prog = .motion m ∧ (s.ax m).motion = some x ∧ (x.phase = .waiting ∨ x.phase = .held) ∧ noResume s m = true) :=
  ⟨⟨(ln "CANCEL ALL"), none, 1, up, by decide +kernel⟩,
   ⟨(ln "CANCEL #9"), (some 9), 2, 1, mOp, (mv .waiting (some 0)), (wtM.modEnt 1100 fun e => { e with kind := .command, st := .executing, session := 1 }), by decide +kernel⟩⟩

theorem witness_EventsFire :
    (∃ (x : Crossing) (r : List Crossing) (s : State), s.head.started = true ∧ s.noTime .evt = false ∧ s.crossings = x :: r ∧ ((s.ent x.slot).st ≠ .armed ∨ (s.ent x.slot).tb.toNat ≠ tbCode x.tb)) ∧
    (∃ (x : Crossing) (r : List Crossing) (s : State), s.head.started = true ∧ s.noTime .evt = false ∧ s.crossings = x :: r ∧ (s.ent x.slot).st = .armed ∧ (s.ent x.slot).tb.toNat = tbCode x.tb ∧ (s.ent x.slot).kind = .system ∧ x.slot % 16 = 3) ∧
    (∃ (x : Crossing) (r : List Crossing) (o : Op) (chs : ChSel) (on : Bool) (base : Int) (fired : List (Nat × Int × Bool × Bool)) (n : Nat) (s : State), s.head.started = true ∧ s.noTime .evt = false ∧ s.crossings = x :: r ∧ (s.ent x.slot).st = .armed ∧ (s.ent x.slot).tb.toNat = tbCode x.tb ∧ (s.ent x.slot).kind = .event ∧ (s.ent x.slot).rep = false ∧ opAt s x.slot = some o ∧ s.opOf o.id = some o ∧ o.within = none ∧ o.port = .session n ∧ o.prog = .event (.lamp chs on) base fired ∧ lateTests o.port false { lampSpec chs on with slots := fun _ => 0 } s = none) :=
  ⟨⟨cr4, [], { up with crossings := [cr4] }, by decide +kernel⟩,
   ⟨cr3, [cr4], ({ up with crossings := [cr3, cr4] }.modEnt 3 fun e => { e with kind := .system, st := .armed, tb := 0 }), by decide +kernel⟩,
   ⟨cr4, [], evOp, (.items [.over 2 2 .lb]), true, 0, [], 1, evS, by decide +kernel⟩⟩

theorem witness_RearmAndRate :
    (∃ (k : Nat) (o : Op) (s : State), opAt s k = some o ∧ (s.ent k).kind = .event ∧ (s.ent k).st = .rearm ∧ s.noTime .evt = false ∧ timeLike (opTb o) = false ∧ backBeyond (s.ent k) (tbValue s (opTb o)) = true) ∧
    (∃ (k : Nat) (x : Obj) (w : Op) (objs : List Obj) (rate at_ c n : Nat) (marks : List (Obj × Nat × Nat)) (y : Obj) (s : State), opAt s k = some w ∧ w.prog = .watch objs rate marks ∧ marks.find? (·.1 = x) = some (y, at_, c) ∧ 0 < c ∧ at_ + rate ≤ s.now ∧ w.within = none ∧ w.port = .session n ∧ hears s n = true) :=
  ⟨⟨1024, rOp, rearm, by decide +kernel⟩,
   ⟨1024, (.st 0), wOp, [.st 0], 10000, 5, 2, 1, [(.st 0, 5, 2)], (.st 0), { up with ops := [wOp], nextOp := 1 }, by decide +kernel⟩⟩

theorem witness_ResetsOfSessionAndEngine :
    (∃ (l : Line) (j : Option Nat) (n : Nat) (s : State), taken n l (resetSessionSpec l.port j) s = true) ∧
    (∃ (l : Line) (e : Engine) (n : Nat) (s : State), taken n l (resetEngineSpec l.port e) s = true) ∧
    (∃ (e : Engine) (s : State), s.head.resetting = some e ∧ (e ≠ .int ∧ e ≠ .net ∧ e ≠ .io ∨ s.inbuf = [])) :=
  ⟨⟨(ln "RESET SESSION"), none, 1, { lmv with cfg := { lmv.cfg with cand := some [] } }, by decide +kernel⟩,
   ⟨(ln "RESET ENGINE MOT"), .mot, 1, lmv, by decide +kernel⟩,
   ⟨.mot, resS, by decide +kernel⟩⟩

theorem witness_SliceReset :
    (∃ (l : Line) (p n : Nat) (s : State), taken n l (resetSliceSpec l.port p) s = true) ∧
    (∃ (p : Fin 8) (m : Module) (s : State), due (s.slc p).restoreAt s.now = true ∧ s.head.powered = true ∧ enabled s p = true ∧ (s.slc p).seated = some m) ∧
    (∃ (p : Fin 8) (s : State), due (s.slc p).restoreAt s.now = true ∧ s.head.powered = true ∧ (s.slc p).seated = none) :=
  ⟨⟨(ln "RESET SLICE SL0"), 0, 1, lmv, by decide +kernel⟩,
   ⟨0, { type := 1, serial := 1, ins := 1 }, sOff, by decide +kernel⟩,
   ⟨0, (sOff.modSlc 0 fun x => { x with seated := none }), by decide +kernel⟩⟩

theorem witness_UnitAndPowerReset :
    (∃ (l : Line) (n : Nat) (s : State), taken n l (resetUnitSpec l.port) s = true) ∧
    (∃ (l : Line) (n : Nat) (s : State), taken n l (resetPowerSpec l.port) s = true) :=
  ⟨⟨(ln "RESET UNIT"), 1, lmv, by decide +kernel⟩,
   ⟨(ln "RESET POWER"), 1, lmv, by decide +kernel⟩⟩

theorem witness_ReplayRuns :
    (∃ (l : Line) (j : Nat) (a : Option Nat) (w : Option Lit) (q : Snapshot) (n : Nat) (s : State), taken n l (replaySpec j a w) s = true ∧ idsFresh s ∧ replaySnap s a = some q ∧ j ∉ q.partialG ∧ replayItems q j = []) ∧
    (∃ (l : Line) (j : Nat) (a : Option Nat) (w : Option Lit) (q : Snapshot) (i : SnapItem) (r : String) (n : Nat) (s : State), taken n l (replaySpec j a w) s = true ∧ idsFresh s ∧ replaySnap s a = some q ∧ j ∉ q.partialG ∧ replayItems q j = [i] ∧ skipReason i (itemSpec s l.port i) = some r) ∧
    (∃ (l : Line) (j : Nat) (a : Option Nat) (w : Option Lit) (q : Snapshot) (i : SnapItem) (chs : ChSel) (on : Bool) (n : Nat) (s : State), taken n l (replaySpec j a w) s = true ∧ idsFresh s ∧ replaySnap s a = some q ∧ replayItems q j = [i] ∧ i.verb = .lamp chs on ∧ i.text ≠ [] ∧ lateTests l.port false (lampSpec chs on) s = none) ∧
    (∃ (o : Op) (k ended d j m : Nat) (ch : List Nat) (s : State), s.ops = [o] ∧ o.prog = .replaying k ended ch d j ∧ o.within = none ∧ d ≤ s.now ∧ o.port = .session m ∧ hears s m = true) :=
  ⟨⟨(ln "REPLAY SESSION=1"), 1, none, none, snap, 1, (snapped []), by decide +kernel, by unfold idsFresh; decide +kernel, by decide +kernel⟩,
   ⟨(ln "REPLAY SESSION=1"), 1, none, none, { snap with items := [{ item with verb := .save }] }, { item with verb := .save }, "VERB", 1, (snapped [{ item with verb := .save }]), by decide +kernel, by unfold idsFresh; decide +kernel, by decide +kernel⟩,
   ⟨(ln "REPLAY SESSION=1"), 1, none, none, { snap with items := [item] }, item, (.items [.over 2 2 .lb]), true, 1, (snapped [item]), by decide +kernel, by unfold idsFresh; decide +kernel, by decide +kernel⟩,
   ⟨rpOp, 2, 1, 5, 1, 1, [2], { up with ops := [rpOp], nextOp := 1 }, by decide +kernel⟩⟩

theorem witness_SupervisorLive :
    (∃ (l : Line) (s : State), heardSup l s = true) :=
  ⟨{ port := .supervisor, chars := ascii "LIVE?", framed := .typed, term := .cr }, up, by decide +kernel⟩

theorem witness_FieldInputs :
    (∃ (n : Fin 64) (k : Fin 4) (v held : Nat) (i : Input) (raw : Bool) (s : State), i = (s.stn n).inp k ∧ (s.slc (slotOf n)).powered = true ∧ masked s n = false ∧ raw = inState s n i.raw v ∧ held = (if raw = i.raw then i.held + (openUs s n (s.now - (s.slc (slotOf n)).epoch) - openUs s n (i.rawAt - (s.slc (slotOf n)).epoch)) else 0)) ∧
    (∃ (n : Fin 64) (tap : Fin 4) (reading : Fin 16) (s : State), tapOff s n tap = false ∧ (sinceEpoch s n - 5000 * (tap.val : Int) - (tpw s n - 20)) % 20000 = 0) ∧
    (∃ (n : Fin 64) (k : Fin 4) (v t : Nat) (s : State), (s.slc (slotOf n)).powered = true ∧ masked s n = false ∧ ((s.stn n).inp k).owSince = some t) ∧
    (∃ (n : Fin 64) (k : Fin 4) (v : Nat) (i : Input) (s : State), i = (s.stn n).inp k ∧ (s.slc (slotOf n)).powered = true) ∧
    (∃ (n : Fin 64) (second rising : Bool) (sub : Fin 1500) (s : State), counts s n second rising = true ∧ (∀ e, ((s.stn n).inp (cntInput second)).edgeAt = some e → e + 6000 ≤ 1500 * s.now + sub)) ∧
    (∃ (n : Fin 64) (second rising : Bool) (sub : Fin 1500) (e : Nat) (s : State), fieldIs s n (inChan (cntInput second)) .CNT "OFF" = false ∧ ((s.stn n).inp (cntInput second)).edgeAt = some e ∧ 1500 * s.now + sub < e + 6000) ∧
    (∃ (n : Fin 64) (second : Bool) (i : Input) (s : State), i = (s.stn n).inp (cntInput second) ∧ fieldIs s n (inChan (cntInput second)) .CNT "OFF" = false ∧ i.gateStart + (kInt (fieldOf s (slotOf n) (.ch n (inChan (cntInput second))) .GATE)).toNat ≤ s.now) :=
  ⟨⟨2, 3, 20000, (fi f0 3 20000).2.2, (fi f0 3 20000).1, (fi f0 3 20000).2.1, f0, by decide +kernel⟩,
   ⟨2, 0, 3, (tpAt 0), by decide +kernel⟩,
   ⟨2, 3, 300, 50000000, (owd (lm.modInp 2 3 fun i => { i with owSince := some 50000000 })), by decide +kernel⟩,
   ⟨2, 3, 36000, (((ov3 fun i => { i with ovSince := some 99980000 }).stn 2).inp 3), (ov3 fun i => { i with ovSince := some 99980000 }), by decide +kernel⟩,
   ⟨2, false, true, 7, cnt, by decide +kernel, all_some (by decide +kernel)⟩,
   ⟨2, false, false, 999, (1500 * 100000000 - 5000), shp, by decide +kernel⟩,
   ⟨2, false, ((fg.stn 2).inp 0), fg, by decide +kernel⟩⟩

theorem witness_SensorSupply :
    (∃ (n : Fin 64) (i : Nat) (v : Sensor) (s : State), v = (s.stn n).sensor ∧ v.on = true) ∧
    (∃ (n : Fin 64) (k : Fin 4) (i : Nat) (v : Sensor) (s : State), v = (s.stn n).sensor ∧ tapOff s n k = false) ∧
    (∃ (n : Fin 64) (i : Nat) (v : Sensor) (s : State), v = (s.stn n).sensor ∧ v.restart = false ∧ v.overload = true ∧ v.retryAt ≤ s.now) ∧
    (∃ (n : Fin 64) (i : Nat) (v : Sensor) (s : State), v = (s.stn n).sensor ∧ v.restart = true) ∧
    (∃ (n : Fin 64) (k : Fin 4) (r i : Nat) (v : Sensor) (s : State), v = (s.stn n).sensor ∧ aget v.taps k.val = some r ∧ r ≤ s.now) ∧
    (∃ (n : Fin 64) (w : Nat) (v : Sensor) (s : State), v = (s.stn n).sensor ∧ (s.slc (slotOf n)).powered = true ∧ v.on = false ∧ v.overload = false ∧ v.overtemp = false ∧ v.restart = false) ∧
    (∃ (n : Fin 64) (die : Int) (s : State), ((s.stn n).sensor.on = true ∨ (s.stn n).sensor.restart = true) ∧ 150 ≤ die) ∧
    (∃ (n : Fin 64) (die : Int) (v : Sensor) (s : State), v = (s.stn n).sensor ∧ v.overtemp = true ∧ die ≤ 130) :=
  ⟨⟨2, 249, (sv (ss5 id)), (ss5 id), by decide +kernel⟩,
   ⟨2, 3, 49, (sv (ss5 fun x => { x with tapSince := [(3, 5)] })), (ss5 fun x => { x with tapSince := [(3, 5)] }), by decide +kernel⟩,
   ⟨2, 250, (sv ovl), ovl, by decide +kernel⟩,
   ⟨2, 249, (sv (rst id)), (rst id), by decide +kernel⟩,
   ⟨2, 3, 98000000, 50, (sv ovl), ovl, by decide +kernel⟩,
   ⟨2, 13999, (sv (s4 id)), (s4 id), by decide +kernel⟩,
   ⟨2, 150, (rst id), by decide +kernel⟩,
   ⟨2, 130, (sv (lm.modStn 2 fun t => { t with sensor := { overtemp := true } })), (lm.modStn 2 fun t => { t with sensor := { overtemp := true } }), by decide +kernel⟩⟩

theorem witness_FieldOutputs :
    (∃ (n : Fin 64) (b : Bool) (x : OutSample) (o : Output) (s : State), o = (s.stn n).outp b ∧ (s.slc (slotOf n)).powered = true) ∧
    (∃ (n : Fin 64) (b : Bool) (t : Nat) (s : State), ((s.stn n).outp b).overload = true ∧ ((s.stn n).outp b).latched = false ∧ ((s.stn n).outp b).overloads.getLast? = some t ∧ t + 100000 ≤ s.now) ∧
    (∃ (n : Fin 64) (b : Bool) (w : Nat) (o : Output) (s : State), o = (s.stn n).outp b ∧ o.on = true ∧ fieldIs s n (outChan b) .TPULSE "ON" = true ∧ sinceEpoch s n % 20000 = (if b then 7500 else 2500) ∧ (∀ t, o.pulseAt = some t → t + 1000000 ≤ s.now)) :=
  ⟨⟨2, false, { i := 1200, u := 0, die := 30 }, (ou (oN fun o => { o with limitSince := some 99998000 })), (oN fun o => { o with limitSince := some 99998000 }), by decide +kernel⟩,
   ⟨2, false, 99000000, (oS fun o => { o with overload := true, cmd := true, overloads := [99000000] }), by decide +kernel⟩,
   ⟨2, false, 4999, (ou (op6 id)), (op6 id), by refine ⟨?_, ?_, ?_, ?_, all_some (by decide +kernel)⟩ <;> decide +kernel⟩⟩

theorem witness_SwitchesTrip :
    (∃ (n : Fin 64) (w : Sw) (c : Conv) (s : State), betweenSamples s n w ∧ (s.sw n w).uvWait = false ∧ (s.sw n w).ramp = some true ∧ (s.sw n w).rampAt ≤ s.now) ∧
    (∃ (n : Fin 64) (w : Sw) (t : Nat) (s : State), (s.sw n w).inrush = some t ∧ t + (s.sw n w).window ≤ s.now) ∧
    (∃ (n : Fin 64) (w : Sw) (c : Conv) (t e : Nat) (s : State), betweenSamples s n w ∧ (s.sw n w).uvWait = false ∧ outputOn s n w = true ∧ (s.sw n w).inrush = some t ∧ s.now < t + (s.sw n w).window ∧ (s.sw n w).tone = none ∧ e = (s.sw n w).energy + convEnergy c (convNow s n w c)) ∧
    (∃ (n : Fin 64) (w : Sw) (c : Conv) (i h : Nat) (s : State), betweenSamples s n w ∧ (s.sw n w).uvWait = false ∧ (s.sw n w).inrush = none ∧ (s.sw n w).fuse = none ∧ i = convNow s n w c ∧ h = fuseStep (fuseSteps ((s.now - (s.sw n w).heatAt) / 50 - 1) (s.sw n w).heat (if outputOn s n w then (s.sw n w).cur else 0) (wireIn s n w) (wireTau s n w)) i (wireIn s n w) (wireTau s n w)) ∧
    (∃ (n : Fin 64) (w : Sw) (c : Conv) (t : Nat) (s : State), betweenSamples s n w ∧ (s.sw n w).uvWait = false ∧ outputOn s n w = true ∧ (s.sw n w).inrush = none ∧ (s.sw n w).short = none ∧ (s.sw n w).shortSince = some t ∧ steadyLimit w ≤ (sense w (s.sw n w).high (s.sw n w).downNext c).i ∧ 4 * c.out < c.u) ∧
    (∃ (n : Fin 64) (w : Sw) (c : Conv) (s : State), betweenSamples s n w ∧ (s.sw n w).uvWait = false ∧ (s.sw n w).tj = none) ∧
    (∃ (n : Fin 64) (w : Sw) (c : Conv) (t : Nat) (s : State), betweenSamples s n w ∧ (s.sw n w).uvWait = false ∧ outputOn s n w = false ∧ (s.sw n w).clamp = none ∧ (s.sw n w).lastClamp = some t) ∧
    (∃ (n : Fin 64) (w : Sw) (c : Conv) (s : State), betweenSamples s n w ∧ (s.sw n w).uvWait = false) ∧
    (∃ (n : Fin 64) (w : Sw) (c : Conv) (s : State), betweenSamples s n w ∧ (s.sw n w).uvWait = true ∧ (w = .fd → fieldKey s n .fd .UNOM ≠ .unset) ∧ actSw s n w = w) :=
  ⟨⟨2, .la, (cv 50 24000 23600), (onW .la fun x => { x with ramp := some true, rate := 1000 }), by unfold betweenSamples freeOfMotion; decide +kernel, by decide +kernel⟩,
   ⟨2, .la, 99000000, (onW .la fun x => { x with inrush := some 99000000, window := 1000 }), by decide +kernel⟩,
   ⟨2, .la, (cv 5000 24000 2000), 99999000, (te (tn .la 0) .la (cv 5000 24000 2000)), (tn .la 0), by unfold betweenSamples freeOfMotion; decide +kernel, by decide +kernel⟩,
   ⟨2, .la, (cv 500), (fi3 (hs 1000000000000) .la (cv 500)), (fh3 (hs 1000000000000) .la (cv 500)), (hs 1000000000000), by unfold betweenSamples freeOfMotion; decide +kernel, by decide +kernel⟩,
   ⟨2, .la, (cv 60000 24000 5000), 99999000, (sh 99999000), by unfold betweenSamples freeOfMotion; decide +kernel, by decide +kernel⟩,
   ⟨2, .la, (cv 50 24000 24000 165), (onW .la id), by unfold betweenSamples freeOfMotion; decide +kernel, by decide +kernel⟩,
   ⟨2, .la, (cv 500 24000 (-40000)), 95000000, (cl fun x => x), by unfold betweenSamples freeOfMotion; decide +kernel, by decide +kernel⟩,
   ⟨2, .la, (cv 50 24000), (onW .la id), by unfold betweenSamples freeOfMotion; decide +kernel, by decide +kernel⟩,
   ⟨2, .la, (cv 0 16000 0), (uw .la id), by unfold betweenSamples freeOfMotion; decide +kernel, by decide +kernel⟩⟩

theorem witness_SwitchSamples :
    (∃ (n : Fin 64) (w : Sw) (c : Conv) (a : Acc) (t : Nat) (s : State), completesSample s n w c ∧ a = sampled s n w c ∧ olJudged s n w a = true ∧ (s.sw n w).olSince = some t) ∧
    (∃ (n : Fin 64) (b : Bool) (c : Conv) (i t iset : Nat) (s : State), (s.slc (slotOf n)).powered = true ∧ (s.sw n (chanSw b)).acc.count < 19 ∧ tripCauses (chanSw b) s.now ((measure n (chanSw b) c s).sw n (chanSw b)) = [] ∧ (s.sw n (chanSw b)).uvWait = false ∧ (s.sw n (chanSw b)).inrush = none ∧ fieldKey s n (chanSw b) .MODE = .w "CC" ∧ outputOn s n (chanSw b) = true ∧ (s.sw n (chanSw b)).ramp ≠ some false ∧ (s.sw n (chanSw b)).complySince = some t ∧ iset = fieldN s n (chanSw b) .ISET ∧ i = convNow s n (chanSw b) c) ∧
    (∃ (n : Fin 64) (b : Bool) (v : Nat) (d : Nat × Bool) (s : State), cpMode s n (chanSw b) = true ∧ periodStart s n (chanSw b) = true ∧ d = dutyOf (fieldN s n (chanSw b) .PWR) (fieldN s n (chanSw b) .UREF) v) ∧
    (∃ (n : Fin 64) (w : Sw) (c : Conv) (s : State), betweenSamples s n w ∧ (s.sw n w).uvWait = false ∧ outputOn s n w = true ∧ tripCauses w s.now ((measure n w c (windowClose n w s)).sw n w) = []) ∧
    (∃ (n : Fin 64) (b p : Bool) (f : Flash) (x : Switch) (s : State), x = s.sw n (chanSw b) ∧ x.flash = some f ∧ actSw s n (chanSw b) = chanSw b ∧ p = flashOn f (fieldFlash s n)) :=
  ⟨⟨2, .la, (cv 50), (sampled (ol false 99980000) 2 .la (cv 50)), 99980000, (ol false 99980000), by unfold completesSample; decide +kernel, by decide +kernel⟩,
   ⟨2, false, (cv 5), (min (sense .la ((cc false 99980000).sw 2 .la).high ((cc false 99980000).sw 2 .la).downNext (cv 5)).i (steadyLimit .la)), 99980000, (ccTarget (cc false 99980000) 2 .la), (cc false 99980000), by decide +kernel⟩,
   ⟨2, false, 20000, (dutyOf (fieldN cp 2 .la .PWR) (fieldN cp 2 .la .UREF) 20000), cp, by decide +kernel⟩,
   ⟨2, .la, (cv 2400), (onW .la fun x => { x with heatAt := 99999950 }), by unfold betweenSamples freeOfMotion; decide +kernel, by decide +kernel⟩,
   ⟨2, false, (flashOn fl5 (fieldFlash (flS id 0) 2)), fl5, ((flS id 0).sw 2 .la), (flS id 0), by decide +kernel⟩⟩

theorem witness_LampsAreProved :
    (∃ (n : Fin 64) (b : Bool) (c : Conv) (a : Acc) (s : State), completesSample s n (chanSw b) c ∧ a = sampled s n (chanSw b) c ∧ litJudged s n (chanSw b) a ∧ litValue s n (chanSw b) (sampleMeas s n (chanSw b) a) < kInt (fieldKey s n (chanSw b) .ONTHR)) ∧
    (∃ (n : Fin 64) (b : Bool) (c : Conv) (a : Acc) (s : State), completesSample s n (chanSw b) c ∧ a = sampled s n (chanSw b) c ∧ litJudged s n (chanSw b) a ∧ kInt (fieldKey s n (chanSw b) .ONTHR) ≤ litValue s n (chanSw b) (sampleMeas s n (chanSw b) a)) ∧
    (∃ (n : Fin 64) (b : Bool) (cs : List Conv) (m : Meas) (s : State), m = pulseMeas (chanSw b) cs ∧ wholePulse s n (chanSw b) cs = true ∧ (s.slc (slotOf n)).powered = true ∧ gridPoint s n (chanSw b) = true ∧ fieldProved s n (chanSw b) = true ∧ (b = false → (s.stn n).la.lamp.returnDue = false) ∧ learnOp s n b = none) ∧
    (∃ (n : Fin 64) (b : Bool) (cs : List Conv) (m : Meas) (s : State), m = pulseMeas (chanSw b) cs ∧ wholePulse s n (chanSw b) cs = true ∧ (s.sw n (chanSw b)).lamp.repeatDue = true ∧ repeatPoint s n (chanSw b) = true ∧ fieldProved s n (chanSw b) = true ∧ (b = false → (s.stn n).la.lamp.returnDue = false) ∧ learnOp s n b = none) ∧
    (∃ (n : Fin 64) (b : Bool) (i : Int) (k t j : Nat) (left : List Bool) (res : List (Nat × Nat)) (pul : List Int) (o : Op) (s : State), learnOp s n b = some o ∧ o.prog = .proveLearn k left res (some t) pul j ∧ t ≤ s.now ∧ i = roundDiv (s.sw n (chanSw b)).lamp.litSum (max 1 (s.sw n (chanSw b)).lamp.litCount)) :=
  ⟨⟨2, false, (cv 499), (sampled (lit 499 {}) 2 .la (cv 499)), (lit 499 {}), by unfold completesSample; decide +kernel, by decide +kernel, by unfold litJudged; decide +kernel, by decide +kernel⟩,
   ⟨2, false, (cv 500), (sampled (lit 500 { litFails := 5 }) 2 .la (cv 500)), (lit 500 { litFails := 5 }), by unfold completesSample; decide +kernel, by decide +kernel, by unfold litJudged; decide +kernel, by decide +kernel⟩,
   ⟨2, false, (two 60 60), (pulseMeas .la (two 60 60)), (gr { gridFails := 1 }), by decide +kernel⟩,
   ⟨2, false, (two 60 60), (pulseMeas .la (two 60 60)), (rp { gridFails := 1, lastVoid := true }), by decide +kernel⟩,
   ⟨2, false, 49, 2, 5, 0, [false, true], [], [], (lop (some 5)), (lst 49 (some 5)), by decide +kernel⟩⟩

theorem witness_LineFollowsTacho :
    (∃ (i : PulseIn) (v : Nat) (forward : Bool) (x : LineIn) (s : State) (h : Int), lineRuns s = true ∧ s.keyIs .line .TACHO "QUAD" = true ∧ i ≠ .mark ∧ x = lineSample s 5 v (s.line.pulseIn i) ∧ x.on ≠ (s.line.pulseIn i).on ∧ h = s.line.half + (if forward then 2 * s.keyI .line .DPP else -(2 * s.keyI .line .DPP))) ∧
    (∃ (i : PulseIn) (v : Nat) (forward : Bool) (x : LineIn) (s : State) (h : Int), lineRuns s = true ∧ s.keyIs .line .TACHO "QUAD" = false ∧ i ≠ .mark ∧ x = lineSample s 5 v (s.line.pulseIn i) ∧ x.on = true ∧ (s.line.pulseIn i).on = false ∧ s.line.only = none ∧ h = s.line.half + (if s.keyIs .line .DIR "REV" then -s.keyI .line .DPP else s.keyI .line .DPP)) ∧
    (∃ (i : PulseIn) (v : Nat) (forward : Bool) (x : LineIn) (s : State), lineRuns s = true ∧ x = lineSample s (if i = .mark then 200 else 5) v (s.line.pulseIn i) ∧ (i = .mark ∨ x.on = (s.line.pulseIn i).on)) ∧
    (∃ (k : Nat) (mm a : Int) (s : State), lineRuns s = true ∧ s.line.markDue = true ∧ nearest s = some (k, mm) ∧ noneCoupled s = true ∧ a = (lineMm s - mm).natAbs) ∧
    (∃ (k : Nat) (s : State), lineRuns s = true ∧ s.line.st = .certain ∧ k ∈ s.line.passed ∧ nearMark s k = false ∧ noneCoupled s = true) ∧
    (∃ (s : State), lineRuns s = true ∧ s.keyIs .line .TACHO "QUAD" = true ∧ noneCoupled s = true) ∧
    (∃ (s : State), lineRuns s = true ∧ s.keyIs .line .TACHO "DUAL" = true ∧ dualDoubt s = true ∧ noneCoupled s = true) :=
  ⟨⟨.tacho1, 120000, true, (lineSample (tin (li 5000 1) .tacho1 { raw := true, since := 5 }) 5 120000 { raw := true, since := 5 }), (tin (li 5000 1) .tacho1 { raw := true, since := 5 }), 1601, by decide +kernel⟩,
   ⟨.tacho1, 120000, true, { raw := true, since := 5, on := true }, (tin (li 500 1 .certain [((.line, .TACHO), .w "DUAL"), ((.line, .DIR), .w "REV")]) .tacho1 { raw := true, since := 5 }), (-799), by decide +kernel⟩,
   ⟨.tacho1, 120000, true, { raw := true, since := 100000000 }, (li 500 1), by decide +kernel⟩,
   ⟨3, 10000, 5, (due_ (li 10005300 1 .certain mk6)), by decide +kernel⟩,
   ⟨3, mp6, by decide +kernel⟩,
   ⟨mp6, by decide +kernel⟩,
   ⟨(dl2 .certain 51), by decide +kernel⟩⟩

theorem witness_AxisEdgesAndFaults :
    (∃ (n : Fin 64) (up : Bool) (s : State), laneUp s n = true ∧ (s.ax n).motion = none ∧ (s.ax n).ahead = [] ∧ noneCoupled s = true) ∧
    (∃ (n : Fin 64) (i : Ivl) (s : State), (s.ax n).loaded = some i ∧ i.edge ≤ s.tick ∧ (s.ax n).ahead = [] ∧ (∀ m, (s.ax n).motion = some m → m.moving = true)) ∧
    (∃ (n : Fin 64) (k : EncFault) (s : State), laneUp s n = true ∧ (s.ax n).motion = none ∧ (isLeaf s n && leafMoves (s.stn n).leaf) = false ∧ noneCoupled s = true) ∧
    (∃ (n : Fin 64) (s : State), laneUp s n = true ∧ s.keyIs (.ch n .ax) .INDEX "ON" = true ∧ (s.ax n).referenced = true ∧ (s.ax n).idx.isSome = true ∧ s.key (.ch n .ax) .REVCNT ≠ .unset ∧ s.axK n .REVCNT + s.axK n .ITOL < (s.ax n).sinceIdx ∧ (s.ax n).motion = none ∧ (isLeaf s n && leafMoves (s.stn n).leaf) = false ∧ noneCoupled s = true) ∧
    (∃ (n : Fin 64) (x : Option Int) (s : State), laneUp s n = true ∧ s.engDown .mot = false ∧ s.keyIs (.ch n .ax) .INDEX "ON" = true ∧ (s.ax n).referenced = true ∧ (s.ax n).idx = x ∧ s.key (.ch n .ax) .REVCNT ≠ .unset ∧ (s.ax n).motion = none ∧ (isLeaf s n && leafMoves (s.stn n).leaf) = false ∧ noneCoupled s = true) ∧
    (∃ (n : Fin 64) (m : Motion) (i : Ivl) (s : State), laneUp s n = true ∧ heldFor (s.ax n).ferrSince s.now 5000 = true ∧ (s.ax n).fault ≠ some "follow" ∧ s.engDown .mot = false ∧ (s.ax n).motion = some m ∧ m.turn = none ∧ (s.ax n).loaded = some i ∧ isLeaf s n = false) ∧
    (∃ (n : Fin 64) (m : Motion) (i : Ivl) (s : State), (s.ax n).motion = some m ∧ m.phase = .running ∧ m.turn = none ∧ (s.ax n).loaded = some i ∧ fdConducts s n = false ∧ isLeaf s n = false) ∧
    (∃ (s : State), (s.st.map fun e => e.2.axis.lateNow).sum ≠ 0 ∧ s.engDown .jrn = false) :=
  ⟨⟨2, true, (ax2 fun a => { a with pos := 2147483647 }), by decide +kernel⟩,
   ⟨2, ivl, (ax2 fun a => { a with loaded := some ivl }), by decide +kernel, by decide +kernel, by decide +kernel, all_some (by decide +kernel)⟩,
   ⟨2, .loss, (ax2 fun a => { a with referenced := true, idx := some 5, pos := 77 }), by decide +kernel⟩,
   ⟨2, (ixd fun a => { a with referenced := true, idx := some 5, pos := 77, sinceIdx := 405 }), by decide +kernel⟩,
   ⟨2, none, (ixd fun a => { a with referenced := true, idx := none, pos := 77, sinceIdx := 405 }), by decide +kernel⟩,
   ⟨2, mR, ivl, (lmv.modAx 2 fun a => { a with ferrSince := some 5, pos := 8 }), by decide +kernel⟩,
   ⟨2, mR, ivl, (lmv.modSw 2 .fd fun x => { x with on := false }), by decide +kernel⟩,
   ⟨(lm.modAx 2 fun a => { a with lateNow := 3 }), by decide +kernel⟩⟩

theorem witness_MotionsGoOnAndEnd :
    (∃ (n : Fin 64) (b : Bool) (m : Motion) (i : Ivl) (s : State), laneUp s n = true ∧ limitActive s n (!b) = true ∧ (s.ax n).motion = some m ∧ m.phase = .running ∧ (s.ax n).loaded = some i ∧ i.neg = !b ∧ isLeaf s n = false ∧ (s.stn n).doorOp = none) ∧
    (∃ (n : Fin 64) (m : Motion) (s : State), (s.ax n).motion = some m ∧ m.phase = .held ∧ s.axK n .FERR < ((s.ax n).pos - m.heldPos).natAbs) ∧
    (∃ (n : Fin 64) (b : Bool) (sub : Fin 1500) (m : Motion) (f : Follow) (s : State), laneUp s n = true ∧ (s.ax n).motion = some m ∧ m.follow = some f ∧ isLeaf s n = false ∧ (s.stn n).doorOp = none) ∧
    (∃ (n : Fin 64) (m : Motion) (c : Couple) (s : State), (s.ax n).motion = some m ∧ m.couple = some c ∧ m.phase = .running ∧ limitActive s n true = false ∧ limitActive s n false = false) ∧
    (∃ (n : Fin 64) (m : Motion) (c : Couple) (i : Ivl) (s : State), (s.ax n).motion = some m ∧ m.couple = some c ∧ m.phase = .running ∧ heldFor c.lagSince s.now 20000 = true ∧ (s.ax n).loaded = some i) ∧
    (∃ (n : Fin 64) (m : Motion) (id : Nat) (s : State), (s.ax n).motion = some m ∧ (s.ax n).loaded = none ∧ (s.ax n).ahead = [] ∧ planDone m = true ∧ m.couple = none ∧ m.follow = none ∧ m.kind = .move ∧ m.phase = .running ∧ m.target = some (s.ax n).cmd ∧ m.op = some id ∧ m.ending = none) ∧
    (∃ (n : Fin 64) (m : Motion) (s : State), (s.ax n).motion = some m ∧ m.phase = .stopping ∧ m.turn = none ∧ stands s n = true ∧ isLeaf s n = false) :=
  ⟨⟨2, true, mR, ivl, (lim false), by decide +kernel⟩,
   ⟨2, { mv .held (some 0) with heldPos := -999999 }, (lmv.modAx 2 fun a => { a with motion := some { mv .held (some 0) with heldPos := -999999 }, loaded := none, ahead := [] }), by decide +kernel⟩,
   ⟨2, true, 7, (fo .running true), { fact := 4, following := true }, (foS (fo .running true)), by decide +kernel⟩,
   ⟨2, (cm (cou)), (cou), (cS cou), by decide +kernel⟩,
   ⟨2, (cm (cou fun c => { c with lagSince := some 5, engaged := true })), (cou fun c => { c with lagSince := some 5, engaged := true }), ivl, ((cS (cou fun c => { c with lagSince := some 5, engaged := true })).modAx 2 fun a => { a with loaded := some ivl }), by decide +kernel⟩,
   ⟨2, mE, 0, { foS mE with yar := { lm.yar with charges := [{ station := 2, bus := 0, cls := 4, env := [5] }, { station := 2, bus := 0, cls := 4, env := [5], byOut := true }] } }, by decide +kernel⟩,
   ⟨2, { mv .stopping none with ending := some .hold }, (foS { mv .stopping none with ending := some .hold }), by decide +kernel⟩⟩

theorem witness_LeavesOpenAndLock :
    (∃ (n : Fin 64) (s : State), isLeaf s n = true ∧ (s.stn n).leaf = .unlocking ∧ inOn s n .LOCKSW = false ∧ s.engDown .lamp = false) ∧
    (∃ (n : Fin 64) (s : State), isLeaf s n = true ∧ (s.stn n).leaf = .unlocking ∧ dueTime (s.stn n).unlockT s = true ∧ inOn s n .LOCKSW = true) ∧
    (∃ (n : Fin 64) (s : State), isLeaf s n = true ∧ (s.stn n).leaf = .unlocking ∧ dueTime (s.stn n).unlockT s = true ∧ inOn s n .LOCKSW = false ∧ s.engDown .lamp = false) ∧
    (∃ (n : Fin 64) (s : State), isLeaf s n = true ∧ (s.stn n).leaf = .opening ∧ lockPos s n ≤ (s.ax n).pos) ∧
    (∃ (n : Fin 64) (s : State), isLeaf s n = true ∧ (s.stn n).leaf = .opening ∧ openPos s n ≤ (s.ax n).pos ∧ (s.stn n).learning = none) ∧
    (∃ (n : Fin 64) (s : State), isLeaf s n = true ∧ (s.stn n).leaf = .closing ∧ (s.ax n).referenced = true ∧ (s.ax n).pos ≤ lockPos s n ∧ (s.stn n).atZone = false ∧ (s.ax n).motion.isSome = true ∧ (s.stn n).wait = none ∧ edgePresses s n = false) ∧
    (∃ (n : Fin 64) (s : State), isLeaf s n = true ∧ (s.stn n).leaf = .closing ∧ (s.ax n).referenced = true ∧ (s.ax n).pos ≤ lockPos s n ∧ (s.stn n).atZone = false ∧ (s.ax n).motion.isSome = true ∧ (s.stn n).wait = none ∧ edgePresses s n = true ∧ (s.stn n).learning = none ∧ noTurn s n) ∧
    (∃ (n : Fin 64) (s : State), isLeaf s n = true ∧ inOn s n .CLOSEDSW = true ∧ (s.stn n).leaf = .locking ∧ (s.stn n).closedMade = false ∧ inOn s n .LOCKSW = false) ∧
    (∃ (n : Fin 64) (s : State), isLeaf s n = true ∧ (s.stn n).leaf = .locking ∧ (s.stn n).closedMade = true ∧ bothMade s n = true ∧ (s.stn n).learning = none ∧ noTurn s n) ∧
    (∃ (n : Fin 64) (s : State), isLeaf s n = true ∧ (s.stn n).leaf = .locking ∧ dueTime (s.stn n).lockT s = true ∧ inOn s n .LOCKSW = false ∧ noTurn s n) ∧
    (∃ (n : Fin 64) (s : State), isLeaf s n = true ∧ (s.stn n).leaf = .closedLocked ∧ bothMade s n = false ∧ (s.stn n).doorOp = none ∧ (s.stn n).learning = none ∧ (s.stn n).wait = none) ∧
    (∃ (n : Fin 64) (s : State), isLeaf s n = true ∧ permits s n = false) :=
  ⟨⟨0, (stF (dl doors 0 .unlocking) fun t => { t with unlockT := some 5 }), by decide +kernel⟩,
   ⟨0, (inOnS (stF (dl doors 0 .unlocking) fun t => { t with unlockT := some 5 }) 0 1), by decide +kernel⟩,
   ⟨0, (stF (dl doors 0 .unlocking) fun t => { t with unlockT := some 5 }), by decide +kernel⟩,
   ⟨0, (moving (stF (dl doors 0 .opening) fun t => { t with out0 := { cmd := true, on := true }, axis := { t.axis with pos := 250 } }) 0 none .doorOpen), by decide +kernel⟩,
   ⟨0, (moving (stF (dl doors 0 .opening) fun t => { t with out0 := { cmd := true, on := true }, axis := { t.axis with pos := 7000 } }) 0 none .doorOpen), by decide +kernel⟩,
   ⟨0, (atz doors), by decide +kernel⟩,
   ⟨0, (eatz doors), by refine ⟨?_, ?_, ?_, ?_, ?_, ?_, ?_, ?_, ?_, all_some (by decide +kernel)⟩ <;> decide +kernel⟩,
   ⟨0, (inOnS (lck doors) 0 0), by decide +kernel⟩,
   ⟨0, (lockMade (moving (stF (lck doors) fun t => { t with closedMade := true, lockT := some 500000000 }) 0 none .doorClose) 0), by refine ⟨?_, ?_, ?_, ?_, ?_, all_some (by decide +kernel)⟩ <;> decide +kernel⟩,
   ⟨0, (moving (stF (lck doors) fun t => { t with closedMade := true, lockT := some 5 }) 0 none .doorClose), by refine ⟨?_, ?_, ?_, ?_, all_some (by decide +kernel)⟩ <;> decide +kernel⟩,
   ⟨0, doors, by decide +kernel⟩,
   ⟨0, (noPerm (dl doors 0 .opn)), by decide +kernel⟩⟩

theorem witness_ObstaclesAndSteps :
    (∃ (n : Fin 64) (s : State), isLeaf s n = true ∧ (s.stn n).leaf = .locking ∧ dueTime (s.stn n).finalT s = true ∧ inOn s n .CLOSEDSW = false ∧ (s.stn n).learning = none ∧ noTurn s n) ∧
    (∃ (n : Fin 64) (c : Int) (t : Nat) (s : State), laneUp s n = true ∧ isLeaf s n = true ∧ (s.stn n).leaf = .closing ∧ (s.stn n).armed = true ∧ (s.stn n).learning = none ∧ noTurn s n ∧ (s.stn n).forceSince = some t ∧ s.engDown .lamp = false) ∧
    (∃ (n : Fin 64) (s : State), edgePresses s n = true ∧ (s.stn n).learning = none ∧ noTurn s n ∧ ((s.stn n).closedMade = false ∨ bothMade s n = false)) ∧
    (∃ (n : Fin 64) (s : State), isLeaf s n = true ∧ (s.stn n).leaf = .reversing ∧ (s.stn n).reopened = true ∧ (s.stn n).rdwell = none ∧ (s.stn n).wait = none) ∧
    (∃ (n : Fin 64) (s : State), isLeaf s n = true ∧ (s.stn n).leaf = .reversing ∧ dueTime (s.stn n).rdwell s = true) ∧
    (∃ (n : Fin 64) (s : State), isLeaf s n = true ∧ (s.stn n).leaf = .opn ∧ dueTime (s.stn n).autoT s = true ∧ (s.stn n).wait = none) ∧
    (∃ (n : Fin 64) (s : State), isLeaf s n = true ∧ stepOut1 s n = true ∧ ((s.stn n).leaf = .opening ∨ (s.stn n).leaf = .reversing) ∧ (s.ax n).referenced = true ∧ stCounts s n .STEPDEP ≤ (s.ax n).pos ∧ (s.stn n).buf.out1 = false) ∧
    (∃ (n : Fin 64) (s : State), isLeaf s n = true ∧ stepOut1 s n = true ∧ (s.stn n).leaf = .closing ∧ (s.ax n).pos ≤ stCounts s n .STEPSTOW ∧ (s.stn n).buf.out1 = true) ∧
    (∃ (n : Fin 64) (s : State), isLeaf s n = true ∧ stepOut1 s n = true ∧ (s.stn n).step = .deploying ∧ dueTime (s.stn n).stepT s = true ∧ inOn s n .STOWSW = false) ∧
    (∃ (n : Fin 64) (s : State), isLeaf s n = true ∧ inOn s n .STOWSW = true) ∧
    (∃ (n : Fin 64) (s : State), isLeaf s n = true ∧ (s.stn n).leaf = .closing ∧ dueTime (s.stn n).stowT s = true ∧ inOn s n .STOWSW = false ∧ noTurn s n) :=
  ⟨⟨0, (stF (lck doors) fun t => { t with finalT := some 5 }), by refine ⟨?_, ?_, ?_, ?_, ?_, all_some (by decide +kernel)⟩ <;> decide +kernel⟩,
   ⟨0, (forceLimit (clsg 5) 0 false + 1), 5, (clsg 5), by refine ⟨?_, ?_, ?_, ?_, ?_, all_some (by decide +kernel), ?_⟩ <;> decide +kernel⟩,
   ⟨0, (edg .closing), by decide +kernel, by decide +kernel, all_some (by decide +kernel), by decide +kernel⟩,
   ⟨0, (rev 1), by decide +kernel⟩,
   ⟨0, (stF (rev 1) fun t => { t with rdwell := some 5 }), by decide +kernel⟩,
   ⟨0, (stF (dl doors 0 .opn) fun t => { t with autoT := some 5 }), by decide +kernel⟩,
   ⟨0, (step1 (moving (dl doors 0 .opening) 0 none .doorOpen)), by decide +kernel⟩,
   ⟨0, (step1 (moving (stF (dl doors 0 .closing) fun t => { t with out1 := { cmd := true, on := true }, buf := { t.buf with out1 := true }, axis := { t.axis with pos := 0 } }) 0 none .doorClose)), by decide +kernel⟩,
   ⟨0, (step1 (stF (dl doors 0 .opening) fun t => { t with step := .deploying, stepSince := 5, stepT := some 5 })), by decide +kernel⟩,
   ⟨0, (inOnS (step1 (stF (dl doors 0 .closing) fun t => { t with step := .stowing, stepSince := 5, atZone := true })) 0 3), by decide +kernel⟩,
   ⟨0, (step1 (moving (stF (dl doors 0 .closing) fun t => { t with step := .stowing, stepSince := 5, stowT := some 5 }) 0 none .doorClose)), by refine ⟨?_, ?_, ?_, ?_, all_some (by decide +kernel)⟩ <;> decide +kernel⟩⟩

theorem witness_LanesWatch :
    (∃ (x : Lane) (own : Circuits) (peer : Option ResultRec) (s : State), laneRuns s x = true) ∧
    (∃ (s : State), laneRuns s .a = true ∧ laneRuns s .b = true ∧ (s.camp.a.peerAt + 500 ≤ s.now ∨ s.camp.b.peerAt + 500 ≤ s.now) ∧ s.camp.safe = false) ∧
    (∃ (x : Lane) (s : State), laneRuns s x = true ∧ loopConds s x = true ∧ heldFor (s.lane x).holdSince s.now (s.keyN .unit .LOOPDELAY) = true) ∧
    (∃ (x : Lane) (a b : Bool) (s : State), laneRuns s x = true ∧ s.camp.test = none) ∧
    (∃ (x : Lane) (n : Fin 64) (b : Bool) (s : State), laneRuns s x = true ∧ proved s n (chanSw b) = true ∧ (s.laneSw x n (chanSw b)).mismatch = false ∧ heldFor (s.laneSw x n (chanSw b)).differ s.now 20001 = true) ∧
    (∃ (x : Lane) (n : Fin 64) (s : State), laneRuns s x = true ∧ heldFor (s.laneStn x n).mainDarkAt s.now 25000 = true ∧ (s.laneStn x n).reserve = false) ∧
    (∃ (x : Lane) (t : LaneTest) (s : State), laneRuns s x = true ∧ (s.lane x).gaveUp = false) ∧
    (∃ (s : State), s.fit.optT = true ∧ heldFor s.camp.proofAt s.now 82800000000 = true ∧ s.camp.zero.active = true ∧ s.camp.zero.activeSince + 5000000 ≤ s.now ∧ s.camp.test = none ∧ s.camp.forced = false) ∧
    (∃ (s : State), s.fit.optT = true ∧ heldFor s.camp.proofAt s.now 86400000000 = true ∧ s.camp.test = none ∧ s.camp.forced = false) ∧
    (∃ (h : HeadObj) (t : TwoCircuit) (s : State), circuitOf s.camp h = some t ∧ heldFor t.differSince s.now 10001 = true ∧ t.blocked = false) ∧
    (∃ (s : State), s.camp.key.active = false ∧ (s.ses 0).auth = true) :=
  ⟨⟨.a, { zero := 24000, rell := 24000, key := 24000 }, none, shut, by decide +kernel⟩,
   ⟨{ L0 with camp := { L0.camp with a := { L0.camp.a with peerAt := 5, loop := true, contact := true } } }, by decide +kernel⟩,
   ⟨.a, lpS, by decide +kernel⟩,
   ⟨.a, false, false, L0, by decide +kernel⟩,
   ⟨.a, 2, false, ((prvd L0).modLaneSw .a 2 .la fun l => { l with differ := some 5 }), by decide +kernel⟩,
   ⟨.a, 2, (L0.modLaneStn .a 2 fun t => { t with mainDarkAt := some 5 }), by decide +kernel⟩,
   ⟨.b, .cpu, { L0 with camp := { L0.camp with b := { L0.camp.b with loop := true, masks := [(0, 0xFF)] } } }, by decide +kernel⟩,
   ⟨{ late L0 with camp := { L0.camp with proofAt := some 5, a := { L0.camp.a with loop := true }, zero := { L0.camp.zero with active := true } } }, by decide +kernel⟩,
   ⟨{ late L0 with camp := { L0.camp with proofAt := some 5, a := { L0.camp.a with loop := true } } }, by decide +kernel⟩,
   ⟨.rell, { a := { on := true }, active := true, differSince := some 5 }, { L0 with camp := { L0.camp with rell := { a := { on := true }, active := true, differSince := some 5 } } }, by decide +kernel⟩,
   ⟨(authed L0), by decide +kernel⟩⟩

theorem witness_ElementsAndMessages :
    (∃ (x : Lane) (p : Fin 8) (mask : Byte) (s : State), (s.slc p).powered = true ∧ s.head.powered = true ∧ mask = tget 0 (s.lane x).masks p) ∧
    (∃ (x : Lane) (p : Fin 8) (s : State), (s.slc p).powered = true ∧ (x = .a → heldFor (s.slc p).maskAtA s.now 400 = true) ∧ (x = .b → heldFor (s.slc p).maskAtB s.now 400 = true)) ∧
    (∃ (x : Lane) (n : Fin 64) (c : Int) (t : Nat) (s : State), isLeaf s n = true ∧ (s.stn n).leaf ≠ .isolated ∧ laneRuns s x = true ∧ laneSees s x (slotOf n) = true ∧ (s.laneStn x n).backstop = false ∧ (s.laneStn (otherLane x) n).backstop = false ∧ drivenClosing (cycleCloses s n) s x n = true ∧ backstopLimit s x n < c ∧ (s.laneStn x n).overSince = some t ∧ t + (s.keyN (.st n) .PERSISTMAX + 20000) ≤ s.now ∧ noTurn s n) ∧
    (∃ (n : Fin 64) (c : Int) (s : State), isLeaf s n = true ∧ (∀ x, c ≤ backstopLimit s x n ∧ edgeAbove (cycleCloses s n) s x n = false)) ∧
    (∃ (n : Fin 64) (w : Sw) (low high : Int) (s : State), (s.slc (slotOf n)).powered = true ∧ chFitted s n (swChan w) = true) ∧
    (∃ (p : Fin 8) (b : List Byte) (x : Lane) (n : Nat) (old : LaneLamp) (s : State), enabled s p = true ∧ (s.slc p).powered = true ∧ s.head.started = true ∧ s.inbuf = [] ∧ noSaving s = true ∧ n = 8 * p.val ∧ old = s.laneSw x n .fd ∧ laneRuns s x = true ∧ (frameCrc b && frameValid 1 25 (s.laneSlc x p).ref b) = true ∧ (fbyte b 0).toNat % 64 = 0 ∧ chFitted s n .ax = true) ∧
    (∃ (s : State), maySendSafety s = true ∧ (∀ t, s.camp.sentAt = some t → t + 10000 ≤ s.now)) ∧
    (∃ (a : Arrival) (b : List Byte) (k src type key : Nat) (s : State), arrives s a = true ∧ s.head.unit.isSome = true ∧ b.length = 64 ∧ fieldAt b 5 1 = 1 ∧ fieldAt b 0 2 = src ∧ fieldAt b 4 1 = type ∧ 1 ≤ type ∧ type ≤ 4 ∧ safeIn s src (smName type) = some k ∧ s.key .unit .SYSID = .i (fieldAt b 6 2) ∧ (fieldAt b 2 2 = ownUnit s ∨ fieldAt b 2 2 = 65535) ∧ s.camp.a.skey = some key ∧ s.camp.b.skey = some key ∧ b.drop 60 = safetyCode key (b.take 60) ∧ (∀ l, (connOf s k).lastSeq = some l → 1 ≤ (BitVec.ofNat 32 (fieldAt b 8 4) - l).toNat ∧ (BitVec.ofNat 32 (fieldAt b 8 4) - l).toNat ≤ 2147483647) ∧ -1000000 ≤ s.time - unleI (slice b 12 8) ∧ s.time - unleI (slice b 12 8) ≤ 1000 * s.keyI .unit .SMTIMEOUT) ∧
    (∃ (a : Arrival) (b : List Byte) (key : Nat) (s : State), s.camp.a.skey = some key ∧ b.drop 60 ≠ safetyCode key (b.take 60)) ∧
    (∃ (k : Fin 16) (src t : Nat) (s : State), (connOf s k).valid = true ∧ (connOf s k).acceptedAt = some t ∧ t + s.keyN .unit .SMTIMEOUT ≤ s.now ∧ s.key (.safein k) .FROM = .u src ∧ s.key (.safein k) .TYPE = .w "RELEASE" ∧ s.key .unit .RELUNIT = .u src) :=
  ⟨⟨.a, 0, 0x0F, (mk_ .a 0x0F (L0)), by decide +kernel⟩,
   ⟨.a, 0, { L0 with sl := [(0, { L0.slc 0 with maskAtA := some 5, maskA := 0xFF })] }, by decide +kernel⟩,
   ⟨.a, 0, (backstopLimit bs .a 0 + 1), 5, (bsA 5), by refine ⟨?_, ?_, ?_, ?_, ?_, ?_, ?_, ?_, ?_, ?_, all_some (by decide +kernel)⟩ <;> decide +kernel⟩,
   ⟨0, (backstopLimit bs .a 0), (bsA 5), by decide +kernel, (by intro x; cases x <;> decide +kernel)⟩,
   ⟨2, .la, 0, 0, L0, by decide +kernel⟩,
   ⟨0, (ax0 4), .a, 0, (L1.laneSw .a 0 .fd), L1, by decide +kernel⟩,
   ⟨(sys L0), by decide +kernel, all_some (by decide +kernel)⟩,
   ⟨{ path := .a, node := 8, trailer := none, fcs := false }, (msg 8 1), 2, 8, 1, 77, (sys L0), by refine ⟨?_, ?_, ?_, ?_, ?_, ?_, ?_, ?_, ?_, ?_, ?_, ?_, ?_, ?_, all_some (by decide +kernel), ?_⟩ <;> decide +kernel⟩,
   ⟨{ path := .a, node := 8, trailer := none, fcs := false }, (padTo 64 0 (msg 8 1 |>.take 30)), 77, (sys L0), by decide +kernel⟩,
   ⟨2, 8, 9, ({ sys L0 with camp := { (sys L0).camp with conns := [(connKey (sys L0) 2, { lastSeq := some 3, valid := true, acceptedAt := some 9 })] } }), by decide +kernel⟩⟩

theorem witness_BudgetAtWork :
    (∃ (t s : State), s.head.started = true ∧ s.noTime .bud = false ∧ waiting s = [] ∧ t = meanFeeds s) ∧
    (∃ (n b : Nat) (w : Wait) (t : State) (s : State), waiting s = [(n, w)] ∧ (s.stn n).wait = some w ∧ mayAdmit s = true ∧ t = forEach [0, 1, 2, 3] measureBus (noteLosses (meanFeeds s)) ∧ offered t n w = true ∧ stillFit t n w = true ∧ (candCharges t n w).all (fun x => groupHeard t x.bus) = true ∧ failedTest t { n, w, charges := candCharges t n w } = some (.bus b)) ∧
    (∃ (n : Nat) (w : Wait) (t : State) (s : State), waiting s = [(n, w)] ∧ (s.stn n).wait = some w ∧ mayAdmit s = true ∧ t = forEach [0, 1, 2, 3] measureBus (noteLosses (meanFeeds s)) ∧ offered t n w = true ∧ stillFit t n w = true ∧ (candCharges t n w).all (fun x => groupHeard t x.bus) = true ∧ failedTest t { n, w, charges := candCharges t n w } = none) ∧
    (∃ (n : Fin 64) (w : Wait) (us : Nat) (s : State), (s.stn n).wait = some w ∧ longestWait w.cls = some us ∧ w.since + us < s.now ∧ w.reported = false ∧ s.noTime .bud = false) ∧
    (∃ (p : Fin 8) (t : Nat) (s : State), tget 100 s.yar.dims p < 100 ∧ s.yar.freeSince.find? (·.1 = p.val) = some (p.val, t) ∧ t + 10000000 ≤ s.now ∧ 10 * sliceHeat s p ≤ 9 * sliceCap s p ∧ s.noTime .bud = false) ∧
    (∃ (s : State), s.head.started = true ∧ s.noTime .bud = false) ∧
    (∃ (s : State), s.noTime .bud = false ∧ groupUp s = true) ∧
    (∃ (a : Arrival) (b : List Byte) (src g : Nat) (r : Reserve) (s : State), arrives s a = true ∧ takesPart s = true ∧ s.noTime .bud = false ∧ b.length = 32 ∧ fieldAt b 28 4 = (crc32 (b.take 28)).toNat ∧ fieldAt b 0 2 = src ∧ seenSeq s.yar.seen src (fieldAt b 26 2) = false ∧ src ≠ ownUnit s ∧ src < 1024 ∧ (s.peer src).conflict = false ∧ fieldAt b 2 1 = g ∧ g ≠ 0 ∧ (∃ k, k < 4 ∧ groupOf s k = g) ∧ r = { source := src, id := fieldAt b 4 4, group := g, peak := 100 * fieldAt b 8 2, cls := fieldAt b 10 1, firm := true, start := unleI (slice b 12 8), duration := fieldAt b 20 4, seenAt := s.now }) ∧
    (∃ (a : Arrival) (b : List Byte) (s : State), arrives s a = true ∧ (s.peer (fieldAt b 0 2)).conflict = true) ∧
    (∃ (n : Fin 64) (w : Wait) (i : Nat) (t : Int) (s : State), (s.stn n).wait = some w ∧ w.tentative = some (i, t) ∧ mayAdmit s = true) ∧
    (∃ (n : Fin 64) (s : State), s.noTime .bud = false) ∧
    (∃ (src id : Nat) (r : Reserve) (s : State), s.yar.reserves.find? (fun q => decide (q.source = src ∧ q.id = id)) = some r) :=
  ⟨⟨(meanFeeds doors), doors, by decide +kernel⟩,
   ⟨0, (busOfSt wS 0), wt, (tt wF), wF, by decide +kernel⟩,
   ⟨0, wt, (tt wS), wS, by decide +kernel⟩,
   ⟨0, oldW, 5000000, (wo oldW), by decide +kernel⟩,
   ⟨0, 5, { doors with yar := { doors.yar with dims := [(0, 60)], freeSince := [(0, 5)] } }, by decide +kernel⟩,
   ⟨(doors.modStn 0 fun t => { t with dies := [(99000000, 900)], diesFrom := some 99000000 }), by decide +kernel⟩,
   ⟨wG, by decide +kernel⟩,
   ⟨{ path := .a, node := 8, trailer := none, fcs := false }, (bf 8 3 1 4 90), 8, 3, (rsv 3 4 90), wG, by refine ⟨?_, ?_, ?_, ?_, ?_, ?_, ?_, ?_, ?_, ?_, ?_, ?_, ⟨0, by decide +kernel⟩, ?_⟩ <;> decide +kernel⟩,
   ⟨{ path := .a, node := 8, trailer := none, fcs := false }, (bf 8 3 1 4 90), { wG with net := { wG.net with peers := [(8, { known := true, conflict := true })] } }, by decide +kernel⟩,
   ⟨0, { wt with tentative := some (4, 5) }, 4, 5, (wT 5), by decide +kernel⟩,
   ⟨0, (chg 5), by decide +kernel⟩,
   ⟨8, 4, (rsv 3 4 90), { wG with yar := { wG.yar with reserves := [rsv 3 4 90, rsv 3 5 6] } }, by decide +kernel⟩⟩

theorem witness_SlicesLink :
    (∃ (p : Fin 8) (b : List Byte) (s : State), (s.slc p).powered = true ∧ frameCrc b = true) ∧
    (∃ (p : Fin 8) (b : List Byte) (s : State), frameCrc b = false) ∧
    (∃ (p : Fin 8) (b : List Byte) (s : State), s.head.started = true ∧ enabled s p = true ∧ (s.slc p).powered = true ∧ (s.slc p).link = true ∧ s.inbuf = [] ∧ noSaving s = true ∧ (fbyte b 0).toNat % 64 ∉ [0, 5, 10, 15]) ∧
    (∃ (p : Fin 8) (b : List Byte) (s : State), s.head.started = true ∧ enabled s p = true ∧ (s.slc p).powered = true ∧ (s.slc p).link = false ∧ frameCrc b = true ∧ frameValid 1 25 (s.slc p).upRef b = true ∧ (fbyte b 8).getLsbD 0 = false ∧ s.inbuf = [] ∧ noSaving s = true ∧ s.noTime .io = false) ∧
    (∃ (p : Fin 8) (s : State), (s.slc p).powered = true ∧ (s.slc p).failSafe = false ∧ headSilent s p = true) ∧
    (∃ (p : Fin 8) (s : State), linkGone s p = true ∧ s.inbuf = [] ∧ noSaving s = true) ∧
    (∃ (p : Fin 8) (s : State), absentDue s p = true) ∧
    (∃ (p : Fin 8) (passed : Bool) (s : State), (s.slc p).powered = true ∧ (s.slc p).link = true ∧ (s.slc p).passed = false ∧ (s.slc p).failed = false) ∧
    (∃ (p : Fin 8) (type : Fin 4) (serial : Nat) (ins : W16) (s : State), (type.val = 1 ∨ type.val = 2) ∧ (s.slc p).link = false) :=
  ⟨⟨0, (fr9 [0x80, 4, 0x31, 0x02, 0x60, 0x00]), lk9, by decide +kernel⟩,
   ⟨0, [1,2,3], lk9, by decide +kernel⟩,
   ⟨0, [1,2,3], lk9, by decide +kernel⟩,
   ⟨0, (fr9 [0x49, 4, 0, 0, 0, 0, 0xF0, 0x0F, 0, 0, 1, 2, 3, 4]), dn9, by decide +kernel⟩,
   ⟨0, ({ lmv with sl := [(0, { lmv.slc 0 with downAt := some 5 })] }.modSw 0 .fd fun x => { x with on := true, cmd := true }), by decide +kernel⟩,
   ⟨0, { lmv with sl := [(0, { lmv.slc 0 with upAt := some 5, writes := [((.unit, .SYSID), .i 4)] })] }, by decide +kernel⟩,
   ⟨0, { dn9 with sl := [(0, { dn9.slc 0 with lostAt := some 5 })] }, by decide +kernel⟩,
   ⟨0, true, { lk9 with sl := [(0, { lk9.slc 0 with passed := false })] }, by decide +kernel⟩,
   ⟨0, 1, 77, 4, { dn9 with sl := [(0, { dn9.slc 0 with latch := [((.unit, .SYSID), .i 4)] })] }, by decide +kernel⟩⟩

theorem witness_PowerAndStart :
    (∃ (s : State), s.sup.lowSince = none) ∧
    (∃ (s : State), heldFor s.sup.lowSince s.now 10000 = true ∧ s.head.powered = true) ∧
    (∃ (t : Nat) (s : State), s.sup.lowSince = some t) ∧
    (∃ (s : State), mayRestore s = true) ∧
    (∃ (plug : Fin 2048) (h : State) (s : State), s.head.powered = true ∧ s.head.started = false ∧ h = { s with head := { s.head with started := true, unit := plugUnit plug } }) ∧
    (∃ (p : Fin 8) (a b : Byte) (s : State), s.head.started = true ∧ (s.slc p).link = true ∧ (s.slc p).tested = false ∧ s.camp.a.tested = true ∧ s.camp.b.tested = true) ∧
    (∃ (passed : Bool) (s : State), s.head.memRun = true ∧ s.head.powered = true ∧ s.head.started = true) ∧
    (∃ (s : State), startDone s = true) ∧
    (∃ (x : Lane) (passed equal : Bool) (s : State), s.head.powered = true ∧ s.head.started = true ∧ (s.lane x).tested = false) :=
  ⟨⟨doors, by decide +kernel⟩,
   ⟨{ lmv with sup := { lmv.sup with lowSince := some 5 }, camp := { lmv.camp with safe := true } }, by decide +kernel⟩,
   ⟨99999999, { doors with sup := { doors.sup with lowSince := some 99999999 } }, by decide +kernel⟩,
   ⟨offS, by decide +kernel⟩,
   ⟨5, (hS 5 st0), st0, by decide +kernel⟩,
   ⟨0, 0xFF, 0xFF, etS, by decide +kernel⟩,
   ⟨true, (doors.modHead fun h => { h with memRun := true }), by decide +kernel⟩,
   ⟨sd, by decide +kernel⟩,
   ⟨.a, true, true, (lt id id), by decide +kernel⟩⟩

theorem witness_NetworkPeers :
    (∃ (s : State), inSystem s = true) ∧
    (∃ (a : Arrival) (b : List Byte) (n : Nat) (s : State), arrives s a = true ∧ inSystem s = true ∧ b.length = 64 ∧ fieldAt b 60 4 = (crc32 (b.take 60)).toNat ∧ fieldAt b 2 1 = 1 ∧ fieldAt b 0 2 = n ∧ n < 1024) ∧
    (∃ (a : Arrival) (b : List Byte) (s : State), fieldAt b 60 4 ≠ (crc32 (b.take 60)).toNat) ∧
    (∃ (a : Arrival) (b : List Byte) (s : State), s.head.started = true ∧ s.engDown .net = false) ∧
    (∃ (n : Fin 1024) (s : State), (s.peer n).serials.all (fun e => decide (e.2 + 5000000 ≤ s.now)) = true) ∧
    (∃ (p : Path) (up : Bool) (s : State), s.head.powered = true ∧ (s.path p).link ≠ up) ∧
    (∃ (p : Path) (s : State), heldFor (s.path p).supAt s.now 100000 = true) ∧
    (∃ (p : Path) (n : Fin 1024) (s : State), heldFor (peerSup (s.peer n) p) s.now 100000 = true) ∧
    (∃ (s : State), netUp s = true) ∧
    (∃ (p : Path) (node t : Nat) (s : State), netUp s = true ∧ (s.path p).link = true ∧ (s.path p).supAt = some t ∧ s.now < t + 100000 ∧ t ≤ s.now) ∧
    (∃ (p : Path) (node : Nat) (n : Fin 1024) (s : State), netUp s = true ∧ (s.path p).link = true ∧ (s.peer n).known = true) ∧
    (∃ (n : Fin 1024) (s : State), netUp s = true ∧ (s.peer n).known = true ∧ (s.peer n).silent = false ∧ (s.peer n).seenAt + s.keyN .unit .PEERTO ≤ s.now) ∧
    (∃ (k : Nat) (tag : Option Nat) (final : Bool) (text : String) (r : Relay) (s : State), netUp s = true ∧ s.net.relays.find? (·.id = k) = some r ∧ ownLine r (relayedReply text) = false ∧ hears s r.near = true ∧ (s.peer r.far).silent = false) ∧
    (∃ (k : Nat) (tag : Option Nat) (final : Bool) (text : String) (r : Relay) (s : State), netUp s = true ∧ s.net.relays.find? (·.id = k) = some r ∧ (s.peer r.far).silent = false ∧ (relayedReply text).pre = .tilde ∧ (relayedReply text).word.startsWith "hello" = true ∧ r.hello = none) ∧
    (∃ (k : Nat) (tag : Option Nat) (final : Bool) (text : String) (r : Relay) (s : State), netUp s = true ∧ s.net.relays.find? (·.id = k) = some r ∧ (s.peer r.far).silent = false ∧ (relayedReply text).pre ≠ .tilde ∧ 0 < r.own) ∧
    (∃ (k : Nat) (r : Relay) (s : State), s.net.relays.find? (·.id = k) = some r) ∧
    (∃ (k : Nat) (r : Relay) (s : State), s.net.relays.find? (·.id = k) = some r) :=
  ⟨⟨nt, by decide +kernel⟩,
   ⟨AA, (ann 8 1234567890), 8, nt, by decide +kernel⟩,
   ⟨AA, [1,2,3,4,5,6], nt, by decide +kernel⟩,
   ⟨AA, (ann 8 4), doors, by decide +kernel⟩,
   ⟨8, (withP nt 8 { known := true, serials := [(5, 5), (6, 7)], conflict := true }), by decide +kernel⟩,
   ⟨.a, true, doors, by decide +kernel⟩,
   ⟨.a, (pa nt { link := true, bit := true, gapless := some 5, supAt := some 5 }), by decide +kernel⟩,
   ⟨.a, 8, (withP nt 8 { known := true, pathA := true, supA := some 5 }), by decide +kernel⟩,
   ⟨nt, by decide +kernel⟩,
   ⟨.a, 8, 99999000, (pa nt { link := true, gapless := some 99000000, supAt := some 99999000 }), by decide +kernel⟩,
   ⟨.a, 8, 8, (pa (withP nt 8 { known := true, silent := true }) { link := true }), by decide +kernel⟩,
   ⟨8, (withP (rl nt rel10) 8 { known := true, seenAt := 5 }), by decide +kernel⟩,
   ⟨3, (some 9), true, "=show 4", relW, rlw, by decide +kernel⟩,
   ⟨3, none, false, "~hello 8 session=4 token=00AF", rel10, (rl nt rel10), by decide +kernel⟩,
   ⟨3, none, true, "=mode 4", { rel10 with own := 2 }, (rl nt { rel10 with own := 2 }), by decide +kernel⟩,
   ⟨3, relW, rlw, by decide +kernel⟩,
   ⟨3, relW, rlw, by decide +kernel⟩⟩

theorem witness_NetworkTime :
    (∃ (g : PtpSet) (o : Int) (s : State), inSystem s = true ∧ s.net.ptp.self = false ∧ s.net.ptp.gm = some g ∧ s.net.ptp.path = .b ∧ ptpSteady s = true ∧ (s.path .b).link = true) ∧
    (∃ (p : Path) (m : Nat) (o : Int) (s : State), (s.net.ptp.self = true ∨ s.net.ptp.gm.map (·.identity) ≠ some m) ∧ ptpSteady s = true) ∧
    (∃ (k : PtpKeys) (s : State), inSystem s = true ∧ s.net.ptp.keys = some k ∧ s.net.ptp.keysAt + pow2us k.annInt ≤ s.now) ∧
    (∃ (p : Path) (s : State), inSystem s = true ∧ ptpSteady s = true ∧ heldFor (some ((s.path p).syncAt.getD s.head.startAt)) s.now (((s.path p).missed + 1) * pow2us s.ptp.syncInt) = true) ∧
    (∃ (g : PtpSet) (t w : Nat) (s : State), inSystem s = true ∧ s.net.ptp.self = false ∧ s.net.ptp.gm = some g ∧ s.net.ptp.foreign = [(g, w)] ∧ ptpSteady s = true ∧ s.net.ptp.annAt = some t ∧ t + s.ptp.annTo * pow2us s.ptp.annInt ≤ s.now) ∧
    (∃ (s : State), s.net.ptp.bit7 = false ∧ heldFor s.net.ptp.clearedAt s.now 25000000 = true) ∧
    (∃ (p : Path) (d : PtpSet) (s : State), inSystem s = true ∧ ptpSteady s = true ∧ (s.path p).link = true ∧ d.domain = s.ptp.domain ∧ s.net.ptp.foreign = [] ∧ 0 < s.ptp.annTo) ∧
    (∃ (k : PtpKind) (s : State), inSystem s = true ∧ s.net.ptp.self = true ∧ ptpSteady s = true) ∧
    (∃ (p : Path) (s : State), inSystem s = true ∧ s.net.ptp.self = true ∧ ptpSteady s = true ∧ (s.path p).link = true) ∧
    (∃ (a : Arrival) (q : Option Nat) (s : State), arrives s a = true) ∧
    (∃ (s : State), netUp s = true) ∧
    (∃ (a : Arrival) (icmp : Bool) (s : State), arrives s a = true) :=
  ⟨⟨gmD, 400, (pt { gm := some gmD, path := .b, good := 7 }), by decide +kernel⟩,
   ⟨.a, 5, 400, (pt { gm := some gmD, path := .b, good := 7 }), by decide +kernel⟩,
   ⟨(ptpKeysNow doors), { nt with net := { nt.net with ptp := { nt.net.ptp with keys := some (ptpKeysNow doors), keysAt := 5 } } }, by decide +kernel⟩,
   ⟨.a, (pt { gm := some gmD, bit7 := true, syncAt := some 5 }), by decide +kernel⟩,
   ⟨gmD, 5, 5, (pt { gm := some gmD, foreign := [(gmD, 5)], annAt := some 5, bit7 := true }), by decide +kernel⟩,
   ⟨(pt { clearedAt := some 5, bit28 := true }), by decide +kernel⟩,
   ⟨.a, gmD, (steady nt), by decide +kernel⟩,
   ⟨.sync, (pt { self := true }), by decide +kernel⟩,
   ⟨.b, (pt { self := true }), by decide +kernel⟩,
   ⟨AA, (some 259), gr10, by decide +kernel⟩,
   ⟨gr10, by decide +kernel⟩,
   ⟨AA, true, nt, by decide +kernel⟩⟩

theorem witness_TwinLink :
    (∃ (l : Line) (k n : Nat) (s : State), taken n l (pairSpec l.port k) s = true ∧ (s.ses n).staging = none ∧ s.cfg.twin = none) ∧
    (∃ (l : Line) (src : Option Nat) (n : Nat) (s : State), taken n l (pairAttachSpec src) s = true) ∧
    (∃ (l : Line) (n : Nat) (s : State), taken n l pairReleaseSpec s = true) ∧
    (∃ (v : Nat) (s : State), twinUp s = true ∧ s.cfg.twin = some v ∧ (s.peer v).known = true) ∧
    (∃ (a : Arrival) (v i : Nat) (f p : List Byte) (s : State), arrives s a = true ∧ readTwin 1 f s = some (v, i, p) ∧ s.cfg.twin = some v ∧ 36 ≤ p.length) ∧
    (∃ (v : Nat) (s : State), s.cfg.twin = some v ∧ s.head.started = true ∧ heldFor s.twin.hbAt s.now 500000 = true ∧ s.twin.silent = false) ∧
    (∃ (c : Custody) (b : BankSet) (s : State), twinUp s = true ∧ s.twin.custody = some c ∧ c.set = some b ∧ s.cfg.twin = some c.unit ∧ s.twin.hbFlags / 2 % 2 = 1 ∧ (∀ t, s.twin.offerAt = some t → t + 1000000 ≤ s.now)) ∧
    (∃ (a : Arrival) (v i : Nat) (f p : List Byte) (s : State), arrives s a = true ∧ readTwin 2 f s = some (v, i, p) ∧ mayPull s v = true ∧ s.twin.pullFrom = none ∧ 28 ≤ p.length ∧ s.store.write = none) ∧
    (∃ (a : Arrival) (v i : Nat) (f p : List Byte) (c : Custody) (s : State), arrives s a = true ∧ readTwin 3 f s = some (v, i, p) ∧ custodyOf s v = some c ∧ c.seq = fieldAt p 0 4 ∧ c.set.isSome = true) ∧
    (∃ (a : Arrival) (v : Nat) (f p : List Byte) (b : BankSet) (s : State), arrives s a = true ∧ readTwin 4 f s = some (v, 0, p) ∧ s.twin.pullFrom ≠ some v ∧ s.cfg.twin = some v ∧ pairStands s = true ∧ s.twin.custody = none ∧ 0 < s.twin.hbSeq) ∧
    (∃ (a : Arrival) (v i : Nat) (f p : List Byte) (c : Custody) (s : State), arrives s a = true ∧ readTwin 5 f s = some (v, i, p) ∧ s.twin.pullFrom ≠ some v ∧ s.cfg.twin = some v ∧ pairStands s = true ∧ custodyOf s v = some c ∧ c.records = [] ∧ p.length = 128 ∧ 0 < fieldAt p 0 8) ∧
    (∃ (a : Arrival) (v i : Nat) (f p : List Byte) (s : State), arrives s a = true ∧ readTwin 6 f s = some (v, i, p) ∧ s.cfg.twin = some v) ∧
    (∃ (a : Arrival) (v i : Nat) (f p : List Byte) (s : State), arrives s a = true ∧ readTwin 7 f s = some (v, i, p)) ∧
    (∃ (o : Op) (v next d : Nat) (s : State), s.ops = [o] ∧ o.prog = .releasing v next d ∧ twinUp s = true) :=
  ⟨⟨(ln0 "PAIR U0008"), 8, 0, (authed nt), by decide +kernel⟩,
   ⟨(ln "PAIR ATTACH"), none, 1, (nt.modHead fun h => { h with loaded := false }), by decide +kernel⟩,
   ⟨(ln "PAIR RELEASE"), 1, nt, by decide +kernel⟩,
   ⟨8, (tw id), by decide +kernel⟩,
   ⟨AA, 8, 0, (tf10 1 0 (hb10 5)), (hb10 5), { tw id with ops := [{ slot := some 1024, id := 0, port := .session 1, tag := some 9, acc := 1, verb := .pair 8, text := [], prog := .pairing 8 5 }], nextOp := 1 }, by decide +kernel⟩,
   ⟨8, (tw fun t => { t with hbAt := some 5, hbFlags := 4 }), by decide +kernel⟩,
   ⟨cu, cb, (tw fun t => { t with custody := some cu, hbFlags := 2 }), by refine ⟨?_, ?_, ?_, ?_, ?_, all_some (by decide +kernel)⟩ <;> decide +kernel⟩,
   ⟨AA, 8, 0, (tf10 2 0 (padTo 28 0 [4,0,0,0,9])), (padTo 28 0 [4,0,0,0,9]), ((tw id).modHead fun h => { h with loaded := false }), by decide +kernel⟩,
   ⟨AA, 8, 0, (tf10 3 0 [4,0,0,0]), [4,0,0,0], cu, (tw fun t => { t with custody := some cu }), by decide +kernel⟩,
   ⟨AA, 8, (tf10 4 0 [1,2]), [1,2], cb, (tw fun t => { t with formed := true, hbAt := some 99999000, hbSeq := 4, hbCrc := setCrc 4 cb }), by decide +kernel⟩,
   ⟨AA, 8, 0, (tf10 5 0 (padTo 128 0 [4])), (padTo 128 0 [4]), cu, (tw fun t => { t with formed := true, hbAt := some 99999000, custody := some cu }), by decide +kernel⟩,
   ⟨AA, 8, 0, (tf10 6 0 []), [], (tw fun t => { t with formed := true, custody := some cu }), by decide +kernel⟩,
   ⟨AA, 8, 0, (tf10 7 0 []), [], (withOp (tw id) (.releasing 8 5 6)), by decide +kernel⟩,
   ⟨(tOp (.releasing 8 5 6)), 8, 5, 6, (withOp (tw id) (.releasing 8 5 6)), by decide +kernel⟩⟩

theorem witness_SleepAndWake :
    (∃ (l : Line) (system : Bool) (n : Nat) (e : List Nat) (s : State), taken n l (sleepSpec system) s = true ∧ s.noTime .jrn = false ∧ e = (if system then electorate s else [ownUnit s])) ∧
    (∃ (l : Line) (n : Nat) (s : State), taken n l (wakeSpec l.port) s = true) ∧
    (∃ (a : Arrival) (f : List Byte) (s : State), arrives s a = true ∧ sleepFrame f s = true ∧ fieldAt f 2 1 = 1 ∧ (fieldAt f 4 2, fieldAt f 6 4, 1 + 16 * fieldAt f 0 2) ∉ s.slp.acted ∧ s.slp.commit = none ∧ s.slp.reached = false ∧ s.slp.vote = none) ∧
    (∃ (a : Arrival) (f : List Byte) (v : Vote) (s : State), arrives s a = true ∧ sleepFrame f s = true ∧ (fieldAt f 2 1 = 2 ∨ fieldAt f 2 1 = 3) ∧ (fieldAt f 4 2, fieldAt f 6 4, fieldAt f 2 1 + 16 * fieldAt f 0 2) ∉ s.slp.acted ∧ s.slp.vote = some v ∧ v.coord = ownUnit s ∧ fieldAt f 4 2 = v.coord ∧ fieldAt f 6 4 = v.number ∧ fieldAt f 0 2 ∈ v.electors ∧ s.slp.commit = none ∧ v.notReady = []) ∧
    (∃ (v : Vote) (s : State), s.slp.vote = some v ∧ v.coord = ownUnit s ∧ s.slp.commit = none ∧ v.at_ + 1000000 ≤ s.now) ∧
    (∃ (v : Vote) (s : State), s.slp.vote = some v ∧ v.coord ≠ ownUnit s ∧ s.slp.commit = none ∧ v.at_ + 1500000 ≤ s.now) ∧
    (∃ (a : Arrival) (f : List Byte) (v : Vote) (s : State), arrives s a = true ∧ sleepFrame f s = true ∧ fieldAt f 2 1 = 4 ∧ (fieldAt f 4 2, fieldAt f 6 4, 4 + 16 * fieldAt f 0 2) ∉ s.slp.acted ∧ s.slp.vote = some v ∧ elected f s = true ∧ v.coord = fieldAt f 4 2 ∧ v.number = fieldAt f 6 4 ∧ s.slp.commit = none) ∧
    (∃ (a : Arrival) (f : List Byte) (s : State), arrives s a = true ∧ sleepFrame f s = true ∧ fieldAt f 2 1 = 5 ∧ (fieldAt f 4 2, fieldAt f 6 4, 5 + 16 * fieldAt f 0 2) ∉ s.slp.acted) ∧
    (∃ (t : Int) (s : State), s.slp.commit = some t ∧ t ≤ s.time ∧ s.head.powered = true ∧ s.slp.reached = false) ∧
    (∃ (t : Nat) (s : State), s.sup.commitAt = some t) ∧
    (∃ (v : Nat) (x : LineIn) (s : State), x = lineSample s 20000 v s.sup.wakein) ∧
    (∃ (s : State), s.sup.st = .asleep ∧ s.sup.latch = true ∧ (∀ t, s.sup.downAt = some t → t + 200000 ≤ s.now) ∧ s.sup.goodSince.isSome = true) ∧
    (∃ (s : State), due s.sup.wakeout s.now = true) ∧
    (∃ (s : State), s.head.bit31 = true) :=
  ⟨⟨(ln "SLEEP SYSTEM"), true, 1, [5, 8], (wp11 doors), by decide +kernel⟩,
   ⟨(ln "WAKE"), 1, (slp fun x => { x with reached := true }), by decide +kernel⟩,
   ⟨AA, (sfr 8 1 8 3 5 [5, 8]), (wp11 doors), by decide +kernel⟩,
   ⟨AA, (sfr 8 2 5 3 5 []), vt, (slp fun x => { x with vote := some vt }), by decide +kernel⟩,
   ⟨vt, (slp fun x => { x with vote := some vt }), by decide +kernel⟩,
   ⟨{ vt with coord := 8, op := none }, (slp fun x => { x with vote := some { vt with coord := 8, op := none } }), by decide +kernel⟩,
   ⟨AA, (sfr 8 4 8 3 100500000000 [5]), { vt with coord := 8, op := none }, (slp fun x => { x with vote := some { vt with coord := 8, op := none } }), by decide +kernel⟩,
   ⟨AA, (sfr 8 5 8 3 100500000000 [5]), (slp fun x => { x with reached := true }), by decide +kernel⟩,
   ⟨5, (slp fun x => { x with commit := some 5, vote := some { vt with op := none } }), by decide +kernel⟩,
   ⟨5, (spp fun x => { x with commitAt := some 5 }), by decide +kernel⟩,
   ⟨110000, (wk1 doors 110000), doors, by decide +kernel⟩,
   ⟨{ offS with sup := { offS.sup with st := .asleep, latch := true, host := true, downAt := some 5 } }, by decide +kernel, by decide +kernel, all_some (by decide +kernel), by decide +kernel⟩,
   ⟨{ offS with sup := { offS.sup with wakeout := some 5 } }, by decide +kernel⟩,
   ⟨({ (withOp doors (.waking 5)) with ops := [{ tOp (.waking 5) with port := .supervisor, slot := none }] }.modHead fun h => { h with bit31 := true }), by decide +kernel⟩⟩

theorem witness_StoresAndJournal :
    (∃ (l : Line) (n : Nat) (s : State), taken n l saveSpec s = true ∧ (s.ses n).staging = none) ∧
    (∃ (l : Line) (n : Nat) (s : State), taken n l { saveSafetySpec with values := fun _ => none } s = true) ∧
    (∃ (l : Line) (n : Nat) (s : State), taken n l saveBeginSpec s = true) ∧
    (∃ (l : Line) (n : Nat) (s : State), taken n l saveAbortSpec s = true) ∧
    (∃ (l : Line) (q : JQuery) (n : Nat) (r : List JRec) (t : List Reply) (s : State), taken n l (journalReadSpec false q) s = true ∧ r = ((byNum s).filter fun x => inQuery q x.num x.stamp x.code x.station x.bad).take q.count ∧ t = gapLine q ((((byNum s).filter fun x => !x.bad).head?).map (·.num)) ++ (r.map fun x => recLines x.num (recBytes x) x.bad).flatten) ∧
    (∃ (l : Line) (q : JQuery) (n z : Nat) (c : Custody) (r : List (List Byte)) (t : List Reply) (s : State), taken n l (journalReadSpec true q) s = true ∧ s.twin.custody = some c ∧ r = (c.records.filter fun x => inQuery q (fieldAt x 0 8) (unleI (slice x 8 8)) (fieldAt x 16 2) (fieldAt x 22 1) false).take q.count ∧ z = (c.records.getLast?.map fun x => fieldAt x 0 8).getD 0 ∧ t = gapLine q (c.records.head?.map fun x => fieldAt x 0 8) ++ (r.map fun x => recLines (fieldAt x 0 8) (markCustody x) false).flatten) ∧
    (∃ (l : Line) (n : Nat) (s : State), taken n l snapshotListSpec s = true) ∧
    (∃ (l : Line) (start len : Option Nat) (n a e : Nat) (b : Bool) (q : Snapshot) (t : List Reply) (s : State), taken n l (snapshotReadSpec none start len) s = true ∧ newestSnap s = some (b, q) ∧ a = start.getD 0 ∧ e = (match len with | some k => min q.len (a + k) | none => q.len) ∧ t = snapLines s q 16385 a e) ∧
    (∃ (l : Line) (k n : Nat) (s : State), taken n l (snapshotReleaseSpec k) s = true) ∧
    (∃ (s : State), s.head.powered = true ∧ s.noTime .jrn = false ∧ s.jrn.badPlaces = [] ∧ s.slp.vote = none) ∧
    (∃ (w : BankWrite) (s : State), s.store.write = some w ∧ s.head.powered = true ∧ s.noTime .jrn = false) ∧
    (∃ (w : BankWrite) (o : Op) (s : State), s.store.write = some w ∧ s.head.powered = true ∧ s.noTime .jrn = false ∧ w.both = false ∧ w.op = some o.id ∧ s.opOf o.id = some o) ∧
    (∃ (w : BankWrite) (o : Op) (x : Lane) (s : State), s.store.write = some w ∧ s.head.powered = true ∧ s.noTime .jrn = false ∧ w.both = false ∧ w.op = some o.id ∧ s.opOf o.id = some o ∧ o.prog = .saveSafety false ∧ w.bank.set.safety.isSome = true) :=
  ⟨⟨(ln "SAVE"), 1, doors, by decide +kernel⟩,
   ⟨(ln0 "SAVE SAFETY"), 0, (authed doors), by decide +kernel⟩,
   ⟨(ln "SAVE BEGIN"), 1, doors, by decide +kernel⟩,
   ⟨(ln "SAVE ABORT"), 1, doors, by decide +kernel⟩,
   ⟨(ln "JOURNAL READ"), {}, 1, (jR {}), (jT {}), js, by decide +kernel⟩,
   ⟨(ln "JOURNAL READ CUSTODY"), {}, 1, 5, cuR, ((cuR.records.filter fun x => inQuery {} (fieldAt x 0 8) (unleI (slice x 8 8)) (fieldAt x 16 2) (fieldAt x 22 1) false).take 1000), cT, cs11, by decide +kernel⟩,
   ⟨(ln "JOURNAL SNAPSHOT LIST"), 1, doors, by decide +kernel⟩,
   ⟨(ln "JOURNAL SNAPSHOT"), none, none, 1, 0, 100, false, snp, (snapLines (ss11.modHead fun h => { h with unread := true }) snp 16385 0 100), (ss11.modHead fun h => { h with unread := true }), by decide +kernel⟩,
   ⟨(ln "JOURNAL SNAPSHOT RELEASE SNAP=1"), 1, 1, ss11, by decide +kernel⟩,
   ⟨(bufS 32 99999999), by decide +kernel⟩,
   ⟨(bw (some 0) false), (bws (.save false) false), by decide +kernel⟩,
   ⟨(bw (some 0) false), (tOp (.save false)), (bws (.save false) false), by decide +kernel⟩,
   ⟨(bw (some 0) false), (tOp (.saveSafety false)), .a, (bws (.saveSafety false) false), by decide +kernel⟩⟩

end Sys2Proof.Tests
end

section
/-! SUPPORT. A step of the whole machine: what runs, and what every command keeps. -/

namespace Sys2Proof.Machine

open Sys2Proof

/-! ## Time that passes -/

theorem joinRow_kept (x : Crossing) (s : State) : KeptBut [.crossings] s (joinRow x s) := by
  intro p hp; cases p <;> simp_all [samePart, joinRow]
/-- The events that a timebase crosses join the row, and the event engine counts them (R69, R414). -/
theorem crossed_kept (tb : TB) (b0 b1 : Int) (jump late : Bool) (s : State) :
    KeptBut [.crossings, .work] s (crossed tb b0 b1 jump late s) := by
  unfold crossed
  split
  · exact KeptBut.refl _ s
  · exact ((worked_kept s _ _).mono (by simp)).trans (forEach_kept _ _ _ fun _ u => (joinRow_kept _ u).mono (by simp))
theorem timeMoved_kept (t0 f0 : Int) (s : State) : KeptBut [.crossings, .work] s (timeMoved t0 f0 s) :=
  (crossed_kept .time t0 _ false false s).trans (crossed_kept .flash f0 _ false false _)
theorem sendFrames_kept (s : State) : KeptBut [.sl] s (sendFrames s) := by
  unfold sendFrames
  refine forEach_kept _ _ s fun p u => ?_
  dsimp only
  split
  · split
    · exact (modSlc_kept u _ _).trans (modSlc_kept _ _ _)
    · exact modSlc_kept u _ _
  · split
    · exact modSlc_kept u _ _
    · exact KeptBut.refl _ u
/-- What a microsecond without a command touches: the clock, the row of crossings, the frames on their grid (R47, R69, R290). -/
theorem idleTick_kept (s : State) : KeptBut [.clk, .crossings, .work, .sl] s (idleTick s) := by
  have hc : ∀ c, KeptBut [.clk, .crossings, .work, .sl] s { s with clk := c } := by
    intro c p hp; cases p <;> simp_all [samePart]
  exact ((hc _).trans ((timeMoved_kept _ _ _).mono (by simp))).trans ((sendFrames_kept _).mono (by simp))

/-! ## Every command is settled -/

/-- Every command's next state is an effect, settled; only the end of a lane's self-test may let the safe state go (R22). -/
theorem exec_settles (i : Instr) (s : State) :
    ∃ rel u, exec i s = .next (settleWith rel s u) ∧ (rel = true → ∃ x p e, i = .laneSelfTestEnd x p e) := by
  cases i
  case laneSelfTestEnd x p e => exact ⟨true, _, rfl, fun _ => ⟨x, p, e, rfl⟩⟩
  all_goals exact ⟨false, _, rfl, by simp⟩
/-- A settled state has the modules, the queue and the clock with which its command began. -/
theorem settleWith_fixed (rel : Bool) (s u : State) :
    (settleWith rel s u).fit = s.fit ∧ (settleWith rel s u).pending = s.pending ∧ (settleWith rel s u).now = s.now :=
  ⟨rfl, rfl, rfl⟩
/-- What follows a command does not let the safe state go (R22). -/
theorem settle_safeKept (s u : State) : safeKept s (settle s u) := by
  intro h; simp [settle, settleWith, sealState, h]
theorem exec_safeKept (i : Instr) (s t : State) (ht : exec i s = .next t) (hi : ∀ x p e, i ≠ .laneSelfTestEnd x p e) : safeKept s t := by
  obtain ⟨rel, u, hu, hrel⟩ := exec_settles i s
  rw [hu] at ht
  cases ht
  cases rel
  · exact settle_safeKept s u
  · obtain ⟨x, p, e, hx⟩ := hrel rfl
    exact absurd hx (hi x p e)

end Sys2Proof.Machine
end
section
open Sys2Proof Sys2Proof.Machine

/-- Settles O1: the front of a queue that is not empty is what the step's match takes. -/
theorem stepRunsFront : Obligations.StepRunsFront := by
  intro c rest s h
  simp only [step, h]
/-- Settles O3, by the seal that ends every command's settling. -/
theorem everyCommandCompletes : Obligations.EveryCommandCompletes := by
  intro i s
  obtain ⟨rel, u, hu, -⟩ := exec_settles i s
  obtain ⟨hf, hp, hn⟩ := settleWith_fixed rel s u
  exact ⟨_, hu, hf, hp, hn, fun hi => exec_safeKept i s _ hu hi⟩
/-- Settles O4: a command of the queue keeps the latch by `exec_safeKept`, and idle time does not touch the lanes. -/
theorem safeStateStaysLatched : Obligations.SafeStateStaysLatched := by
  intro s t ht hfront
  cases hp : s.pending with
  | nil =>
    simp only [step, hp, Host.Outcome.next.injEq] at ht
    subst ht
    intro hs
    rwa [idleTick_kept s .camp (by simp)]
  | cons c rest =>
    rw [stepRunsFront c rest s hp] at ht
    have hc : ∀ x p e, c ≠ .laneSelfTestEnd x p e := fun x p e => by simpa [hp] using hfront x p e
    exact exec_safeKept c { s with pending := rest } t ht hc
end

section
/-! SUPPORT. Session lines that are taken: the session they come from, and the one-line answer of a verb that only answers. -/

namespace Sys2Proof.Machine

open Sys2Proof

/-- A taken line comes from an open session that holds no reply back, of a head that runs (R34, R103). -/
theorem taken_session {n : Nat} {l : Line} {sp : Spec} {s : State} (h : taken n l sp s = true) :
    l.port = .session n ∧ s.head.started = true ∧ (s.ses n).st = .opn ∧ (s.ses n).heldBack = [] := by
  simp only [taken, Bool.and_eq_true] at h
  obtain ⟨⟨⟨⟨⟨⟨⟨hh, -⟩, -⟩, -⟩, -⟩, -⟩, -⟩, -⟩ := h
  simp only [heard, Bool.and_eq_true] at hh
  obtain ⟨⟨hr, -⟩, -⟩ := hh
  simp only [reached, Bool.and_eq_true, decide_eq_true_eq] at hr
  obtain ⟨⟨⟨⟨⟨⟨⟨⟨hp, hst⟩, ho⟩, -⟩, -⟩, hb⟩, -⟩, -⟩, -⟩ := hr
  exact ⟨hp, hst, ho, List.isEmpty_iff.1 hb⟩
theorem taken_port {n : Nat} {l : Line} {sp : Spec} {s : State} (h : taken n l sp s = true) : l.port = .session n := (taken_session h).1

/-- A taken line's command does what its verb does in the state that the line's reading leaves (R105). -/
theorem does_of_taken {i : Instr} {n : Nat} {l : Line} {sp : Spec} {s : State} {p : State → Prop} (h : taken n l sp s = true)
    (hx : exec i s = .next (settle s (handleLine i l sp s))) (hp : p (sp.run (lineCtx l s) (lineGo n l sp s))) : Does i s p :=
  ⟨_, hx, by rw [taken_runs i n l sp s h]; exact hp⟩

/-- A line of a form without authority and without a command record touches its session, the interpreter's counter and the acceptance
number alone. -/
theorem lineGo_kept_unlogged (n : Nat) (l : Line) (sp : Spec) (s : State) (hp : l.port = .session n) (hs : sp.safety = false)
    (hl : sp.logged = false) : KeptBut [.sess, .work, .ids] s (lineGo n l sp s) := by
  have h : ∀ u : State, KeptBut [.sess, .work, .ids] u { u with accNo := u.accNo + 1 } := by
    intro u p _; cases p <;> simp_all [samePart]
  simp only [lineGo, lineSeen, hs, hl, Bool.false_eq_true, if_false]
  exact ((lineRead_kept n l s hp).mono (by simp)).trans (h _)
/-- A line of a form without authority touches Campion's state not at all. -/
theorem lineGo_kept_plain (n : Nat) (l : Line) (sp : Spec) (s : State) (hp : l.port = .session n) (hs : sp.safety = false) :
    KeptBut heardParts s (lineGo n l sp s) := by
  intro p hpt
  by_cases hc : p = .camp
  · subst hc; exact lineGo_camp n l sp s hp hs
  · exact lineGo_kept n l sp s hp p (by simp_all [heardParts])

/-- The session's own line is answered by a final reply that stands last in its buffer, and nothing else is touched (R101, R107). -/
theorem fin_answers {n : Nat} {l : Line} {s u : State} {r : Reply} {g : List TagEntry} (hp : l.port = .session n) (ho : (s.ses n).st = .opn)
    (hb : (s.ses n).heldBack = []) (hr : r.pre ≠ .tilde) (hu : u.ses n = { s.ses n with lastLine := s.now, tags := g })
    (hk : othersKept n s u) :
    answered n l s (fin (lineCtx l s) r u) r ∧ othersKept n s (fin (lineCtx l s) r u) ∧ KeptBut [.sess] u (fin (lineCtx l s) r u) := by
  obtain ⟨h1, h2, g', h3⟩ := fin_line (lineCtx l s) n r u hp rfl
  refine ⟨?_, fun k hk' => (h2 k hk').trans (hk k hk'), h1⟩
  have hf : ¬ (u.ses n).st = .free := by simp [hu, ho]
  have hpo := (put_out (u.ses n) { r with tag := lineTag l } (by simp [hu, hb]) hr).1
  simp only [answered, h3, if_neg hf]
  exact hpo.trans (by simp [hu, shown])
/-- A taken line whose verb draws at most a free value and gives a final reply is answered by it (R101, R107). -/
theorem go_answers {n : Nat} {l : Line} {sp : Spec} {s u : State} {r : Reply} (h : taken n l sp s = true) (hr : r.pre ≠ .tilde)
    (hu : KeptBut [.ids] (lineGo n l sp s) u) :
    answered n l s (fin (lineCtx l s) r u) r ∧ othersKept n s (fin (lineCtx l s) r u) ∧ KeptBut [.sess] u (fin (lineCtx l s) r u) := by
  obtain ⟨hp, -, ho, hb⟩ := taken_session h
  obtain ⟨g, hg⟩ := lineGo_own n l sp s hp
  have hses : ∀ k, u.ses k = (lineGo n l sp s).ses k := fun k => by
    unfold State.ses; rw [show u.sess = _ from hu .sess (by simp)]
  exact fin_answers hp ho hb hr ((hses n).trans hg) fun k hk => (hses k).trans (lineGo_other n k l sp s hp hk)
/-- A taken question, without authority and unlogged, is answered and leaves all but its session as it was. -/
theorem question_answered {n : Nat} {l : Line} {sp : Spec} {s u : State} {w : String} {f : List Fld} (h : taken n l sp s = true)
    (hs : sp.safety = false) (hl : sp.logged = false) (hu : KeptBut [.ids] (lineGo n l sp s) u) :
    answered n l s (fin (lineCtx l s) (eqR w f) u) (eqR w f) ∧ othersKept n s (fin (lineCtx l s) (eqR w f) u)
      ∧ KeptBut [.sess, .work, .ids] s (fin (lineCtx l s) (eqR w f) u) := by
  obtain ⟨ha, ho, hk⟩ := go_answers (r := eqR w f) h (by simp [eqR]) hu
  exact ⟨ha, ho, ((lineGo_kept_unlogged n l sp s (taken_port h) hs hl).trans (hu.mono (by simp))).trans (hk.mono (by simp))⟩

theorem capBits_congr {s u : State} (hf : u.fit = s.fit) (hs : u.sl = s.sl) : capBits u = capBits s := by
  simp [capBits, typeCode, enabled, State.slc, hf, hs]

/-- SHOW of anything but a slice gives its reply, in the state as it is or with a free value drawn (R507, R508). -/
theorem show_run (port : Port) (o : ShowObj) (c : Ctx) (s : State) (ho : ∀ p, o ≠ .slice p) :
    ∃ f u, KeptBut [.ids] s u ∧ (showSpec port o).run c s = fin c (eqR "show" f) u := by
  have hs := KeptBut.refl [.ids] s
  cases o with
  | slice p => exact absurd rfl (ho p)
  | buffer out off =>
    have hd : KeptBut [.ids] s (bufferBytes s (portSession c.port) out off).2 := by
      intro p hp; cases p <;> simp_all [samePart, bufferBytes, State.draw]
    exact ⟨_, _, hd, rfl⟩
  | camPoint n i => cases i <;> exact ⟨_, s, hs, rfl⟩
  | obj x => exact ⟨_, s, hs, rfl⟩
  | eventTag t => exact ⟨_, s, hs, rfl⟩
  | eventSlot k => exact ⟨_, s, hs, rfl⟩
  | sessionN k => exact ⟨_, s, hs, rfl⟩
  | netPeers k => exact ⟨_, s, hs, rfl⟩

/-- SHOW of a slice gives its reply and acknowledges its CRC error bit (R39, R507). -/
theorem show_slice_run (port : Port) (p : Nat) (c : Ctx) (s : State) :
    ∃ f, (showSpec port (.slice p)).run c s = (fin c (eqR "show" f) s).modSlc p fun x => { x with crcSeen := false } := ⟨_, rfl⟩
/-- SHOW answers in one line; SHOW of a slice acknowledges its CRC error bit beside it (R39, R507, R508). -/
theorem show_answers {l : Line} {o : ShowObj} {n : Nat} {s : State} (h : taken n l (showSpec l.port o) s = true) :
    Does (.show l o) s fun u => (∃ f, answered n l s u (eqR "show" f)) ∧ othersKept n s u ∧ KeptBut [.sess, .work, .ids, .sl] s u
      ∧ (∀ p, o ≠ .slice p → u.slc p = s.slc p) ∧ (∀ p, o = .slice p → u.slc p = { s.slc p with crcSeen := false }) := by
  refine does_of_taken h rfl ?_
  by_cases ho : ∃ p, o = .slice p
  · obtain ⟨p, rfl⟩ := ho
    obtain ⟨f, hrun⟩ := show_slice_run l.port p (lineCtx l s) (lineGo n l (showSpec l.port (.slice p)) s)
    obtain ⟨ha, hoth, hk⟩ := question_answered (w := "show") (f := f) h rfl rfl (KeptBut.refl _ _)
    rw [hrun]
    revert ha hoth hk
    generalize fin (lineCtx l s) (eqR "show" f) _ = v
    intro ha hoth hk
    have hsl : ∀ k, v.slc k = s.slc k := fun k => by unfold State.slc; rw [show v.sl = s.sl from hk .sl (by simp)]
    refine ⟨⟨f, ha⟩, hoth, (hk.mono (by simp)).trans ((modSlc_kept _ _ _).mono (by simp)), fun k hkp => ?_, fun k hkp => ?_⟩
    · have hne : k ≠ p := fun e => hkp (by rw [e])
      rw [slc_modSlc, if_neg hne, hsl]
    · cases hkp
      rw [slc_modSlc, if_pos rfl, hsl]
  · have ho' : ∀ p, o ≠ .slice p := fun p e => ho ⟨p, e⟩
    obtain ⟨f, u, hu, hrun⟩ := show_run l.port o (lineCtx l s) (lineGo n l (showSpec l.port o) s) ho'
    obtain ⟨ha, hoth, hk⟩ := question_answered (w := "show") (f := f) h rfl rfl hu
    rw [hrun]
    refine ⟨⟨f, ha⟩, hoth, hk.mono (by simp), fun p _ => ?_, fun p e => absurd e (ho' p)⟩
    unfold State.slc
    rw [show State.sl _ = s.sl from hk .sl (by simp)]

/-- Settles O17: each question's verb is a final reply in the state that its line leaves (`question_answered`, `show_answers`). -/
theorem questionsOnlyAnswer : Obligations.QuestionsOnlyAnswer := by
  refine ⟨fun l n s h => ?_, fun l n s h => ?_, fun l o ks n s h => ?_, fun l o n s h => show_answers h, fun l n s h => ?_⟩
  · have hk := lineGo_kept_unlogged n l askUnitsSpec s (taken_port h) rfl rfl
    refine does_of_taken h rfl ?_
    rw [← capBits_congr (hk .fixed (by simp)).1 (hk .sl (by simp))]
    exact question_answered h rfl rfl (KeptBut.refl _ _)
  · have hk : headRest (lineGo n l askVersionSpec s).head = headRest s.head :=
      lineGo_kept_unlogged n l askVersionSpec s (taken_port h) rfl rfl .head (by simp)
    have hser : (lineGo n l askVersionSpec s).head.serial = s.head.serial := by
      have h1 := congrArg Head.serial hk; exact h1
    refine does_of_taken h rfl ?_
    rw [← hser]
    exact question_answered h rfl rfl (KeptBut.refl _ _)
  · obtain ⟨ha, ho, hk⟩ := question_answered h rfl rfl (KeptBut.refl _ _)
    exact does_of_taken h rfl ⟨⟨_, ha⟩, ho, hk.mono (by simp)⟩
  · have hrun : ∀ c u, (liveSpec l.port).run c u = fin c (eqR "live" (liveFields u)) u := fun c u => by
      rw [taken_port h]; rfl
    obtain ⟨ha, ho, hk⟩ := question_answered (w := "live") (f := liveFields (lineGo n l (liveSpec l.port) s)) h rfl rfl (KeptBut.refl _ _)
    exact does_of_taken h rfl (by rw [hrun]; exact ⟨ho, hk, _, rfl, ha⟩)

end Sys2Proof.Machine
end

section
/-! SUPPORT. A line of field outputs that names no channel: its numbers run backwards, so no frame is to carry anything, and its reply
comes at once. LAMP, FLASH and OUT as stated let every such line wait for frames; here is a unit in which that fails, and why nothing
that follows a command makes up for it. -/

namespace Sys2Proof.Machine

open Sys2Proof

/-- A unit with one open session in typed mode, where nothing moves, waits or is due. -/
def quietUnit : State := { head := { started := true }, sess := [(1, { st := .opn, mode := .typed })] }
/-- A line of that session. -/
def quietLine (t : String) : Line := { port := .session 1, chars := ascii t, framed := .typed, term := .cr }
/-- Stations S05 to S03 by one channel: a range that holds no station. -/
def noChannels (c : Chan) : ChSel := .items [.over 5 3 c]
theorem chSel_noChannels (s : State) (c : Chan) : chSel s (noChannels c) = [] := rfl

/-- Nothing lasts in a unit: no operation, no relay, no commit window, every station at its default. -/
def Resting (v : State) : Prop := v.ops = [] ∧ v.net.relays = [] ∧ v.slp.commit = none ∧ ∀ k, v.stn k = {}
/-- A reply of session 1 waits for frames, or that session is over and its replies with it (R102, R111). -/
def AwaitsOrOver (v : State) : Prop := (∃ r ∈ v.returns, r.ctx.port = .session 1) ∨ (v.ses 1).st = .free
/-- The two together, which each part of settling keeps. -/
def RestsAwaiting (v : State) : Prop := Resting v ∧ AwaitsOrOver v

theorem AwaitsOrOver.of_same {v w : State} (hs : w.sess = v.sess) (hr : w.returns = v.returns) (h : AwaitsOrOver v) : AwaitsOrOver w := by
  unfold AwaitsOrOver State.ses at *; rwa [hs, hr]
theorem forEach_keeps {α σ : Type} {P : σ → Prop} (l : List α) (f : α → σ → σ) (s : σ) (h : ∀ a s, P s → P (f a s)) (hs : P s) :
    P (forEach l f s) := by
  induction l generalizing s with
  | nil => exact hs
  | cons a l ih => exact ih (f a s) (h a s hs)

theorem camsFollow_of_resting {s v : State} (h : Resting v) : camsFollow s v = v := by
  obtain ⟨-, -, -, hst⟩ := h
  have hm : masterMoved s v = fun _ => false := by funext n; simp [masterMoved, State.ax, hst]
  simp [camsFollow, hm]
theorem Resting.modStn {v : State} {n : Nat} {f : Station → Station} (h : Resting v) (hf : f {} = {}) : Resting (v.modStn n f) := by
  obtain ⟨ho, hr, hc, hst⟩ := h
  refine ⟨ho, hr, hc, fun k => ?_⟩
  rw [stn_modStn]
  split <;> simp [hst, hf]
theorem searchEnds_restsAwaiting {v : State} (n : Nat) (h : RestsAwaiting v) : RestsAwaiting (searchEnds n v) := by
  obtain ⟨hv, ha⟩ := h
  have hst := hv.2.2.2
  unfold searchEnds
  split
  · simp only [endSearch, hst, Bool.not_false, if_true]
    exact ⟨hv, ha⟩
  · rename_i m _
    have hw := hv.modStn (n := n) (f := fun t => { t with stepRefs := false }) rfl
    have hd : Resting (dropCharge n (v.modStn n fun t => { t with stepRefs := false })) := hw
    have hdoor : (dropCharge n (v.modStn n fun t => { t with stepRefs := false })).stn n = {} := hd.2.2.2 n
    simp only [State.ax, hst, hw.2.2.2, Option.isSome_none, Bool.false_eq_true, if_false, doorFailed, learnFails, hdoor]
    exact ⟨hd, ha.of_same rfl rfl⟩
theorem endSession_restsAwaiting {v : State} (n : Nat) (h : RestsAwaiting v) : RestsAwaiting (endSession n v) := by
  obtain ⟨⟨ho, hr, hc, hst⟩, ha⟩ := h
  have he : endSession n v = { v.modSes n fun _ => {} with
      net := { v.net with relays := [] }, inbuf := v.inbuf.filter (·.ses ≠ n), returns := v.returns.filter (·.ctx.port ≠ .session n) } := by
    simp [endSession, cancelAll, sessionOps, ho, dropRelays, hr, State.modNet, State.modSes]
  rw [he]
  refine ⟨⟨ho, rfl, hc, hst⟩, ?_⟩
  by_cases hn : n = 1
  · right
    subst hn
    show ((v.modSes 1 fun _ => {}).ses 1).st = .free
    simp
  · obtain ⟨r, hr1, hr2⟩ | hf := ha
    · left
      exact ⟨r, by simp [hr1, hr2, Ne.symm hn], hr2⟩
    · right
      show ((v.modSes n fun _ => {}).ses 1).st = .free
      simp [Ne.symm hn, hf]
/-- What follows a command of the quiet unit lets no reply go that waits for frames (R102). -/
theorem settle_awaits {u : State} (h : RestsAwaiting u) : AwaitsOrOver (settle quietUnit u) := by
  unfold settle settleWith
  have h1 : RestsAwaiting (searchesEnd (camsFollow quietUnit u)) := by
    rw [camsFollow_of_resting h.1]
    exact forEach_keeps _ _ _ (fun n v => searchEnds_restsAwaiting n) h
  generalize searchesEnd (camsFollow quietUnit u) = v at h1 ⊢
  have h2 : RestsAwaiting (clearMarks (sleepWatch (releaseGone quietUnit v))) := by
    have hg : releaseGone quietUnit v = v := by unfold releaseGone; split <;> rfl
    have hasleep : v.slp.commit = none := by obtain ⟨⟨-, -, hc, -⟩, -⟩ := h1; exact hc
    have hw : sleepWatch v = v := by simp [sleepWatch, hasleep]
    rw [hg, hw]
    exact forEach_keeps _ _ _ (fun e w hw => ⟨hw.1.modStn rfl, hw.2.of_same rfl rfl⟩) h1
  generalize clearMarks (sleepWatch (releaseGone quietUnit v)) = w at h2 ⊢
  have h3 : RestsAwaiting (endFull (watchDiff quietUnit w)) := forEach_keeps _ _ _ (fun e x => endSession_restsAwaiting e.1) h2
  have hk := poolRecord_kept (endFull (watchDiff quietUnit w))
  exact (h3.2.of_same (hk .sess (by simp)) (hk .returns (by simp))).of_same rfl rfl


/-- What a line of the quiet unit's session may leave, where its reply is to wait for frames. -/
theorem restsAwaiting_of_awaitsFrames {l : Line} {u : State} {r : Reply} {d : List Nat} {ps : List Part} (hl : l.port = .session 1)
    (hw : awaitsFrames l quietUnit u r d) (hst : ∀ k, u.stn k = quietUnit.stn k) (hk : KeptBut ps quietUnit u)
    (hps : .ops ∉ ps ∧ .net ∉ ps ∧ .slp ∉ ps) : RestsAwaiting u := by
  obtain ⟨hops, hnet, hslp⟩ := hps
  refine ⟨⟨hk .ops hops, ?_, ?_, hst⟩, .inl ⟨{ ctx := lineCtx l quietUnit, reply := r, due := d }, by rw [hw]; simp, hl⟩⟩
  · rw [show u.net = quietUnit.net from hk .net hnet]; rfl
  · rw [show u.slp = quietUnit.slp from hk .slp hslp]; rfl
/-- A command after which no reply of session 1 waits, and that session is open, leaves no state that lets a reply wait for frames. -/
theorem not_does_of_answered {i : Instr} {p : State → Prop} {w : State} (hx : exec i quietUnit = .next w)
    (hw : w.returns = [] ∧ (w.ses 1).st ≠ .free) (hp : ∀ u, p u → RestsAwaiting u) : ¬ Does i quietUnit p := by
  rintro ⟨u, hu, hpu⟩
  rw [hx, Host.Outcome.next.injEq] at hu
  subst hu
  obtain ⟨hret, hses⟩ := hw
  rcases settle_awaits (hp u hpu) with ⟨r, hr, -⟩ | hf
  · rw [hret] at hr; exact absurd hr (by simp)
  · exact hses hf

/-- Refutes O27: `LAMP S05-S03/LA ON`, as an operand, names no channel, so no frame is to come; it is answered at once and does not wait. -/
theorem not_lampAndFlash : ¬ Obligations.LampAndFlash := by
  rintro ⟨hlamp, -⟩
  have ht : taken 1 (quietLine "LAMP S05/LA ON") (lampSpec (noChannels .la) true) quietUnit = true := by decide +kernel
  refine not_does_of_answered rfl ?_ ?_ (hlamp (quietLine "LAMP S05/LA ON") (noChannels .la) true 1 quietUnit ht)
  · decide +kernel
  · rintro u ⟨-, hst, -, hw, -, -, hk⟩
    exact restsAwaiting_of_awaitsFrames rfl hw (fun k => hst k (by simp [swSel, chSel_noChannels])) hk (by decide)
/-- Refutes O28: `OUT S05-S03/OUT0 ON`, as an operand, names no output, so no frame is to come; it is answered at once and does not wait. -/
theorem not_outDrives : ¬ Obligations.OutDrives := by
  intro hout
  have ht : taken 1 (quietLine "OUT S05/OUT0 ON") (outSpec (noChannels .out0) true) quietUnit = true := by decide +kernel
  refine not_does_of_answered rfl ?_ ?_ (hout (quietLine "OUT S05/OUT0 ON") (noChannels .out0) true 1 quietUnit ht)
  · decide +kernel
  · rintro u ⟨-, -, -, hst, -, hw, -, -, hk⟩
    exact restsAwaiting_of_awaitsFrames rfl hw (fun k => hst k fun c => by simp [chSel_noChannels]) hk (by decide)

end Sys2Proof.Machine
end

section
/-! SUPPORT. RESET SLICE ends without a slice while the pool-full record stands and a sleep is about to be given up: the slot that the
operation frees is journalled before the sleep's abort. No effect that leaves the journal alone explains that order. -/

namespace Sys2Proof.Machine

open Sys2Proof

/-- A unit in start-up with a commit window open, whose RESET SLICE of position 0 is due, holds a slot, and finds no slice there; the
pool-full record awaits its answer. -/
def fullPoolReset : State :=
  { slp := { commit := some 0 }, poolFull := true, sl := [(0, { restoreAt := some 0, resetOp := some 5 })]
    ops := [{ slot := some 2000, id := 5, port := .supervisor, tag := none, acc := 0, verb := .reset, text := [], prog := .resetting "slice" none "none" }] }

/-- The oldest record of the journal's write buffer is of a type (R453). -/
def firstRecord (s : State) (code : Nat) : Prop := (s.jrn.buf.head?.map (·.code)) = some code

theorem poolRecord_firstRecord {s : State} {code : Nat} (h : firstRecord s code) : firstRecord (poolRecord s) code := by
  have hr : ∀ c p hd, firstRecord (record c p hd s) code := fun c p hd => by
    unfold firstRecord at h ⊢
    unfold record
    dsimp only
    split
    · split <;> exact h
    · cases hb : s.jrn.buf <;> simp_all [pushRec, State.modJrn]
  unfold poolRecord
  split
  · exact hr _ _ _
  · split
    · exact hr _ _ _
    · exact h
/-- The end of a session leaves its number listed. -/
theorem endFull_sess_ne_nil {s : State} (h : s.sess.filter (fun e => decide (e.2.st = .held ∧ 65536 ≤ outBytes e.2.out)) ≠ []) :
    (endFull s).sess ≠ [] := by
  obtain ⟨l, e, he⟩ := List.eq_nil_or_concat _ |>.resolve_left h
  have hne : ∀ (t : Tbl Session) n x, tset t n x ≠ [] := by
    intro t n x
    cases t <;> simp only [tset] <;> (try split) <;> (try split) <;> simp
  unfold endFull
  rw [he]
  simp only [forEach, List.concat_eq_append, List.foldl_append, List.foldl_cons, List.foldl_nil]
  exact hne _ _ _

/-- A sleep given up touches the vote, the supervisor's commit instant, who is told, and the journal (R403). -/
theorem abortSleep_kept (src : Nat) (causes : List String) (s : State) : KeptBut [.slp, .sup, .sess, .jrn] s (abortSleep src causes s) := by
  unfold abortSleep
  exact ((((modSlp_kept s _).mono (by simp)).trans ((modSup_kept _ _).mono (by simp))).trans ((sendAll_kept _ _).mono (by simp))).trans
    ((record_kept _ _ _ _).mono (by simp))
/-- With an empty journal and no engine reset, a sleep given up is the journal's first record (R403). -/
theorem abortSleep_firstRecord (src : Nat) (causes : List String) {s : State} (hj : s.jrn = {}) (hr : s.head.resetting = none) :
    firstRecord (abortSleep src causes s) 0x0A06 := by
  unfold abortSleep
  dsimp only
  generalize hw : sendAll _ _ = w
  have hk : KeptBut [.slp, .sup, .sess] s w := hw ▸
    (((modSlp_kept s _).mono (by simp)).trans ((modSup_kept _ _).mono (by simp))).trans ((sendAll_kept _ _).mono (by simp))
  have hwj : w.jrn = {} := (hk .jrn (by simp)).1.trans hj
  have hwh : headRest w.head = headRest s.head := hk .head (by simp)
  have hwr : w.head.resetting = none := by have h := congrArg Head.resetting hwh; exact h.trans hr
  simp [firstRecord, record, State.noTime, State.engDown, hwr, pushRec, hwj, formRec]

/-- In `fullPoolReset`, and in whatever leaves its stations, its head and its journal alone, a sleep's abort is journalled first (R403). -/
theorem settle_fullPoolReset {u : State} (hk : KeptBut [.sl, .sess, .sup, .pool, .work, .ops] fullPoolReset u)
    (hs : (settle fullPoolReset u).sess = []) : firstRecord (settle fullPoolReset u) 0x0A06 := by
  have hst : u.st = [] := hk .st (by simp)
  have hslp : u.slp = { commit := some 0 } := hk .slp (by simp)
  have hjrn : u.jrn = {} := (hk .jrn (by simp)).1
  have hhead : headRest u.head = headRest {} := hk .head (by simp)
  have hbit : u.head.bit31 = true := by have h := congrArg Head.bit31 hhead; exact h
  have hres : u.head.resetting = none := by have h := congrArg Head.resetting hhead; exact h
  have hunit : u.head.unit = none := by have h := congrArg Head.unit hhead; exact h
  have hcams : searchesEnd (camsFollow fullPoolReset u) = u := by simp [camsFollow, searchesEnd, hst]
  have hgone : releaseGone fullPoolReset u = u := by unfold releaseGone; split <;> rfl
  have hready : notReady u ≠ 0 := by simp [notReady, hbit]
  have hwatch : sleepWatch u = abortSleep 65535 ["local"] u := by
    unfold sleepWatch
    rw [if_pos ⟨by simp [hslp], by simp [hslp], hready⟩]
    simp [sendWake, hunit]
  have hmarks : clearMarks (abortSleep 65535 ["local"] u) = abortSleep 65535 ["local"] u := by
    simp [clearMarks, show (abortSleep 65535 ["local"] u).st = [] from (abortSleep_kept _ _ u .st (by simp)).trans hst]
  have hdiff : ∀ v, watchDiff fullPoolReset v = v := fun _ => rfl
  unfold settle settleWith at hs ⊢
  rw [hcams, hgone, hwatch, hmarks, hdiff] at hs ⊢
  have hsess : (endFull (abortSleep 65535 ["local"] u)).sess = [] := (poolRecord_kept _ .sess (by simp)).symm.trans hs
  have hfull : endFull (abortSleep 65535 ["local"] u) = abortSleep 65535 ["local"] u := by
    have hnone := not_imp_comm.1 endFull_sess_ne_nil (not_not.2 hsess)
    unfold endFull
    rw [hnone]; rfl
  rw [hfull]
  exact poolRecord_firstRecord (abortSleep_firstRecord _ _ hjrn hres)

/-- Refutes O36: where the reset's operation holds a slot and the pool-full record stands, the end without a slice journals the pool as
available (R56), so the journal is not left alone. -/
theorem not_sliceReset : ¬ Obligations.SliceReset := by
  rintro ⟨-, -, hempty⟩
  obtain ⟨u, hu, -, -, -, hk⟩ := hempty 0 fullPoolReset (by decide +kernel) rfl (by decide +kernel)
  have hx : exec (.slicePowerRestore 0) fullPoolReset = .next (settle fullPoolReset u) := hu
  obtain ⟨w, hw, hsess, hrec⟩ : ∃ w, exec (.slicePowerRestore 0) fullPoolReset = .next w ∧ w.sess = [] ∧ firstRecord w 0x0202 :=
    ⟨_, rfl, by decide +kernel, by unfold firstRecord; decide +kernel⟩
  rw [hw, Host.Outcome.next.injEq] at hx
  have h := settle_fullPoolReset hk (hx ▸ hsess)
  rw [← hx] at h
  unfold firstRecord at h hrec
  rw [h] at hrec
  exact absurd hrec (by decide)

end Sys2Proof.Machine
end

section
/-! SUPPORT. The frames of recovery: the journal's writing out, the snapshot, what closes before the head goes. -/

namespace Sys2Proof.Machine

open Sys2Proof

/-! ## Members of a part that is kept -/

theorem slc_of_sl {s u : State} (h : u.sl = s.sl) (k : Nat) : u.slc k = s.slc k := by unfold State.slc; rw [h]
theorem KeptBut.slc {l : List Part} {s u : State} (h : KeptBut l s u) (hl : .sl ∉ l) (k : Nat) : u.slc k = s.slc k := slc_of_sl (h .sl hl) k
theorem KeptBut.stn {l : List Part} {s u : State} (h : KeptBut l s u) (hl : .st ∉ l) (k : Nat) : u.stn k = s.stn k := by
  unfold State.stn; rw [show u.st = s.st from h .st hl]
theorem KeptBut.ses {l : List Part} {s u : State} (h : KeptBut l s u) (hl : .sess ∉ l) (k : Nat) : u.ses k = s.ses k := by
  unfold State.ses; rw [show u.sess = s.sess from h .sess hl]
theorem KeptBut.lane {l : List Part} {s u : State} (h : KeptBut l s u) (hl : .camp ∉ l) (x : Lane) : u.lane x = s.lane x := by
  cases x <;> simp only [State.lane, show u.camp = s.camp from h .camp hl]
theorem KeptBut.now {l : List Part} {s u : State} (h : KeptBut l s u) (hl : .clk ∉ l) : u.now = s.now := by
  unfold State.now; rw [show u.clk = s.clk from h .clk hl]

/-! ## The journal -/

theorem enterBlock_kept (p : Nat) (s : State) : KeptBut [.jrn] s (enterBlock p s) := by
  unfold enterBlock enterBlock.writeIndexAt
  split
  · exact KeptBut.refl _ s
  · dsimp only
    split
    · exact (modJrn_kept s _).trans (modJrn_kept _ _)
    · exact modJrn_kept s _
theorem placeRec_kept (k : Nat) (r : JRec) (s : State) : KeptBut [.jrn, .work] s (placeRec k r s) := by
  induction k generalizing s with
  | zero => exact KeptBut.refl _ s
  | succ k ih =>
    have hj : ∀ (u : State) f, KeptBut [.jrn, .work] u (u.modJrn f) := fun u f => (modJrn_kept u f).mono (by simp)
    have hb := (enterBlock_kept (goodPlace s (blocks s) s.jrn.nextPlace) s).mono (m := [.jrn, .work]) (by simp)
    unfold placeRec
    dsimp only
    split
    · refine KeptBut.trans ?_ (ih _)
      split
      · exact (((hb.trans (hj _ _)).trans (hj _ _)).trans (hj _ _)).trans ((record_kept _ _ _ _).mono (by simp))
      · exact hb.trans (hj _ _)
    · exact (hb.trans (hj _ _)).trans ((worked_kept _ _ _).mono (by simp))
/-- Writing out the journal changes the journal and its engine's counter (R414, R453). -/
theorem flushJournal_kept (s : State) : KeptBut [.jrn, .work] s (flushJournal s) :=
  ((modJrn_kept s _).mono (by simp)).trans (forEach_kept _ _ _ fun r u => placeRec_kept 4096 r u)

/-! ## The snapshot (R426 to R428) -/

theorem modStore_kept (s : State) (f : Stores → Stores) : KeptBut [.store] s (s.modStore f) := by
  intro p hp; cases p <;> simp_all [samePart]
/-- A snapshot changes the stores, the journal, and the head's mark of an unread snapshot (R427, R428). -/
theorem takeSnapshot_kept (rung object : Nat) (w : String) (only : Option Nat) (sus : List Nat) (s : State) :
    KeptBut [.jrn, .work, .store, .head] s (takeSnapshot rung object w only sus s).2 := by
  have hi : ∀ u : State, KeptBut [.jrn, .work, .store, .head] u (writeIndex u) := fun u => (modJrn_kept u _).mono (by simp)
  have hr : ∀ (c : Nat) p d (u : State), KeptBut [.jrn, .work, .store, .head] u (record c p d u) := fun c p d u => (record_kept c p d u).mono (by simp)
  have hh : ∀ u : State, KeptBut [.jrn, .work, .store, .head] u (u.modHead fun h => { h with unread := true }) := by
    intro u p hp; cases p <;> simp_all [samePart]
  have h0 : KeptBut [.jrn, .work, .store, .head] s (if s.noTime .jrn then s else writeIndex (flushJournal s)) := by
    split
    · exact KeptBut.refl _ s
    · exact ((flushJournal_kept s).mono (by simp)).trans (hi _)
  unfold takeSnapshot
  dsimp only
  split
  · exact h0
  · refine KeptBut.trans ?_ (hr _ _ _ _)
    refine KeptBut.trans (KeptBut.trans ?_ ((modStore_kept _ _).mono (by simp))) (hh _)
    split
    · exact h0.trans (hr _ _ _ _)
    · exact h0

/-! ## Before the head goes (R419, R434) -/

theorem flushSes_kept (n : Nat) (s : State) : KeptBut [.sess, .left] s (flushSes n s) := by
  intro p hp; cases p <;> simp_all [samePart, flushSes]
theorem flushOut_kept (s : State) : KeptBut [.sess, .left] s (flushOut s) := forEach_kept _ _ s fun n u => flushSes_kept n u
/-- What a final reply touches, and the connections that what is left in the buffers leaves on. -/
theorem closeAll_kept (s : State) : KeptBut [.sess, .sup, .pool, .work, .ops, .jrn, .left] s (closeAll s) := by
  unfold closeAll
  dsimp only
  exact ((forEach_kept _ _ s fun o u => (cutOp_kept _ _ u).mono (by simp)).trans ((sendAll_kept _ _).mono (by simp))).trans
    ((flushOut_kept _).mono (by simp))
theorem cutNarrower_kept (rung : Nat) (s : State) : KeptBut [.sess, .sup, .pool, .work, .ops, .jrn] s (cutNarrower rung s) :=
  forEach_kept _ _ s fun _ u => failOp_kept _ _ u
theorem startOp_kept (c : Ctx) (v : Verb) (p : Prog) (b : Bool) (s : State) :
    KeptBut [.pool, .work, .jrn, .ops, .ids] s (startOp c v p b s).2 := by
  have h1 : KeptBut [.pool, .work, .jrn, .ops, .ids] s { s with nextOp := s.nextOp + 1 } := by
    intro p hp; cases p <;> simp_all [samePart]
  have h2 : ∀ (u : State) o, KeptBut [.pool, .work, .jrn, .ops, .ids] u { u with ops := o } := by
    intro u o p hp; cases p <;> simp_all [samePart]
  unfold startOp
  dsimp only
  refine KeptBut.trans ?_ (h2 _ _)
  split
  · exact h1
  · exact h1.trans ((takeSlot_kept _ _ _).mono (by simp))

/-- A budget frame touches Yarrow's sequence and the ports (R326). -/
theorem sendBudget_kept (b type id cur cls : Nat) (time : Int) (dur : Nat) (s : State) :
    KeptBut [.yar, .net, .work] s (sendBudget b type id cur cls time dur s) := by
  unfold sendBudget
  split
  · exact KeptBut.refl _ s
  · exact ((modYar_kept s _).mono (by simp)).trans ((transmit_kept _ _ _ _ _).mono (by simp))
theorem leaveGroups_kept (s : State) : KeptBut [.yar, .net, .work] s (leaveGroups s) :=
  forEach_kept _ _ s fun _ u => sendBudget_kept _ _ _ _ _ _ _ u

/-! ## Records of a table that is mapped -/

theorem tget_map {α β : Type} (d : α) (t : Tbl α) (g : α → β) (n : Nat) : tget (g d) (t.map fun e => (e.1, g e.2)) n = g (tget d t n) := by
  induction t with
  | nil => rfl
  | cons e t ih =>
    obtain ⟨k, v⟩ := e
    simp only [List.map_cons, tget]
    split <;> simp_all

/-! ## The head starts anew (R84, R423, R432) -/

@[simp] theorem restartHead_safe (cold : Bool) (c : StartCause) (s : State) : (restartHead cold c s).camp.safe = s.camp.safe := rfl
@[simp] theorem restartHead_timeFs (cold : Bool) (c : StartCause) (s : State) : (restartHead cold c s).clk.timeFs = s.clk.timeFs := rfl
/-- The head's own operations end with it; those of the supervisor line go on. -/
theorem restartHead_ops (cold : Bool) (c : StartCause) (s : State) : ∀ o ∈ (restartHead cold c s).ops, o.port = .supervisor := by
  intro o ho
  have h : o ∈ s.ops.filter fun o => decide (o.port = .supervisor) := ho
  simpa using (List.mem_filter.1 h).2
/-- The pool restarts empty (R57, R84). -/
theorem restartHead_ent_kind (cold : Bool) (c : StartCause) (s : State) (n : Nat) : ((restartHead cold c s).ent n).kind = .free := by
  show (tget {} (restartPool cold s) n).kind = .free
  unfold restartPool
  split
  · rfl
  · rw [show ({} : PoolEntry) = PoolEntry.released {} from rfl, tget_map]; rfl
theorem restartHead_slc (cold : Bool) (c : StartCause) (s : State) (p : Nat) : (restartHead cold c s).slc p = restartSlice (s.slc p) := by
  show tget {} (s.sl.map fun e => (e.1, restartSlice e.2)) p = _
  rw [show ({} : Slice) = restartSlice {} from rfl, tget_map]; rfl

/-! ## The stations of a slice -/

theorem mem_stationsOf {n p : Nat} : n ∈ stationsOf p ↔ slotOf n = p := by
  simp only [stationsOf, slotOf, List.mem_map, List.mem_range]
  constructor
  · rintro ⟨k, hk, rfl⟩; omega
  · intro h; exact ⟨n % 8, by omega, by omega⟩
theorem stationsOf_nodup (p : Nat) : (stationsOf p).Nodup :=
  List.Nodup.map (fun a b h => by simpa using h) List.nodup_range
theorem forEach_eq {α σ β : Type} (g : σ → β) (l : List α) (f : α → σ → σ) (s : σ) (h : ∀ a s, g (f a s) = g s) : g (forEach l f s) = g s := by
  induction l generalizing s with
  | nil => rfl
  | cons a l ih => exact (ih (f a s)).trans (h a s)

/-! ## Slice power (R9, R10) -/

/-- A safety lane's copies of stations change without touching the latch. -/
@[simp] theorem modLaneStn_safe (s : State) (x : Lane) (n : Nat) (f : LaneStn → LaneStn) : (s.modLaneStn x n f).camp.safe = s.camp.safe := by
  cases x <;> rfl
theorem modLaneStn_kept (s : State) (x : Lane) (n : Nat) (f : LaneStn → LaneStn) : KeptBut [.camp] s (s.modLaneStn x n f) := modLane_kept s x _

/-- A station whose slice has lost its power, as the loss leaves it (R10, R299). -/
def darkStation (t : Station) : Station :=
  { t with
    fd := darkSwitch t.fd, la := darkSwitch t.la, lb := darkSwitch t.lb, reserveInUse := false, out0 := {}, out1 := {}
    sensor := {}, inputs := [], feed := 0, feedSum := 0, feedCount := 0, feedMean := 0, field := 0, busU := 0, encFault := false, encNow := false, idxFault := false
    idxPos := none, idxRun := 0, tapRead := []
    axis := { t.axis with loaded := none, ahead := [], pulse := 0 } }
/-- The lanes' copies of a slice's stations without their frames (R10, R18). -/
def darkLanes (p : Nat) (s : State) : State :=
  forEach [Lane.a, .b] (fun x s => forEach (stationsOf p) (fun n s => s.modLaneStn x n fun t =>
    { ({} : LaneStn) with overSince := t.overSince, edgeSince := t.edgeSince, backstop := t.backstop }) s) s
theorem darkLanes_kept (p : Nat) (s : State) : KeptBut [.camp] s (darkLanes p s) :=
  forEach_kept _ _ s fun _ u => forEach_kept _ _ u fun _ v => modLaneStn_kept v _ _ _
theorem darkLanes_safe (p : Nat) (s : State) : (darkLanes p s).camp.safe = s.camp.safe :=
  forEach_eq (·.camp.safe) _ _ s fun _ u => forEach_eq (·.camp.safe) _ _ u fun _ v => modLaneStn_safe v _ _ _
/-- A slice's logic side without power (R10, R299). -/
def darkSlice (x : Slice) : Slice :=
  { x with
    powered := false, passed := false, failed := false, keys := [], writes := [], writeSeq := 0, accepted := 0, failSafe := false, elemA := 0, elemB := 0, maskA := 0, maskB := 0
    maskAtA := none, maskAtB := none, downRef := none, downAt := none, flash := none, changed := false, up := [], stepQuiet := false }
/-- The reports that a slice's field side holds back are gone with its power. -/
def dropReports (p : Nat) (s : State) : State := { s with reports := s.reports.filter fun r => slotOf r.station ≠ p }
theorem dropReports_kept (p : Nat) (s : State) : KeptBut [.reports] s (dropReports p s) := by
  intro q hq; cases q <;> simp_all [samePart, dropReports]

/-- A slice's loss of power: its stations and the lanes' copies are dark, its logic side is off, and its waiting reports are gone. -/
theorem powerDownSlice_eq (p : Nat) (s : State) : powerDownSlice p s =
    dropReports p ((darkLanes p (forEach (stationsOf p) (fun n s => s.modStn n darkStation) s)).modSlc p darkSlice) := by
  unfold powerDownSlice dropReports darkLanes darkStation darkSlice
  generalize stationsOf p = l
  rfl
theorem darkStations_kept (l : List Nat) (s : State) : KeptBut [.st] s (forEach l (fun n s => s.modStn n darkStation) s) :=
  forEach_kept _ _ s fun n u => modStn_kept u n _
/-- After its stations have gone dark, only the lanes' copies, the slice itself and its waiting reports change. -/
theorem powerDownSlice_after_stations (p : Nat) (s : State) :
    KeptBut [.camp, .sl, .reports] (forEach (stationsOf p) (fun n s => s.modStn n darkStation) s) (powerDownSlice p s) := by
  rw [powerDownSlice_eq]
  exact (((darkLanes_kept p _).mono (by simp)).trans ((modSlc_kept _ _ _).mono (by simp))).trans ((dropReports_kept p _).mono (by simp))
theorem powerDownSlice_kept (p : Nat) (s : State) : KeptBut [.st, .camp, .sl, .reports] s (powerDownSlice p s) :=
  ((darkStations_kept _ s).mono (by simp)).trans ((powerDownSlice_after_stations p s).mono (by simp))
theorem dropReports_modSlc_camp (p : Nat) (f : Slice → Slice) (s : State) : (dropReports p (s.modSlc p f)).camp = s.camp := rfl
theorem dropReports_slc (p k : Nat) (s : State) : (dropReports p s).slc k = s.slc k := rfl
@[simp] theorem powerDownSlice_safe (p : Nat) (s : State) : (powerDownSlice p s).camp.safe = s.camp.safe := by
  have h : (forEach (stationsOf p) (fun n s => s.modStn n darkStation) s).camp = s.camp := darkStations_kept _ s .camp (by simp)
  rw [powerDownSlice_eq, dropReports_modSlc_camp, darkLanes_safe, h]
/-- Its logic side is off; no other slice is touched (R10). -/
theorem powerDownSlice_slc (p : Nat) (s : State) (k : Nat) :
    (powerDownSlice p s).slc k = if k = p then darkSlice (s.slc p) else s.slc k := by
  have h : (darkLanes p (forEach (stationsOf p) (fun n s => s.modStn n darkStation) s)).sl = s.sl :=
    (darkLanes_kept p _ .sl (by simp)).trans (darkStations_kept _ s .sl (by simp))
  have hk : ∀ j, (darkLanes p (forEach (stationsOf p) (fun n s => s.modStn n darkStation) s)).slc j = s.slc j :=
    slc_of_sl h
  rw [powerDownSlice_eq, dropReports_slc, slc_modSlc, hk, hk]

/-- Without power every position is off, and the head with it (R9, R514). -/
theorem powerDownAll_powered {k : Nat} {l : List Nat} (s : State) (hk : k ∈ l ∨ (s.slc k).powered = false) :
    ((forEach l powerDownSlice s).slc k).powered = false := by
  induction l generalizing s with
  | nil => simpa using hk
  | cons a l ih =>
    rw [forEach_cons]
    refine ih _ ?_
    rw [powerDownSlice_slc]
    by_cases ha : k = a
    · exact .inr (by simp [ha, darkSlice])
    · simpa [ha] using hk
/-- Power goes off: every slice's, then the head's, which keeps nothing volatile (R9, R84). -/
theorem powerOff_eq (s : State) : ∃ u, KeptBut [.st, .camp, .sl, .reports] s u ∧ u.camp.safe = s.camp.safe
    ∧ (∀ p, p < 8 → (u.slc p).powered = false) ∧ powerOff s = (restartHead true .power u).modHead fun h => { h with powered := false } :=
  ⟨forEach allSlices powerDownSlice s, forEach_kept _ _ s powerDownSlice_kept, forEach_eq (·.camp.safe) _ _ s powerDownSlice_safe,
    fun _ hp => powerDownAll_powered s (.inl (by simpa [allSlices] using hp)), rfl⟩

/-! ## RESET UNIT and RESET POWER -/

/-- The parts that a reset of the unit or of power touches before the head goes. -/
def beforeReset : List Part := [.sess, .sup, .pool, .work, .ops, .ids, .jrn, .store, .head, .yar, .net, .left]
theorem poolFull_kept (s : State) (b : Bool) : KeptBut [.pool] s { s with poolFull := b } := by
  intro p hp; cases p <;> simp_all [samePart]
theorem startOp_kept_beforeReset (c : Ctx) (v : Verb) (p : Prog) (b : Bool) (s : State) : KeptBut beforeReset s (startOp c v p b s).2 :=
  (startOp_kept c v p b s).mono (by simp [beforeReset])
/-- The acceptance of a RESET, and its snapshot of all (R419, R426). -/
theorem sayThenSnapshot_kept (c : Ctx) (k rung object : Nat) (r : Reply) (w : String) (l : List Nat) (s : State) :
    KeptBut beforeReset s (takeSnapshot rung object w none l (cutNarrower k (say c r { s with poolFull := false }))).2 :=
  ((((poolFull_kept s false).mono (by simp [beforeReset])).trans ((say_kept c r _).mono (by simp [beforeReset]))).trans
    ((cutNarrower_kept k _).mono (by simp [beforeReset]))).trans ((takeSnapshot_kept _ _ _ _ _ _).mono (by simp [beforeReset]))
/-- The final reply of a RESET, or its operation on the supervisor line (R419). -/
theorem resetAnswer_kept (c : Ctx) (v : Verb) (p : Prog) (r : Reply) (s : State) :
    KeptBut beforeReset s (if c.port = .supervisor then (startOp c v p false s).2 else fin c r s) := by
  split
  · exact startOp_kept_beforeReset _ _ _ _ _
  · exact (fin_kept _ _ _).mono (by simp [beforeReset])
theorem closeAndFlush_kept (s : State) : KeptBut beforeReset s (flushJournal (closeAll s)) :=
  ((closeAll_kept s).mono (by simp [beforeReset])).trans ((flushJournal_kept _).mono (by simp [beforeReset]))
theorem leaveGroups_kept_beforeReset (s : State) : KeptBut beforeReset s (leaveGroups s) := (leaveGroups_kept s).mono (by simp [beforeReset])

/-- RESET UNIT: what is said and stored, then the head starts anew (R419, R423). -/
theorem runResetUnit_eq (c : Ctx) (s : State) : ∃ u, KeptBut beforeReset s u ∧ runResetUnit c s = restartHead false .unit u :=
  ⟨_, (((sayThenSnapshot_kept _ _ _ _ _ _ _ _).trans (leaveGroups_kept_beforeReset _)).trans (resetAnswer_kept _ _ _ _ _)).trans
    (closeAndFlush_kept _), rfl⟩
/-- RESET POWER: what is said and stored, then all is off, and the supervisor gives power back after 2 s (R30, R424). -/
theorem runResetPower_eq (c : Ctx) (s : State) : ∃ u, KeptBut beforeReset s u
    ∧ ∃ f : Super → Super, (∀ x, (f x).offUntil = some (u.now + 2000000)) ∧ runResetPower c s = (powerOff u).modSup f := by
  unfold runResetPower
  dsimp only
  refine ⟨_, ?_, _, ?_, rfl⟩
  rotate_left
  · exact fun _ => rfl
  have hs := (((poolFull_kept s false).mono (m := beforeReset) (by simp [beforeReset])).trans
    ((say_kept c (resettingR 5 none) _).mono (by simp [beforeReset]))).trans ((cutNarrower_kept 5 _).mono (by simp [beforeReset]))
  generalize ((say c (resettingR 5 none) { s with poolFull := false }).head.powered && _) = able
  cases able
  · exact hs.trans (resetAnswer_kept _ _ _ _ _)
  · exact (((sayThenSnapshot_kept _ _ _ _ _ _ _ _).trans (leaveGroups_kept_beforeReset _)).trans (resetAnswer_kept _ _ _ _ _)).trans
      (closeAndFlush_kept _)

/-- A RESET's line and what it says and stores leave the lanes and the clock as they were. -/
theorem lineGo_beforeReset {n : Nat} {l : Line} {sp : Spec} {s u : State} (h : taken n l sp s = true) (hs : sp.safety = false)
    (hu : KeptBut beforeReset (lineGo n l sp s) u) : u.camp = s.camp ∧ u.clk = s.clk := by
  have hk : KeptBut beforeReset s u := ((lineGo_kept_plain n l sp s (taken_port h) hs).mono (by simp [heardParts, beforeReset])).trans hu
  exact ⟨hk .camp (by simp [beforeReset]), hk .clk (by simp [beforeReset])⟩

/-- Settles O37: both resets say and store first, then the head restarts or all power goes off (`runResetUnit_eq`, `runResetPower_eq`). -/
theorem unitAndPowerReset : Obligations.UnitAndPowerReset := by
  refine ⟨fun l n s h => does_of_taken h rfl ?_, fun l n s h => does_of_taken h rfl ?_⟩
  · obtain ⟨u, hu, hrun⟩ := runResetUnit_eq (lineCtx l s) (lineGo n l (resetUnitSpec l.port) s)
    obtain ⟨hcamp, hclk⟩ := lineGo_beforeReset h rfl hu
    rw [show (resetUnitSpec l.port).run = runResetUnit from rfl, hrun]
    exact ⟨rfl, rfl, rfl, rfl, fun _ => rfl, restartHead_ops _ _ u, restartHead_ent_kind _ _ u, rfl, rfl, rfl, rfl,
      (restartHead_safe _ _ u).trans (congrArg Campion.safe hcamp), (restartHead_timeFs _ _ u).trans (congrArg Clock.timeFs hclk)⟩
  · obtain ⟨u, hu, f, hf, hrun⟩ := runResetPower_eq (lineCtx l s) (lineGo n l (resetPowerSpec l.port) s)
    obtain ⟨hcamp, hclk⟩ := lineGo_beforeReset h rfl hu
    obtain ⟨w, -, hsafe, hdark, hoff⟩ := powerOff_eq u
    rw [show (resetPowerSpec l.port).run = runResetPower from rfl, hrun, hoff]
    refine ⟨rfl, rfl, ?_, fun p hp => ?_, fun _ => rfl, fun _ => rfl, ?_⟩
    · exact (hf _).trans (by rw [show u.now = s.now from congrArg Clock.now hclk])
    · show ((restartHead true .power w).slc p).powered = false
      rw [restartHead_slc]
      exact hdark p hp
    · exact hsafe.trans (congrArg Campion.safe hcamp)

end Sys2Proof.Machine
end

section
/-! SUPPORT. What Speedwell and the door cycle touch, function by function. First their books: what is told, the pool and its operations, Yarrow's
charges and frames, the journal, and the row of crossings; then the stations too. The lanes, the slices, the configuration and the waiting reports
of the field side stay, and no SAVE SAFETY comes to wait for the latches. -/

namespace Sys2Proof.Machine

open Sys2Proof

/-- An operation that is no SAVE SAFETY waiting for the latches (R269). -/
def NotSaving (o : Op) : Prop := o.prog ≠ .saveSafety true
theorem noSaving_iff {s : State} : noSaving s = true ↔ ∀ o ∈ s.ops, NotSaving o := by simp [noSaving, NotSaving]
theorem KeptBut.noSaving {l : List Part} {s u : State} (h : KeptBut l s u) (hl : .ops ∉ l) (hs : noSaving s = true) : noSaving u = true := by
  unfold Machine.noSaving at hs ⊢
  rwa [show u.ops = s.ops from h .ops hl]

/-! ## The books -/

/-- The parts that Speedwell and the door cycle touch outside the stations. -/
def bookParts : List Part := [.sess, .sup, .pool, .work, .ops, .ids, .yar, .net, .jrn, .crossings]
/-- A state that Speedwell and the door cycle may have brought about from another without a change of a station. -/
structure Books (s u : State) : Prop where
  kept : KeptBut bookParts s u
  saving : noSaving s = true → noSaving u = true

namespace Books

variable {s u v : State}

theorem refl (s : State) : Books s s := ⟨KeptBut.refl _ s, id⟩
theorem trans (h : Books s u) (g : Books u v) : Books s v := ⟨h.kept.trans g.kept, g.saving ∘ h.saving⟩
theorem of {l : List Part} (h : Books s u) (hk : KeptBut l u v) (hl : ∀ p ∈ l, p ∈ bookParts := by decide) (ho : .ops ∉ l := by decide) : Books s v :=
  h.trans ⟨hk.mono hl, hk.noSaving ho⟩
theorem ite {c : Prop} {_ : Decidable c} (hu : Books s u) (hv : Books s v) : Books s (if c then u else v) := by split <;> assumption
theorem forEach {α : Type} {l : List α} {f : α → State → State} (h : Books s u) (hf : ∀ a v, Books v (f a v)) : Books s (forEach l f u) := by
  induction l generalizing u with
  | nil => exact h
  | cons a l ih => exact ih (h.trans (hf a u))

/-! ## Fields, replies, records -/

theorem modEnt {n : Nat} {f : PoolEntry → PoolEntry} (h : Books s u) : Books s (u.modEnt n f) := h.of (modEnt_kept u n f)
theorem modSes {n : Nat} {f : Session → Session} (h : Books s u) : Books s (u.modSes n f) := h.of (modSes_kept u n f)
theorem modYar {f : Yarrow → Yarrow} (h : Books s u) : Books s (u.modYar f) := h.of (modYar_kept u f)
theorem worked {e : Engine} {k : Nat} (h : Books s u) : Books s (u.worked e k) := h.of (worked_kept u e k)
theorem record {c : Nat} {p : List Byte} {d : RecHd} (h : Books s u) : Books s (record c p d u) := h.of (record_kept c p d u)
theorem send {p : Port} {r : Reply} (h : Books s u) : Books s (send p r u) := h.of (send_kept p r u)
theorem remember {p : Port} {t : Option Nat} {r : Reply} (h : Books s u) : Books s (remember p t r u) := h.of (remember_kept p t r u)
theorem say {c : Ctx} {r : Reply} (h : Books s u) : Books s (say c r u) := h.of (say_kept c r u)
theorem sayIn {k : Nat} {c : Ctx} {r : Reply} (h : Books s u) : Books s (sayIn k c r u) := h.of (sayIn_kept k c r u)
theorem sayOp {id : Nat} {r : Reply} (h : Books s u) : Books s (sayOp id r u) := h.of (sayOp_kept id r u)
theorem releaseSlots {l : List Nat} (h : Books s u) : Books s (releaseSlots l u) := h.of (releaseSlots_kept l u)
theorem sendBudget {b t id cur cls dur : Nat} {time : Int} (h : Books s u) : Books s (sendBudget b t id cur cls time dur u) :=
  h.of (sendBudget_kept b t id cur cls time dur u)
theorem draw (h : Books s u) : Books s u.draw.2 := h.of (l := [.ids]) fun p hp => by cases p <;> simp_all [samePart, State.draw]
theorem crossings {f : List Crossing → List Crossing} (h : Books s u) : Books s { u with crossings := f u.crossings } :=
  h.of (l := [.crossings]) fun p hp => by cases p <;> simp_all [samePart]
/-- The operations become others, none of which is a SAVE SAFETY waiting for the latches. -/
theorem ops {l : List Op} (h : Books s u) (hl : ∀ o ∈ l, o ∈ u.ops ∨ NotSaving o) : Books s { u with ops := l } := by
  refine h.trans ⟨fun p hp => by cases p <;> simp_all [samePart, bookParts], fun hs => ?_⟩
  rw [noSaving_iff] at hs ⊢
  exact fun o ho => (hl o ho).elim (hs o) id
theorem modOp {n : Nat} {f : Op → Op} (h : Books s u) (hf : ∀ o, NotSaving (f o) ∨ (f o).prog = o.prog := by exact fun _ => .inr rfl) :
    Books s (u.modOp n f) := by
  refine h.trans ⟨(modOp_kept u n f).mono (by decide), fun hs => ?_⟩
  rw [noSaving_iff] at hs ⊢
  intro o ho
  obtain ⟨q, hq, rfl⟩ := List.mem_map.1 ho
  split
  · exact (hf q).elim id fun h => by unfold NotSaving; rw [h]; exact hs q hq
  · exact hs q hq
theorem dropOp {o : Op} (h : Books s u) : Books s (dropOp o u) := (h.ops fun _ hq => .inl (List.mem_filter.1 hq).1).releaseSlots
theorem finIn {k : Nat} {c : Ctx} {r : Reply} (h : Books s u) : Books s (finIn k c r u) := by
  induction k generalizing c r u with
  | zero => exact h
  | succ k ih =>
    unfold Machine.finIn
    split
    · exact h.send.remember
    split
    · exact h
    split
    · have h1 := fun (p : Port) r n m l d e i => (h.send (p := p) (r := r)).modOp (n := n) (f := fun o => { o with prog := .replaying m l d e i })
        fun _ => .inl (by simp [NotSaving])
      dsimp only
      split
      · refine ih ?_
        split
        · exact (h1 _ _ _ _ _ _ _ _).dropOp.modSes
        · exact (h1 _ _ _ _ _ _ _ _).dropOp
      · split
        · exact ih (h1 _ _ _ _ _ _ _ _).dropOp.modSes
        · exact h1 _ _ _ _ _ _ _ _
    · split
      · exact h
      · dsimp only
        have h1 := fun n v b (l : List (Nat × Int × Bool × Bool)) => h.modOp (n := n) (f := fun o => { o with prog := .event v b l })
          fun _ => .inl (by simp [NotSaving])
        split
        · split
          · exact ih (h1 _ _ _ _).sayIn.dropOp
          · exact (h1 _ _ _ _).sayIn
        · exact ih h.dropOp
    · exact h
theorem fin {c : Ctx} {r : Reply} (h : Books s u) : Books s (fin c r u) := h.finIn
theorem finOp {id : Nat} {r : Reply} (h : Books s u) : Books s (finOp id r u) := by
  unfold Machine.finOp
  split
  · exact h
  · exact h.dropOp.fin
theorem failOp {id : Nat} {e : Err} (h : Books s u) : Books s (failOp id e u) := h.finOp

/-! ## Events (R62, R63, R74, R75) -/

theorem joinRow {x : Crossing} (h : Books s u) : Books s (joinRow x u) := h.of (joinRow_kept x u)
theorem dropRow {k : Nat} (h : Books s u) : Books s (dropRow k u) := h.crossings (f := fun l => l.filter (·.slot ≠ k))
theorem holdEvents {tb : TB} (h : Books s u) : Books s (holdEvents tb u) := by
  refine forEach (h.crossings (f := fun l => l.filter fun c => c.tb ≠ tb)) fun e v => ?_
  dsimp only
  split
  · exact (refl v).modEnt
  · exact (refl v).modEnt.say
theorem judge {k : Nat} {tb : TB} (h : Books s u) : Books s (judge k tb u) := by
  have hr : ∀ v, Books s v → Books s (match opAt v k with
      | none => v
      | some o => Sys2Proof.Machine.say o.ctx (colR "armed" [.tb tb]) v) := fun v hv => by
    split
    · exact hv
    · exact hv.say
  unfold Machine.judge
  dsimp only
  split
  · exact h.modEnt
  split
  · split
    · exact h.modEnt.joinRow
    · exact hr _ h.modEnt
    · split
      · exact h.modEnt
      · exact h.finOp
  · exact hr _ h.modEnt
theorem reEvaluate {tb : TB} (h : Books s u) : Books s (reEvaluate tb u) := h.forEach fun _ v => (refl v).judge
theorem sysArm {n off dir : Nat} {tb : TB} {t : Int} (h : Books s u) : Books s (sysArm n off tb dir t u) := h.dropRow.modEnt
theorem sysDrop {n off : Nat} (h : Books s u) : Books s (sysDrop n off u) := ite h h.modEnt
theorem sysHold {n off tb : Nat} (h : Books s u) : Books s (sysHold n off tb u) := h.modEnt
theorem sysControl {n : Nat} (h : Books s u) : Books s (sysControl n u) := h.sysHold


/-! ## The slots of the step train (R58, R139) -/

theorem leafSegs {n : Nat} {l : List Seg} (h : Books s u) : Books s (leafSegs n l u) := h.forEach fun i v => by
  split
  · exact (refl v).sysDrop
  · exact (refl v).modEnt
theorem leafSegStarts {n k : Nat} (h : Books s u) : Books s (leafSegStarts n k u) :=
  h.forEach fun _ v => ite (refl v) (ite (refl v).modEnt (refl v).sysDrop)
theorem releaseStarted {n : Nat} {x : Option Nat} (h : Books s u) : Books s (releaseStarted n x u) := by
  unfold Machine.releaseStarted
  split
  · split
    · exact ite h.leafSegStarts h
    · exact ite h h.modOp.releaseSlots
  · exact h

/-! ## Commands of an axis and of a leaf (R143 to R146, R152, R154, R171) -/

theorem motionSays {n : Nat} {r : Reply} (h : Books s u) : Books s (motionSays n r u) := by
  unfold Machine.motionSays
  split
  · exact h
  split
  · exact h
  · exact h.sayOp
theorem cycleSays {n : Nat} {r : Reply} (h : Books s u) : Books s (cycleSays n r u) := by
  unfold Machine.cycleSays
  split
  · exact h
  · exact h.sayOp
theorem dropCharge {n : Nat} (h : Books s u) : Books s (dropCharge n u) := h.modYar
theorem markOp {id : Nat} (h : Books s u) : Books s (markOp id u) := by
  unfold Machine.markOp
  split
  · exact h
  split
  · exact h
  · exact ite h h.modEnt
theorem markOps {n : Nat} (h : Books s u) : Books s (markOps n u) := h.forEach fun _ v => (refl v).markOp
theorem stopDone {n : Nat} (h : Books s u) : Books s (stopDone n u) := h.forEach fun _ v => by
  dsimp only
  split
  · exact ite (refl v).finOp ((refl v).modOp fun _ => .inl (by simp [NotSaving]))
  · exact refl v
theorem resumeDone {n : Nat} (h : Books s u) : Books s (resumeDone n u) := h.forEach fun _ v => by
  dsimp only
  split
  · exact ite (refl v).finOp ((refl v).modOp fun _ => .inl (by simp [NotSaving]))
  · exact refl v
theorem resumeFails {n : Nat} {e : Err} (h : Books s u) : Books s (resumeFails n e u) := h.forEach fun _ v => (refl v).failOp
theorem heldRem {n : Nat} {m : Motion} (h : Books s u) : Books s (heldRem n m u).2 := by
  unfold Machine.heldRem
  split
  · exact h
  · exact h.draw
theorem finishDoor {id : Nat} (h : Books s u) : Books s (finishDoor id u) := by
  unfold Machine.finishDoor
  split
  · exact h
  split
  · split
    · exact h.finOp
    · split
      · exact h.failOp
      · exact h.failOp
  · exact h
theorem slotTimer {n off k : Nat} (h : Books s u) : Books s (slotTimer n off k u) := h.sysArm
theorem reserve {t : Nat} {x : Int} {c : Charge} (h : Books s u) : Books s (reserve t x c u).2 := by
  unfold Machine.reserve
  dsimp only
  split
  · exact h
  · exact h.modYar.sendBudget
theorem chargeAll {t : Nat} {x : Int} {l : List Charge} (h : Books s u) : Books s (chargeAll t x l u).2 := by
  have hf : ∀ (l : List Charge) (q : List Charge × State), Books s q.2 →
      Books s (l.foldl (fun (q : List Charge × State) c => let y := Machine.reserve t x c q.2; (q.1 ++ [y.1], y.2)) q).2 := by
    intro l
    induction l with
    | nil => exact fun _ hq => hq
    | cons c l ih => exact fun q hq => ih _ hq.reserve
  unfold Machine.chargeAll
  exact modYar (f := fun y => { y with charges := y.charges ++ _ }) (hf l ([], u) h)
theorem leafRem {n : Nat} (h : Books s u) : Books s (leafRem n u).2 := by
  unfold Machine.leafRem
  dsimp only
  split
  · exact h
  · split
    · exact h
    · exact h.draw
theorem leafHeld {n : Nat} (h : Books s u) : Books s (leafHeld n u) := ite h.leafRem.cycleSays h

end Books

/-! ## The books and the stations -/

/-- The parts that Speedwell and the door cycle touch. -/
def driveParts : List Part := .st :: bookParts
/-- A state that Speedwell and the door cycle may have brought about from another. -/
structure Drives (s u : State) : Prop where
  kept : KeptBut driveParts s u
  saving : noSaving s = true → noSaving u = true

namespace Drives

variable {s u v : State}

theorem refl (s : State) : Drives s s := ⟨KeptBut.refl _ s, id⟩
theorem trans (h : Drives s u) (g : Drives u v) : Drives s v := ⟨h.kept.trans g.kept, g.saving ∘ h.saving⟩
theorem books (h : Drives s u) (g : Books u v) : Drives s v := h.trans ⟨g.kept.mono (by decide), g.saving⟩
theorem ite {c : Prop} {_ : Decidable c} (hu : Drives s u) (hv : Drives s v) : Drives s (if c then u else v) := by split <;> assumption
theorem forEach {α : Type} {l : List α} {f : α → State → State} (h : Drives s u) (hf : ∀ a v, Drives v (f a v)) : Drives s (forEach l f u) := by
  induction l generalizing u with
  | nil => exact h
  | cons a l ih => exact ih (h.trans (hf a u))
theorem modStn {n : Nat} {f : Station → Station} (h : Drives s u) : Drives s (u.modStn n f) :=
  h.trans ⟨(modStn_kept u n f).mono (by decide), (modStn_kept u n f).noSaving (by decide)⟩
theorem modAx {n : Nat} {f : Axis → Axis} (h : Drives s u) : Drives s (u.modAx n f) := h.modStn
theorem modBuf {n : Nat} {f : FrameBuf → FrameBuf} (h : Drives s u) : Drives s (u.modBuf n f) := h.modStn

/-! ## What only the books hear of -/

theorem modEnt {n : Nat} {f : PoolEntry → PoolEntry} (h : Drives s u) : Drives s (u.modEnt n f) := h.books (Books.refl u).modEnt
theorem modYar {f : Yarrow → Yarrow} (h : Drives s u) : Drives s (u.modYar f) := h.books (Books.refl u).modYar
theorem worked {e : Engine} {k : Nat} (h : Drives s u) : Drives s (u.worked e k) := h.books (Books.refl u).worked
theorem record {c : Nat} {p : List Byte} {d : RecHd} (h : Drives s u) : Drives s (record c p d u) := h.books (Books.refl u).record
theorem sayOp {id : Nat} {r : Reply} (h : Drives s u) : Drives s (sayOp id r u) := h.books (Books.refl u).sayOp
theorem finOp {id : Nat} {r : Reply} (h : Drives s u) : Drives s (finOp id r u) := h.books (Books.refl u).finOp
theorem failOp {id : Nat} {e : Err} (h : Drives s u) : Drives s (failOp id e u) := h.books (Books.refl u).failOp
theorem draw (h : Drives s u) : Drives s u.draw.2 := h.books (Books.refl u).draw
theorem reEvaluate {tb : TB} (h : Drives s u) : Drives s (reEvaluate tb u) := h.books (Books.refl u).reEvaluate
theorem holdEvents {tb : TB} (h : Drives s u) : Drives s (holdEvents tb u) := h.books (Books.refl u).holdEvents
theorem sysArm {n off dir : Nat} {tb : TB} {t : Int} (h : Drives s u) : Drives s (sysArm n off tb dir t u) := h.books (Books.refl u).sysArm
theorem sysDrop {n off : Nat} (h : Drives s u) : Drives s (sysDrop n off u) := h.books (Books.refl u).sysDrop
theorem sysHold {n off tb : Nat} (h : Drives s u) : Drives s (sysHold n off tb u) := h.books (Books.refl u).sysHold
theorem sysControl {n : Nat} (h : Drives s u) : Drives s (sysControl n u) := h.books (Books.refl u).sysControl
theorem leafSegs {n : Nat} {l : List Seg} (h : Drives s u) : Drives s (leafSegs n l u) := h.books (Books.refl u).leafSegs
theorem releaseStarted {n : Nat} {x : Option Nat} (h : Drives s u) : Drives s (releaseStarted n x u) := h.books (Books.refl u).releaseStarted
theorem motionSays {n : Nat} {r : Reply} (h : Drives s u) : Drives s (motionSays n r u) := h.books (Books.refl u).motionSays
theorem cycleSays {n : Nat} {r : Reply} (h : Drives s u) : Drives s (cycleSays n r u) := h.books (Books.refl u).cycleSays
theorem dropCharge {n : Nat} (h : Drives s u) : Drives s (dropCharge n u) := h.books (Books.refl u).dropCharge
theorem markOps {n : Nat} (h : Drives s u) : Drives s (markOps n u) := h.books (Books.refl u).markOps
theorem stopDone {n : Nat} (h : Drives s u) : Drives s (stopDone n u) := h.books (Books.refl u).stopDone
theorem resumeDone {n : Nat} (h : Drives s u) : Drives s (resumeDone n u) := h.books (Books.refl u).resumeDone
theorem resumeFails {n : Nat} {e : Err} (h : Drives s u) : Drives s (resumeFails n e u) := h.books (Books.refl u).resumeFails
theorem heldRem {n : Nat} {m : Motion} (h : Drives s u) : Drives s (heldRem n m u).2 := h.books (Books.refl u).heldRem
theorem finishDoor {id : Nat} (h : Drives s u) : Drives s (finishDoor id u) := h.books (Books.refl u).finishDoor
theorem slotTimer {n off k : Nat} (h : Drives s u) : Drives s (slotTimer n off k u) := h.books (Books.refl u).slotTimer
theorem chargeAll {t : Nat} {x : Int} {l : List Charge} (h : Drives s u) : Drives s (chargeAll t x l u).2 := h.books (Books.refl u).chargeAll
theorem leafHeld {n : Nat} (h : Drives s u) : Drives s (leafHeld n u) := h.books (Books.refl u).leafHeld
theorem modOp {n : Nat} {f : Op → Op} (h : Drives s u) (hf : ∀ o, NotSaving (f o) ∨ (f o).prog = o.prog := by exact fun _ => .inr rfl) :
    Drives s (u.modOp n f) := h.books ((Books.refl u).modOp hf)

/-! ## References and the step train (R62, R63, R134 to R142) -/

theorem unreference {n : Nat} (h : Drives s u) : Drives s (unreference n u) := by
  unfold Machine.unreference
  exact ite h.modAx.holdEvents h.modAx
theorem referenceSet {n : Nat} {p : Int} {i : Option Int} (h : Drives s u) : Drives s (referenceSet n p i u) := h.modAx.reEvaluate
theorem refill {n : Nat} (h : Drives s u) : Drives s (refill n u) := h.modAx.worked
theorem loadNext {n : Nat} (h : Drives s u) : Drives s (loadNext n u) := by
  unfold Machine.loadNext
  dsimp only
  split
  · exact h
  split
  · exact h
  split
  · exact h
  · have hd : Drives s (if overloaded u = true then u.draw else (0, u)).2 := by
      split
      · exact h.draw
      · exact h
    exact hd.modAx.releaseStarted.refill
theorem setCourse {n : Nat} {l : List Seg} {f : Motion → Motion} (h : Drives s u) : Drives s (setCourse n l f u) :=
  (ite h.modAx.leafSegs h.modAx).refill.loadNext
theorem rampStop {n d : Nat} {e : Ending} (h : Drives s u) : Drives s (rampStop n d e u) := by
  unfold Machine.rampStop
  dsimp only
  split
  · exact h
  · exact ite h.modAx (ite h.modAx h.setCourse)
theorem hardStop {n : Nat} {e : Ending} (h : Drives s u) : Drives s (hardStop n e u) := h.modAx

/-! ## Commands of an axis (R143 to R146, R152, R154, R163) -/

theorem motionReply {n : Nat} {r : Reply} (h : Drives s u) : Drives s (motionReply n r u) := by
  unfold Machine.motionReply
  split
  · exact h
  split
  · exact h
  · exact h.modAx.finOp
theorem motionFails {n : Nat} (h : Drives s u) : Drives s (motionFails n u) := h.motionReply
theorem modCouple {n : Nat} {f : Couple → Couple} (h : Drives s u) : Drives s (modCouple n f u) := h.modAx
theorem camHold {n : Nat} (h : Drives s u) : Drives s (camHold n u) := by
  unfold Machine.camHold
  split
  · exact h
  split
  · exact h
  · exact ite h (ite h.modCouple.motionSays.modAx h.modCouple.motionSays.setCourse)
theorem loseReference {n : Nat} (h : Drives s u) : Drives s (loseReference n u) := h.unreference.forEach fun _ v => (refl v).camHold
theorem endWait {n : Nat} (h : Drives s u) : Drives s (endWait n u) := h.modStn.markOps
theorem leaveWait {n : Nat} (h : Drives s u) : Drives s (leaveWait n u) := (ite h.dropCharge h).endWait
theorem beginWait {n cls : Nat} {w : Why} {b : Bool} (h : Drives s u) : Drives s (beginWait n cls w b u) := h.modStn.markOps
theorem axisStops {n : Nat} (h : Drives s u) : Drives s (axisStops n u) := by
  have hw : Drives s (Machine.dropCharge n (Machine.endWait n (u.modAx n fun a => { a with moving := false, ahead := [] }))) :=
    h.modAx.endWait.dropCharge
  have hend : ∀ w, Drives s w → Drives s (Machine.resumeDone n (Machine.stopDone n (if isLeaf w n then Machine.leafSegs n [] w else w))) :=
    fun w hw => (ite hw.leafSegs hw).stopDone.resumeDone
  unfold Machine.axisStops
  dsimp only
  refine hend _ ?_
  split
  · exact hw
  split
  · split
    · exact hw.heldRem.modAx.cycleSays.markOps
    · exact hw.heldRem.modAx.motionSays.markOps
  · exact hw.motionReply.modAx
  · exact hw.modAx

/-! ## A door command's parts, and the leaf (R169, R171, R174, R175) -/

theorem ask {n : Nat} {w : Sw} {c : LoadCmd} (h : Drives s u) : Drives s (ask n w c u) := h.modBuf
theorem askOn {n : Nat} {w : Sw} (h : Drives s u) : Drives s (askOn n w u) := h.ask.modBuf
theorem askOut {n : Nat} {a b : Bool} (h : Drives s u) : Drives s (askOut n a b u) := h.modBuf
theorem doorFailed {n : Nat} {e : Err} {c : String} (h : Drives s u) : Drives s (doorFailed n e c u) := by
  unfold Machine.doorFailed
  split
  · exact h
  · refine (h.modStn.sayOp.modOp fun o => ?_).finishDoor
    split
    · exact .inl (by simp [NotSaving])
    · exact .inr rfl
theorem learnFails {n : Nat} {e : Err} (h : Drives s u) : Drives s (learnFails n e u) := by
  unfold Machine.learnFails
  split
  · exact h
  · exact h.modStn.failOp
theorem unlockOut {n : Nat} {b : Bool} (h : Drives s u) : Drives s (unlockOut n b u) := h.askOut
theorem leafLamp {n : Nat} (h : Drives s u) : Drives s (leafLamp n u) := by
  unfold Machine.leafLamp
  split
  · exact h
  · exact h.ask
theorem doorFeed {n : Nat} {b : Bool} (h : Drives s u) : Drives s (doorFeed n b u) := by
  unfold Machine.doorFeed
  dsimp only
  split
  · exact ite h.askOn h.ask
  · exact ite (ite (ite h.askOn h.ask).askOn (ite h.askOn h.ask).ask) (ite h.askOn h.ask)
theorem clearTimers {n : Nat} (h : Drives s u) : Drives s (clearTimers n u) := h.modStn.sysDrop.sysDrop.sysDrop
theorem disarm {n : Nat} (h : Drives s u) : Drives s (disarm n u) := h.modStn.sysDrop.sysDrop
theorem setLeaf {n : Nat} {x : Leaf} (h : Drives s u) : Drives s (setLeaf n x u) := by
  have h1 := h.modStn (n := n) (f := fun t => { t with cycle := cycleTime (u.stn n) u.now, leaf := x, leafSince := u.now, closedMade := false })
  unfold Machine.setLeaf
  dsimp only
  refine (ite (Drives.modStn ?_) ?_).leafLamp.doorFeed
  all_goals
    refine ite (disarm ?_).clearTimers.sysDrop.modStn (sysControl ?_)
    all_goals exact ite (ite h1.modStn h1).record.modStn (ite h1.modStn h1)
theorem endSearch {n : Nat} (h : Drives s u) : Drives s (endSearch n u) := by
  unfold Machine.endSearch
  dsimp only
  split
  · exact h
  split
  · exact h.modStn.dropCharge
  · exact ite h.modStn.dropCharge.rampStop h.modStn.dropCharge
theorem coupleStep {n : Nat} (h : Drives s u) : Drives s (coupleStep n u) := by
  unfold Machine.coupleStep
  split
  · exact ite h h.sysHold.modAx
  · exact h
theorem deployStep {n : Nat} (h : Drives s u) : Drives s (deployStep n u) := (ite h.modStn h).coupleStep
theorem armDeploy {n : Nat} (h : Drives s u) : Drives s (armDeploy n u) := ite h.sysArm h
theorem standHeld {n : Nat} {b : Option Bool} (h : Drives s u) : Drives s (standHeld n b u) := by
  unfold Machine.standHeld
  exact h.modStn.leaveWait.clearTimers.setLeaf
theorem holdLeaf {n : Nat} {b : Option Bool} (h : Drives s u) : Drives s (holdLeaf n b u) := h.disarm.standHeld
theorem faultLeaf {n : Nat} {c : String} {e : Err} (h : Drives s u) : Drives s (faultLeaf n c e u) := by
  unfold Machine.faultLeaf
  exact ite h (ite h.modStn.leaveWait.resumeFails h.modStn).unlockOut.learnFails.setLeaf.endSearch.doorFailed

/-! ## Door moves (R177, R178, R181, R189) -/

theorem armClosing {n : Nat} (h : Drives s u) : Drives s (armClosing n u) :=
  ite (ite h.sysArm.sysArm h.sysArm).modStn (ite h.sysArm.sysArm h.sysArm).modStn.sysArm
theorem startDoor {n : Nat} {m : Motion} (h : Drives s u) : Drives s (startDoor n m u) :=
  ite h.modAx.setCourse.resumeDone h.modAx.setCourse
theorem beginUnlock {n : Nat} (h : Drives s u) : Drives s (beginUnlock n u) := h.setLeaf.unlockOut.modStn.slotTimer
theorem searchEnds {n : Nat} (h : Drives s u) : Drives s (searchEnds n u) := by
  unfold Machine.searchEnds
  dsimp only
  split
  · exact h.endSearch
  · exact ite h (ite h.modStn.beginUnlock h.modStn.dropCharge.doorFailed.learnFails)
theorem beginOpening {n : Nat} (h : Drives s u) : Drives s (beginOpening n u) := (ite h h.setLeaf).modStn.armDeploy.deployStep.startDoor
theorem beginStow {n : Nat} (h : Drives s u) : Drives s (beginStow n u) := h.modStn.slotTimer
theorem restow {n : Nat} (h : Drives s u) : Drives s (restow n u) := by
  unfold Machine.restow
  split
  · exact ite h.sysArm h
  · exact h
theorem beginClosing {n : Nat} (h : Drives s u) : Drives s (beginClosing n u) := by
  unfold Machine.beginClosing
  dsimp only
  refine (coupleStep ?_).sysDrop.startDoor
  refine ite (beginStow ?_) (restow ?_)
  all_goals exact ite (ite h h.setLeaf).modStn.armClosing (ite h h.setLeaf).modStn
theorem chargeP0 {n : Nat} {m : Motion} {b : Bool} (h : Drives s u) : Drives s (chargeP0 n m b u) := h.dropCharge.chargeAll
theorem limitTold {n : Nat} {b : Bool} (h : Drives s u) : Drives s (limitTold n b u) := by
  unfold Machine.limitTold
  dsimp only
  split
  · exact h.sayOp.motionFails.doorFailed
  · exact h.motionSays.motionFails.doorFailed
theorem beginReopen {n : Nat} (h : Drives s u) : Drives s (beginReopen n u) := by
  unfold Machine.beginReopen
  exact ite h.limitTold.modStn h.chargeP0.armDeploy.deployStep.startDoor
theorem doorStands {n : Nat} {t : Option Bool} {k : Option MKind} {l : List Charge} (h : Drives s u) : Drives s (doorStands n t k l u) := by
  unfold Machine.doorStands
  dsimp only
  split
  · split
    · exact h.limitTold.learnFails
    split
    · exact ite h.modYar.beginOpening h.modYar.beginClosing
    · exact h.beginWait
  · exact ite h (ite h.modStn h.beginReopen)
theorem moveStep {n : Nat} {b : Bool} (h : Drives s u) : Drives s (moveStep n b u) := by
  unfold Machine.moveStep
  split
  · exact h
  · exact h.modAx.beginWait
theorem standstill {n : Nat} (h : Drives s u) : Drives s (standstill n u) := by
  unfold Machine.standstill
  dsimp only
  split
  · exact (ite h.axisStops.leafHeld h.axisStops).doorStands
  · split
    · exact h.axisStops.moveStep
    · exact h.axisStops
theorem settleAxis {n : Nat} (h : Drives s u) : Drives s (settleAxis n u) := ite h.standstill h
theorem limitStops {n : Nat} {b : Bool} (h : Drives s u) : Drives s (limitStops n b u) :=
  (ite h.limitTold.hardStop h.limitTold.rampStop).settleAxis

/-! ## Couplings (R161 to R163) -/

theorem replan {n : Nat} {t : Int} (h : Drives s u) : Drives s (replan n t u) := by
  unfold Machine.replan
  dsimp only
  split
  · exact h
  · exact ite h (ite h.setCourse h.setCourse)
theorem camTrack {n : Nat} (h : Drives s u) : Drives s (camTrack n u) := by
  unfold Machine.camTrack
  dsimp only
  split
  · exact h
  split
  · exact h
  · exact ite h (ite h.camHold (ite h.modCouple.limitStops h.modCouple.replan))
theorem camEngage {n : Nat} (h : Drives s u) : Drives s (camEngage n u) := by
  unfold Machine.camEngage
  split
  · exact h
  split
  · exact h
  · exact ite h h.modCouple.motionSays
theorem stepReached {n : Nat} (h : Drives s u) : Drives s (stepReached n u) := ite h.modStn h
theorem camStands {n : Nat} (h : Drives s u) : Drives s (camStands n u) := by
  unfold Machine.camStands Machine.lagWatch
  dsimp only
  split
  · exact h.camEngage.modCouple.stepReached
  · exact h.camEngage.modCouple
theorem camUpdate {n : Nat} (h : Drives s u) : Drives s (camUpdate n u) := h.camTrack.camStands
theorem camsFollow (s0 : State) (h : Drives s u) : Drives s (camsFollow s0 u) := h.forEach fun _ v => (refl v).camUpdate
theorem searchesEnd (h : Drives s u) : Drives s (searchesEnd u) := h.forEach fun _ v => (refl v).searchEnds

end Drives
end Sys2Proof.Machine
end

section
/-! SUPPORT. A slice whose head falls silent while a main lamp is dark: the fail-safe state passes it to its reserve (R270), and that
changeover is reported. No effect that leaves the waiting reports alone explains the report. -/

namespace Sys2Proof.Machine

open Sys2Proof

/-- A powered slice without a link, whose head is silent; its latch gives the main of its first station a reserve, and that main is dark. -/
def darkMain : State :=
  { sl := [(0, { powered := true, latch := [((.ch 0 .la, .RESERVE), .w "LB")] })], st := [(0, { la := { lamp := { dark := true } } })] }

theorem clearMarks_kept (s : State) : KeptBut [.st] s (clearMarks s) := forEach_kept _ _ s fun _ u => modStn_kept u _ _
/-- Where no held session's buffer is full afterwards, none was ended (R111). -/
theorem endFull_eq_self {s : State} (h : (endFull s).sess = []) : endFull s = s := by
  have hnone := not_imp_comm.1 endFull_sess_ne_nil (not_not.2 h)
  unfold endFull
  rw [hnone]; rfl
/-- What follows a command of `darkMain` forms no report of the field side. -/
theorem settle_darkMain_reports {u : State} (hk : KeptBut [.sl, .st] darkMain u) (hs : (settle darkMain u).sess = []) :
    (settle darkMain u).reports = [] := by
  have hd : Drives u (searchesEnd (camsFollow darkMain u)) := ((Drives.refl u).camsFollow darkMain).searchesEnd
  unfold settle settleWith at hs ⊢
  generalize searchesEnd (camsFollow darkMain u) = v at hd hs ⊢
  have hrep : v.reports = [] := (hd.kept .reports (by decide)).trans (hk .reports (by simp))
  have hslp : v.slp = {} := (hd.kept .slp (by decide)).trans (hk .slp (by simp))
  have hgone : releaseGone darkMain v = v := by unfold releaseGone; split <;> rfl
  have hwatch : sleepWatch v = v := by simp [sleepWatch, hslp]
  have hdiff : ∀ w, watchDiff darkMain w = w := fun _ => rfl
  rw [hgone, hwatch, hdiff] at hs ⊢
  have hfull : endFull (clearMarks v) = clearMarks v := endFull_eq_self ((poolRecord_kept _ .sess (by simp)).symm.trans hs)
  rw [hfull]
  exact (poolRecord_kept (clearMarks v) .reports (by simp)).trans ((clearMarks_kept v .reports (by simp)).trans hrep)

/-- Refutes O54: where a main is dark, the fail-safe state is a changeover to its reserve (R270, R296), whose report then waits for the link;
the stations and the slice are not all that changes. -/
theorem not_slicesLink : ¬ Obligations.SlicesLink := by
  rintro ⟨-, -, -, -, hfail, -⟩
  obtain ⟨u, hu, -, -, hk, -⟩ := hfail 0 darkMain (by decide) (by decide) (by decide)
  have hx : exec (.failSafeApplied 0) darkMain = .next (settle darkMain u) := hu
  obtain ⟨w, hw, hsess, hrep⟩ : ∃ w, exec (.failSafeApplied 0) darkMain = .next w ∧ w.sess = [] ∧ w.reports ≠ [] :=
    ⟨_, rfl, by decide +kernel, by decide +kernel⟩
  rw [hw, Host.Outcome.next.injEq] at hx
  exact hrep (hx ▸ settle_darkMain_reports hk (hx ▸ hsess))

end Sys2Proof.Machine
end

section
/-! SUPPORT. The safety lanes: what their functions read, and one rule for each operation of theirs. -/

namespace Sys2Proof.Machine

open Sys2Proof

/-! ## What the lanes' safety functions read -/

/-- What permission, LOOP and the masks read of a lane: its copies, and whether it runs and drives. -/
def laneView (l : LaneSt) : LaneSt := { driving := l.driving, tested := l.tested, st := l.st, sl := l.sl }
/-- What they read of Campion. -/
def campView (c : Campion) : Campion :=
  { a := laneView c.a, b := laneView c.b, safe := c.safe, loopFault := c.loopFault, zero := c.zero, rell := c.rell, relr := c.relr
    test := c.test, conns := c.conns, msgZeroSince := c.msgZeroSince }
/-- What they read of the unit: nothing that is told, journalled or sent. -/
def safetyView (s : State) : State :=
  { fit := s.fit, clk := s.clk, head := headRest s.head, cfg := s.cfg, st := s.st, sl := s.sl, camp := campView s.camp }

theorem safetyView_congr {l : List Part} {s u : State} (hk : KeptBut l s u) (hc : campView u.camp = campView s.camp)
    (hl : ∀ p ∈ [Part.fixed, .clk, .head, .cfg, .st, .sl], p ∉ l := by decide) : safetyView u = safetyView s := by
  unfold safetyView
  rw [(hk .fixed (hl _ (by simp))).1, show u.clk = s.clk from hk .clk (hl _ (by simp)),
    show headRest u.head = headRest s.head from hk .head (hl _ (by simp)), show u.cfg = s.cfg from hk .cfg (hl _ (by simp)),
    show u.st = s.st from hk .st (hl _ (by simp)), show u.sl = s.sl from hk .sl (hl _ (by simp)), hc]

section
variable {s u : State} (h : safetyView u = safetyView s)
include h

theorem view_congr {α : Type} {f : State → α} (hv : ∀ v, f (safetyView v) = f v) : f u = f s := by rw [← hv u, h, hv]
theorem loopConds_congr (x : Lane) : loopConds u x = loopConds s x := view_congr h (f := (loopConds · x)) fun v => by cases x <;> rfl
theorem lanePermits_congr (x : Lane) (n : Nat) : lanePermits u x n = lanePermits s x n :=
  view_congr h (f := (lanePermits · x n)) fun v => by cases x <;> rfl
theorem laneMask_congr (x : Lane) (p : Nat) : laneMask u x p = laneMask s x p := view_congr h (f := (laneMask · x p)) fun v => by cases x <;> rfl
theorem evalSet_congr : evalSet u = evalSet s := view_congr h (f := evalSet) fun _ => rfl
theorem laneStn_congr (x : Lane) (n : Nat) : u.laneStn x n = s.laneStn x n := view_congr h (f := (State.laneStn · x n)) fun v => by cases x <;> rfl
theorem laneSlc_congr (x : Lane) (p : Nat) : u.laneSlc x p = s.laneSlc x p := view_congr h (f := (State.laneSlc · x p)) fun v => by cases x <;> rfl
theorem laneSees_congr (x : Lane) (p : Nat) : laneSees u x p = laneSees s x p := view_congr h (f := (laneSees · x p)) fun v => by cases x <;> rfl
theorem laneRuns_congr (x : Lane) : laneRuns u x = laneRuns s x := view_congr h (f := (laneRuns · x)) fun v => by cases x <;> rfl
theorem mainDark_congr (x : Lane) (n : Nat) : mainDark u x n = mainDark s x n := view_congr h (f := (mainDark · x n)) fun v => by cases x <;> rfl
theorem lbDark_congr (x : Lane) (n : Nat) : lbDark u x n = lbDark s x n := view_congr h (f := (lbDark · x n)) fun v => by cases x <;> rfl
theorem lampKnown_congr (x : Lane) (n : Nat) (w : Sw) : lampKnown u x n w = lampKnown s x n w :=
  view_congr h (f := (lampKnown · x n w)) fun v => by cases x <;> rfl
/-- A lane's result record is of what the safety functions read and of what the lane commands (R332). -/
theorem resultOf_congr (x : Lane) (hl : (u.lane x).loop = (s.lane x).loop) (hm : (u.lane x).masks = (s.lane x).masks)
    (hp : (u.lane x).permitted = (s.lane x).permitted) : resultOf u x = resultOf s x := by
  unfold resultOf
  simp only [laneSlc_congr h, laneStn_congr h, lampKnown_congr h, hl, hm, hp, show mainDark u x = mainDark s x from funext (mainDark_congr h x),
    show lbDark u x = lbDark s x from funext (lbDark_congr h x)]
end

/-! ## A lane's copies -/

theorem laneStn_modLaneStn (s : State) (x y : Lane) (n m : Nat) (f : LaneStn → LaneStn) :
    (s.modLaneStn x n f).laneStn y m = if y = x ∧ m = n then f (s.laneStn x n) else s.laneStn y m := by
  by_cases hy : y = x
  · subst hy
    simp only [State.laneStn, State.modLaneStn, lane_modLane, if_true, tget_tmod, true_and]
  · simp only [State.laneStn, State.modLaneStn, lane_modLane, hy, false_and, if_false]
theorem lane_modLaneStn_other (s : State) {x y : Lane} (hy : y ≠ x) (n : Nat) (f : LaneStn → LaneStn) : (s.modLaneStn x n f).lane y = s.lane y := by
  simp [State.modLaneStn, hy]

/-! ## What a lane commands (R194, R199, R334) -/

/-- A lane without what it commands. -/
def LaneSt.quiet (l : LaneSt) : LaneSt :=
  { l with loop := false, loopAt := 0, contact := false, holdSince := none, masks := [], maskAt := [], permitted := 0 }
/-- Campion without what its lanes command. -/
def Campion.quiet (c : Campion) : Campion := { c with a := c.a.quiet, b := c.b.quiet }
/-- Nothing but what the lanes command has changed. -/
def CommandsOnly (s u : State) : Prop := KeptBut [.camp] s u ∧ u.camp.quiet = s.camp.quiet

namespace CommandsOnly

variable {s u v : State}

theorem refl (s : State) : CommandsOnly s s := ⟨KeptBut.refl _ s, rfl⟩
theorem trans (h : CommandsOnly s u) (g : CommandsOnly u v) : CommandsOnly s v := ⟨h.1.trans g.1, g.2.trans h.2⟩
theorem modLane (s : State) (x : Lane) {f : LaneSt → LaneSt} (hf : ∀ l, (f l).quiet = l.quiet) : CommandsOnly s (s.modLane x f) := by
  refine ⟨modLane_kept s x f, ?_⟩
  cases x <;> simp [Campion.quiet, State.modLane, hf]
/-- A part of Campion that is no command is the same. -/
theorem camp (h : CommandsOnly s u) {α : Type} (g : Campion → α) (hg : ∀ c : Campion, g c.quiet = g c := by intro; rfl) : g u.camp = g s.camp := by
  rw [← hg u.camp, h.2, hg]
/-- A part of a lane that is no command is the same. -/
theorem lane (h : CommandsOnly s u) (x : Lane) {α : Type} (g : LaneSt → α) (hg : ∀ l : LaneSt, g l.quiet = g l := by intro; rfl) :
    g (u.lane x) = g (s.lane x) := by
  cases x
  · exact h.camp (fun c => g c.a) fun c => hg c.a
  · exact h.camp (fun c => g c.b) fun c => hg c.b
theorem view (h : CommandsOnly s u) : safetyView u = safetyView s := safetyView_congr h.1 (h.camp campView)

end CommandsOnly

theorem setMasks_commands (x : Lane) (s : State) : CommandsOnly s (setMasks x s) := CommandsOnly.modLane s x fun _ => rfl
theorem setPermitted_commands (x : Lane) (s : State) : CommandsOnly s (setPermitted x s) := CommandsOnly.modLane s x fun _ => rfl
theorem commandLoop_commands (x : Lane) (on : Bool) (s : State) : CommandsOnly s (commandLoop x on s) := by
  unfold commandLoop
  split
  · exact CommandsOnly.refl s
  · exact CommandsOnly.modLane s x fun _ => rfl
theorem openAll_commands (x : Lane) (s : State) : CommandsOnly s (openAll x s) :=
  ((CommandsOnly.modLane s x (f := fun l => { l with holdSince := none }) fun _ => rfl).trans (commandLoop_commands x false _)).trans
    (setMasks_commands x _)
theorem evalLoop_commands (x : Lane) (s : State) : CommandsOnly s (evalLoop x s) := by
  have hh : CommandsOnly s (s.modLane x fun l => { l with holdSince := sinceOf l.holdSince (loopConds s x) s.now }) :=
    CommandsOnly.modLane s x fun _ => rfl
  unfold evalLoop
  dsimp only
  split
  · exact hh
  · exact hh.trans (commandLoop_commands x false _)

theorem setMasks_lane_other (s : State) {x y : Lane} (hy : y ≠ x) : (setMasks x s).lane y = s.lane y := by simp [setMasks, hy]
theorem setPermitted_lane_other (s : State) {x y : Lane} (hy : y ≠ x) : (setPermitted x s).lane y = s.lane y := by simp [setPermitted, hy]
theorem commandLoop_lane_other (s : State) {x y : Lane} (hy : y ≠ x) (on : Bool) : (commandLoop x on s).lane y = s.lane y := by
  unfold commandLoop
  split <;> simp [hy]
theorem openAll_lane_other (s : State) {x y : Lane} (hy : y ≠ x) : (openAll x s).lane y = s.lane y := by
  unfold openAll
  simp [setMasks_lane_other _ hy, commandLoop_lane_other _ hy, hy]
theorem evalLoop_lane_other (s : State) {x y : Lane} (hy : y ≠ x) : (evalLoop x s).lane y = s.lane y := by
  unfold evalLoop
  dsimp only
  split <;> simp [commandLoop_lane_other _ hy, hy]

/-- A lane's masks are those it computes (R194). -/
theorem setMasks_masks (x : Lane) (s : State) : ((setMasks x s).lane x).masks = allSlices.map fun p => (p, laneMask s x p) := by simp [setMasks]
theorem commandLoop_masks (x : Lane) (on : Bool) (s : State) : ((commandLoop x on s).lane x).masks = (s.lane x).masks := by
  unfold commandLoop
  split <;> simp
theorem commandLoop_holdSince (x : Lane) (on : Bool) (s : State) : ((commandLoop x on s).lane x).holdSince = (s.lane x).holdSince := by
  unfold commandLoop
  split <;> simp
theorem commandLoop_permitted (x : Lane) (on : Bool) (s : State) : ((commandLoop x on s).lane x).permitted = (s.lane x).permitted := by
  unfold commandLoop
  split <;> simp
theorem commandLoop_loop (x : Lane) (on : Bool) (s : State) : ((commandLoop x on s).lane x).loop = on := by
  unfold commandLoop
  split
  · assumption
  · simp
/-- A command that is new moves the contact at this instant (R199, R334). -/
theorem commandLoop_new {x : Lane} {on : Bool} {s : State} (h : (s.lane x).loop ≠ on) :
    ((commandLoop x on s).lane x).contact = on ∧ ((commandLoop x on s).lane x).loopAt = s.now := by
  unfold commandLoop
  rw [if_neg h]
  simp
theorem openAll_loop (x : Lane) (s : State) : ((openAll x s).lane x).loop = false := by
  unfold openAll
  simp [setMasks, commandLoop_loop]
theorem openAll_contact {x : Lane} {s : State} (h : (s.lane x).loop = true) : ((openAll x s).lane x).contact = false := by
  have hn := (commandLoop_new (x := x) (on := false) (s := s.modLane x fun l => { l with holdSince := none }) (by simp [h])).1
  unfold openAll
  simpa [setMasks] using hn
theorem openAll_masks (x : Lane) (s : State) : ((openAll x s).lane x).masks = allSlices.map fun p => (p, laneMask s x p) := by
  have hv := (CommandsOnly.modLane s x (f := fun l => { l with holdSince := none }) fun _ => rfl).trans (commandLoop_commands x false _)
  unfold openAll
  dsimp only
  rw [setMasks_masks]
  simp only [laneMask_congr hv.view]
theorem tget_zero_masks (l : List Nat) (p : Nat) : tget 0 (l.map fun q => (q, (0 : Byte))) p = 0 := by
  induction l with
  | nil => rfl
  | cons q l ih => simp only [List.map_cons, tget]; split <;> simp_all
/-- Where a lane computes no mask, opening everything leaves each mask zero (R20, R23). -/
theorem openAll_masks_zero {x : Lane} {s : State} (h : ∀ p, laneMask s x p = 0) (p : Nat) : tget 0 ((openAll x s).lane x).masks p = 0 := by
  rw [openAll_masks]
  simp only [h]
  exact tget_zero_masks allSlices p

/-! ## The safe state (R20, R22) -/

theorem enterSafe_kept (c : String) (s : State) : KeptBut [.camp, .jrn] s (enterSafe c s) := by
  unfold enterSafe
  split
  · exact KeptBut.refl _ s
  · exact ((((modCamp_kept s _).trans (openAll_commands .a _).1).trans (openAll_commands .b _).1).mono (by simp)).trans
      ((record_kept _ _ _ _).mono (by simp))
/-- The safe state is latched, and of Campion's other parts only commands change. -/
theorem enterSafe_quiet (c : String) (s : State) : (enterSafe c s).camp.quiet = { s.camp.quiet with safe := true } := by
  unfold enterSafe
  split
  · rename_i h
    simp [Campion.quiet, h]
  · have ho := (openAll_commands .a (s.modCamp fun c => { c with safe := true })).trans (openAll_commands .b _)
    dsimp only
    rw [show (record 0x0102 _ _ _).camp = _ from record_kept _ _ _ _ .camp (by simp), ho.2]
    rfl
theorem enterSafe_camp (c : String) (s : State) {α : Type} (g : Campion → α) (hg : ∀ c : Campion, g { c.quiet with safe := true } = g c := by intro; rfl) :
    g (enterSafe c s).camp = g s.camp := by
  have h := congrArg (fun c : Campion => g { c with safe := true }) (enterSafe_quiet c s)
  rw [← hg, ← hg s.camp]
  exact h
theorem enterSafe_lane (c : String) (s : State) (x : Lane) {α : Type} (g : LaneSt → α) (hg : ∀ l : LaneSt, g l.quiet = g l := by intro; rfl) :
    g ((enterSafe c s).lane x) = g (s.lane x) := by
  cases x
  · exact enterSafe_camp c s (fun c => g c.a) fun c => hg c.a
  · exact enterSafe_camp c s (fun c => g c.b) fun c => hg c.b
@[simp] theorem enterSafe_safe (c : String) (s : State) : (enterSafe c s).camp.safe = true := congrArg Campion.safe (enterSafe_quiet c s)
/-- The first latching opens both contacts and takes every element off (R20, R22). -/
theorem enterSafe_opens (c : String) {s : State} (h : s.camp.safe = false) (x : Lane) :
    ((enterSafe c s).lane x).loop = false ∧ (∀ p, tget 0 ((enterSafe c s).lane x).masks p = 0)
      ∧ ((s.lane x).loop = true → ((enterSafe c s).lane x).contact = false) := by
  have hz : ∀ u : State, u.camp.safe = true → ∀ y p, laneMask u y p = 0 := fun u hu y p => by simp [laneMask, hu]
  have ha : ((openAll .a (s.modCamp fun c => { c with safe := true })).camp.safe) = true := (openAll_commands .a _).camp (·.safe)
  unfold enterSafe
  simp only [h, Bool.false_eq_true, if_false]
  simp only [(record_kept _ _ _ _).lane (l := [.jrn]) (by simp)]
  cases x
  · rw [openAll_lane_other _ (by decide)]
    exact ⟨openAll_loop .a _, openAll_masks_zero (hz _ rfl .a), fun hl => openAll_contact hl⟩
  · refine ⟨openAll_loop .b _, openAll_masks_zero (hz _ ha .b), fun hl => openAll_contact ?_⟩
    rw [openAll_lane_other _ (by decide)]
    exact hl

end Sys2Proof.Machine
end

section
/-! SUPPORT. The lanes' safety cycle, LOOP, the readbacks and the faults of a lane. -/

namespace Sys2Proof.Machine

open Sys2Proof

/-! ## KEY and session 0 (R116) -/

theorem dropAuthority_eq {s : State} (hk : s.camp.key.active = false) (ha : (s.ses 0).auth = true) :
    dropAuthority s = send (.session 0) (tilR "auth" [.w "off"]) (s.modSes 0 fun x => { x with auth := false }) := by
  simp [dropAuthority, hk, ha]
theorem sendSession_kept (n : Nat) (r : Reply) (s : State) : KeptBut [.sess] s (send (.session n) r s) := by
  unfold send
  dsimp only
  split
  · exact KeptBut.refl _ s
  · exact modSes_kept s _ _
theorem sendSession_other (n k : Nat) (r : Reply) (s : State) (hk : k ≠ n) : (send (.session n) r s).ses k = s.ses k := by
  unfold send
  dsimp only
  split <;> simp [hk]
theorem dropAuthority_kept (s : State) : KeptBut [.sess] s (dropAuthority s) := by
  unfold dropAuthority
  split
  · exact (modSes_kept s _ _).trans (sendSession_kept _ _ _)
  · exact KeptBut.refl _ s
theorem put_auth (x : Session) (r : Reply) : (x.put r).auth = x.auth := by
  unfold Session.put Session.putFor
  dsimp only
  split
  · rfl
  · split <;> rfl
/-- With KEY inactive session 0 has no authority (R116). -/
theorem dropAuthority_auth {s : State} (hk : s.camp.key.active = false) : ((dropAuthority s).ses 0).auth = false := by
  by_cases ha : (s.ses 0).auth = true
  · rw [dropAuthority_eq hk ha]
    unfold send
    dsimp only
    split
    · simp
    · simp [put_auth]
  · unfold dropAuthority
    rw [if_neg fun h => ha h.2]
    simpa using ha
/-- A report goes last into a buffer that hears it (R107). -/
theorem put_report {x : Session} {r : Reply} (hh : x.heldBack = []) (hl : x.lost = 0) (ho : outBytes x.out ≤ 49152) :
    (x.put r).out = x.out ++ [{ r with checked := x.rcheck && decide (x.mode = .gen) }] := by
  simp [Session.put, Session.putFor, hh, hl, Nat.not_lt.2 ho]
theorem dropAuthority_told {s : State} (hk : s.camp.key.active = false) (ha : (s.ses 0).auth = true) (hh : hears s 0 = true) :
    ((dropAuthority s).ses 0).out = (s.ses 0).out ++ [sentTo s 0 none (tilR "auth" [.w "off"])] := by
  simp only [hears, Bool.and_eq_true, decide_eq_true_eq, List.isEmpty_iff] at hh
  obtain ⟨⟨⟨hfree, hheld⟩, hlost⟩, hout⟩ := hh
  rw [dropAuthority_eq hk ha]
  simp only [send, ses_modSes, if_true, hfree, if_false]
  exact put_report hheld hlost hout

/-! ## The circuits and the stations of a cycle (R289, R332) -/

theorem readLines_kept (x : Lane) (own : Circuits) (s : State) : KeptBut [.camp] s (readLines x own s) := modCamp_kept s _
theorem readLines_lane (x y : Lane) (own : Circuits) (s : State) : (readLines x own s).lane y = s.lane y := by
  cases y <;> simp only [readLines, State.modCamp, State.lane] <;> split <;> rfl
theorem readLines_safe (x : Lane) (own : Circuits) (s : State) : (readLines x own s).camp.safe = s.camp.safe := by
  simp only [readLines, State.modCamp]
  split <;> rfl
theorem readLines_key (x : Lane) (own : Circuits) (s : State) : (readLines x own s).camp.key = readCircuit s x 20000 own.key s.camp.key := by
  simp only [readLines, State.modCamp]
  split <;> rfl
theorem readLines_lines (x : Lane) (own : Circuits) {s : State} (h : s.fit.optT = true) :
    (readLines x own s).camp.zero = readCircuit s x 3000 own.zero s.camp.zero ∧ (readLines x own s).camp.rell = readCircuit s x 3000 own.rell s.camp.rell
      ∧ (readLines x own s).camp.relr = readCircuit s x 3000 own.relr s.camp.relr := by
  simp only [readLines, State.modCamp, h, if_true]
  exact ⟨trivial, trivial, trivial⟩

/-- Only what a lane keeps of the stations has changed. -/
def StationsOnly (x : Lane) (s u : State) : Prop := ∃ t, u = s.modLane x fun l => { l with st := t }
theorem StationsOnly.refl (x : Lane) (s : State) : StationsOnly x s s := ⟨(s.lane x).st, by cases x <;> rfl⟩
theorem StationsOnly.trans {x : Lane} {s u v : State} (h : StationsOnly x s u) (g : StationsOnly x u v) : StationsOnly x s v := by
  obtain ⟨t, rfl⟩ := h
  obtain ⟨t', rfl⟩ := g
  exact ⟨t', by cases x <;> rfl⟩
theorem StationsOnly.modLaneStn (x : Lane) (n : Nat) (f : LaneStn → LaneStn) (s : State) : StationsOnly x s (s.modLaneStn x n f) :=
  ⟨tmod {} (s.lane x).st n f, by cases x <;> rfl⟩
theorem StationsOnly.forEach {x : Lane} {α : Type} (l : List α) (f : α → State → State) (s : State) (h : ∀ a v, StationsOnly x v (f a v)) :
    StationsOnly x s (forEach l f s) := forEach_keeps l f s (fun a _ hv => hv.trans (h a _)) (StationsOnly.refl x s)
theorem watchVerdict_stations (x : Lane) (n : Nat) (w : Sw) (s : State) : StationsOnly x s (watchVerdict x n w s) := by
  unfold watchVerdict
  split
  · exact StationsOnly.refl x s
  · exact StationsOnly.modLaneStn x n _ s
theorem watchReserve_stations (x : Lane) (n : Nat) (s : State) : StationsOnly x s (watchReserve x n s) := by
  unfold watchReserve
  split
  · exact StationsOnly.refl x s
  · exact StationsOnly.modLaneStn x n _ s
theorem laneStation_stations (x : Lane) (n : Nat) (s : State) : StationsOnly x s (laneStation x n s) := by
  unfold laneStation
  refine StationsOnly.trans (StationsOnly.trans (StationsOnly.trans ?_ (watchVerdict_stations x n .la _)) (watchVerdict_stations x n .lb _))
    (watchReserve_stations x n _)
  split
  · exact ((StationsOnly.modLaneStn x n _ s).trans (StationsOnly.modLaneStn x n _ _)).trans (StationsOnly.modLaneStn x n _ _)
  · exact StationsOnly.refl x s

/-! ## LOOP's evaluation (R198, R199) -/

theorem evalLoop_masks (x : Lane) (s : State) : ((evalLoop x s).lane x).masks = (s.lane x).masks := by
  unfold evalLoop
  dsimp only
  split <;> simp [commandLoop_masks]
theorem evalLoop_permitted (x : Lane) (s : State) : ((evalLoop x s).lane x).permitted = (s.lane x).permitted := by
  unfold evalLoop
  dsimp only
  split <;> simp [commandLoop_permitted]
theorem evalLoop_of_conds {x : Lane} {s : State} (h : loopConds s x = true) :
    ((evalLoop x s).lane x).loop = (s.lane x).loop ∧ ((evalLoop x s).lane x).holdSince = some ((s.lane x).holdSince.getD s.now) := by
  simp only [evalLoop, h, sinceOf, if_true, lane_modLane, true_and]
  cases (s.lane x).holdSince <;> rfl
theorem evalLoop_of_not_conds {x : Lane} {s : State} (h : loopConds s x = false) :
    ((evalLoop x s).lane x).loop = false ∧ ((evalLoop x s).lane x).holdSince = none := by
  simp [evalLoop, h, sinceOf, commandLoop_loop, commandLoop_holdSince]

/-! ## The cycle (R332, R333) -/

/-- The record of a cycle, the instant of the other lane's, and frames that are good again. -/
def closeCycle (x : Lane) (at_ : Option Nat) (s : State) : State :=
  s.modLane x fun l => { l with
    record := resultOf s x, peerAt := at_.getD l.peerAt, sl := l.sl.map fun (e : Nat × LaneSlc) => (e.1, { e.2 with bad := false }) }
/-- What a lane computes of its copies in a cycle (R193, R194, R198). -/
def computed (x : Lane) (s : State) : State := evalLoop x (setMasks x (setPermitted x s))
theorem computed_commands (x : Lane) (s : State) : CommandsOnly s (computed x s) :=
  ((setPermitted_commands x s).trans (setMasks_commands x _)).trans (evalLoop_commands x _)
/-- A cycle: the circuits and session 0's authority, the stations, what the lane computes, its record. -/
theorem safetyCycle_eq (x : Lane) (own : Circuits) (peer : Option ResultRec) (s : State) :
    ∃ w, StationsOnly x (dropAuthority (readLines x own s)) w ∧ safetyCycle x own peer s =
      match peer with
      | none => closeCycle x none (computed x w)
      | some q =>
        let l := [resultOf (computed x w) x, ((computed x w).lane x).record].filter fun o => q.frames == o.frames
        if !l.isEmpty && q ∉ l then enterSafe "LANES" (closeCycle x (some (computed x w).now) (computed x w))
        else closeCycle x (some (computed x w).now) (computed x w) := by
  refine ⟨forEach allStations (laneStation x) (dropAuthority (readLines x own s)), StationsOnly.forEach _ _ _ fun n v => laneStation_stations x n v, ?_⟩
  generalize hl : allStations = l
  cases peer <;> (unfold safetyCycle closeCycle computed; simp only [hl]; rfl)

section
variable {x : Lane} {own : Circuits} {s w : State} (hw : StationsOnly x (dropAuthority (readLines x own s)) w)
include hw

theorem cycle_kept (a : Option Nat) : KeptBut [.camp, .sess, .jrn] s (closeCycle x a (computed x w)) := by
  obtain ⟨t, rfl⟩ := hw
  exact ((((((readLines_kept x own s).mono (by simp)).trans ((dropAuthority_kept _).mono (by simp))).trans ((modLane_kept _ _ _).mono (by simp))).trans
    ((computed_commands x _).1.mono (by simp))).trans ((modLane_kept _ _ _).mono (by simp)))
theorem cycle_camp (a : Option Nat) {α : Type} (g : Campion → α)
    (hg : ∀ (c : Campion) a b, g { c with a, b } = g c := by intros; rfl) :
    g (closeCycle x a (computed x w)).camp = g (readLines x own s).camp := by
  have hm : ∀ (v : State) f, g (v.modLane x f).camp = g v.camp := fun v f => by cases x <;> exact (hg _ _ _).trans (hg v.camp v.camp.a v.camp.b).symm
  obtain ⟨t, rfl⟩ := hw
  refine (hm _ _).trans (((computed_commands x _).camp g fun c => hg c _ _).trans ((hm _ _).trans ?_))
  rw [show (dropAuthority (readLines x own s)).camp = _ from dropAuthority_kept _ .camp (by simp)]
theorem cycle_lane_other (a : Option Nat) {y : Lane} (hy : y ≠ x) : (closeCycle x a (computed x w)).lane y = s.lane y := by
  obtain ⟨t, rfl⟩ := hw
  simp only [closeCycle, computed, lane_modLane, if_neg hy, evalLoop_lane_other _ hy, setMasks_lane_other _ hy, setPermitted_lane_other _ hy,
    (dropAuthority_kept _).lane (l := [.sess]) (by simp), readLines_lane]
/-- What the cycle neither computes nor reads into the lane's copies of the stations. -/
theorem cycle_lane {α : Type} (g : LaneSt → α) (hg : ∀ l : LaneSt, g l.quiet = g l := by intro; rfl)
    (hst : ∀ (l : LaneSt) t, g { l with st := t } = g l := by intros; rfl) : g ((computed x w).lane x) = g (s.lane x) := by
  rw [(computed_commands x w).lane x g hg]
  obtain ⟨t, rfl⟩ := hw
  rw [lane_modLane, if_pos rfl, hst, (dropAuthority_kept _).lane (l := [.sess]) (by simp), readLines_lane]
theorem cycle_now : (computed x w).now = s.now := by
  have h : (closeCycle x none (computed x w)).now = s.now := (cycle_kept hw none).now (by simp)
  exact ((modLane_kept (computed x w) x _).now (by simp)).symm.trans h
end

/-- The frames of a cycle are good again (R18). -/
theorem closeCycle_bad (x : Lane) (a : Option Nat) (s : State) (p : Nat) : ((closeCycle x a s).laneSlc x p).bad = false := by
  unfold closeCycle State.laneSlc
  rw [lane_modLane, if_pos rfl]
  exact congrArg LaneSlc.bad (tget_map {} _ (fun q : LaneSlc => { q with bad := false }) p)
theorem closeCycle_view {x : Lane} {a : Option Nat} {s : State} (h : (s.lane x).sl.all (fun e => !e.2.bad) = true) :
    safetyView (closeCycle x a s) = safetyView s := by
  have hsl : (s.lane x).sl.map (fun (e : Nat × LaneSlc) => (e.1, { e.2 with bad := false })) = (s.lane x).sl := by
    refine (List.map_congr_left (g := id) fun e he => ?_).trans (List.map_id _)
    have hb : e.2.bad = false := by simpa using List.all_eq_true.1 h e he
    obtain ⟨k, q⟩ := e
    simp only at hb
    simp [← hb]
  refine safetyView_congr (modLane_kept s x _) ?_
  cases x <;> simp only [State.lane] at hsl <;> simp [campView, laneView, closeCycle, State.modLane, hsl]


/-- A command whose effect is guarded does what its effect does, where the guard holds. -/
theorem does_if {i : Instr} {s u : State} {p : State → Prop} {c : Prop} {_ : Decidable c} (hx : exec i s = .next (settle s (if c then u else s)))
    (hc : c) (hp : p u) : Does i s p := ⟨u, by rw [hx, if_pos hc], hp⟩

section
variable {x : Lane} {own : Circuits} {s w : State} (hw : StationsOnly x (dropAuthority (readLines x own s)) w)
include hw

/-- Whether or not the cycle ends in the safe state: its frame, the circuits as read, and its frames good again. -/
theorem cycle_common {a : Option Nat} {u : State}
    (hu : u = closeCycle x a (computed x w) ∨ u = enterSafe "LANES" (closeCycle x a (computed x w))) :
    KeptBut [.camp, .sess, .jrn] s u ∧ u.camp.key = readCircuit s x 20000 own.key s.camp.key
      ∧ (s.fit.optT = true → u.camp.zero = readCircuit s x 3000 own.zero s.camp.zero ∧ u.camp.rell = readCircuit s x 3000 own.rell s.camp.rell
        ∧ u.camp.relr = readCircuit s x 3000 own.relr s.camp.relr)
      ∧ ∀ p, (u.laneSlc x p).bad = false := by
  have hk := cycle_kept hw a
  have hkey := (cycle_camp hw a (·.key)).trans (readLines_key x own s)
  have hzero := cycle_camp hw a (·.zero)
  have hrell := cycle_camp hw a (·.rell)
  have hrelr := cycle_camp hw a (·.relr)
  have hbad := closeCycle_bad x a (computed x w)
  obtain rfl | rfl := hu
  · refine ⟨hk, hkey, fun ht => ?_, hbad⟩
    rw [hzero, hrell, hrelr]
    exact readLines_lines x own ht
  · refine ⟨hk.trans ((enterSafe_kept _ _).mono (by simp)), (enterSafe_camp _ _ (·.key)).trans hkey, fun ht => ?_, fun p => ?_⟩
    · rw [enterSafe_camp _ _ (·.zero), enterSafe_camp _ _ (·.rell), enterSafe_camp _ _ (·.relr), hzero, hrell, hrelr]
      exact readLines_lines x own ht
    · exact (enterSafe_lane "LANES" _ x fun l => (tget ({} : LaneSlc) l.sl p).bad).trans (hbad p)

/-- A cycle with good frames alone: what the lane computes is of the state it leaves (R193, R194, R198, R332). -/
theorem cycle_computes (hbad : (s.lane x).sl.all (fun e => !e.2.bad) = true) {u : State} (hu : u = closeCycle x none (computed x w)) :
    (u.lane x).record = resultOf u x ∧ (u.lane x).masks = allSlices.map (fun p => (p, laneMask u x p))
      ∧ (u.lane x).permitted = BitVec.ofNat 64 (((evalSet u).map fun n => if lanePermits u x n then 2 ^ n else 0).sum)
      ∧ (loopConds u x = false → (u.lane x).loop = false ∧ (u.lane x).holdSince = none)
      ∧ (loopConds u x = true → (u.lane x).loop = (s.lane x).loop ∧ (u.lane x).holdSince = some ((s.lane x).holdSince.getD s.now)) := by
  have hlane : u.lane x = { (computed x w).lane x with
      record := resultOf (computed x w) x
      sl := ((computed x w).lane x).sl.map fun (e : Nat × LaneSlc) => (e.1, { e.2 with bad := false }) } := by
    rw [hu, closeCycle, lane_modLane, if_pos rfl]
    rfl
  have hview : safetyView u = safetyView (computed x w) := by
    rw [hu]
    exact closeCycle_view (by rw [cycle_lane hw (·.sl)]; exact hbad)
  have hp : safetyView (setPermitted x w) = safetyView w := (setPermitted_commands x w).view
  have hm : safetyView (setMasks x (setPermitted x w)) = safetyView (setPermitted x w) := (setMasks_commands x _).view
  have hc : safetyView (computed x w) = safetyView (setMasks x (setPermitted x w)) := (evalLoop_commands x _).view
  have hconds : loopConds u x = loopConds (setMasks x (setPermitted x w)) x := loopConds_congr (hview.trans hc) x
  have hloop : ((setMasks x (setPermitted x w)).lane x).loop = (s.lane x).loop
      ∧ ((setMasks x (setPermitted x w)).lane x).holdSince = (s.lane x).holdSince := by
    obtain ⟨t, rfl⟩ := hw
    simp only [setMasks, setPermitted, lane_modLane, if_true, (dropAuthority_kept _).lane (l := [.sess]) (by simp), readLines_lane, and_self]
  have hnow : (setMasks x (setPermitted x w)).now = s.now := ((evalLoop_commands x _).1.now (by simp)).symm.trans (cycle_now hw)
  refine ⟨?_, ?_, ?_, fun h => ?_, fun h => ?_⟩
  · rw [resultOf_congr hview x (by rw [hlane]) (by rw [hlane]) (by rw [hlane]), hlane]
  · simp only [laneMask_congr (hview.trans (hc.trans hm))]
    rw [hlane]
    exact (evalLoop_masks x _).trans (setMasks_masks x _)
  · simp only [evalSet_congr (hview.trans (hc.trans (hm.trans hp))), lanePermits_congr (hview.trans (hc.trans (hm.trans hp)))]
    rw [hlane]
    refine (evalLoop_permitted x _).trans ?_
    simp [setMasks, setPermitted]
  · rw [hconds] at h
    rw [hlane]
    exact evalLoop_of_not_conds h
  · rw [hconds] at h
    rw [hlane]
    obtain ⟨h1, h2⟩ := evalLoop_of_conds h
    exact ⟨h1.trans hloop.1, h2.trans (by rw [hloop.2, hnow])⟩

/-- A cycle with the other lane's record: it is noted, and one of the same frames that differs latches the safe state (R333). -/
theorem cycle_compares (q : ResultRec) {u : State} (hu : u =
    let l := [resultOf (computed x w) x, ((computed x w).lane x).record].filter fun o => q.frames == o.frames
    if !l.isEmpty && q ∉ l then enterSafe "LANES" (closeCycle x (some (computed x w).now) (computed x w))
    else closeCycle x (some (computed x w).now) (computed x w)) :
    (u.lane x).peerAt = s.now
      ∧ (q.frames = (u.lane x).record.frames → q ≠ (u.lane x).record → q.frames ≠ (s.lane x).record.frames → u.camp.safe = true)
      ∧ (q.frames = (s.lane x).record.frames → q ≠ (s.lane x).record → q.frames ≠ (u.lane x).record.frames → u.camp.safe = true) := by
  have hold : ((computed x w).lane x).record = (s.lane x).record := cycle_lane hw (·.record)
  have hclosed : ((closeCycle x (some (computed x w).now) (computed x w)).lane x).record = resultOf (computed x w) x
      ∧ ((closeCycle x (some (computed x w).now) (computed x w)).lane x).peerAt = s.now := by
    rw [closeCycle, lane_modLane, if_pos rfl]
    exact ⟨rfl, cycle_now hw⟩
  obtain ⟨hrec, hpeer⟩ := hclosed
  have hu' : (u.lane x).record = resultOf (computed x w) x ∧ (u.lane x).peerAt = s.now := by
    rw [hu]
    dsimp only
    split
    · exact ⟨(enterSafe_lane _ _ x (·.record)).trans hrec, (enterSafe_lane _ _ x (·.peerAt)).trans hpeer⟩
    · exact ⟨hrec, hpeer⟩
  obtain ⟨hr, hp⟩ := hu'
  rw [hr]
  refine ⟨hp, fun h1 h2 h3 => ?_, fun h1 h2 h3 => ?_⟩
  · have hq : q ≠ (s.lane x).record := fun h => h3 (congrArg ResultRec.frames h)
    rw [hu, hold]
    simp [h1.symm, h2, hq]
  · rw [hu, hold]
    simp [h1.symm, h2, h3]
end

/-! ## The lanes apart (R333) and LOOPDELAY (R199) -/

theorem commandLoop_close {x : Lane} {s : State} (h : (s.lane x).loop = false) :
    ((commandLoop x true s).lane x).contact = true ∧ ((commandLoop x true s).lane x).loopAt = s.now := commandLoop_new (by simp [h])

/-! ## Readback (R20, R334, R342) -/

/-- The contacts as they read. -/
def readContacts (a b : Bool) (s : State) : State :=
  if s.fit.optT then s.modCamp fun c => { c with a := { c.a with contact := a }, b := { c.b with contact := b } } else s
/-- A lane's judgement of an opening, where it is due. -/
def judgeContacts (due : Bool) (x : Lane) (a b : Bool) (s : State) : State :=
  if due ∧ ¬ s.camp.a.loop ∧ ¬ s.camp.b.loop then s.modLane x fun l => { l with auxRead := some (s.now, a, b) } else s
/-- An opening that both lanes have read open is counted once. -/
def countOpening (s : State) : State :=
  if openingProved s ∧ notCounted s then s.modCamp fun c => { c with proofAt := some s.now, forced := false } else s
/-- A lane's readbacks up to its judgement of the elements. -/
def judged (x : Lane) (a b : Bool) (s : State) : State :=
  countOpening (judgeContacts (decide (s.camp.a.loopAt + 15000 ≤ s.now ∧ s.camp.b.loopAt + 15000 ≤ s.now)) x a b (readContacts a b s))
theorem judgeReadback_eq {x : Lane} {a b : Bool} {s : State} (h : (judged x a b s).camp.test = none) :
    judgeReadback x a b s =
      let w := judged x a b s
      if (loopMismatch w .a a || loopMismatch w .b b) = true ∨ (allSlices.any fun p => elementMismatch w x .a p || elementMismatch w x .b p) = true then
        enterSafe "READBACK" (loopElementFault .b b (loopElementFault .a a w))
      else loopElementFault .b b (loopElementFault .a a w) := by
  unfold judged countOpening judgeContacts readContacts at h ⊢
  unfold judgeReadback
  dsimp only at h ⊢
  rw [h]

/-- Campion without what a readback changes. -/
def Campion.unjudged (c : Campion) : Campion :=
  { c with a := { c.a with contact := false, auxRead := none }, b := { c.b with contact := false, auxRead := none }, proofAt := none, forced := false }
/-- Nothing but the readbacks has changed. -/
def ReadsBack (s u : State) : Prop := KeptBut [.camp] s u ∧ u.camp.unjudged = s.camp.unjudged

namespace ReadsBack

variable {s u v : State}

theorem refl (s : State) : ReadsBack s s := ⟨KeptBut.refl _ s, rfl⟩
theorem trans (h : ReadsBack s u) (g : ReadsBack u v) : ReadsBack s v := ⟨h.1.trans g.1, g.2.trans h.2⟩
theorem camp (h : ReadsBack s u) {α : Type} (g : Campion → α) (hg : ∀ c : Campion, g c.unjudged = g c := by intro; rfl) : g u.camp = g s.camp := by
  rw [← hg u.camp, h.2, hg]
theorem view (h : ReadsBack s u) : safetyView u = safetyView s := safetyView_congr h.1 (h.camp campView)
theorem optT (h : ReadsBack s u) : u.fit = s.fit := (h.1 .fixed (by simp)).1
theorem now (h : ReadsBack s u) : u.now = s.now := h.1.now (by simp)
theorem loopMismatch (h : ReadsBack s u) (y : Lane) (c : Bool) : loopMismatch u y c = loopMismatch s y c := by
  have hl : (u.lane y).loop = (s.lane y).loop ∧ (u.lane y).loopAt = (s.lane y).loopAt := by
    cases y
    · exact ⟨h.camp (·.a.loop), h.camp (·.a.loopAt)⟩
    · exact ⟨h.camp (·.b.loop), h.camp (·.b.loopAt)⟩
  simp only [Machine.loopMismatch, h.optT, h.now, hl.1, hl.2]
theorem elementMismatch (h : ReadsBack s u) (x y : Lane) (p : Nat) : elementMismatch u x y p = elementMismatch s x y p := by
  have hl : (u.lane y).masks = (s.lane y).masks ∧ (u.lane y).maskAt = (s.lane y).maskAt := by
    cases y
    · exact ⟨h.camp (·.a.masks), h.camp (·.a.maskAt)⟩
    · exact ⟨h.camp (·.b.masks), h.camp (·.b.maskAt)⟩
  simp only [Machine.elementMismatch, laneSlc_congr h.view, laneSees_congr h.view, h.now, hl.1, hl.2]

end ReadsBack

theorem readContacts_readsBack (a b : Bool) (s : State) : ReadsBack s (readContacts a b s) := by
  unfold readContacts
  split
  · exact ⟨modCamp_kept s _, rfl⟩
  · exact ReadsBack.refl s
theorem judgeContacts_readsBack (d : Bool) (x : Lane) (a b : Bool) (s : State) : ReadsBack s (judgeContacts d x a b s) := by
  unfold judgeContacts
  split
  · exact ⟨modLane_kept s x _, by cases x <;> rfl⟩
  · exact ReadsBack.refl s
theorem countOpening_readsBack (s : State) : ReadsBack s (countOpening s) := by
  unfold countOpening
  split
  · exact ⟨modCamp_kept s _, rfl⟩
  · exact ReadsBack.refl s
theorem judged_readsBack (x : Lane) (a b : Bool) (s : State) : ReadsBack s (judged x a b s) :=
  ((readContacts_readsBack a b s).trans (judgeContacts_readsBack _ x a b _)).trans (countOpening_readsBack _)
theorem countOpening_lane {α : Type} (g : LaneSt → α) (x : Lane) (s : State) : g ((countOpening s).lane x) = g (s.lane x) := by
  unfold countOpening
  split
  · cases x <;> rfl
  · rfl
/-- 15 ms after LOOP was opened, a lane with -T judges both contacts (R342). -/
theorem judgeContacts_auxRead {x : Lane} {a b : Bool} {s : State} (ha : s.camp.a.loop = false) (hb : s.camp.b.loop = false) :
    ((judgeContacts true x a b s).lane x).auxRead = some (s.now, a, b) := by simp [judgeContacts, ha, hb]
theorem judgeContacts_lane_other {x y : Lane} (hy : y ≠ x) (d : Bool) (a b : Bool) (s : State) : (judgeContacts d x a b s).lane y = s.lane y := by
  unfold judgeContacts
  split <;> simp [hy]
theorem readContacts_lane (y : Lane) (a b : Bool) {α : Type} (g : LaneSt → α) (s : State)
    (hg : ∀ (l : LaneSt) c, g { l with contact := c } = g l := by intros; rfl) : g ((readContacts a b s).lane y) = g (s.lane y) := by
  unfold readContacts
  split
  · cases y <;> exact hg _ _
  · rfl

theorem readContacts_proofAt (a b : Bool) (s : State) : (readContacts a b s).camp.proofAt = s.camp.proofAt := by
  unfold readContacts
  split <;> rfl
theorem judgeContacts_proofAt (d : Bool) (x : Lane) (a b : Bool) (s : State) : (judgeContacts d x a b s).camp.proofAt = s.camp.proofAt := by
  unfold judgeContacts
  split
  · cases x <;> rfl
  · rfl

/-- A contact that reads other than commanded is a fault of LOOP's elements (R38, R334). -/
theorem loopElementFault_camp (y : Lane) (c : Bool) (s : State) :
    (loopElementFault y c s).camp = { s.camp with loopFault := s.camp.loopFault || loopMismatch s y c } := by
  unfold loopElementFault
  split
  · rename_i h
    simp only [Bool.not_eq_true] at h
    simp [h]
  · rename_i h
    simp only [Bool.not_eq_true, Bool.not_eq_false] at h
    simp only [State.modCamp, h, Bool.or_true]
    split
    · rfl
    · rw [show (report _ _ _ _).camp = _ from report_kept _ _ _ s .camp (by simp)]
theorem loopElementFault_kept (y : Lane) (c : Bool) (s : State) : KeptBut [.camp, .sess, .sup] s (loopElementFault y c s) := by
  unfold loopElementFault
  split
  · exact KeptBut.refl _ s
  · dsimp only
    split
    · exact (modCamp_kept s _).mono (by simp)
    · exact ((report_kept _ _ _ s).mono (by simp)).trans ((modCamp_kept _ _).mono (by simp))
/-- Both contacts judged: the fault is of either, and Campion keeps the rest. -/
theorem loopElementFaults_camp (a b : Bool) (s : State) : (loopElementFault .b b (loopElementFault .a a s)).camp =
    { s.camp with loopFault := s.camp.loopFault || (loopMismatch s .a a || loopMismatch s .b b) } := by
  have hk := loopElementFault_kept .a a s
  have hb : loopMismatch (loopElementFault .a a s) .b b = loopMismatch s .b b := by
    simp only [loopMismatch, hk.now (by simp), (hk .fixed (by simp)).1, State.lane, loopElementFault_camp]
    rfl
  rw [loopElementFault_camp, hb, loopElementFault_camp, Bool.or_assoc]

/-- What a lane's readbacks bring about where no LOOP test runs (R20, R334, R342). -/
theorem judgeReadback_judges {x : Lane} {a b : Bool} {s u : State} (ht : s.camp.test = none) (hu : u = judgeReadback x a b s) :
    KeptBut [.camp, .jrn, .sess, .sup] s u
      ∧ ((loopMismatch s .a a || loopMismatch s .b b) = true → u.camp.loopFault = true ∧ u.camp.safe = true)
      ∧ ((allSlices.any fun p => elementMismatch s x .a p || elementMismatch s x .b p) = true → u.camp.safe = true)
      ∧ (∀ g : LaneSt → Option (Nat × Bool × Bool), (∀ l : LaneSt, g l.quiet = g l) → g (u.lane x) = g ((judged x a b s).lane x))
      ∧ u.camp.proofAt = (judged x a b s).camp.proofAt
      ∧ ((loopMismatch s .a a || loopMismatch s .b b) = false → u.camp.loopFault = s.camp.loopFault) := by
  have hw := judged_readsBack x a b s
  rw [judgeReadback_eq ((hw.camp (·.test)).trans ht)] at hu
  dsimp only at hu
  simp only [hw.loopMismatch, hw.elementMismatch] at hu
  have hfault : s.camp.loopFault = (judged x a b s).camp.loopFault := (hw.camp (·.loopFault)).symm
  have hk := (hw.1.mono (by simp)).trans (((loopElementFault_kept .a a (judged x a b s)).trans (loopElementFault_kept .b b _)))
  have hcamp := loopElementFaults_camp a b (judged x a b s)
  simp only [hw.loopMismatch, ← hfault] at hcamp
  generalize loopElementFault .b b (loopElementFault .a a (judged x a b s)) = v at hu hk hcamp
  generalize hM : (loopMismatch s .a a || loopMismatch s .b b) = M at hu hcamp ⊢
  generalize hE : (allSlices.any fun p => elementMismatch s x .a p || elementMismatch s x .b p) = E at hu ⊢
  have hlane : ∀ g : LaneSt → Option (Nat × Bool × Bool), g (v.lane x) = g ((judged x a b s).lane x) := fun g => by
    cases x <;> simp only [State.lane, hcamp]
  by_cases hbad : M = true ∨ E = true
  · rw [if_pos hbad] at hu
    subst hu
    refine ⟨(hk.mono (by simp)).trans ((enterSafe_kept _ _).mono (by simp)), fun h => ⟨?_, enterSafe_safe _ _⟩, fun _ => enterSafe_safe _ _,
      fun g hg => (enterSafe_lane _ _ x g hg).trans (hlane g), ?_, fun h => ?_⟩
    · rw [enterSafe_camp _ _ (·.loopFault), hcamp, h]; simp
    · rw [enterSafe_camp _ _ (·.proofAt), hcamp]
    · rw [enterSafe_camp _ _ (·.loopFault), hcamp, h]; simp
  · rw [if_neg hbad] at hu
    subst hu
    refine ⟨hk.mono (by simp), fun h => absurd (.inl h) hbad, fun h => absurd (.inr h) hbad, fun g _ => hlane g, ?_, fun h => ?_⟩
    · rw [hcamp]
    · rw [hcamp, h]; simp

/-- Whose judgement of the opening a lane has, once it has read both contacts 15 ms after LOOP opened (R342). -/
theorem judged_auxRead {x : Lane} {a b : Bool} {s : State} (ha : s.camp.a.loop = false) (hb : s.camp.b.loop = false)
    (hta : s.camp.a.loopAt + 15000 ≤ s.now) (htb : s.camp.b.loopAt + 15000 ≤ s.now) :
    ((judged x a b s).lane x).auxRead = some (s.now, a, b) := by
  have hr := readContacts_readsBack a b s
  unfold judged
  rw [countOpening_lane (·.auxRead), decide_eq_true (And.intro hta htb),
    judgeContacts_auxRead ((hr.camp (·.a.loop)).trans ha) ((hr.camp (·.b.loop)).trans hb), hr.now]
/-- The opening that this lane reads open, and the other has read open, is counted (R342). -/
theorem judged_proofAt {x : Lane} {s : State} (hT : s.fit.optT = true) (ha : s.camp.a.loop = false) (hb : s.camp.b.loop = false)
    (hta : s.camp.a.loopAt + 15000 ≤ s.now) (htb : s.camp.b.loopAt + 15000 ≤ s.now)
    (hother : auxJudged s (otherLane x) = some (false, false)) (hnew : notCounted s = true) :
    (judged x false false s).camp.proofAt = some s.now := by
  have hr := (readContacts_readsBack false false s).trans (judgeContacts_readsBack true x false false _)
  have hx : ((judgeContacts true x false false (readContacts false false s)).lane x).auxRead = some (s.now, false, false) := by
    have h := readContacts_readsBack false false s
    rw [judgeContacts_auxRead ((h.camp (·.a.loop)).trans ha) ((h.camp (·.b.loop)).trans hb), h.now]
  have hy : ((judgeContacts true x false false (readContacts false false s)).lane (otherLane x)).auxRead = (s.lane (otherLane x)).auxRead := by
    rw [judgeContacts_lane_other (by cases x <;> decide), readContacts_lane _ _ _ (·.auxRead)]
  have hproof : (judgeContacts true x false false (readContacts false false s)).camp.proofAt = s.camp.proofAt := by
    rw [judgeContacts_proofAt, readContacts_proofAt]
  unfold judged
  rw [decide_eq_true (And.intro hta htb)]
  generalize judgeContacts true x false false (readContacts false false s) = w at hr hx hy hproof
  have hat : w.camp.a.loopAt = s.camp.a.loopAt ∧ w.camp.b.loopAt = s.camp.b.loopAt := ⟨hr.camp (·.a.loopAt), hr.camp (·.b.loopAt)⟩
  have hjx : auxJudged w x = some (false, false) := by
    unfold auxJudged
    rw [hx, hat.1, hat.2]
    simp only [if_pos (show max s.camp.a.loopAt s.camp.b.loopAt + 15000 ≤ s.now by omega)]
  have hjy : auxJudged w (otherLane x) = some (false, false) := by
    rw [← hother]
    unfold auxJudged
    rw [hy, hat.1, hat.2]
  have hproved : openingProved w = true := by
    unfold openingProved
    rw [hr.optT, hr.camp (·.a.loop), hr.camp (·.b.loop), hT, ha, hb]
    cases x <;> simp_all [otherLane]
  have hcount : notCounted w = true := by
    rw [← hnew]
    unfold notCounted
    rw [hproof, hat.1, hat.2]
  simp [countOpening, hproved, hcount, State.modCamp, hr.now]

/-! ## A lane's faults and LOOP's tests (R23, R243, R289, R342) -/

theorem laneSw_congr {s u : State} (h : u.camp = s.camp) (x : Lane) (n : Nat) (w : Sw) : u.laneSw x n w = s.laneSw x n w := by
  cases x <;> simp only [State.laneSw, State.laneStn, State.lane, h]
theorem sw_modSw_lane (t : LaneStn) (v w : Sw) (f : LaneLamp → LaneLamp) : (t.modSw v f).sw w = if w = v then f (t.sw v) else t.sw w := by
  cases v <;> cases w <;> simp [LaneStn.sw, LaneStn.modSw]
theorem laneSw_modLaneSw (s : State) (x : Lane) (n : Nat) (v w : Sw) (f : LaneLamp → LaneLamp) :
    (s.modLaneSw x n v f).laneSw x n w = if w = v then f (s.laneSw x n v) else s.laneSw x n w := by
  simp only [State.laneSw, State.modLaneSw, laneStn_modLaneStn, and_self, if_true, sw_modSw_lane]
/-- A lane that gives up drives nothing and opens everything (R23). -/
theorem laneGivesUp_opens (x : Lane) (c : String) (s : State) : ((laneGivesUp x c s).lane x).driving = false
    ∧ ((laneGivesUp x c s).lane x).gaveUp = true ∧ ((laneGivesUp x c s).lane x).loop = false ∧ (∀ p, tget 0 ((laneGivesUp x c s).lane x).masks p = 0)
    ∧ (∀ y, y ≠ x → (laneGivesUp x c s).lane y = s.lane y) ∧ (laneGivesUp x c s).camp.safe = s.camp.safe
    ∧ KeptBut [.camp, .jrn] s (laneGivesUp x c s) := by
  have hg : KeptBut [.camp] s (s.modLane x fun l => { l with driving := false, gaveUp := true }) := modLane_kept s x _
  have hr : KeptBut [.jrn] (s.modLane x fun l => { l with driving := false, gaveUp := true })
      (laneFaultRec x c (s.modLane x fun l => { l with driving := false, gaveUp := true })) := record_kept _ _ _ _
  have hlane := fun y => hr.lane (by simp) y
  have hsafe : (laneFaultRec x c (s.modLane x fun l => { l with driving := false, gaveUp := true })).camp.safe = s.camp.safe := by
    rw [show (laneFaultRec _ _ _).camp = _ from hr .camp (by simp)]
    cases x <;> rfl
  simp only [lane_modLane] at hlane
  unfold laneGivesUp
  generalize laneFaultRec x c (s.modLane x fun l => { l with driving := false, gaveUp := true }) = w at hr hlane hsafe
  have hc := openAll_commands x w
  refine ⟨?_, ?_, openAll_loop x w, openAll_masks_zero fun p => ?_, fun y hy => ?_, (hc.camp (·.safe)).trans hsafe,
    ((hg.mono (by simp)).trans (hr.mono (by simp))).trans (hc.1.mono (by simp))⟩
  · rw [hc.lane x (·.driving), hlane]; simp
  · rw [hc.lane x (·.gaveUp), hlane]; simp
  · simp [laneMask, hlane]
  · rw [openAll_lane_other _ hy, hlane, if_neg hy]
/-- A forced LOOP test opens both contacts (R342). -/
theorem loopTestForced_begins (c : String) (s : State) : (loopTestForced c s).camp.test = some (c, s.now) ∧ (loopTestForced c s).camp.forced = true
    ∧ (∀ x, ((loopTestForced c s).lane x).loop = false ∧ ((loopTestForced c s).lane x).holdSince = none) ∧ KeptBut [.camp] s (loopTestForced c s) := by
  unfold loopTestForced loopTestBegin
  generalize hw : ((s.modCamp fun c => { c with forced := true }).modCamp fun k => { k with
    test := some (c, (s.modCamp fun c => { c with forced := true }).now), a := { k.a with holdSince := none }, b := { k.b with holdSince := none } }) = w
  have hcmd := (commandLoop_commands .a false w).trans (commandLoop_commands .b false _)
  have hk : KeptBut [.camp] s w := hw ▸ (modCamp_kept s _).trans (modCamp_kept _ _)
  have ht : w.camp.test = some (c, s.now) ∧ w.camp.forced = true ∧ (w.lane .a).holdSince = none ∧ (w.lane .b).holdSince = none := by
    rw [← hw]
    exact ⟨rfl, rfl, rfl, rfl⟩
  obtain ⟨h1, h2, h3, h4⟩ := ht
  refine ⟨(hcmd.camp (·.test)).trans h1, (hcmd.camp (·.forced)).trans h2, fun x => ?_, hk.trans hcmd.1⟩
  cases x
  · rw [commandLoop_lane_other _ (by decide), commandLoop_loop, commandLoop_holdSince]
    exact ⟨rfl, h3⟩
  · rw [commandLoop_loop, commandLoop_holdSince, commandLoop_lane_other _ (by decide)]
    exact ⟨rfl, h4⟩
theorem circuitOf_modCircuit {c : Campion} {h : HeadObj} {t : TwoCircuit} (ht : circuitOf c h = some t) (f : TwoCircuit → TwoCircuit) (g : HeadObj) :
    circuitOf (modCircuit h f c) g = if g = h then some (f t) else circuitOf c g := by
  cases h <;> simp only [circuitOf, Option.some.injEq, reduceCtorEq] at ht <;> subst ht <;> cases g <;> simp [modCircuit, circuitOf]
theorem modCircuit_lanes (h : HeadObj) (f : TwoCircuit → TwoCircuit) (c : Campion) : (modCircuit h f c).a = c.a ∧ (modCircuit h f c).b = c.b := by
  cases h <;> exact ⟨rfl, rfl⟩

/-- Where the other lane has not told of a mismatch, it is reported and journalled. -/
theorem laneVerdictTold_kept (told : Bool) (n : Nat) (w : Sw) (s : State) : KeptBut [.sess, .sup, .jrn] s
    (if told then s else record 0x0605 [] { hdCh n (swChan w) with flags := 16 } (reportCh n (swChan w) [.w "mismatch"] s)) := by
  split
  · exact KeptBut.refl _ s
  · exact ((reportCh_kept _ _ _ s).mono (by simp)).trans ((record_kept _ _ _ _).mono (by simp))
theorem laneVerdict_mismatch {x : Lane} {n : Nat} {w : Sw} {s u : State}
    (hu : KeptBut [.sess, .sup, .jrn] (s.modLaneSw x n w fun l => { l with mismatch := true, differ := none }) u) :
    u.laneSw x n w = { s.laneSw x n w with mismatch := true, differ := none } ∧ (∀ v, v ≠ w → u.laneSw x n v = s.laneSw x n v)
      ∧ (∀ m, m ≠ n → u.laneStn x m = s.laneStn x m) ∧ (∀ y, y ≠ x → u.lane y = s.lane y) ∧ KeptBut [.camp, .sess, .sup, .jrn] s u := by
  have hcamp := hu .camp (by simp)
  have hlane := fun y => hu.lane (by simp) y
  refine ⟨?_, fun v hv => ?_, fun m hm => ?_, fun y hy => ?_, ((modLaneStn_kept s x n _).mono (by simp)).trans (hu.mono (by simp))⟩
  · rw [laneSw_congr hcamp, laneSw_modLaneSw, if_pos rfl]
  · rw [laneSw_congr hcamp, laneSw_modLaneSw, if_neg hv]
  · unfold State.laneStn
    rw [hlane]
    exact (laneStn_modLaneStn s x x n m _).trans (if_neg fun h => hm h.2)
  · rw [hlane]
    exact lane_modLaneStn_other s hy n _
/-- A train line's circuit that its two readings leave blocked at `now` (R116). -/
def blockCircuit (now : Nat) (t : TwoCircuit) : TwoCircuit :=
  { t with blocked := true, agreeSince := none, active := false, activeSince := if t.active then now else t.activeSince }

/-- The effect of a disagreement told of circuit `h`. -/
def disagreed (h : HeadObj) (s : State) : State :=
  record 0x0503 (pWord (headName h)) { flags := 16 } (dropAuthority (s.modCamp (modCircuit h (blockCircuit s.now))))

/-- A train line whose circuits disagree too long is held inactive (R289). -/
theorem trainLine_disagrees {h : HeadObj} {t : TwoCircuit} {s u : State} (ht : circuitOf s.camp h = some t) {f : TwoCircuit → TwoCircuit} {c : Nat}
    {pl : List Byte} {d : RecHd}
    (hu : u = record c pl d (dropAuthority (s.modCamp (modCircuit h f))))
    (hf : (f t).blocked = true ∧ (f t).active = false ∧ (f t).agreeSince = none ∧ (f t).a = t.a ∧ (f t).b = t.b) :
    (∃ v, circuitOf u.camp h = some v ∧ v.blocked = true ∧ v.active = false ∧ v.agreeSince = none ∧ v.a = t.a ∧ v.b = t.b)
      ∧ (∀ g, g ≠ h → circuitOf u.camp g = circuitOf s.camp g) ∧ u.camp.a = s.camp.a ∧ u.camp.b = s.camp.b
      ∧ (h = .key → (u.ses 0).auth = false) ∧ KeptBut [.camp, .jrn, .sess] s u := by
  subst hu
  have hr := record_kept c pl d (dropAuthority (s.modCamp (modCircuit h f)))
  have hd := dropAuthority_kept (s.modCamp (modCircuit h f))
  have hcamp : (record c pl d (dropAuthority (s.modCamp (modCircuit h f)))).camp = modCircuit h f s.camp :=
    (hr .camp (by simp)).trans ((hd .camp (by simp)).trans rfl)
  rw [hcamp, hr.ses (by simp)]
  refine ⟨⟨f t, by rw [circuitOf_modCircuit ht, if_pos rfl], hf⟩, fun g hg => by rw [circuitOf_modCircuit ht, if_neg hg], (modCircuit_lanes h f _).1,
    (modCircuit_lanes h f _).2, fun hkey => dropAuthority_auth ?_, (((modCamp_kept s _).mono (by simp)).trans (hd.mono (by simp))).trans (hr.mono (by simp))⟩
  subst hkey
  obtain ⟨-, hact, -⟩ := hf
  simp only [circuitOf, Option.some.injEq] at ht
  subst ht
  exact hact

/-! ## The obligation -/

/-- Settles O51: each row's effect by the rules of the lanes above. -/
theorem lanesWatch : Obligations.LanesWatch := by
  refine ⟨fun x own peer s h => does_if rfl h ?_, fun s ha hb hsilent hs => does_if rfl ⟨ha, hb, hsilent⟩ ?_,
    fun x s h hc hd => does_if rfl ⟨h, hc, hd⟩ ?_, fun x a b s h ht => does_if rfl h ?_, fun x n b s h hp hm hd => ?_,
    fun x n s h hd hr => does_if rfl ⟨h, hd, by simp [hr]⟩ ?_, fun x t s h hg => does_if rfl ⟨h, by simp [hg]⟩ ?_,
    fun s hT hp hz hs ht hf => does_if rfl ⟨hT, hp, ?_, ht, by simp [hf]⟩ ?_, fun s hT hp ht hf => does_if rfl ⟨hT, hp, ht, by simp [hf]⟩ ?_,
    fun g t s ht hd hb => ?_, fun s hk ha => ⟨_, rfl, ?_⟩⟩
  · obtain ⟨w, hw, heq⟩ := safetyCycle_eq x own peer s
    rw [heq]
    cases peer with
    | none =>
      obtain ⟨hk, hkey, hlines, hbad⟩ := cycle_common hw (.inl rfl)
      exact ⟨hk, hkey, hlines, hbad, fun _ => ⟨fun y hy => cycle_lane_other hw none hy,
        (cycle_camp hw none (·.safe)).trans (readLines_safe x own s), fun hgood => cycle_computes hw hgood rfl⟩, fun q hq => by simp at hq⟩
    | some q =>
      have hu : ∀ u, u = (let l := [resultOf (computed x w) x, ((computed x w).lane x).record].filter fun o => q.frames == o.frames
          if !l.isEmpty && q ∉ l then enterSafe "LANES" (closeCycle x (some (computed x w).now) (computed x w))
          else closeCycle x (some (computed x w).now) (computed x w)) →
          u = closeCycle x (some (computed x w).now) (computed x w) ∨ u = enterSafe "LANES" (closeCycle x (some (computed x w).now) (computed x w)) := by
        rintro u rfl
        dsimp only
        split
        · exact .inr rfl
        · exact .inl rfl
      obtain ⟨hk, hkey, hlines, hbad⟩ := cycle_common hw (hu _ rfl)
      refine ⟨hk, hkey, hlines, hbad, fun hq => by simp at hq, fun q' hq => ?_⟩
      obtain rfl : q = q' := by simpa using hq
      exact cycle_compares hw q rfl
  · exact ⟨enterSafe_safe _ _, enterSafe_opens _ hs, enterSafe_kept _ _⟩
  · exact ⟨commandLoop_loop x true s, fun y hy => commandLoop_lane_other s hy true, (commandLoop_commands x true s).1, fun hl => commandLoop_close hl⟩
  · obtain ⟨hk, hloop, hfd, hlane, hproof, hkept⟩ := judgeReadback_judges (x := x) (a := a) (b := b) ht rfl
    refine ⟨hk, hloop, hfd, fun hT ha hb hta htb => ⟨(hlane (·.auxRead) fun _ => rfl).trans (judged_auxRead ha hb hta htb), fun ca cb ho hn => ?_⟩, hkept⟩
    subst ca cb
    exact hproof.trans (judged_proofAt hT ha hb hta htb ho hn)
  · refine does_if rfl ⟨h, hp, by simp [hm], hd⟩ (laneVerdict_mismatch (laneVerdictTold_kept _ _ _ _))
  · refine ⟨?_, fun m hm => ?_, fun y hy => lane_modLaneStn_other s hy n _, modLane_kept s x _⟩
    · rw [laneStn_modLaneStn, if_pos ⟨rfl, rfl⟩]
    · rw [laneStn_modLaneStn, if_neg fun h => hm h.2]
  · exact laneGivesUp_opens x _ s
  · simpa [hz, heldFor] using hs
  · exact loopTestForced_begins _ s
  · exact loopTestForced_begins _ s
  · have hx : ∃ u, exec (.trainLineDisagreement g) s = .next (settle s u) ∧ u = disagreed g s := by
      refine ⟨_, ?_, rfl⟩
      rw [show exec (.trainLineDisagreement g) s = execTrainLineDisagreement g s from rfl, execTrainLineDisagreement, ht]
      exact congrArg (fun v => Host.Outcome.next (settle s v)) (if_pos ⟨hd, by simp [hb]⟩)
    obtain ⟨u, hx, hu⟩ := hx
    exact ⟨u, hx, trainLine_disagrees ht hu ⟨rfl, rfl, rfl, rfl, rfl⟩⟩
  · refine ⟨dropAuthority_auth hk, fun k hk0 => ?_, dropAuthority_kept s, dropAuthority_told hk ha⟩
    rw [dropAuthority_eq hk ha]
    exact (sendSession_other 0 k (tilR "auth" [.w "off"]) _ hk0).trans (by simp [hk0])

end Sys2Proof.Machine
end

section
/-! SUPPORT. The head starts while an operation of a session and a RESET UNIT of the supervisor line carry one id: the end of the RESET (R419) goes
to the session. No effect that leaves the other sessions alone explains that reply. -/

namespace Sys2Proof.Machine

open Sys2Proof

/-- A powered unit that has not started, with session 1 open; the session's operation and a RESET UNIT of the supervisor line carry the id 0. -/
def sharedId : State :=
  { head := { powered := true }, sess := [(1, { st := .opn })]
    ops := [{ slot := none, id := 0, port := .session 1, tag := none, acc := 0, verb := .reset, text := [], prog := .proveLoop },
      { slot := none, id := 0, port := .supervisor, tag := none, acc := 0, verb := .reset, text := [], prog := .resetting "unit" none "none" }] }

theorem mem_tset_same {α : Type} (t : Tbl α) (n : Nat) (a : α) : (n, a) ∈ tset t n a := by
  induction t with
  | nil => simp [tset]
  | cons e t ih =>
    obtain ⟨k, v⟩ := e
    unfold tset
    split
    · next h => simp [h]
    · split
      · simp
      · simp [ih]
/-- A session that ends is named still, and free (R111). -/
theorem endSession_names (n : Nat) (s : State) : (n, ({} : Session)) ∈ (endSession n s).sess := by
  unfold endSession
  exact mem_tset_same _ n _
theorem endSession_frees (n : Nat) (s : State) : ((endSession n s).ses n).st = .free := by
  unfold endSession
  exact congrArg Session.st (tget_tset_same {} _ n {})
/-- A state whose held sessions' full buffers end no session, or one that names a session that has ended (R111). -/
theorem endFull_eq_self_or_ended (s : State) : endFull s = s ∨ ∃ e ∈ (endFull s).sess, ((endFull s).ses e.1).st = .free := by
  unfold endFull
  generalize s.sess.filter (fun e => decide (e.2.st = .held ∧ 65536 ≤ outBytes e.2.out)) = full
  obtain rfl | ⟨l, e, rfl⟩ := List.eq_nil_or_concat full
  · exact .inl rfl
  · right
    simp only [forEach, List.concat_eq_append, List.foldl_append, List.foldl_cons, List.foldl_nil]
    exact ⟨(e.1, {}), endSession_names e.1 _, endSession_frees e.1 _⟩
/-- What follows the head's start in `sharedId` leaves the sessions alone, or ends one. -/
theorem settle_sharedId_sess {u : State} (hst : u.st = []) (hslp : u.slp = {}) :
    (settle sharedId u).sess = u.sess ∨ ∃ e ∈ (settle sharedId u).sess, ((settle sharedId u).ses e.1).st = .free := by
  have hcams : searchesEnd (camsFollow sharedId u) = u := by simp [camsFollow, searchesEnd, hst]
  have hgone : releaseGone sharedId u = u := by unfold releaseGone; split <;> rfl
  have hwatch : sleepWatch u = u := by simp [sleepWatch, hslp]
  have hmarks : clearMarks u = u := by simp [clearMarks, hst]
  have hdiff : watchDiff sharedId u = u := rfl
  have hs : (settle sharedId u).sess = (endFull u).sess := by
    unfold settle settleWith
    rw [hcams, hgone, hwatch, hmarks, hdiff]
    exact poolRecord_kept _ .sess (by simp)
  unfold State.ses
  rw [hs]
  exact (endFull_eq_self_or_ended u).imp (congrArg State.sess) id

/-- Refutes O55: an operation is ended by its id alone, so in `sharedId` the reply to the RESET UNIT leaves on session 1. -/
theorem not_powerAndStart : ¬ Obligations.PowerAndStart := by
  rintro ⟨-, -, -, -, hstart, -⟩
  obtain ⟨u, hu, -, -, -, -, hothers, -, -, -, -, hk, -⟩ := hstart 0 _ sharedId rfl rfl rfl
  obtain ⟨w, hw, hopen, hheard⟩ : ∃ w, exec (.headStart 0) sharedId = .next w ∧ (∀ e ∈ w.sess, (w.ses e.1).st ≠ .free) ∧ (w.ses 1).out ≠ [] :=
    ⟨_, rfl, by decide +kernel, by decide +kernel⟩
  rw [hw, Host.Outcome.next.injEq] at hu
  subst hu
  obtain hsess | ⟨e, he, hfree⟩ := settle_sharedId_sess (hk .st (by simp)) (hk .slp (by simp))
  · have hone : (settle sharedId u).ses 1 = sharedId.ses 1 := by
      unfold State.ses
      rw [hsess]
      exact hothers (by simp [sharedId]) 1 (by simp)
    rw [hone] at hheard
    exact hheard rfl
  · exact hopen e he hfree

end Sys2Proof.Machine
end

section
/-! SUPPORT. The enable channels (R19, R228): a slice's elements and the feeds that hang on them. -/

namespace Sys2Proof.Machine

open Sys2Proof

/-! ## Stations changed one by one -/

/-- Steps that each change one station of their list and nothing else: every station of the list is changed by its own step alone. -/
theorem forEach_stations {l : List Nat} (hl : l.Nodup) {b : Nat → State → State} {R : Nat → Station → Station → Prop} {s : State}
    (hb : ∀ n v, KeptBut [.st] s v → KeptBut [.st] v (b n v) ∧ (∀ m, m ≠ n → (b n v).stn m = v.stn m) ∧ R n (v.stn n) ((b n v).stn n)) :
    KeptBut [.st] s (forEach l b s) ∧ (∀ m, m ∉ l → (forEach l b s).stn m = s.stn m) ∧ ∀ m ∈ l, R m (s.stn m) ((forEach l b s).stn m) := by
  induction l generalizing s with
  | nil => exact ⟨KeptBut.refl _ s, fun _ _ => rfl, by simp⟩
  | cons n l ih =>
    obtain ⟨hn, hl⟩ := List.nodup_cons.1 hl
    obtain ⟨hk, ho, hr⟩ := hb n s (KeptBut.refl _ s)
    obtain ⟨hk', ho', hr'⟩ := ih hl (s := b n s) fun m v hv => hb m v (hk.trans hv)
    rw [forEach_cons]
    refine ⟨hk.trans hk', fun m hm => ?_, fun m hm => ?_⟩
    · obtain ⟨hmn, hml⟩ := not_or.1 (mt List.mem_cons.2 hm)
      exact (ho' m hml).trans (ho m hmn)
    · obtain rfl | hml := List.mem_cons.1 hm
      · rw [ho' m hn]; exact hr
      · have h := hr' m hml
        rwa [ho m (by rintro rfl; exact hn hml)] at h

/-! ## What a feed's turn-on reads (R209, R228) -/

/-- What a switch reads of the unit besides its own station. -/
def siteView (s : State) : State := { fit := s.fit, clk := s.clk, head := headRest s.head, cfg := s.cfg, sl := s.sl }
theorem siteView_congr {l : List Part} {s u : State} (hk : KeptBut l s u) (hl : ∀ p ∈ [Part.fixed, .clk, .head, .cfg, .sl], p ∉ l := by decide) :
    siteView u = siteView s := by
  unfold siteView
  rw [(hk .fixed (hl _ (by simp))).1, show u.clk = s.clk from hk .clk (hl _ (by simp)),
    show headRest u.head = headRest s.head from hk .head (hl _ (by simp)), show u.cfg = s.cfg from hk .cfg (hl _ (by simp)),
    show u.sl = s.sl from hk .sl (hl _ (by simp))]
/-- A feed's switch may turn on at a station (R209, R224, R228). -/
def feedReady (s : State) (n : Nat) (x : Switch) : Bool :=
  (s.slc (slotOf n)).powered && !x.tripped && !x.uvOff && !x.uvWait && (decide (fieldKey s n .fd .UNOM ≠ .unset) && elementsClosed s n)
theorem canTurnOn_feed (s : State) (n : Nat) : canTurnOn s n .fd = feedReady s n (s.stn n).fd := rfl

section
variable {s u : State} (h : siteView u = siteView s)
include h
theorem site_congr {α : Type} {f : State → α} (hv : ∀ v, f (siteView v) = f v) : f u = f s := by rw [← hv u, h, hv]
theorem feedReady_congr (n : Nat) (x : Switch) : feedReady u n x = feedReady s n x := site_congr h (f := (feedReady · n x)) fun _ => rfl
theorem elementsClosed_congr (n : Nat) : elementsClosed u n = elementsClosed s n := site_congr h (f := (elementsClosed · n)) fun _ => rfl
end

/-! ## A feed's switch alone -/

/-- Of a station, only its feed's switch has changed, and not what the feed is commanded. -/
def FeedOnly (t t' : Station) : Prop := { t' with fd := t.fd } = t ∧ t'.fd.cmd = t.fd.cmd

theorem FeedOnly.refl (t : Station) : FeedOnly t t := ⟨rfl, rfl⟩
theorem FeedOnly.trans {t t' t'' : Station} (h : FeedOnly t t') (g : FeedOnly t' t'') : FeedOnly t t'' := by
  obtain ⟨h1, h2⟩ := h
  obtain ⟨g1, g2⟩ := g
  refine ⟨?_, g2.trans h2⟩
  rw [← g1] at h1
  exact h1
theorem FeedOnly.modSw (t : Station) {f : Switch → Switch} (hf : ∀ x, (f x).cmd = x.cmd) : FeedOnly t (t.modSw .fd f) := ⟨rfl, hf t.fd⟩

/-- A state brought about from another by what turns the feed of one station on or off: what may turn it on stays as it was. -/
structure FeedStep (n : Nat) (s u : State) : Prop where
  kept : KeptBut [.st] s u
  other : ∀ m, m ≠ n → u.stn m = s.stn m
  feed : FeedOnly (s.stn n) (u.stn n)
  ready : feedReady u n (u.stn n).fd = feedReady s n (s.stn n).fd

theorem FeedStep.refl (n : Nat) (s : State) : FeedStep n s s := ⟨KeptBut.refl _ s, fun _ _ => rfl, FeedOnly.refl _, rfl⟩
theorem FeedStep.trans {n : Nat} {s u v : State} (h : FeedStep n s u) (g : FeedStep n u v) : FeedStep n s v :=
  ⟨h.kept.trans g.kept, fun m hm => (g.other m hm).trans (h.other m hm), h.feed.trans g.feed, g.ready.trans h.ready⟩
theorem FeedStep.modSw (n : Nat) (s : State) {f : Switch → Switch} (hc : ∀ x, (f x).cmd = x.cmd) (hr : ∀ v x, feedReady v n (f x) = feedReady v n x) :
    FeedStep n s (s.modSw n .fd f) := by
  have hn : (s.modSw n .fd f).stn n = (s.stn n).modSw .fd f := by simp
  refine ⟨modSw_kept s n .fd f, fun m hm => by simp [hm], hn ▸ FeedOnly.modSw _ hc, ?_⟩
  rw [feedReady_congr (siteView_congr (modSw_kept s n .fd f)), hn]
  exact hr s _
/-- A feed has no proving grid (R256). -/
theorem noteGrid_fd (n : Nat) (s : State) : FeedStep n s (noteGrid n .fd s) :=
  FeedStep.modSw n s (fun x => by simp) fun v x => by simp
theorem syncHeat_fd (n : Nat) (s : State) : FeedStep n s (syncHeat n .fd s) := FeedStep.modSw n s (fun _ => rfl) fun _ _ => rfl
/-- A fast off leaves the feed off (R213). -/
theorem turnOff_fd (n : Nat) (s : State) : FeedStep n s (turnOff n .fd s) ∧ ((turnOff n .fd s).stn n).fd.on = false := by
  refine ⟨((noteGrid_fd n s).trans (syncHeat_fd n _)).trans (FeedStep.modSw n _ (fun _ => rfl) fun _ _ => rfl), ?_⟩
  unfold turnOff
  rw [stn_modSw, if_pos rfl]
  rfl
/-- A feed that may turn on is on after a turn-on (R210, R228). -/
theorem turnOn_fd (n : Nat) (s : State) : FeedStep n s (turnOn n .fd s) ∧ (feedReady s n (s.stn n).fd = true → ((turnOn n .fd s).stn n).fd.on = true) := by
  unfold turnOn turnOnAt
  dsimp only
  split
  · next h =>
    refine ⟨FeedStep.refl n s, fun _ => ?_⟩
    obtain ⟨hon, -⟩ := Bool.and_eq_true_iff.1 h.1
    exact hon
  · split
    · refine ⟨((noteGrid_fd n s).trans (syncHeat_fd n _)).trans (FeedStep.modSw n _ (fun _ => rfl) fun _ _ => rfl), fun _ => ?_⟩
      rw [stn_modSw, if_pos rfl]
      rfl
    · next hcan =>
      rw [canTurnOn_feed] at hcan
      split
      · exact ⟨FeedStep.modSw n s (fun _ => rfl) fun _ _ => rfl, fun h => absurd h hcan⟩
      · exact ⟨FeedStep.refl n s, fun h => absurd h hcan⟩

/-! ## A slice's elements (R19, R228) -/

/-- A feed as the elements of its station leave it: one whose element opens is off; one that waited for the elements is on where it may turn on. -/
def FollowsElements (s : State) (n : Nat) (t t' : Station) : Prop :=
  (elementsClosed s n = false → t'.fd.on = false)
    ∧ (elementsClosed s n = true → t.fd.cmd = true → t.fd.maskOff = true → feedReady s n t'.fd = true → t'.fd.on = true) ∧ FeedOnly t t'
/-- One station follows the elements of its slice. -/
def followElements (n : Nat) (s : State) : State :=
  let f := (s.stn n).fd
  if !elementsClosed s n then
    if f.on then (turnOff n .fd s).modSw n .fd fun q => { q with maskOff := q.cmd } else s
  else if f.cmd ∧ f.maskOff then turnOn n .fd s
  else s
theorem followElements_follows (n : Nat) (s : State) :
    FeedStep n s (followElements n s) ∧ FollowsElements s n (s.stn n) ((followElements n s).stn n) := by
  unfold followElements
  dsimp only
  split
  · next hc =>
    have hopen : elementsClosed s n = false := by simpa using hc
    split
    · obtain ⟨hstep, hoff⟩ := turnOff_fd n s
      have hall := hstep.trans (FeedStep.modSw n _ (f := fun q => { q with maskOff := q.cmd }) (fun _ => rfl) fun _ _ => rfl)
      refine ⟨hall, fun _ => ?_, fun h => by simp [hopen] at h, hall.feed⟩
      rw [stn_modSw, if_pos rfl]
      exact hoff
    · next hon => exact ⟨FeedStep.refl n s, fun _ => by simpa using hon, fun h => by simp [hopen] at h, FeedOnly.refl _⟩
  · next hc =>
    have hclosed : elementsClosed s n = true := by simpa using hc
    split
    · obtain ⟨hstep, hon⟩ := turnOn_fd n s
      refine ⟨hstep, fun h => by simp [hclosed] at h, fun _ _ _ hr => hon ?_, hstep.feed⟩
      rw [← hstep.ready, feedReady_congr (siteView_congr hstep.kept)]
      exact hr
    · next hw => exact ⟨FeedStep.refl n s, fun h => by simp [hclosed] at h, fun _ hcmd hoff _ => absurd ⟨hcmd, hoff⟩ hw, FeedOnly.refl _⟩

/-- A lane's elements on a slice. -/
def setElem (x : Lane) (mask : Byte) (q : Slice) : Slice :=
  match x with
  | .a => { q with elemA := mask }
  | .b => { q with elemB := mask }
/-- A lane's elements are set, and the feeds of the slice follow; no other station and no other slice is touched (R19, R228). -/
theorem setElements_follows (x : Lane) (p : Nat) (mask : Byte) (s : State) :
    KeptBut [.st] (s.modSlc p (setElem x mask)) (setElements x p mask s) ∧ (∀ m, m ∉ stationsOf p → (setElements x p mask s).stn m = s.stn m)
      ∧ ∀ m ∈ stationsOf p, FollowsElements (setElements x p mask s) m (s.stn m) ((setElements x p mask s).stn m) := by
  have hs : setElements x p mask s = forEach (stationsOf p) followElements (s.modSlc p (setElem x mask)) := by
    unfold setElements
    generalize stationsOf p = l
    cases x <;> rfl
  rw [hs]
  obtain ⟨hk, ho, hr⟩ := forEach_stations (stationsOf_nodup p) (b := followElements)
    (R := FollowsElements (s.modSlc p (setElem x mask))) (s := s.modSlc p (setElem x mask)) fun n v hv => by
      obtain ⟨hstep, hf⟩ := followElements_follows n v
      have hsite := siteView_congr hv
      refine ⟨hstep.kept, hstep.other, ?_⟩
      unfold FollowsElements at hf ⊢
      rwa [elementsClosed_congr hsite, feedReady_congr hsite] at hf
  refine ⟨hk, ho, fun m hm => ?_⟩
  have h := hr m hm
  have hsite := siteView_congr hk
  unfold FollowsElements at h ⊢
  rw [elementsClosed_congr hsite, feedReady_congr hsite]
  exact h
theorem setElements_kept (x : Lane) (p : Nat) (mask : Byte) (s : State) : KeptBut [.sl, .st] s (setElements x p mask s) :=
  ((modSlc_kept s p _).mono (by simp)).trans ((setElements_follows x p mask s).1.mono (by simp))
theorem setElements_slc (x : Lane) (p k : Nat) (mask : Byte) (s : State) :
    (setElements x p mask s).slc k = if k = p then setElem x mask (s.slc p) else s.slc k :=
  ((setElements_follows x p mask s).1.slc (by simp) k).trans (slc_modSlc s p k _)

end Sys2Proof.Machine
end

section
/-! SUPPORT. A leaf that goes to FAULT: what its stop touches beside its own station, and that it stays in FAULT. -/

namespace Sys2Proof.Machine

open Sys2Proof

/-! ## A leaf's state, through what its stop does -/

/-- The turn an axis has been told to make (R175). -/
def turnOf (a : Axis) : Option Bool := a.motion.bind (·.turn)
/-- What a leaf's stop does not change once the leaf is in FAULT: its state, its cause, the turn its motion is to make, and its inputs. -/
def leafPart (t : Station) : Leaf × String × Option Bool × Tbl Input := (t.leaf, t.cause, turnOf t.axis, t.inputs)

/-- A change by Speedwell and the door cycle of a leaf's station and of its step's alone, that leaves the leaf's state as it is. -/
structure LeafStays (n : Nat) (s u : State) : Prop where
  drives : Drives s u
  others : otherButStep n s u
  part : ∀ m, leafPart (u.stn m) = leafPart (s.stn m)

theorem Drives.site {s u : State} (h : Drives s u) : siteView u = siteView s := siteView_congr h.kept
theorem stepStation_congr {s u : State} (h : siteView u = siteView s) (n : Nat) : stepStation u n = stepStation s n :=
  site_congr h (f := (stepStation · n)) fun _ => rfl
theorem isLeaf_congr {s u : State} (h : siteView u = siteView s) (n : Nat) : isLeaf u n = isLeaf s n := site_congr h (f := (isLeaf · n)) fun _ => rfl

/-! ## The turn of a motion, through the train's computation -/

theorem nextIvl_turn {a b : Nat} {neg : Bool} {k : Nat} {m m' : Motion} {i : Ivl} (h : nextIvl a b neg k m = some (i, m')) : m'.turn = m.turn := by
  induction k generalizing m with
  | zero => simp [nextIvl] at h
  | succ k ih =>
    unfold nextIvl at h
    split at h
    · simp at h
    split at h
    · simp at h
    split at h
    · exact (ih h).trans rfl
    · simp only [Option.some.injEq, Prod.mk.injEq] at h
      rw [← h.2]
theorem fillAx_turn (a b k c : Nat) (x : Axis) : turnOf (fillAx a b k c x).2 = turnOf x := by
  induction k generalizing c x with
  | zero => rfl
  | succ k ih =>
    unfold fillAx
    split
    · rfl
    split
    · rfl
    next m hm =>
    split
    · rfl
    next i m' hi =>
    rw [ih]
    simp [turnOf, hm, nextIvl_turn hi]
theorem turnOf_map {a : Axis} {f : Motion → Motion} (hf : ∀ m, (f m).turn = m.turn) : (a.motion.map f).bind (·.turn) = turnOf a := by
  unfold turnOf
  cases a.motion <;> simp [hf]

namespace LeafStays

variable {n m : Nat} {s u v : State}

theorem refl (n : Nat) (s : State) : LeafStays n s s := ⟨Drives.refl s, fun _ _ _ => rfl, fun _ => rfl⟩
theorem trans (h : LeafStays n s u) (g : LeafStays n u v) : LeafStays n s v := by
  refine ⟨h.drives.trans g.drives, fun m hm hk => ?_, fun m => (g.part m).trans (h.part m)⟩
  exact (g.others m hm (by rwa [stepStation_congr h.drives.site])).trans (h.others m hm hk)
theorem books (h : LeafStays n s u) (g : Books u v) : LeafStays n s v :=
  h.trans ⟨(Drives.refl u).books g, fun m _ _ => g.kept.stn (by decide) m, fun m => by rw [g.kept.stn (by decide) m]⟩
theorem ite {c : Prop} {_ : Decidable c} (hu : LeafStays n s u) (hv : LeafStays n s v) : LeafStays n s (if c then u else v) := by split <;> assumption

/-- The station of the leaf, or the one that drives its step. -/
def At (n m : Nat) (s : State) : Prop := m = n ∨ stepStation s n = some m
theorem at_step {s u : State} (h : LeafStays n s u) (hm : At n m u) : At n m s := hm.imp id fun h' => by rwa [stepStation_congr h.drives.site] at h'
theorem at_of (h : LeafStays n s u) (hm : At n m s) : At n m u := hm.imp id fun h' => by rwa [stepStation_congr h.drives.site]

theorem modStn {f : Station → Station} (h : LeafStays n s u) (hm : At n m s) (hf : leafPart (f (u.stn m)) = leafPart (u.stn m)) :
    LeafStays n s (u.modStn m f) := by
  refine h.trans ⟨(Drives.refl u).modStn, fun k hk hstep => ?_, fun k => ?_⟩
  · rw [stn_modStn, if_neg]
    rintro rfl
    exact (h.at_of hm).elim hk hstep
  · rw [stn_modStn]
    split
    · next hk => rw [hk]; exact hf
    · rfl
theorem modAx {f : Axis → Axis} (h : LeafStays n s u) (hm : At n m s) (hf : turnOf (f (u.ax m)) = turnOf (u.ax m)) : LeafStays n s (u.modAx m f) :=
  h.modStn hm (congrArg (fun x => ((u.stn m).leaf, (u.stn m).cause, x, (u.stn m).inputs)) hf)
theorem own {f : Station → Station} (h : LeafStays n s u) (hf : ∀ t, leafPart (f t) = leafPart t := by intro; rfl) : LeafStays n s (u.modStn n f) :=
  h.modStn (.inl rfl) (hf _)
theorem modBuf {f : FrameBuf → FrameBuf} (h : LeafStays n s u) (hm : At n m s) : LeafStays n s (u.modBuf m f) := h.modStn hm rfl

/-! ## The step train -/

theorem refill (h : LeafStays n s u) (hm : At n m s) : LeafStays n s (refill m u) :=
  (h.modAx hm (fillAx_turn _ _ 64 0 (u.ax m))).books (Books.refl _).worked
theorem loadNext (h : LeafStays n s u) (hm : At n m s) : LeafStays n s (loadNext m u) := by
  unfold Machine.loadNext
  dsimp only
  split
  · exact h
  split
  · exact h
  split
  · exact h
  · have hd : LeafStays n s (if overloaded u = true then u.draw else (0, u)).2 := by
      split
      · exact h.books (Books.refl u).draw
      · exact h
    refine ((hd.modAx hm ?_).books (Books.refl _).releaseStarted).refill hm
    exact turnOf_map fun _ => rfl
theorem setCourse {l : List Seg} {f : Motion → Motion} (h : LeafStays n s u) (hm : At n m s) (hf : ∀ x, (f x).turn = x.turn) :
    LeafStays n s (setCourse m l f u) := by
  have h1 : LeafStays n s (u.modAx m fun a => { a with
      ahead := [], moving := true
      motion := a.motion.map fun x => f { x with segs := l, k := 0, t0 := baseTick u m * subTick, lastEdge := baseTick u m } }) :=
    h.modAx hm (turnOf_map fun x => hf _)
  exact ((ite (h1.books (Books.refl _).leafSegs) h1).refill hm).loadNext hm
theorem rampStop {d : Nat} {e : Ending} (h : LeafStays n s u) (hm : At n m s) : LeafStays n s (rampStop m d e u) := by
  unfold Machine.rampStop
  dsimp only
  split
  · exact h
  next x hx =>
  have ht : ∀ y : Motion, y.turn = x.turn → some y >>= (·.turn) = turnOf (u.ax m) := fun y hy => by simp [turnOf, hx, hy]
  exact ite (h.modAx hm (ht _ rfl)) (ite (h.modAx hm (ht _ rfl)) (h.setCourse hm fun _ => rfl))
theorem hardStop {e : Ending} (h : LeafStays n s u) : LeafStays n s (hardStop n e u) :=
  h.modAx (.inl rfl) (turnOf_map (f := fun m => { m with segs := [], phase := .stopping, ending := some e }) fun _ => rfl)
theorem endWait (h : LeafStays n s u) : LeafStays n s (endWait n u) := h.own.books (Books.refl _).markOps
theorem leaveWait (h : LeafStays n s u) : LeafStays n s (leaveWait n u) := (ite (h.books (Books.refl u).dropCharge) h).endWait

/-! ## The leaf's commands to its switches -/

theorem ask {w : Sw} {c : LoadCmd} (h : LeafStays n s u) (hm : At n m s) : LeafStays n s (ask m w c u) := h.modBuf hm
theorem askOn {w : Sw} (h : LeafStays n s u) (hm : At n m s) : LeafStays n s (askOn m w u) := (h.ask hm).modBuf hm
theorem askOut {a b : Bool} (h : LeafStays n s u) (hm : At n m s) : LeafStays n s (askOut m a b u) := h.modBuf hm
theorem unlockOut {b : Bool} (h : LeafStays n s u) : LeafStays n s (unlockOut n b u) := h.askOut (.inl rfl)
theorem leafLamp (h : LeafStays n s u) : LeafStays n s (leafLamp n u) := by
  unfold Machine.leafLamp
  split
  · exact h
  · exact h.ask (.inl rfl)
theorem doorFeed {b : Bool} (h : LeafStays n s u) : LeafStays n s (doorFeed n b u) := by
  have hfeed : ∀ {k : Nat} {c : Prop} {_ : Decidable c} {x w}, LeafStays n s w → At n k s →
      LeafStays n s (if c then Machine.askOn k .fd w else Machine.ask k .fd x w) := fun hw hk => ite (hw.askOn hk) (hw.ask hk)
  unfold Machine.doorFeed
  dsimp only
  split
  · exact hfeed h (.inl rfl)
  next k hk =>
  exact ite (hfeed (hfeed h (.inl rfl)) (at_step (hfeed h (.inl rfl)) (.inr hk))) (hfeed h (.inl rfl))
theorem clearTimers (h : LeafStays n s u) : LeafStays n s (clearTimers n u) := h.own.books (Books.refl _).sysDrop.sysDrop.sysDrop
theorem disarm (h : LeafStays n s u) : LeafStays n s (disarm n u) := h.own.books (Books.refl _).sysDrop.sysDrop

/-! ## FAULT (R175) -/

theorem doorFailed {e : Err} {c : String} (h : LeafStays n s u) : LeafStays n s (doorFailed n e c u) := by
  unfold Machine.doorFailed
  split
  · exact h
  · refine h.own.books ((Books.modOp (Books.refl _).sayOp fun o => ?_).finishDoor)
    split
    · exact .inl (by simp [NotSaving])
    · exact .inr rfl
theorem learnFails {e : Err} (h : LeafStays n s u) : LeafStays n s (learnFails n e u) := by
  unfold Machine.learnFails
  split
  · exact h
  · exact h.own.books (Books.refl _).failOp
theorem endSearch (h : LeafStays n s u) : LeafStays n s (endSearch n u) := by
  have h0 : LeafStays n s (Machine.dropCharge n (u.modStn n fun t => { t with stepRefs := false })) := h.own.books (Books.refl _).dropCharge
  unfold Machine.endSearch
  dsimp only
  split
  · exact h
  split
  · exact h0
  next k hk => exact ite (h0.rampStop (h0.at_step (.inr hk))) h0
/-- A leaf takes FAULT: what follows its new state leaves it there. -/
theorem setLeaf (n : Nat) (x : Leaf) (s : State) :
    LeafStays n (s.modStn n fun t => { t with cycle := cycleTime (s.stn n) s.now, leaf := x, leafSince := s.now, closedMade := false }) (setLeaf n x s) := by
  have h1 := refl n (s.modStn n fun t => { t with cycle := cycleTime (s.stn n) s.now, leaf := x, leafSince := s.now, closedMade := false })
  unfold Machine.setLeaf
  dsimp only
  refine (ite (own ?_) ?_).leafLamp.doorFeed
  all_goals
    refine ite (own ((disarm ?_).clearTimers.books (Books.refl _).sysDrop)) (books ?_ (Books.refl _).sysControl)
    all_goals exact ite (own ((ite h1.own h1).books (Books.refl _).record)) (ite h1.own h1)

/-! ## Standstill (R143, R175) -/

theorem turn (h : LeafStays n s u) : turnOf (u.ax n) = turnOf (s.ax n) := congrArg (·.2.2.1) (h.part n)
theorem inputs (h : LeafStays n s u) (m : Nat) : (u.stn m).inputs = (s.stn m).inputs := congrArg (·.2.2.2) (h.part m)
theorem leaf (h : LeafStays n s u) : (u.stn n).leaf = (s.stn n).leaf := congrArg Prod.fst (h.part n)
theorem cause (h : LeafStays n s u) : (u.stn n).cause = (s.stn n).cause := congrArg (·.2.1) (h.part n)

theorem motionReply {r : Reply} (h : LeafStays n s u) : LeafStays n s (motionReply n r u) := by
  unfold Machine.motionReply
  split
  · exact h
  split
  · exact h
  · refine (h.modAx (.inl rfl) ?_).books (Books.refl _).finOp
    exact turnOf_map fun _ => rfl
/-- An axis that is to make no turn comes to standstill. -/
theorem axisStops (h : LeafStays n s u) (ht : turnOf (s.ax n) = none) : LeafStays n s (axisStops n u) := by
  have hw : LeafStays n s (Machine.dropCharge n (Machine.endWait n (u.modAx n fun a => { a with moving := false, ahead := [] }))) :=
    (h.modAx (.inl rfl) rfl).endWait.books (Books.refl _).dropCharge
  have hset : ∀ {w : State} {f : Axis → Axis}, LeafStays n s w → turnOf (f (w.ax n)) = none → LeafStays n s (w.modAx n f) := fun hw hf =>
    hw.modAx (.inl rfl) (hf.trans (hw.turn.trans ht).symm)
  have hend : ∀ {w}, LeafStays n s w → LeafStays n s (Machine.resumeDone n (Machine.stopDone n (if isLeaf w n then Machine.leafSegs n [] w else w))) :=
    fun hw => hw.books (Books.ite (Books.refl _).leafSegs (Books.refl _)).stopDone.resumeDone
  have hm : ∀ m, (u.ax n).motion = some m → m.turn = none := fun m hm => by
    have := h.turn.trans ht
    simpa [turnOf, hm] using this
  unfold Machine.axisStops
  dsimp only
  refine hend ?_
  split
  · exact hw
  next m hmot =>
  split
  · split
    · exact (hset (hw.books (Books.refl _).heldRem) (by exact hm m hmot)).books (Books.refl _).cycleSays.markOps
    · exact (hset (hw.books (Books.refl _).heldRem) (by exact hm m hmot)).books (Books.refl _).motionSays.markOps
  · exact hset hw.motionReply rfl
  · exact hset hw rfl
/-- A leaf in FAULT that is to make no turn comes to standstill, and stays. -/
theorem standstill (h : LeafStays n s u) (ht : turnOf (s.ax n) = none) (hl : (s.stn n).leaf ≠ .reversing) : LeafStays n s (standstill n u) := by
  have hturn : (u.ax n).motion.bind (·.turn) = none := h.turn.trans ht
  have hs := h.axisStops ht
  have hh : ∀ {c : Prop} [Decidable c], LeafStays n s (if c then Machine.leafHeld n (Machine.axisStops n u) else Machine.axisStops n u) :=
    ite (hs.books (Books.refl _).leafHeld) hs
  unfold Machine.standstill
  dsimp only
  rw [hturn]
  split
  · unfold doorStands
    dsimp only
    rw [if_pos (.inl (by rw [hh.leaf]; exact hl))]
    exact hh
  · exact hs
theorem settleAxis (h : LeafStays n s u) (ht : turnOf (s.ax n) = none) (hl : (s.stn n).leaf ≠ .reversing) : LeafStays n s (settleAxis n u) :=
  ite (h.standstill ht hl) h

end LeafStays

/-! ## FAULT (R175, R190) -/

/-- A leaf that has gone to FAULT with a cause, by a change of its station and of its step's alone. -/
structure Faulted (n : Nat) (cause : String) (s u : State) : Prop where
  drives : Drives s u
  others : otherButStep n s u
  leaf : (u.stn n).leaf = .fault
  cause : (u.stn n).cause = cause
  turn : turnOf (u.ax n) = turnOf (s.ax n)
  inputs : ∀ m, (u.stn m).inputs = (s.stn m).inputs

theorem Faulted.stays {n : Nat} {c : String} {s u v : State} (h : Faulted n c s u) (g : LeafStays n u v) : Faulted n c s v where
  drives := h.drives.trans g.drives
  others m hm hk := (g.others m hm (by rwa [stepStation_congr h.drives.site])).trans (h.others m hm hk)
  leaf := g.leaf.trans h.leaf
  cause := g.cause.trans h.cause
  turn := g.turn.trans h.turn
  inputs m := (g.inputs m).trans (h.inputs m)
/-- A leaf that is not ISOLATED goes to FAULT. -/
theorem faultLeaf_faulted {n : Nat} (cause : String) (e : Err) {s : State} (hs : (s.stn n).leaf ≠ .isolated) : Faulted n cause s (faultLeaf n cause e s) := by
  unfold faultLeaf
  rw [if_neg hs]
  dsimp only
  generalize hv : s.modStn n (fun t => { t with cause, kept := none, atZone := false, reopened := false }) = v
  have hvn : v.stn n = { s.stn n with cause, kept := none, atZone := false, reopened := false } := by rw [← hv]; simp
  have hvo : ∀ m, m ≠ n → v.stn m = s.stn m := fun m hm => by rw [← hv]; simp [hm]
  have hw : LeafStays n v (learnFails n e (unlockOut n false (if (v.stn n).wait.isSome then resumeFails n e (leaveWait n v) else v))) :=
    (LeafStays.ite ((LeafStays.refl n v).leaveWait.books (Books.refl _).resumeFails) (LeafStays.refl n v)).unlockOut.learnFails
  generalize learnFails n e _ = w at hw ⊢
  refine Faulted.stays ?_ (LeafStays.setLeaf n .fault w).endSearch.doorFailed
  have hd : Drives s v := hv ▸ (Drives.refl s).modStn
  refine ⟨(hd.trans hw.drives).modStn, fun m hm hk => ?_, by simp, ?_, ?_, fun m => ?_⟩
  · rw [stn_modStn, if_neg hm]
    exact (hw.others m hm (by rwa [stepStation_congr hd.site])).trans (hvo m hm)
  · simp [hw.cause, hvn]
  · have ht := hw.turn
    unfold State.ax at ht ⊢
    rw [hvn] at ht
    simpa using ht
  · have hm : (v.stn m).inputs = (s.stn m).inputs := by
      by_cases h : m = n
      · rw [h, hvn]
      · rw [hvo m h]
    rw [stn_modStn]
    split
    · next h => subst h; exact (hw.inputs m).trans hm
    · exact (hw.inputs m).trans hm

end Sys2Proof.Machine
end

section
/-! SUPPORT. The backstop in the lanes (R190, R191): what a lane reads of a leaf, a reading that trips nothing, and a trip. -/

namespace Sys2Proof.Machine

open Sys2Proof

/-! ## What a lane reads of the doors (R168, R280) -/

/-- Two states in which lane x reads the doors alike: its slices, which lanes run, and every input of the lanes and of the field side. -/
structure SameReadings (x : Lane) (s u : State) : Prop where
  site : siteView u = siteView s
  runs : ∀ y, laneRuns u y = laneRuns s y
  sees : ∀ p, laneSees u x p = laneSees s x p
  lanes : ∀ y m, (u.laneStn y m).inputs = (s.laneStn y m).inputs
  doors : ∀ m, (u.stn m).inputs = (s.stn m).inputs

namespace SameReadings

variable {x y : Lane} {s u v : State}

theorem refl (x : Lane) (s : State) : SameReadings x s s := ⟨rfl, fun _ => rfl, fun _ => rfl, fun _ _ => rfl, fun _ => rfl⟩
theorem trans (h : SameReadings x s u) (g : SameReadings x u v) : SameReadings x s v :=
  ⟨g.site.trans h.site, fun y => (g.runs y).trans (h.runs y), fun p => (g.sees p).trans (h.sees p), fun y m => (g.lanes y m).trans (h.lanes y m),
    fun m => (g.doors m).trans (h.doors m)⟩
theorem modLaneStn (y : Lane) (n : Nat) {f : LaneStn → LaneStn} (s : State) (hf : (f (s.laneStn y n)).inputs = (s.laneStn y n).inputs) :
    SameReadings x s (s.modLaneStn y n f) where
  site := siteView_congr (modLaneStn_kept s y n f)
  runs z := by cases y <;> cases z <;> rfl
  sees p := by cases x <;> cases y <;> rfl
  lanes z m := by
    rw [laneStn_modLaneStn]
    split
    · next h => rw [h.1, h.2]; exact hf
    · rfl
  doors m := congrArg Station.inputs ((modLaneStn_kept s y n f).stn (by decide) m)
/-- What a lane commands is not read. -/
theorem commands (h : CommandsOnly s u) : SameReadings x s u where
  site := siteView_congr h.1
  runs y := laneRuns_congr h.view y
  sees p := laneSees_congr h.view x p
  lanes y m := congrArg LaneStn.inputs (laneStn_congr h.view y m)
  doors m := congrArg Station.inputs (h.1.stn (by decide) m)
theorem drives (h : Drives s u) (hi : ∀ m, (u.stn m).inputs = (s.stn m).inputs) : SameReadings x s u where
  site := h.site
  runs y := by
    have hp : u.head.powered = s.head.powered := by have h := congrArg Head.powered (h.kept .head (by decide)); exact h
    rw [laneRuns, laneRuns, hp, h.kept.lane (by decide)]
  sees p := by
    simp only [laneSees, State.laneSlc, h.kept.lane (show Part.camp ∉ driveParts by decide), h.kept.now (show Part.clk ∉ driveParts by decide)]
  lanes y m := by simp only [State.laneStn, h.kept.lane (show Part.camp ∉ driveParts by decide)]
  doors := hi

theorem inputDoubtful (h : SameReadings x s u) (n k : Nat) : inputDoubtful u n k = inputDoubtful s n k := by
  simp only [Machine.inputDoubtful, LaneStn.inp, Station.inp, h.lanes, h.doors, h.runs]
theorem swInput (h : SameReadings x s u) (n : Nat) (k : Key) : swInput u n k = swInput s n k :=
  site_congr h.site (f := (Machine.swInput · n k)) fun _ => rfl
theorem doorKnown (h : SameReadings x s u) (n : Nat) (k : Key) : doorKnown u x n k = doorKnown s x n k := by
  simp only [Machine.doorKnown, h.swInput, h.sees, h.inputDoubtful]
theorem laneOn (h : SameReadings x s u) (n : Nat) (k : Key) : laneOn u x n k = laneOn s x n k := by
  simp only [Machine.laneOn, h.doorKnown, h.swInput, LaneStn.inp, h.lanes]
theorem laneLocked (h : SameReadings x s u) (n : Nat) : laneLocked u x n = laneLocked s x n := by simp only [Machine.laneLocked, h.laneOn]
theorem isLeaf (h : SameReadings x s u) (n : Nat) : isLeaf u n = isLeaf s n := isLeaf_congr h.site n
theorem now (h : SameReadings x s u) : u.now = s.now := site_congr h.site (f := State.now) fun _ => rfl
theorem drivenClosing (h : SameReadings x s u) {n : Nat} (ht : u.laneStn x n = s.laneStn x n) (c : Bool) :
    drivenClosing c u x n = drivenClosing c s x n := by
  simp only [Machine.drivenClosing, ht, h.isLeaf, h.laneLocked]
theorem edgeAbove (h : SameReadings x s u) {n : Nat} (ht : u.laneStn x n = s.laneStn x n) (c : Bool) : edgeAbove c u x n = edgeAbove c s x n := by
  have hk : stCounts u n .EDGEMUTE = stCounts s n .EDGEMUTE := site_congr h.site (f := (stCounts · n .EDGEMUTE)) fun _ => rfl
  simp only [Machine.edgeAbove, ht, h.drivenClosing ht, h.laneOn, hk]
theorem backstopLimit (h : SameReadings x s u) {n : Nat} (ht : u.laneStn x n = s.laneStn x n) : backstopLimit u x n = backstopLimit s x n := by
  have hc : commissioned u n = commissioned s n := site_congr h.site (f := (commissioned · n)) fun _ => rfl
  have hk : ∀ k, u.stK n k = s.stK n k := fun k => site_congr h.site (f := (State.stK · n k)) fun _ => rfl
  have hp : ∀ l c, profPoint u n l c = profPoint s n l c := fun l c => site_congr h.site (f := (profPoint · n l c)) fun _ => rfl
  simp only [Machine.backstopLimit, hc, ht, hk, hp]

end SameReadings

/-! ## A lane's reading of a closing leaf (R190) -/

theorem modLaneStn_modLaneStn (s : State) (x : Lane) (n : Nat) (f g : LaneStn → LaneStn) :
    (s.modLaneStn x n f).modLaneStn x n g = s.modLaneStn x n (g ∘ f) := by
  cases x <;> simp [State.modLaneStn, State.modLane, tmod_tmod]
/-- A lane's copy of a station after its reading of a current: what it takes the leaf for, and since when its limits are passed. -/
def readBy (closes : Bool) (x : Lane) (n : Nat) (current : Int) (s : State) (t : LaneStn) : LaneStn :=
  { t with
    closing := drivenClosing closes s x n
    overSince := sinceOf t.overSince (drivenClosing closes s x n && decide (backstopLimit s x n < current)) s.now
    edgeSince := sinceOf t.edgeSince (edgeAbove closes s x n) s.now }
section
variable {closes : Bool} {x : Lane} {n : Nat} {s : State} {f : LaneStn → LaneStn} {o e : Option Nat}
  (hf : f (s.laneStn x n) = { s.laneStn x n with closing := drivenClosing closes s x n, overSince := o, edgeSince := e })
include hf

theorem laneStn_taken : (s.modLaneStn x n f).laneStn x n = { s.laneStn x n with closing := drivenClosing closes s x n, overSince := o, edgeSince := e } := by
  rw [laneStn_modLaneStn, if_pos ⟨rfl, rfl⟩, hf]
theorem readings_taken : SameReadings x s (s.modLaneStn x n f) := SameReadings.modLaneStn x n s (by rw [hf])
/-- What a lane takes its leaf for, it takes it for again. -/
theorem drivenClosing_taken : drivenClosing closes (s.modLaneStn x n f) x n = drivenClosing closes s x n := by
  have hr := readings_taken hf
  have habsorb : ∀ a b c d r : Bool, (a && b && c && (a && b && c && (d || r) || r)) = (a && b && c && (d || r)) := by decide
  rw [drivenClosing, hr.isLeaf, hr.laneLocked, laneStn_taken hf]
  unfold drivenClosing
  exact habsorb _ _ _ _ _
theorem edgeAbove_taken : edgeAbove closes (s.modLaneStn x n f) x n = edgeAbove closes s x n := by
  have hr := readings_taken hf
  have hk : stCounts (s.modLaneStn x n f) n .EDGEMUTE = stCounts s n .EDGEMUTE := site_congr hr.site (f := (stCounts · n .EDGEMUTE)) fun _ => rfl
  unfold edgeAbove
  rw [drivenClosing_taken hf, hr.laneOn, hk, laneStn_taken hf]
end

/-- A lane's reading of a current, before it trips or not (R190). -/
theorem readings_eq (closes : Bool) (x : Lane) (n : Nat) (current : Int) (s : State) :
    edgeWatch closes x n ((watchClosing closes x n s).modLaneStn x n fun t => { t with
        overSince := sinceOf t.overSince (((watchClosing closes x n s).laneStn x n).closing && decide (backstopLimit s x n < current)) (watchClosing closes x n s).now })
      = s.modLaneStn x n (readBy closes x n current s) := by
  have hc : ((watchClosing closes x n s).laneStn x n).closing = drivenClosing closes s x n := by
    unfold watchClosing
    rw [laneStn_modLaneStn, if_pos ⟨rfl, rfl⟩]
  have hn : (watchClosing closes x n s).now = s.now := (modLaneStn_kept s x n _).now (by decide)
  rw [hc, hn]
  unfold watchClosing edgeWatch
  simp only [modLaneStn_modLaneStn]
  have hf : ((fun t : LaneStn => { t with overSince := sinceOf t.overSince (drivenClosing closes s x n && decide (backstopLimit s x n < current)) s.now })
      ∘ fun t : LaneStn => { t with closing := drivenClosing closes s x n }) (s.laneStn x n) = { s.laneStn x n with
        closing := drivenClosing closes s x n
        overSince := sinceOf (s.laneStn x n).overSince (drivenClosing closes s x n && decide (backstopLimit s x n < current)) s.now
        edgeSince := (s.laneStn x n).edgeSince } := rfl
  rw [edgeAbove_taken hf, (modLaneStn_kept s x n _).now (by decide)]
  rfl
/-- A lane reads a current: the backstop trips in it, or what it has read stands (R190). -/
theorem laneBackstop_eq (closes : Bool) (x : Lane) (n : Nat) (current : Int) (s : State) :
    laneBackstop closes x n current s =
      if (!(s.laneStn x n).backstop
          && (heldFor (readBy closes x n current s (s.laneStn x n)).overSince s.now (s.keyN (.st n) .PERSISTMAX + 20000)
            || heldFor (readBy closes x n current s (s.laneStn x n)).edgeSince s.now 20000)) = true then
        backstopTrips x n current (backstopLimit s x n) (s.modLaneStn x n (readBy closes x n current s))
      else s.modLaneStn x n (readBy closes x n current s) := by
  have hs : SameReadings x s (s.modLaneStn x n (readBy closes x n current s)) := SameReadings.modLaneStn x n s rfl
  have hk : (s.modLaneStn x n (readBy closes x n current s)).keyN (.st n) .PERSISTMAX = s.keyN (.st n) .PERSISTMAX :=
    site_congr hs.site (f := (State.keyN · (.st n) .PERSISTMAX)) fun _ => rfl
  have ht : (s.modLaneStn x n (readBy closes x n current s)).laneStn x n = readBy closes x n current s (s.laneStn x n) := by
    rw [laneStn_modLaneStn, if_pos ⟨rfl, rfl⟩]
  unfold laneBackstop
  dsimp only
  rw [readings_eq, hs.now, hk, ht]
  rfl

/-! ## A change in one lane -/

/-- What the two lanes share, and the lane that is not y. -/
def Campion.without (y : Lane) (c : Campion) : Campion :=
  match y with
  | .a => { c with a := {} }
  | .b => { c with b := {} }
/-- The unit as a lane other than y sees it, the doors' inputs apart. -/
def sightOf (y : Lane) (s : State) : State :=
  { fit := s.fit, clk := s.clk, head := headRest s.head, cfg := s.cfg, st := s.st, sl := s.sl, camp := s.camp.without y }
/-- Lane y alone has changed, and no reading of the doors with it. -/
structure LaneOnly (y : Lane) (s u : State) : Prop where
  kept : KeptBut [.camp] s u
  rest : u.camp.without y = s.camp.without y
  reads : ∀ x, SameReadings x s u

namespace LaneOnly

variable {x y : Lane} {s u v : State}

theorem refl (y : Lane) (s : State) : LaneOnly y s s := ⟨KeptBut.refl _ s, rfl, fun x => SameReadings.refl x s⟩
theorem trans (h : LaneOnly y s u) (g : LaneOnly y u v) : LaneOnly y s v :=
  ⟨h.kept.trans g.kept, g.rest.trans h.rest, fun x => (h.reads x).trans (g.reads x)⟩
theorem modLaneStn (y : Lane) (n : Nat) {f : LaneStn → LaneStn} (s : State) (hf : (f (s.laneStn y n)).inputs = (s.laneStn y n).inputs) :
    LaneOnly y s (s.modLaneStn y n f) :=
  ⟨modLaneStn_kept s y n f, by cases y <;> rfl, fun x => SameReadings.modLaneStn y n s hf⟩
theorem setMasks (y : Lane) (s : State) : LaneOnly y s (setMasks y s) :=
  ⟨(setMasks_commands y s).1, by cases y <;> rfl, fun _ => SameReadings.commands (setMasks_commands y s)⟩
theorem lane (h : LaneOnly y s u) (hx : x ≠ y) : u.lane x = s.lane x := by
  have hr := h.rest
  cases x <;> cases y <;> simp_all [Campion.without, State.lane]
theorem laneStn (h : LaneOnly y s u) (hx : x ≠ y) (m : Nat) : u.laneStn x m = s.laneStn x m := by simp only [State.laneStn, h.lane hx]
theorem sight (h : LaneOnly y s u) : sightOf y u = sightOf y s := by
  unfold sightOf
  rw [(h.kept .fixed (by simp)).1, show u.clk = s.clk from h.kept .clk (by simp), show headRest u.head = headRest s.head from h.kept .head (by simp),
    show u.cfg = s.cfg from h.kept .cfg (by simp), show u.st = s.st from h.kept .st (by simp), show u.sl = s.sl from h.kept .sl (by simp), h.rest]
theorem sight_congr (h : LaneOnly y s u) {α : Type} {f : State → α} (hv : ∀ v, f (sightOf y v) = f v) : f u = f s := by rw [← hv u, h.sight, hv]
/-- The masks that the other lane computes stay (R194). -/
theorem leafElement (h : LaneOnly y s u) (hx : x ≠ y) (n : Nat) : leafElement u x n = leafElement s x n := by
  have hp : lanePermits u x n = lanePermits s x n := h.sight_congr (f := (lanePermits · x n)) fun v => by
    cases x <;> cases y
    · exact absurd rfl hx
    · rfl
    · rfl
    · exact absurd rfl hx
  simp only [Machine.leafElement, hp, (h.reads x).laneLocked, h.laneStn hx, h.kept.stn (show Part.st ∉ [Part.camp] by decide), State.laneSw]
theorem wantElement (h : LaneOnly y s u) (hx : x ≠ y) (n : Nat) : wantElement u x n = wantElement s x n := by
  have hr := (h.reads x).site
  have hfit : chFitted u n .fd = chFitted s n .fd := site_congr hr (f := (chFitted · n .fd)) fun _ => rfl
  have hrole : ∀ r, isRole u n r = isRole s n r := fun r => site_congr hr (f := (isRole · n r)) fun _ => rfl
  have hserved : servedLeaf u n = servedLeaf s n := site_congr hr (f := (servedLeaf · n)) fun _ => rfl
  simp only [Machine.wantElement, hfit, hrole, hserved, h.leafElement hx, h.laneStn hx, State.laneSw]
theorem laneMask (h : LaneOnly y s u) (hx : x ≠ y) (p : Nat) : laneMask u x p = laneMask s x p := by
  have hsafe : u.camp.safe = s.camp.safe := h.sight_congr (f := (·.camp.safe)) fun v => by cases y <;> rfl
  simp only [Machine.laneMask, h.lane hx, hsafe, h.wantElement hx]

end LaneOnly

/-! ## A trip (R190, R191) -/

theorem otherLane_ne (x : Lane) : otherLane x ≠ x := by cases x <;> decide
/-- A lane whose backstop has tripped takes the leaf's element off (R190). -/
theorem wantElement_of_backstop {s : State} {x : Lane} {n : Nat} (hl : isLeaf s n = true) (hb : (s.laneStn x n).backstop = true) :
    wantElement s x n = false := by
  obtain ⟨-, hrole⟩ := Bool.and_eq_true_iff.1 hl
  unfold wantElement leafElement
  rw [hb, hrole]
  simp
/-- The leaf is in FAULT by the backstop, no other station than its step's being touched (R190). -/
structure InFault (n : Nat) (s u : State) : Prop where
  leaf : (u.stn n).leaf = .fault
  cause : (u.stn n).cause = "backstop"
  others : otherButStep n s u

theorem Faulted.inFault {n : Nat} {s r v : State} (hr : KeptBut [.camp] s r) (h : Faulted n "backstop" r v) : InFault n s v where
  leaf := h.leaf
  cause := h.cause
  others m hm hk := (h.others m hm (by rwa [stepStation_congr (siteView_congr hr)])).trans (hr.stn (by decide) m)
theorem InFault.kept {n : Nat} {s u v : State} (h : InFault n s u) (hk : KeptBut [.camp] u v) : InFault n s v := by
  have hstn := hk.stn (show Part.st ∉ [Part.camp] by decide)
  exact ⟨by rw [hstn, h.leaf], by rw [hstn, h.cause], fun m hm hs => (hstn m).trans (h.others m hm hs)⟩

/-- A lane's copy of a station once the backstop has tripped. -/
def trippedStn (t : LaneStn) : LaneStn := { t with backstop := true, overSince := none, edgeSince := none }
/-- The effect of a lane's trip: the leaf goes to FAULT unless the other lane has tripped before; the lane's masks come last. -/
structure Trips (x : Lane) (n : Nat) (s v : State) : Prop where
  backstop : (v.laneStn x n).backstop = true
  since : (v.laneStn x n).overSince = none
  again : (s.laneStn (otherLane x) n).backstop = true → LaneOnly x s v
  first : (s.laneStn (otherLane x) n).backstop = false → (s.stn n).leaf ≠ .isolated → noTurn s n → ∃ r, LaneOnly x s r ∧ Faulted n "backstop" r v

theorem turnOf_of_noTurn {s : State} {n : Nat} (h : noTurn s n) : turnOf (s.ax n) = none := by
  unfold turnOf
  cases hm : (s.ax n).motion with
  | none => rfl
  | some m => exact h m hm
/-- The leaf of a lane that is the first to trip stops at once and goes to FAULT (R190). -/
theorem stopsInFault {n : Nat} {s : State} (hi : (s.stn n).leaf ≠ .isolated) (ht : turnOf (s.ax n) = none) (c : Nat) (p : List Byte) (d : RecHd) (e : Err) :
    Faulted n "backstop" s (settleAxis n (faultLeaf n "backstop" e (hardStop n .done (record c p d s)))) := by
  have hs : LeafStays n s (hardStop n .done (record c p d s)) := ((LeafStays.refl n s).books (Books.refl s).record).hardStop
  have hf := faultLeaf_faulted "backstop" e (hs.leaf ▸ hi)
  have hall : Faulted n "backstop" s (faultLeaf n "backstop" e (hardStop n .done (record c p d s))) :=
    ⟨hs.drives.trans hf.drives, fun m hm hk => (hf.others m hm (by rwa [stepStation_congr hs.drives.site])).trans (hs.others m hm hk), hf.leaf, hf.cause,
      hf.turn.trans hs.turn, fun m => (hf.inputs m).trans (hs.inputs m)⟩
  exact hall.stays ((LeafStays.refl n _).settleAxis (hall.turn.trans ht) (by rw [hall.leaf]; decide))
theorem backstopTrips_trips (x : Lane) (n : Nat) (current limit : Int) {f : LaneStn → LaneStn} (s : State) (hf : ∀ t, (f t).inputs = t.inputs) :
    ∃ v, Trips x n s v ∧ backstopTrips x n current limit (s.modLaneStn x n f) = setMasks x v := by
  have ho : ((s.modLaneStn x n f).laneStn (otherLane x) n).backstop = (s.laneStn (otherLane x) n).backstop := by
    rw [laneStn_modLaneStn, if_neg fun h => otherLane_ne x h.1]
  have hr : LaneOnly x s ((s.modLaneStn x n f).modLaneStn x n trippedStn) := by
    rw [modLaneStn_modLaneStn]
    exact LaneOnly.modLaneStn x n s (hf _)
  have ht : ((s.modLaneStn x n f).modLaneStn x n trippedStn).laneStn x n = trippedStn (f (s.laneStn x n)) := by
    rw [laneStn_modLaneStn, if_pos ⟨rfl, rfl⟩, laneStn_modLaneStn, if_pos ⟨rfl, rfl⟩]
  unfold backstopTrips
  dsimp only
  rw [show (fun t : LaneStn => { t with backstop := true, overSince := none, edgeSince := none }) = trippedStn from rfl, ho]
  generalize (s.modLaneStn x n f).modLaneStn x n trippedStn = r at hr ht
  cases hb : (s.laneStn (otherLane x) n).backstop
  · have hk : ∀ c p d e, (settleAxis n (faultLeaf n "backstop" e (hardStop n .done (record c p d r)))).laneStn x n = trippedStn (f (s.laneStn x n)) :=
      fun c p d e => by
        have hd : Drives r (settleAxis n (faultLeaf n "backstop" e (hardStop n .done (record c p d r)))) :=
          (Drives.refl r).record.hardStop.faultLeaf.settleAxis
        rw [← ht, State.laneStn, hd.kept.lane (by decide), ← State.laneStn]
    have hst : r.stn n = s.stn n := hr.kept.stn (by decide) n
    refine ⟨_, ⟨?_, ?_, fun h => absurd (hb.symm.trans h) (by decide), fun _ hi hn => ⟨r, hr, stopsInFault ?_ ?_ _ _ _ _⟩⟩, rfl⟩
    · rw [hk]; rfl
    · rw [hk]; rfl
    · rwa [hst]
    · unfold State.ax
      rw [hst]
      exact turnOf_of_noTurn hn
  · exact ⟨r, ⟨by rw [ht]; rfl, by rw [ht]; rfl, fun _ => hr, fun h => absurd (hb.symm.trans h) (by decide)⟩, rfl⟩

/-! ## One reading, by lane A and then by lane B (R17, R190) -/

/-- A lane's reading of a current, where the lane runs and reads the slice. -/
def readLane (closes : Bool) (n : Nat) (current : Int) (y : Lane) (s : State) : State :=
  if laneRuns s y && laneSees s y (slotOf n) then laneBackstop closes y n current s else s
theorem backstopSample_eq (n : Nat) (current : Int) (s : State) :
    backstopSample n current s = readLane (cycleCloses s n) n current .b (readLane (cycleCloses s n) n current .a s) := rfl
/-- A lane's reading changes what this lane keeps alone, or trips in it. -/
theorem readLane_cases (closes : Bool) (n : Nat) (current : Int) (y : Lane) (s : State) :
    LaneOnly y s (readLane closes n current y s) ∧ ((readLane closes n current y s).laneStn y n).backstop = (s.laneStn y n).backstop
      ∨ ∃ v, Trips y n s v ∧ readLane closes n current y s = setMasks y v := by
  unfold readLane
  split
  · rw [laneBackstop_eq]
    split
    · exact .inr (backstopTrips_trips y n current _ s fun _ => rfl)
    · refine .inl ⟨LaneOnly.modLaneStn y n s rfl, ?_⟩
      rw [laneStn_modLaneStn, if_pos ⟨rfl, rfl⟩]
      rfl
  · exact .inl ⟨LaneOnly.refl y s, rfl⟩
/-- After the other lane's trip a lane's reading changes this lane alone. -/
theorem readLane_after_other (closes : Bool) (n : Nat) (current : Int) {y : Lane} {s : State} (h : (s.laneStn (otherLane y) n).backstop = true) :
    LaneOnly y s (readLane closes n current y s) := by
  obtain ⟨hl, -⟩ | ⟨v, hv, hu⟩ := readLane_cases closes n current y s
  · exact hl
  · rw [hu]
    exact (hv.again h).trans (LaneOnly.setMasks y v)

/-- The backstop is due in a lane: its reading of a closing leaf is above the limit, and has been for PERSISTMAX and 20 ms (R190). -/
structure TripDue (closes : Bool) (x : Lane) (n : Nat) (current : Int) (s : State) : Prop where
  runs : laneRuns s x = true
  sees : laneSees s x (slotOf n) = true
  calm : (s.laneStn x n).backstop = false
  driven : drivenClosing closes s x n = true
  above : backstopLimit s x n < current
  held : heldFor (s.laneStn x n).overSince s.now (s.keyN (.st n) .PERSISTMAX + 20000) = true

theorem TripDue.of {closes : Bool} {x : Lane} {n : Nat} {current : Int} {s u : State} (h : TripDue closes x n current s) (hr : SameReadings x s u)
    (hl : u.laneStn x n = s.laneStn x n) : TripDue closes x n current u where
  runs := (hr.runs x).trans h.runs
  sees := (hr.sees _).trans h.sees
  calm := hl ▸ h.calm
  driven := (hr.drivenClosing hl _).trans h.driven
  above := hr.backstopLimit hl ▸ h.above
  held := by
    have hk : u.keyN (.st n) .PERSISTMAX = s.keyN (.st n) .PERSISTMAX := site_congr hr.site (f := (State.keyN · (.st n) .PERSISTMAX)) fun _ => rfl
    rw [hl, hr.now, hk]
    exact h.held
theorem TripDue.trips {closes : Bool} {x : Lane} {n : Nat} {current : Int} {s : State} (h : TripDue closes x n current s) :
    ∃ v, Trips x n s v ∧ readLane closes n current x s = setMasks x v := by
  obtain ⟨t, ht⟩ := Option.isSome_iff_exists.1 (show (s.laneStn x n).overSince.isSome by
    have hh := h.held
    cases ho : (s.laneStn x n).overSince
    · simp [ho, heldFor] at hh
    · rfl)
  have hover : (readBy closes x n current s (s.laneStn x n)).overSince = (s.laneStn x n).overSince := by
    simp [readBy, h.driven, h.above, sinceOf, ht]
  have hheld := h.held
  rw [← hover] at hheld
  unfold readLane
  rw [if_pos (by simp [h.runs, h.sees]), laneBackstop_eq, if_pos (by simp [h.calm, hheld])]
  exact backstopTrips_trips x n current _ s fun _ => rfl

/-- What a trip in lane x leaves (R190, R191). -/
structure TripOutcome (x : Lane) (n : Nat) (s u : State) : Prop where
  fault : InFault n s u
  leafs : isLeaf u n = true
  backstop : (u.laneStn x n).backstop = true
  since : (u.laneStn x n).overSince = none
  masks : (u.lane x).masks = allSlices.map fun p => (p, laneMask u x p)

theorem TripOutcome.other {x y : Lane} {n : Nat} {s u v : State} (h : TripOutcome x n s u) (g : LaneOnly y u v) (hx : x ≠ y) : TripOutcome x n s v where
  fault := h.fault.kept g.kept
  leafs := ((g.reads x).isLeaf n).trans h.leafs
  backstop := by rw [g.laneStn hx, h.backstop]
  since := by rw [g.laneStn hx, h.since]
  masks := by simp only [g.lane hx, h.masks, g.laneMask hx]
theorem Trips.outcome {x : Lane} {n : Nat} {s r v : State} (h : Trips x n r v) (hf : InFault n s v) (hl : isLeaf v n = true) :
    TripOutcome x n s (setMasks x v) := by
  have hc := setMasks_commands x v
  have hs := laneStn_congr hc.view x n
  exact ⟨hf.kept hc.1, ((SameReadings.commands (x := x) hc).isLeaf n).trans hl, by rw [hs, h.backstop], by rw [hs, h.since], by
    simp only [setMasks_masks, laneMask_congr hc.view]⟩
theorem Trips.reads {x : Lane} {n : Nat} {s v : State} (h : Trips x n s v) (hi : (s.stn n).leaf ≠ .isolated) (hn : noTurn s n) (z : Lane) : SameReadings z s v := by
  cases hb : (s.laneStn (otherLane x) n).backstop
  · obtain ⟨r, hr, hf⟩ := h.first hb hi hn
    exact (hr.reads z).trans (SameReadings.drives hf.drives hf.inputs)
  · exact (h.again hb).reads z
theorem Trips.lane_other {x : Lane} {n : Nat} {s v : State} (h : Trips x n s v) (hi : (s.stn n).leaf ≠ .isolated) (hn : noTurn s n) {z : Lane} (hz : z ≠ x) :
    v.lane z = s.lane z := by
  cases hb : (s.laneStn (otherLane x) n).backstop
  · obtain ⟨r, hr, hf⟩ := h.first hb hi hn
    rw [hf.drives.kept.lane (by decide), hr.lane hz]
  · exact (h.again hb).lane hz

/-- Where the backstop is due in a lane, one reading of both lanes trips it (R190). -/
theorem backstopSample_trips {x : Lane} {n : Nat} {current : Int} {s : State} (hl : isLeaf s n = true) (hi : (s.stn n).leaf ≠ .isolated) (hn : noTurn s n)
    (ho : (s.laneStn (otherLane x) n).backstop = false) (hd : TripDue (cycleCloses s n) x n current s) : TripOutcome x n s (backstopSample n current s) := by
  rw [backstopSample_eq]
  cases x
  · obtain ⟨v, hv, hu⟩ := hd.trips
    obtain ⟨r, hr, hf⟩ := hv.first ho hi hn
    have hout := hv.outcome (hf.inFault hr.kept) (((hv.reads hi hn .a).isLeaf n).trans hl)
    rw [hu]
    exact hout.other (readLane_after_other _ n current hout.backstop) (by decide)
  · obtain ⟨ha, hb⟩ | ⟨v, hv, hu⟩ := readLane_cases (cycleCloses s n) n current .a s
    · obtain ⟨w, hw, hwu⟩ := (hd.of (ha.reads .b) (ha.laneStn (by decide) n)).trips
      have hst := ha.kept.stn (show Part.st ∉ [Part.camp] by decide) n
      have hn' : noTurn (readLane (cycleCloses s n) n current .a s) n := by
        unfold noTurn State.ax
        rw [hst]
        exact hn
      obtain ⟨r, hr, hf⟩ := hw.first (hb.trans ho) (hst ▸ hi) hn'
      rw [hwu]
      exact hw.outcome (hf.inFault (ha.kept.trans hr.kept)) (((hw.reads (hst ▸ hi) hn' .b).isLeaf n).trans (((ha.reads .b).isLeaf n).trans hl))
    · obtain ⟨r, hr, hf⟩ := hv.first (by exact hd.calm) hi hn
      have hmask := LaneOnly.setMasks .a v
      have hreads : SameReadings .b s (setMasks .a v) := (hv.reads hi hn .b).trans (hmask.reads .b)
      have hlane : (setMasks .a v).lane .b = s.lane .b := (hmask.lane (by decide)).trans (hv.lane_other hi hn (by decide))
      have hcame : ((setMasks .a v).laneStn .a n).backstop = true := by
        rw [laneStn_congr (setMasks_commands .a v).view, hv.backstop]
      obtain ⟨w, hw, hwu⟩ := (hd.of hreads (by simp only [State.laneStn, hlane])).trips
      rw [hu, hwu]
      have hagain := hw.again hcame
      exact hw.outcome (((hf.inFault hr.kept).kept hmask.kept).kept hagain.kept) (((hagain.reads .b).isLeaf n).trans ((hreads.isLeaf n).trans hl))

/-- A lane's copy of a leaf's station after a reading that exceeds nothing (R190). -/
def calmStn (closes : Bool) (x : Lane) (n : Nat) (s : State) : LaneStn :=
  { s.laneStn x n with closing := drivenClosing closes s x n, overSince := none, edgeSince := none }
/-- A reading that exceeds nothing trips nothing (R190). -/
theorem readLane_calm {closes : Bool} {n : Nat} {current : Int} {y : Lane} {s : State} (hc : current ≤ backstopLimit s y n)
    (he : edgeAbove closes s y n = false) :
    LaneOnly y s (readLane closes n current y s)
      ∧ ((laneRuns s y && laneSees s y (slotOf n)) = false → (readLane closes n current y s).lane y = s.lane y)
      ∧ ((laneRuns s y && laneSees s y (slotOf n)) = true → (readLane closes n current y s).laneStn y n = calmStn closes y n s) := by
  have hread : readBy closes y n current s (s.laneStn y n) = calmStn closes y n s := by
    simp [readBy, calmStn, he, sinceOf, Int.not_lt.2 hc]
  unfold readLane
  cases hrun : laneRuns s y && laneSees s y (slotOf n)
  · exact ⟨LaneOnly.refl y s, fun _ => rfl, fun h => by simp at h⟩
  · rw [if_pos rfl, laneBackstop_eq, hread, if_neg (by simp [calmStn, heldFor])]
    refine ⟨LaneOnly.modLaneStn y n s rfl, fun h => by simp at h, fun _ => ?_⟩
    rw [laneStn_modLaneStn, if_pos ⟨rfl, rfl⟩, hread]
theorem backstopSample_calm {n : Nat} {current : Int} {s : State}
    (h : ∀ x, current ≤ backstopLimit s x n ∧ edgeAbove (cycleCloses s n) s x n = false) :
    KeptBut [.camp] s (backstopSample n current s)
      ∧ ∀ x, ((laneRuns s x && laneSees s x (slotOf n)) = false → (backstopSample n current s).lane x = s.lane x)
        ∧ ((laneRuns s x && laneSees s x (slotOf n)) = true → (backstopSample n current s).laneStn x n = calmStn (cycleCloses s n) x n s) := by
  rw [backstopSample_eq]
  obtain ⟨hca, hea⟩ := h .a
  obtain ⟨hcb, heb⟩ := h .b
  obtain ⟨ha, hstill, hread⟩ := readLane_calm hca hea
  generalize readLane (cycleCloses s n) n current .a s = v at ha hstill hread ⊢
  have hr := ha.reads .b
  have hstn : v.laneStn .b n = s.laneStn .b n := ha.laneStn (by decide) n
  obtain ⟨hb, hstill', hread'⟩ := readLane_calm (current := current) (by rwa [hr.backstopLimit hstn]) ((hr.edgeAbove hstn _).trans heb)
  generalize readLane (cycleCloses s n) n current .b v = u at hb hstill' hread' ⊢
  rw [hr.runs, hr.sees, ha.lane (by decide)] at hstill'
  rw [hr.runs, hr.sees, calmStn, hstn, hr.drivenClosing hstn] at hread'
  refine ⟨ha.kept.trans hb.kept, fun x => ?_⟩
  cases x
  · rw [hb.lane (by decide), hb.laneStn (by decide)]
    exact ⟨hstill, hread⟩
  · exact ⟨hstill', hread'⟩

end Sys2Proof.Machine
end

section
/-! SUPPORT. What an AXIS record and a lost link bring about in Speedwell and in the door cycle: each is a drive. -/

namespace Sys2Proof.Machine

open Sys2Proof

namespace Drives

variable {s u v : State}

theorem modInp {n k : Nat} {f : Input → Input} (h : Drives s u) : Drives s (u.modInp n k f) := h.modStn
theorem report {l : List Obj} {o : Obj} {f : List Fld} (h : Drives s u) : Drives s (report l o f u) := h.books ((Books.refl u).of (report_kept l o f u))

/-! ## A reference search (R147, R148) -/

theorem fillSegs {n : Nat} {t : List Nat} {l : List Seg} (h : Drives s u) : Drives s (fillSegs n t l u) := by
  unfold Machine.fillSegs
  split
  · exact h
  · exact h.forEach fun _ v => (refl v).modEnt
theorem moveAfter {n : Nat} (h : Drives s u) : Drives s (moveAfter n u) := by
  unfold Machine.moveAfter
  split
  · exact h
  split
  · exact h
  · dsimp only
    exact ite h.motionReply.axisStops (ite h.modAx.motionReply.axisStops h.modAx.fillSegs.setCourse)
theorem refDone {n : Nat} (h : Drives s u) : Drives s (refDone n u) := by
  unfold Machine.refDone
  split
  · exact h
  · exact ite h.moveAfter h.motionReply.axisStops
theorem refEdge {n : Nat} (h : Drives s u) : Drives s (refEdge n u) := by
  have hset : Drives s (Machine.resumeDone n (Machine.referenceSet n (u.axK n .REFPOS) (some (u.axK n .REFPOS)) u)) := h.referenceSet.resumeDone
  unfold Machine.refEdge
  dsimp only
  split
  · exact hset
  · exact ite (ite hset.motionSays hset).refDone (ite hset.motionSays hset).setCourse
theorem searchCourse {n : Nat} {ph : MPhase} (h : Drives s u) : Drives s (searchCourse n ph u) := by
  unfold Machine.searchCourse
  split
  · exact h
  · exact h.setCourse
theorem homeReached {n : Nat} (h : Drives s u) : Drives s (homeReached n u) := ite (ite h.modAx.searchCourse h.modAx) h.refEdge

/-! ## The head's inputs (R147, R182, R274) -/

theorem stepOut1Deployed {n : Nat} (h : Drives s u) : Drives s (stepOut1Deployed n u) := ite h.modStn h
theorem setInput {n k : Nat} {b : Bool} (h : Drives s u) : Drives s (setInput n k b u) := by
  have hin : Drives s (if isLeaf (u.modInp n k fun i => { i with on := b }) n then
      Machine.stepReached n (Machine.stepOut1Deployed n (u.modInp n k fun i => { i with on := b })) else u.modInp n k fun i => { i with on := b }) :=
    ite h.modInp.stepOut1Deployed.stepReached h.modInp
  unfold Machine.setInput
  dsimp only
  split
  · exact h
  split
  · exact ite hin.homeReached.settleAxis hin
  · exact hin

/-! ## The samples of a feed's current (R184 to R189) -/

theorem feedSample {n : Nat} {c : Int} (h : Drives s u) : Drives s (feedSample n c u) := by
  unfold Machine.feedSample
  dsimp only
  split
  · exact h.modStn
  split
  · exact h.modStn.modStn
  · exact ite h.modStn.modStn.modStn h.modStn.modStn
  · exact ite h.modStn.modStn.modStn h.modStn.modStn
  · exact ite h.modStn.modStn.modStn h.modStn.modStn
  · exact h.modStn
theorem doorReached {n : Nat} (h : Drives s u) : Drives s (doorReached n u) := by
  unfold Machine.doorReached
  split
  · exact h
  · refine (h.modStn.modOp fun o => ?_).finishDoor
    split
    · exact .inl (by simp [NotSaving])
    · exact .inr rfl
theorem driftProfile {n : Nat} {b : Bool} (h : Drives s u) : Drives s (driftProfile n b u) := by
  unfold Machine.driftProfile
  split
  · exact h
  · dsimp only
    exact ite h.modStn.report.record h.modStn
theorem endTraverse {n : Nat} {b : Bool} (h : Drives s u) : Drives s (endTraverse n b u) := (ite h.modStn (ite h.driftProfile h)).modStn
theorem openReached {n : Nat} (h : Drives s u) : Drives s (openReached n u) := by
  have h1 : Drives s (Machine.unlockOut n false (Machine.setLeaf n .opn (Machine.disarm n (Machine.endTraverse n true u)))) := h.endTraverse.disarm.setLeaf.unlockOut
  unfold Machine.openReached
  dsimp only
  split
  · exact ite ((ite h1 h1.modStn.slotTimer).modStn.doorReached.beginWait) (ite h1 h1.modStn.slotTimer).modStn.doorReached
  · exact h
theorem openingObstacle {n : Nat} {c l : Int} (h : Drives s u) : Drives s (openingObstacle n c l u) := by
  unfold Machine.openingObstacle Machine.obstacleRec
  dsimp only
  split
  · exact h.record.rampStop.modStn.holdLeaf.doorFailed
  · exact h.record.sayOp.rampStop.modStn.holdLeaf.doorFailed
theorem closingObstacle {n : Nat} {w : String} {c l : Int} (h : Drives s u) : Drives s (closingObstacle n w c l u) := by
  unfold Machine.closingObstacle Machine.obstacleRec
  dsimp only
  split
  · exact h.record.disarm.clearTimers.setLeaf.modStn.rampStop
  · exact h.record.sayOp.disarm.clearTimers.setLeaf.modStn.rampStop
theorem forceSample {n : Nat} {c : Int} (h : Drives s u) : Drives s (forceSample n c u) := by
  unfold Machine.forceSample
  dsimp only
  refine ite h (ite h.feedSample (ite h.feedSample.modStn (ite (ite ?_ ?_) h.feedSample.modStn)))
  · exact ite h.feedSample.modStn.openReached.openingObstacle h.feedSample.modStn.openReached
  · exact h.feedSample.modStn.closingObstacle

/-! ## A lost link (R76, R437) -/

theorem bufSafe {n : Nat} (h : Drives s u) : Drives s (bufSafe n u) := by
  unfold Machine.bufSafe
  exact h.modBuf
theorem loseCharges {n : Nat} (h : Drives s u) : Drives s (loseCharges n u) := h.modYar
theorem loseAxis {n : Nat} (h : Drives s u) : Drives s (loseAxis n u) := h.modAx.endWait.loseCharges.loseReference.stopDone.resumeDone
theorem endSliceOps {p : Nat} (h : Drives s u) : Drives s (endSliceOps p u) := h.forEach fun _ v => (refl v).failOp

end Drives

/-! ## An uplink frame at the head (R291 to R297) -/

/-- What decides which channels a position's stations carry, of its slice (R535). -/
def typesOf (x : Slice) : Option Nat × Option Nat × Bool := (x.typeRead, x.typeLast, x.seen)
/-- The parts that an AXIS record or a lost link touches. -/
def headParts : List Part := .sl :: .returns :: driveParts
/-- A state that the head's taking of an uplink frame, no IDENT record, may have brought about from another. -/
structure HeadTakes (s u : State) : Prop where
  kept : KeptBut headParts s u
  types : ∀ p, typesOf (u.slc p) = typesOf (s.slc p)
  saving : noSaving s = true → noSaving u = true

namespace HeadTakes

variable {s u v : State}

theorem refl (s : State) : HeadTakes s s := ⟨KeptBut.refl _ s, fun _ => rfl, id⟩
theorem trans (h : HeadTakes s u) (g : HeadTakes u v) : HeadTakes s v :=
  ⟨h.kept.trans g.kept, fun p => (g.types p).trans (h.types p), g.saving ∘ h.saving⟩
theorem drives (h : HeadTakes s u) (g : Drives u v) : HeadTakes s v :=
  h.trans ⟨g.kept.mono (by decide), fun p => by rw [g.kept.slc (by decide) p], g.saving⟩
theorem ite {c : Prop} {_ : Decidable c} (hu : HeadTakes s u) (hv : HeadTakes s v) : HeadTakes s (if c then u else v) := by split <;> assumption
theorem forEach {α : Type} {l : List α} {f : α → State → State} (h : HeadTakes s u) (hf : ∀ a v, HeadTakes v (f a v)) : HeadTakes s (forEach l f u) := by
  induction l generalizing u with
  | nil => exact h
  | cons a l ih => exact ih (h.trans (hf a u))
theorem modSlc {p : Nat} {f : Slice → Slice} (h : HeadTakes s u) (hf : ∀ x, typesOf (f x) = typesOf x := by intro; rfl) : HeadTakes s (u.modSlc p f) := by
  refine h.trans ⟨(modSlc_kept u p f).mono (by decide), fun q => ?_, (modSlc_kept u p f).noSaving (by decide)⟩
  rw [slc_modSlc]
  split
  · next hq => subst hq; exact hf _
  · rfl
theorem returns {l : List Return} (h : HeadTakes s u) : HeadTakes s { u with returns := l } := by
  have hk : KeptBut [.returns] u { u with returns := l } := by intro p hp; cases p <;> simp_all [samePart]
  exact h.trans ⟨hk.mono (by decide), fun p => by rw [hk.slc (by decide) p], hk.noSaving (by decide)⟩
theorem worked {e : Engine} {k : Nat} (h : HeadTakes s u) : HeadTakes s (u.worked e k) := h.drives (Drives.refl u).worked
theorem fins {l : List Return} {f : Return → Reply} (h : HeadTakes s u) : HeadTakes s (Machine.forEach l (fun r s => fin r.ctx (f r) s) u) :=
  h.forEach fun _ v => (refl v).drives ((Drives.refl v).books (Books.refl v).fin)
theorem framesReturned {p : Nat} (h : HeadTakes s u) : HeadTakes s (framesReturned p u) := h.returns.fins
theorem framesLost {p : Nat} {e : Err} (h : HeadTakes s u) : HeadTakes s (framesLost p e u) := h.returns.fins
/-- A lost link (R437). -/
theorem loseLink {p : Nat} (h : HeadTakes s u) : HeadTakes s (loseLink p u) := by
  unfold Machine.loseLink
  refine framesLost (drives ?_ (Drives.refl _).record)
  refine forEach (h.modSlc.drives (Drives.refl _).endSliceOps) fun n v => (refl v).drives ?_
  exact (Drives.ite (Drives.refl v).loseAxis.modStn.doorFailed.faultLeaf (Drives.refl v).loseAxis.modStn.doorFailed).bufSafe
/-- Where no SAVE SAFETY waits for the latches, none is over (R269). -/
theorem latchesDone (h : HeadTakes s u) (hs : noSaving s = true) : HeadTakes s (latchesDone u) := by
  have hnone : u.ops.filter (fun o => decide (o.prog = .saveSafety true)) = [] := by
    refine List.filter_eq_nil_iff.2 fun o ho => ?_
    simpa [NotSaving] using noSaving_iff.1 (h.saving hs) o ho
  unfold Machine.latchesDone
  rw [hnone]
  exact h
theorem commonBlock {p : Nat} {b : List Byte} (h : HeadTakes s u) : HeadTakes s (commonBlock p b u) := by
  unfold Machine.commonBlock Machine.noteSelfTest
  exact modSlc (modSlc (h.forEach fun j v => (refl v).drives (Drives.refl v).setInput))
theorem axisRecord {p slot first : Nat} {b : List Byte} (h : HeadTakes s u) : HeadTakes s (axisRecord p slot first b u) := by
  unfold Machine.axisRecord
  refine modSlc (h.forEach fun i v => (refl v).drives ?_)
  exact Drives.ite (Drives.refl v) ((Drives.refl v).modStn.forEach fun _ w => (Drives.refl w).forceSample.settleAxis)
theorem uplinkRecord {p : Nat} {b : List Byte} (h : HeadTakes s u) : HeadTakes s (uplinkRecord p 0 b u) := by
  unfold Machine.uplinkRecord
  dsimp only
  exact ite h.axisRecord h
/-- The head takes a frame whose slot is 0: an AXIS record (R294, R295). -/
theorem headFrame {p : Nat} {b : List Byte} (hb : (fbyte b 0).toNat % 64 = 0) (hs : noSaving s = true) : HeadTakes s (headFrame p b s) := by
  unfold Machine.headFrame
  dsimp only
  rw [hb]
  split
  · exact (refl s).modSlc
  split
  · exact (refl s).modSlc
  split
  · exact (refl s).modSlc.modSlc
  · have h0 : HeadTakes s (((((s.modSlc p fun x => { x with upRef := some (fbyte b 1) }).modSlc p fun x => { x with upAt := some s.now }).worked .io).modSlc p
        fun x => { x with recs := tset x.recs 0 (slice b 10 20) })) := (refl s).modSlc.modSlc.worked.modSlc
    refine ite (ite (h0.loseLink.latchesDone hs) h0) (ite h0.commonBlock.uplinkRecord.framesReturned ?_)
    rw [if_neg (by decide)]
    exact h0

end HeadTakes

end Sys2Proof.Machine
end

section
/-! SUPPORT. An uplink frame at the lanes (R18, R294, R295), and what a lane keeps of a feed's sense path (R338, R341). -/

namespace Sys2Proof.Machine

open Sys2Proof

/-! ## What one lane's work touches -/

/-- The parts that a lane's taking of a frame touches: Campion, and what a trip of the backstop touches. -/
def laneParts : List Part := .camp :: driveParts
/-- A state that lane y alone may have brought about from another. -/
structure LaneWork (y : Lane) (s u : State) : Prop where
  kept : KeptBut laneParts s u
  others : ∀ z, z ≠ y → u.lane z = s.lane z
/-- A state that lane y alone may have brought about, with what it keeps of the feeds' sense paths as it was. -/
structure LaneReads (y : Lane) (s u : State) : Prop extends LaneWork y s u where
  feeds : ∀ m, (u.laneStn y m).fd = (s.laneStn y m).fd

theorem LaneWork.refl (y : Lane) (s : State) : LaneWork y s s := ⟨KeptBut.refl _ s, fun _ _ => rfl⟩
theorem LaneWork.trans {y : Lane} {s u v : State} (h : LaneWork y s u) (g : LaneWork y u v) : LaneWork y s v :=
  ⟨h.kept.trans g.kept, fun z hz => (g.others z hz).trans (h.others z hz)⟩
theorem LaneWork.modLane (y : Lane) (f : LaneSt → LaneSt) (s : State) : LaneWork y s (s.modLane y f) :=
  ⟨(modLane_kept s y f).mono (by decide), fun z hz => by simp [hz]⟩
theorem setMasks_work (y : Lane) (s : State) : LaneWork y s (setMasks y s) :=
  ⟨(setMasks_commands y s).1.mono (by decide), fun _ hz => setMasks_lane_other s hz⟩

namespace LaneReads

variable {y : Lane} {s u v : State}

theorem refl (y : Lane) (s : State) : LaneReads y s s := ⟨LaneWork.refl y s, fun _ => rfl⟩
theorem trans (h : LaneReads y s u) (g : LaneReads y u v) : LaneReads y s v := ⟨h.toLaneWork.trans g.toLaneWork, fun m => (g.feeds m).trans (h.feeds m)⟩
theorem ite {c : Prop} {_ : Decidable c} (hu : LaneReads y s u) (hv : LaneReads y s v) : LaneReads y s (if c then u else v) := by split <;> assumption
theorem forEach {α : Type} {l : List α} {f : α → State → State} (h : LaneReads y s u) (hf : ∀ a v, LaneReads y v (f a v)) : LaneReads y s (forEach l f u) := by
  induction l generalizing u with
  | nil => exact h
  | cons a l ih => exact ih (h.trans (hf a u))
theorem modLaneStn {n : Nat} {f : LaneStn → LaneStn} (h : LaneReads y s u) (hf : ∀ t, (f t).fd = t.fd := by intro; rfl) :
    LaneReads y s (u.modLaneStn y n f) := by
  refine h.trans ⟨LaneWork.modLane y _ u, fun m => ?_⟩
  rw [laneStn_modLaneStn]
  split
  · next hm => rw [hm.2, hf]
  · rfl
theorem modLaneSlc {p : Nat} {f : LaneSlc → LaneSlc} (h : LaneReads y s u) : LaneReads y s (u.modLaneSlc y p f) :=
  h.trans ⟨LaneWork.modLane y _ u, fun m => by cases y <;> rfl⟩
theorem setMasks (h : LaneReads y s u) : LaneReads y s (setMasks y u) :=
  h.trans ⟨setMasks_work y u, fun m => congrArg LaneStn.fd (laneStn_congr (setMasks_commands y u).view y m)⟩
theorem drives (h : LaneReads y s u) (g : Drives u v) : LaneReads y s v :=
  h.trans ⟨⟨g.kept.mono (by decide), fun z _ => g.kept.lane (by decide) z⟩, fun m => by
    simp only [State.laneStn, g.kept.lane (show Part.camp ∉ driveParts by decide)]⟩
theorem laneBackstop {c : Bool} {n : Nat} {current : Int} (h : LaneReads y s u) : LaneReads y s (laneBackstop c y n current u) := by
  rw [laneBackstop_eq]
  split
  · unfold backstopTrips
    dsimp only
    refine setMasks (ite (modLaneStn (h.modLaneStn ?_) ?_) (drives (modLaneStn (h.modLaneStn ?_) ?_) (Drives.refl _).record.hardStop.faultLeaf.settleAxis))
    all_goals exact fun _ => rfl
  · exact h.modLaneStn

end LaneReads

/-! ## A sense path's outcome (R338, R341) -/

/-- What a lane keeps of a sense path once it has found an outcome in a frame: one test every 10 s counts (R341). -/
def sensed (now : Nat) (failed : Bool) (l : LaneLamp) : LaneLamp :=
  if l.senseAt.any fun t => decide (now < t + 10000000) then l else { countSense (!failed) l with senseAt := some now }
theorem laneSense_work (y : Lane) (n : Nat) (failed : Bool) (s : State) : LaneWork y s (laneSense y n .fd failed s) := by
  unfold laneSense
  split
  · exact LaneWork.refl y s
  · exact (LaneWork.modLane y _ s).trans (setMasks_work y _)
theorem laneSense_fd (y : Lane) (n m : Nat) (failed : Bool) (s : State) : ((laneSense y n .fd failed s).laneStn y m).fd =
    if m = n then sensed s.now failed (s.laneStn y n).fd else (s.laneStn y m).fd := by
  unfold laneSense sensed
  rw [show s.laneSw y n .fd = (s.laneStn y n).fd from rfl]
  split
  · split
    · next hm => rw [hm]
    · rfl
  · dsimp only
    rw [if_pos rfl, laneStn_congr (setMasks_commands y _).view, State.modLaneSw, laneStn_modLaneStn]
    by_cases hm : m = n
    · subst hm
      rw [if_pos ⟨rfl, rfl⟩, if_pos rfl]
      rfl
    · rw [if_neg fun h => hm h.2, if_neg hm]

/-! ## An AXIS record (R190, R295, R336) -/

/-- One station of an AXIS record, as a lane takes it. -/
def laneAxisStation (closes : Nat → Bool) (x : Lane) (first : Nat) (b : List Byte) (i : Nat) (s : State) : State :=
  let n := first + i
  if ¬ chFitted s n .ax then s
  else
    let pos := unleI (slice b (10 + 8 * i) 4)
    let s := s.modLaneStn x n fun t => { t with
      pos, rising := decide (t.pos < pos), closing := decide (pos < t.pos) || (t.closing && decide (pos = t.pos)), encFault := (fbyte b 27).getLsbD i, idxFault := (fbyte b 27).getLsbD (4 + i) }
    let s := laneSense x n .fd ((fbyte b 27).getLsbD (2 + i)) s
    forEach [14 + 8 * i, 16 + 8 * i] (fun off s => laneBackstop (closes n) x n (fieldAt b off 2) s) s
theorem laneAxis_eq (closes : Nat → Bool) (x : Lane) (first : Nat) (b : List Byte) (s : State) :
    laneAxis closes x first b s = laneAxisStation closes x first b 1 (laneAxisStation closes x first b 0 s) := rfl
theorem laneAxisStation_work (closes : Nat → Bool) (x : Lane) (first : Nat) (b : List Byte) (i : Nat) (s : State) :
    LaneWork x s (laneAxisStation closes x first b i s) := by
  unfold laneAxisStation
  dsimp only
  split
  · exact LaneWork.refl x s
  · exact ((LaneReads.refl x s).modLaneStn.toLaneWork.trans (laneSense_work x _ _ _)).trans
      ((LaneReads.refl x _).forEach fun _ v => (LaneReads.refl x v).laneBackstop).toLaneWork
theorem laneAxisStation_fd (closes : Nat → Bool) (x : Lane) (first : Nat) (b : List Byte) (i m : Nat) (s : State) :
    ((laneAxisStation closes x first b i s).laneStn x m).fd =
      if m = first + i ∧ chFitted s m .ax = true then sensed s.now ((fbyte b 27).getLsbD (2 + i)) (s.laneStn x m).fd else (s.laneStn x m).fd := by
  unfold laneAxisStation
  dsimp only
  split
  · next hf =>
    rw [if_neg]
    rintro ⟨rfl, h⟩
    exact hf h
  · next hf =>
    rw [((LaneReads.refl x _).forEach fun _ v => (LaneReads.refl x v).laneBackstop).feeds m, laneSense_fd]
    have hread := (LaneReads.refl x s).modLaneStn (n := first + i) (f := fun t => { t with
      pos := unleI (slice b (10 + 8 * i) 4), rising := decide (t.pos < unleI (slice b (10 + 8 * i) 4))
      closing := decide (unleI (slice b (10 + 8 * i) 4) < t.pos) || (t.closing && decide (unleI (slice b (10 + 8 * i) 4) = t.pos))
      encFault := (fbyte b 27).getLsbD i, idxFault := (fbyte b 27).getLsbD (4 + i) })
    rw [hread.feeds, hread.feeds, hread.kept.now (by decide)]
    by_cases hm : m = first + i
    · subst hm
      rw [if_pos rfl, if_pos ⟨rfl, by simpa using hf⟩]
    · rw [if_neg hm, if_neg fun h => hm h.1]

/-! ## A frame (R18, R294) -/

theorem LaneWork.site {y : Lane} {s u : State} (h : LaneWork y s u) : siteView u = siteView s := siteView_congr h.kept
theorem chFitted_congr {s u : State} (h : siteView u = siteView s) (n : Nat) (c : Chan) : chFitted u n c = chFitted s n c :=
  site_congr h (f := (chFitted · n c)) fun _ => rfl
theorem laneAxis_work (closes : Nat → Bool) (x : Lane) (first : Nat) (b : List Byte) (s : State) : LaneWork x s (laneAxis closes x first b s) :=
  (laneAxisStation_work closes x first b 0 s).trans (laneAxisStation_work closes x first b 1 _)
theorem laneAxis_fd {closes : Nat → Bool} {x : Lane} {first : Nat} {b : List Byte} {s : State} (hf : chFitted s first .ax = true) :
    ((laneAxis closes x first b s).laneStn x first).fd = sensed s.now ((fbyte b 27).getLsbD 2) (s.laneStn x first).fd := by
  rw [laneAxis_eq, laneAxisStation_fd, if_neg fun h => by omega, laneAxisStation_fd, if_pos ⟨rfl, hf⟩]
/-- What a lane takes of a valid frame before its record. -/
def laneInputs (x : Lane) (p : Nat) (b : List Byte) (s : State) : State :=
  forEach (stationsOf p) (fun n s => s.modLaneStn x n fun t => { t with
    inputs := (List.range 4).foldl (fun i k =>
      let j := 4 * (n % 8) + k
      tmod {} i k fun i => { i with on := (fbyte b (2 + j / 8)).getLsbD (j % 8) }) t.inputs })
    (s.modLaneSlc x p fun q => { q with at_ := some s.now, safe := (fbyte b 8).getLsbD 0, elemA := fbyte b 6, elemB := fbyte b 7 })
theorem laneInputs_reads (x : Lane) (p : Nat) (b : List Byte) (s : State) : LaneReads x s (laneInputs x p b s) :=
  (LaneReads.refl x s).modLaneSlc.forEach fun _ v => (LaneReads.refl x v).modLaneStn
/-- A frame whose slot is 0, at a lane: one that is not valid makes the slice's inputs unknown; a valid one is an AXIS record (R294, R336). -/
theorem laneFrame_axis {closes : Nat → Bool} {x : Lane} {p : Nat} {b : List Byte} {s : State} (hb : (fbyte b 0).toNat % 64 = 0) :
    ∃ u, LaneReads x s u ∧ ((frameCrc b && frameValid 1 25 (s.laneSlc x p).ref b) = true → laneFrame closes x p b s = laneAxis closes x (8 * p) b u)
      ∧ ((frameCrc b && frameValid 1 25 (s.laneSlc x p).ref b) = false → laneFrame closes x p b s = u) := by
  have h0 : ∀ f : LaneSlc → LaneSlc, LaneReads x s (s.modLaneSlc x p f) := fun f => (LaneReads.refl x s).modLaneSlc
  cases hok : frameCrc b && frameValid 1 25 (s.laneSlc x p).ref b
  · refine ⟨laneFrame closes x p b s, ?_, fun h => by simp at h, fun _ => rfl⟩
    unfold laneFrame
    dsimp only
    rw [hok, if_pos (by decide)]
    exact (h0 _).modLaneSlc.forEach fun _ v => (LaneReads.refl x v).modLaneStn
  · refine ⟨laneInputs x p b (s.modLaneSlc x p fun q => { q with ref := if frameCrc b then some (fbyte b 1) else q.ref, ok := true }),
      (h0 _).trans (laneInputs_reads x p b _), fun _ => ?_, fun h => by simp at h⟩
    unfold laneFrame
    dsimp only
    rw [hok, if_neg (by decide), hb]
    rfl
theorem laneFrame_work (closes : Nat → Bool) (x : Lane) (p : Nat) {b : List Byte} (s : State) (hb : (fbyte b 0).toNat % 64 = 0) :
    LaneWork x s (laneFrame closes x p b s) := by
  obtain ⟨u, hu, hvalid, hbad⟩ := laneFrame_axis (closes := closes) (x := x) (p := p) (s := s) hb
  cases hok : frameCrc b && frameValid 1 25 (s.laneSlc x p).ref b
  · rw [hbad hok]
    exact hu.toLaneWork
  · rw [hvalid hok]
    exact hu.toLaneWork.trans (laneAxis_work closes x (8 * p) b u)
theorem laneFrame_fd {closes : Nat → Bool} {x : Lane} {p : Nat} {b : List Byte} {s : State} (hb : (fbyte b 0).toNat % 64 = 0)
    (hok : (frameCrc b && frameValid 1 25 (s.laneSlc x p).ref b) = true) (hf : chFitted s (8 * p) .ax = true) :
    ((laneFrame closes x p b s).laneStn x (8 * p)).fd = sensed s.now ((fbyte b 27).getLsbD 2) (s.laneStn x (8 * p)).fd := by
  obtain ⟨u, hu, hvalid, -⟩ := laneFrame_axis (closes := closes) (x := x) (p := p) (s := s) hb
  rw [hvalid hok, laneAxis_fd ((chFitted_congr hu.site _ _).trans hf), hu.feeds, hu.kept.now (by decide)]

/-! ## The head, then the lanes (R18) -/

/-- A lane that runs takes a frame. -/
def takeFrame (closes : Nat → Bool) (p : Nat) (b : List Byte) (x : Lane) (s : State) : State := if laneRuns s x then laneFrame closes x p b s else s
theorem uplink_eq {p : Nat} {b : List Byte} {s : State} (he : enabled s p = true) (hp : (s.slc p).powered = true) (hs : s.head.started = true) :
    uplink p b s = takeFrame (cycleCloses (headFrame p b s)) p b .b (takeFrame (cycleCloses (headFrame p b s)) p b .a (headFrame p b s)) := by
  unfold uplink
  rw [if_neg (by simp [he, hp]), hs]
  rfl
theorem takeFrame_work (closes : Nat → Bool) (p : Nat) {b : List Byte} (x : Lane) (s : State) (hb : (fbyte b 0).toNat % 64 = 0) :
    LaneWork x s (takeFrame closes p b x s) := by
  unfold takeFrame
  split
  · exact laneFrame_work closes x p s hb
  · exact LaneWork.refl x s
/-- A slice's types as the head keeps them decide what is fitted (R535). -/
theorem HeadTakes.chFitted {s u : State} (h : HeadTakes s u) (n : Nat) (c : Chan) : chFitted u n c = chFitted s n c := by
  have ht := h.types (slotOf n)
  simp only [typesOf, Prod.mk.injEq] at ht
  obtain ⟨hread, hlast, hseen⟩ := ht
  have hfit : u.fit = s.fit := (h.kept .fixed (by decide)).1
  have hcfg : u.cfg = s.cfg := h.kept .cfg (by decide)
  have hload : u.head.loaded = s.head.loaded := by have h := congrArg Head.loaded (h.kept .head (by decide)); exact h
  have hen : enabled u (slotOf n) = enabled s (slotOf n) := by unfold enabled; rw [hfit]
  have hset : cfgType u (slotOf n) = cfgType s (slotOf n) := by unfold cfgType; rw [hcfg]
  have htype : typeSeen u (slotOf n) = typeSeen s (slotOf n) := by unfold typeSeen; rw [hread, hlast]
  have hty : fitType u (slotOf n) = fitType s (slotOf n) := by unfold fitType; rw [hen, hset, htype, hload, hseen]
  unfold Machine.chFitted
  rw [hty]
/-- What a lane keeps of the first feed of a slice after a valid AXIS record of the first two stations (R338, R341). -/
theorem uplink_fd {p : Nat} {b : List Byte} {x : Lane} {s : State} (he : enabled s p = true) (hp : (s.slc p).powered = true) (hs : s.head.started = true)
    (hq : noSaving s = true) (hr : laneRuns s x = true) (hok : (frameCrc b && frameValid 1 25 (s.laneSlc x p).ref b) = true)
    (hb : (fbyte b 0).toNat % 64 = 0) (hf : chFitted s (8 * p) .ax = true) :
    (uplink p b s).laneSw x (8 * p) .fd = sensed s.now ((fbyte b 27).getLsbD 2) (s.laneSw x (8 * p) .fd) := by
  have hhead : HeadTakes s (headFrame p b s) := HeadTakes.headFrame hb hq
  have hown : ∀ u : State, siteView u = siteView (headFrame p b s) → u.lane x = (headFrame p b s).lane x →
      ((takeFrame (cycleCloses (headFrame p b s)) p b x u).laneStn x (8 * p)).fd = sensed s.now ((fbyte b 27).getLsbD 2) (s.laneStn x (8 * p)).fd := by
    intro u hsite hlane
    have hl : u.lane x = s.lane x := hlane.trans (hhead.kept.lane (by decide) x)
    have hpow : u.head.powered = s.head.powered := by
      have h1 : u.head.powered = (headFrame p b s).head.powered := site_congr hsite (f := (·.head.powered)) fun _ => rfl
      have h2 := congrArg Head.powered (hhead.kept .head (by decide))
      exact h1.trans h2
    have hnow : u.now = s.now := (site_congr hsite (f := State.now) fun _ => rfl).trans (hhead.kept.now (by decide))
    have hrun : laneRuns u x = true := by rw [laneRuns, hl, hpow]; exact hr
    unfold takeFrame
    rw [if_pos hrun, laneFrame_fd hb (by rw [State.laneSlc, hl]; exact hok) ((chFitted_congr hsite _ _).trans ((hhead.chFitted _ _).trans hf)), hnow,
      State.laneStn, hl]
    rfl
  rw [uplink_eq he hp hs]
  cases x
  · have hother := (takeFrame_work (cycleCloses (headFrame p b s)) p .b (takeFrame (cycleCloses (headFrame p b s)) p b .a (headFrame p b s)) hb).others .a (by decide)
    exact (congrArg (fun l : LaneSt => (tget {} l.st (8 * p)).fd) hother).trans (hown _ rfl rfl)
  · have hwork := takeFrame_work (cycleCloses (headFrame p b s)) p .a (headFrame p b s) hb
    exact hown _ hwork.site (hwork.others .b (by decide))

end Sys2Proof.Machine
end

section
/-! SUPPORT. Safety messages (R348 to R353): what a lane sends, what a frame that is delivered brings, and what a connection's loss leaves. -/

namespace Sys2Proof.Machine

open Sys2Proof

/-! ## Sending (R350) -/

/-- The type code of a SAFEOUT entry that names a type and a destination (R350). -/
def safeOutType (s : State) (k : Nat) : Option Nat :=
  match s.key (.safeout k) .TYPE, s.key (.safeout k) .TO with
  | .w t, .u _ => some (smType t)
  | .w t, .w _ => some (smType t)
  | _, _ => none
/-- The message of one SAFEOUT entry (R350). -/
def sendEntry (k : Nat) (s : State) : State :=
  match s.key (.safeout k) .TYPE with
  | .w t => match s.key (.safeout k) .TO with
    | .u n => sendSafety (smType t) (some n) s
    | .w _ => sendSafety (smType t) none s
    | _ => s
  | _ => s
theorem sendAllSafety_eq (s : State) : sendAllSafety s = forEach (List.range 16) sendEntry s := rfl

/-- Sending has changed the lanes' counts, the network engine's data and its counter; nothing else of Campion. -/
structure Sent (s u : State) : Prop where
  kept : KeptBut [.camp, .net, .work] s u
  safe : u.camp.safe = s.camp.safe
  sentAt : u.camp.sentAt = s.camp.sentAt

theorem Sent.refl (s : State) : Sent s s := ⟨KeptBut.refl _ s, rfl, rfl⟩
theorem Sent.trans {s u v : State} (h : Sent s u) (g : Sent u v) : Sent s v :=
  ⟨h.kept.trans g.kept, g.safe.trans h.safe, g.sentAt.trans h.sentAt⟩

/-- A lane that has counted one message of a type (R350). -/
def counted (type : Nat) (l : LaneSt) : LaneSt := { l with seq := tset l.seq type (tget 0 l.seq type + 1) }
/-- Sending a message counts it in both lanes; the frame itself touches the network engine alone. -/
theorem sendSafety_counts (type : Nat) (dst : Option Nat) (s : State) :
    KeptBut [.net, .work] (s.modCamp fun c => { c with a := counted type c.a, b := counted type c.b }) (sendSafety type dst s) := by
  unfold sendSafety
  dsimp only
  split
  · exact transmit_kept _ _ _ _ _
  · exact KeptBut.refl _ _
theorem sendSafety_sent (type : Nat) (dst : Option Nat) (s : State) : Sent s (sendSafety type dst s) := by
  have h := sendSafety_counts type dst s
  have hc : (sendSafety type dst s).camp = _ := h .camp (by decide)
  exact ⟨((modCamp_kept s _).mono (by decide)).trans (h.mono (by decide)), by rw [hc]; rfl, by rw [hc]; rfl⟩
theorem sendSafety_seq (type : Nat) (dst : Option Nat) (s : State) (x : Lane) (k : Nat) :
    tget 0 ((sendSafety type dst s).lane x).seq k = tget 0 (s.lane x).seq k + BitVec.ofNat 32 (if type = k then 1 else 0) := by
  have hl : (sendSafety type dst s).lane x = counted type (s.lane x) := by
    rw [(sendSafety_counts type dst s).lane (by decide)]
    cases x <;> rfl
  rw [hl, counted]
  split
  · next h => rw [← h, tget_tset_same]; rfl
  · next h => rw [tget_tset_other _ _ _ _ _ (Ne.symm h)]; simp

/-- An entry that names a type and a destination sends one message of its type; another sends none. -/
theorem sendEntry_cases (k : Nat) (s : State) :
    (∃ type dst, safeOutType s k = some type ∧ sendEntry k s = sendSafety type dst s) ∨ safeOutType s k = none ∧ sendEntry k s = s := by
  unfold safeOutType sendEntry
  cases s.key (.safeout k) .TYPE with
  | w t =>
    cases s.key (.safeout k) .TO with
    | u n => exact .inl ⟨_, _, rfl, rfl⟩
    | w v => exact .inl ⟨_, _, rfl, rfl⟩
    | _ => exact .inr ⟨rfl, rfl⟩
  | _ => exact .inr ⟨rfl, rfl⟩
theorem sendEntry_sent (k : Nat) (s : State) : Sent s (sendEntry k s) := by
  obtain ⟨type, dst, -, h⟩ | ⟨-, h⟩ := sendEntry_cases k s
  · rw [h]; exact sendSafety_sent type dst s
  · rw [h]; exact Sent.refl s
theorem safeOutType_congr {s u : State} (h : Sent s u) : safeOutType u = safeOutType s :=
  funext fun k => site_congr (siteView_congr h.kept) (f := (safeOutType · k)) fun _ => rfl
theorem sendEntries_sent (l : List Nat) (s : State) : Sent s (forEach l sendEntry s) := by
  induction l generalizing s with
  | nil => exact Sent.refl s
  | cons k l ih => exact (sendEntry_sent k s).trans (ih _)
/-- Each lane counts every message of a type that the entries send (R350). -/
theorem sendEntries_seq (l : List Nat) (s : State) (x : Lane) (k : Nat) :
    tget 0 ((forEach l sendEntry s).lane x).seq k
      = tget 0 (s.lane x).seq k + BitVec.ofNat 32 ((l.filterMap (safeOutType s)).countP (· = k)) := by
  induction l generalizing s with
  | nil => simp [forEach]
  | cons e l ih =>
    rw [forEach_cons, ih, safeOutType_congr (sendEntry_sent e s)]
    obtain ⟨type, dst, ht, hs⟩ | ⟨ht, hs⟩ := sendEntry_cases e s
    · rw [hs, sendSafety_seq, List.filterMap_cons_some ht, List.countP_cons, BitVec.ofNat_add, BitVec.add_assoc, BitVec.add_comm (BitVec.ofNat 32 _)]
      simp
    · rw [hs, List.filterMap_cons_none ht]

/-! ## Arrival (R362) -/

/-- A path has had a frame of a node. -/
def frameHeard (a : Arrival) (s : State) : State := (noteNode a.node (agePrp s)).modPath a.path fun x => { x with received := x.received + 1 }
/-- The path that a trailer names has been held against the path that the frame came on. -/
def pathJudged (a : Arrival) (p : Path) (s : State) : State := if p = a.path then s else s.modPath a.path fun x => { x with wrong := x.wrong + 1 }
/-- A second copy of a frame has come. -/
def copyHeard (a : Arrival) (q : Nat) (s : State) : State :=
  (s.modNet fun n => { n with window := n.window.map fun c => if c.node = a.node ∧ c.seq = q then { c with twice := true } else c }).modPath
    a.path fun x => { x with dup := x.dup + 1 }
/-- The first copy of a frame stands in the discard window. -/
def windowed (a : Arrival) (q : Nat) (s : State) : State :=
  s.modNet fun n => { n with window := { node := a.node, seq := q, at_ := s.now, counted := nodeKnown s a.node } :: n.window }

theorem frameHeard_kept (a : Arrival) (s : State) : KeptBut [.net] s (frameHeard a s) :=
  ((modNet_kept s _).trans (modNet_kept _ _)).trans (modPath_kept _ _ _)
theorem pathJudged_kept (a : Arrival) (p : Path) (s : State) : KeptBut [.net] s (pathJudged a p s) := by
  unfold pathJudged
  split
  · exact KeptBut.refl _ s
  · exact modPath_kept s _ _
theorem copyHeard_kept (a : Arrival) (q : Nat) (s : State) : KeptBut [.net] s (copyHeard a q s) := (modNet_kept s _).trans (modPath_kept _ _ _)
theorem windowed_kept (a : Arrival) (q : Nat) (s : State) : KeptBut [.net] s (windowed a q s) := modNet_kept s _
/-- Of the discard window, what is older than 400 ms is forgotten. -/
theorem pathJudged_window (a : Arrival) (p : Path) (s : State) :
    (pathJudged a p (frameHeard a s)).net.window = s.net.window.filter fun c => decide (s.now < c.at_ + 400000) := by
  obtain ⟨path, node, trailer, fcs⟩ := a
  unfold pathJudged
  split
  · cases path <;> rfl
  · cases path <;> rfl

section
variable {a : Arrival} {d : State → State} {s : State}

theorem receive_deaf (h : ¬ (s.path a.path).link ∨ ¬ s.head.started ∨ s.engDown .net) : receive a d s = s := if_pos h
variable (h : ¬ (¬ (s.path a.path).link ∨ ¬ s.head.started ∨ s.engDown .net))
include h
theorem receive_fcs (hf : a.fcs = true) : receive a d s = s.modPath a.path fun x => { x with fcs := x.fcs + 1 } := by
  unfold receive; rw [if_neg h, if_pos hf]
theorem receive_untagged (hf : ¬ a.fcs = true) (ht : a.trailer = none) : receive a d s = d (frameHeard a s) := by
  unfold receive; rw [if_neg h, if_neg hf, ht]; rfl
theorem receive_tagged (hf : ¬ a.fcs = true) {p : Path} {q : Nat} (ht : a.trailer = some (p, q)) :
    receive a d s = if (pathJudged a p (frameHeard a s)).net.window.any fun c => decide (c.node = a.node ∧ c.seq = q) then
      copyHeard a q (pathJudged a p (frameHeard a s)) else d (windowed a q (pathJudged a p (frameHeard a s))) := by
  unfold receive; rw [if_neg h, if_neg hf, ht]; rfl
end

/-- A frame that comes is only counted, or it is delivered with nothing but the network engine's data changed. -/
theorem receive_cases (a : Arrival) (d : State → State) (s : State) :
    KeptBut [.net] s (receive a d s) ∨ ∃ v, KeptBut [.net] s v ∧ receive a d s = d v := by
  by_cases h : ¬ (s.path a.path).link ∨ ¬ s.head.started ∨ s.engDown .net
  · exact .inl (by rw [receive_deaf h]; exact KeptBut.refl _ s)
  by_cases hf : a.fcs = true
  · exact .inl (by rw [receive_fcs h hf]; exact modPath_kept s _ _)
  match ht : a.trailer with
  | none => exact .inr ⟨_, frameHeard_kept a s, receive_untagged h hf ht⟩
  | some (p, q) =>
    have hk := (frameHeard_kept a s).trans (pathJudged_kept a p _)
    rw [receive_tagged h hf ht]
    split
    · exact .inl (hk.trans (copyHeard_kept a q _))
    · exact .inr ⟨_, hk.trans (windowed_kept a q _), rfl⟩
/-- One that arrives and is no second copy is delivered. -/
theorem receive_arrives {a : Arrival} (d : State → State) {s : State} (h : arrives s a = true) : ∃ v, KeptBut [.net] s v ∧ receive a d s = d v := by
  simp only [arrives, Bool.and_eq_true, Bool.not_eq_true'] at h
  obtain ⟨⟨⟨⟨hl, hst⟩, hd⟩, hf⟩, hw⟩ := h
  have hup : ¬ (¬ (s.path a.path).link ∨ ¬ s.head.started ∨ s.engDown .net) := by simp [hl, hst, hd]
  have hf : ¬ a.fcs = true := by simp [hf]
  match ht : a.trailer with
  | none => exact ⟨_, frameHeard_kept a s, receive_untagged hup hf ht⟩
  | some (p, q) =>
    refine ⟨_, ((frameHeard_kept a s).trans (pathJudged_kept a p _)).trans (windowed_kept a q _), ?_⟩
    have hnew : ¬ ((pathJudged a p (frameHeard a s)).net.window.any fun c => decide (c.node = a.node ∧ c.seq = q)) = true := by
      rw [ht] at hw
      have hold : ∀ c ∈ s.net.window, c.node = a.node → c.seq = q → c.at_ + 400000 ≤ s.now := by simpa using hw
      rw [pathJudged_window]
      simpa using fun c hc hnow hn hq => absurd (hold c hc hn hq) (Nat.not_le.2 hnow)
    rw [receive_tagged hup hf ht, if_neg hnew]

end Sys2Proof.Machine
end

section
/-! SUPPORT. Safety message connections (R351, R352): what the loss of one leaves, and what a message that is accepted or rejected leaves. -/

namespace Sys2Proof.Machine

open Sys2Proof

/-- Nothing but what is told and recorded, and of Campion neither the connections nor the authorisations, has changed. -/
structure ConnsStay (s u : State) : Prop where
  kept : KeptBut [.camp, .sess, .sup, .jrn] s u
  conns : u.camp.conns = s.camp.conns
  auths : u.camp.auths = s.camp.auths

namespace ConnsStay

variable {s u v : State}

theorem refl (s : State) : ConnsStay s s := ⟨KeptBut.refl _ s, rfl, rfl⟩
theorem trans (h : ConnsStay s u) (g : ConnsStay u v) : ConnsStay s v := ⟨h.kept.trans g.kept, g.conns.trans h.conns, g.auths.trans h.auths⟩
theorem ofTold (h : KeptBut [.sess, .sup, .jrn] s u) : ConnsStay s u := by
  have hc : u.camp = s.camp := h .camp (by decide)
  exact ⟨h.mono (by decide), congrArg Campion.conns hc, congrArg Campion.auths hc⟩
theorem ofCommands (h : CommandsOnly s u) : ConnsStay s u := ⟨h.1.mono (by decide), h.camp (·.conns), h.camp (·.auths)⟩
theorem zeroSince (f : Campion → Option Nat) (s : State) : ConnsStay s (s.modCamp fun c => { c with msgZeroSince := f c }) :=
  ⟨(modCamp_kept s _).mono (by decide), rfl, rfl⟩

end ConnsStay

theorem safetySays_kept (src : Nat) (type word : String) (s : State) : KeptBut [.sess, .sup, .jrn] s (safetySays src type word s) :=
  ((forEach_kept _ _ s fun _ s => say_kept _ _ s).mono (by decide)).trans ((record_kept _ _ _ _).mono (by decide))
theorem connKey_congr {s u : State} (h : siteView u = siteView s) (k : Nat) : connKey u k = connKey s k := site_congr h (f := (connKey · k)) fun _ => rfl

/-- The connection of an entry changed. -/
def modConn (k : Nat) (f : SafeConn → SafeConn) (s : State) : State := s.modCamp fun c => { c with conns := tmod {} c.conns (connKey s k) f }
theorem modConn_kept (k : Nat) (f : SafeConn → SafeConn) (s : State) : KeptBut [.camp] s (modConn k f s) := modCamp_kept s _
/-- The connection of every entry after one has changed and the others have stayed. -/
theorem connOf_modConn {l : List Part} {k : Nat} {f : SafeConn → SafeConn} {s u : State} (h : KeptBut l s u)
    (hc : u.camp.conns = (modConn k f s).camp.conns) (j : Nat) (hl : ∀ p ∈ [Part.fixed, .clk, .head, .cfg, .sl], p ∉ l := by decide) :
    connOf u j = if connKey s j = connKey s k then f (connOf s k) else connOf s j := by
  rw [connOf, hc, connKey_congr (siteView_congr h hl)]
  exact tget_tmod _ _ _ _ _

/-! ## The loss of a connection (R352) -/

/-- A lost connection holds the safe content of its type. -/
def lostConn (type : String) (q : SafeConn) : SafeConn := { q with valid := false, payload := safeContent type }
/-- Both lanes hold and send what they permit. -/
def lanesCommand (s : State) : State := setMasks .b (setMasks .a (setPermitted .b (setPermitted .a s)))
theorem lanesCommand_commands (s : State) : CommandsOnly s (lanesCommand s) :=
  (((setPermitted_commands .a s).trans (setPermitted_commands .b _)).trans (setMasks_commands .a _)).trans (setMasks_commands .b _)
theorem lanesCommand_masks (s : State) (x : Lane) : ((lanesCommand s).lane x).masks = allSlices.map fun p => (p, laneMask (lanesCommand s) x p) := by
  unfold lanesCommand
  simp only [laneMask_congr (setMasks_commands .b _).view]
  cases x
  · rw [setMasks_lane_other _ (by decide), setMasks_masks]
    simp only [laneMask_congr (setMasks_commands .a _).view]
  · exact setMasks_masks .b _

section
variable {k src : Nat} {t : String} {s : State} (hs : s.key (.safein k) .FROM = .u src) (ht : s.key (.safein k) .TYPE = .w t)
include hs ht

theorem connectionLost_eq : connectionLost k s = lanesCommand (safetySays src t "lost"
    (if t = "RELEASE" ∧ (modConn k (lostConn t) s).key .unit .RELUNIT = .u src then (modConn k (lostConn t) s).modCamp fun c => { c with msgZeroSince := none }
      else modConn k (lostConn t) s)) := by
  unfold connectionLost
  rw [hs, ht]
  rfl
theorem connectionLost_stay : ConnsStay (modConn k (lostConn t) s) (connectionLost k s) := by
  rw [connectionLost_eq hs ht]
  refine ConnsStay.trans ?_ ((ConnsStay.ofTold (safetySays_kept _ _ _ _)).trans (ConnsStay.ofCommands (lanesCommand_commands _)))
  split
  · exact ConnsStay.zeroSince (fun _ => none) _
  · exact ConnsStay.refl _
end

/-- With the release message of the release unit lost, ZERO of it is active since no time (R352). -/
theorem connectionLost_zeroSince {k src : Nat} {s : State} (hs : s.key (.safein k) .FROM = .u src) (ht : s.key (.safein k) .TYPE = .w "RELEASE")
    (hr : s.key .unit .RELUNIT = .u src) : (connectionLost k s).camp.msgZeroSince = none := by
  have hkey : (modConn k (lostConn "RELEASE") s).key .unit .RELUNIT = .u src :=
    (site_congr (siteView_congr (modConn_kept k _ s)) (f := (State.key · .unit .RELUNIT)) fun _ => rfl).trans hr
  rw [connectionLost_eq hs ht, if_pos ⟨rfl, hkey⟩, (lanesCommand_commands _).camp (·.msgZeroSince)]
  exact congrArg Campion.msgZeroSince (safetySays_kept _ _ _ _ .camp (by decide))
theorem connectionLost_masks {k src : Nat} {t : String} {s : State} (hs : s.key (.safein k) .FROM = .u src) (ht : s.key (.safein k) .TYPE = .w t) (x : Lane) :
    ((connectionLost k s).lane x).masks = allSlices.map fun p => (p, laneMask (connectionLost k s) x p) := by
  rw [connectionLost_eq hs ht]
  exact lanesCommand_masks _ x

/-! ## An accepted message (R351 to R353) -/

/-- What a message leaves in its connection. -/
def messageConn (type : Nat) (seq : W32) (payload : List Byte) (now : Nat) : SafeConn :=
  { lastSeq := some seq, acceptedAt := some now, valid := decide (type ≠ 4), payload }
/-- A connection whose time has run out is lost first. -/
def lostFirst (k : Nat) (s : State) : State := if (connOf s k).valid ∧ ¬ connValid s (connOf s k) then connectionLost k s else s
/-- The message stands in its connection. -/
def messageTaken (k type : Nat) (seq : W32) (payload : List Byte) (s : State) : State :=
  modConn k (fun _ => messageConn type seq payload s.now) s
/-- The authorisation that a message carries (R353). -/
def authOf (payload : List Byte) (now : Nat) : Auth :=
  { session := fieldAt payload 0 1, tag := fieldAt payload 1 4, check := fieldAt payload 5 2, at_ := now }
/-- An authorisation is held. -/
def authHeld (payload : List Byte) (s : State) : State := s.modCamp fun c => { c with auths := c.auths ++ [authOf payload s.now] }
/-- The return of a connection is told. -/
def okSaid (was : Bool) (src type : Nat) (s : State) : State := if was then s else safetySays src (smName type) "ok" s
/-- The release message of the release unit tells since when ZERO is active. -/
def zeroTold (src type : Nat) (payload : List Byte) (s : State) : State :=
  if type = 1 ∧ s.key .unit .RELUNIT = .u src then
    s.modCamp fun c => { c with msgZeroSince := sinceOf c.msgZeroSince ((payload.getD 0 0).getLsbD 2) s.now }
  else s
theorem okSaid_stay (was : Bool) (src type : Nat) (s : State) : ConnsStay s (okSaid was src type s) := by
  unfold okSaid
  split
  · exact ConnsStay.refl s
  · exact ConnsStay.ofTold (safetySays_kept _ _ _ _)
theorem zeroTold_stay (src type : Nat) (payload : List Byte) (s : State) : ConnsStay s (zeroTold src type payload s) := by
  unfold zeroTold
  split
  · exact ConnsStay.zeroSince _ s
  · exact ConnsStay.refl s

section
variable (k src dst type : Nat) (seq : W32) (payload : List Byte) (s : State)

theorem acceptSafety_auth (h : type = 4) : acceptSafety k src dst type seq payload s
    = if dst ≠ ownUnit (messageTaken k type seq payload (lostFirst k s)) then messageTaken k type seq payload (lostFirst k s)
      else authHeld payload (messageTaken k type seq payload (lostFirst k s)) := by
  unfold acceptSafety
  simp only [h, if_true]
  rfl
theorem acceptSafety_cyclic (h : type ≠ 4) : acceptSafety k src dst type seq payload s
    = zeroTold src type payload (okSaid (connOf (lostFirst k s) k).valid src type (messageTaken k type seq payload (lostFirst k s))) := by
  unfold acceptSafety
  simp only [if_neg h]
  rfl
end

/-- A connection that is lost first leaves the other connections, and the authorisations. -/
theorem lostFirst_others (k : Nat) (s : State) : KeptBut [.camp, .sess, .sup, .jrn] s (lostFirst k s) ∧ (lostFirst k s).camp.auths = s.camp.auths
    ∧ ∀ i, i ≠ connKey s k → tget {} (lostFirst k s).camp.conns i = tget {} s.camp.conns i := by
  have hlost : connectionLost k s = s ∨ ∃ t, ConnsStay (modConn k (lostConn t) s) (connectionLost k s) := by
    cases hs : s.key (.safein k) .FROM with
    | u src =>
      cases ht : s.key (.safein k) .TYPE with
      | w t => exact .inr ⟨t, connectionLost_stay hs ht⟩
      | _ => left; unfold connectionLost; rw [hs, ht]
    | _ => left; unfold connectionLost; rw [hs]
  unfold lostFirst
  split
  · obtain h | ⟨t, h⟩ := hlost
    · rw [h]; exact ⟨KeptBut.refl _ s, rfl, fun _ _ => rfl⟩
    · refine ⟨((modConn_kept k _ s).mono (by decide)).trans h.kept, h.auths, fun i hi => ?_⟩
      rw [h.conns]
      exact (tget_tmod _ _ _ _ _).trans (if_neg hi)
  · exact ⟨KeptBut.refl _ s, rfl, fun _ _ => rfl⟩

/-- A message stands in its connection, the others are as they were, and these authorisations are held. -/
structure Accepted (k : Nat) (conn : SafeConn) (auths : List Auth) (s u : State) : Prop where
  kept : KeptBut [.camp, .sess, .sup, .jrn] s u
  conn : tget {} u.camp.conns (connKey s k) = conn
  others : ∀ i, i ≠ connKey s k → tget {} u.camp.conns i = tget {} s.camp.conns i
  auths : u.camp.auths = auths

theorem Accepted.stay {k : Nat} {q : SafeConn} {l : List Auth} {s u v : State} (h : Accepted k q l s u) (g : ConnsStay u v) : Accepted k q l s v :=
  ⟨h.kept.trans g.kept, by rw [g.conns, h.conn], fun i hi => by rw [g.conns, h.others i hi], g.auths.trans h.auths⟩
/-- The connection of an entry after a message was accepted on one. -/
theorem Accepted.connOf {k : Nat} {q : SafeConn} {l : List Auth} {s u : State} (h : Accepted k q l s u) (j : Nat) :
    connOf u j = if connKey s j = connKey s k then q else connOf s j := by
  unfold Machine.connOf
  rw [connKey_congr (siteView_congr h.kept)]
  split
  · next hj => rw [hj, h.conn]
  · next hj => exact h.others _ hj

section
variable (k src dst type : Nat) (seq : W32) (payload : List Byte) (s : State)

theorem messageTaken_accepted :
    Accepted k (messageConn type seq payload s.now) s.camp.auths s (messageTaken k type seq payload (lostFirst k s)) := by
  obtain ⟨hk, ha, ho⟩ := lostFirst_others k s
  have hkey : connKey (lostFirst k s) k = connKey s k := connKey_congr (siteView_congr hk) k
  have hconns : ∀ i, tget {} (messageTaken k type seq payload (lostFirst k s)).camp.conns i
      = if i = connKey s k then messageConn type seq payload s.now else tget {} (lostFirst k s).camp.conns i := fun i => by
    rw [← hkey, ← hk.now (by decide)]
    exact tget_tmod {} (lostFirst k s).camp.conns _ i fun _ => messageConn type seq payload (lostFirst k s).now
  exact {
    kept := hk.trans ((modConn_kept _ _ _).mono (by decide))
    conn := (hconns _).trans (if_pos rfl)
    others := fun i hi => ((hconns i).trans (if_neg hi)).trans (ho i hi)
    auths := ha }
/-- What a message of a cyclic type leaves (R352). -/
theorem acceptSafety_cyclic_accepted (h : type ≠ 4) :
    Accepted k (messageConn type seq payload s.now) s.camp.auths s (acceptSafety k src dst type seq payload s) := by
  rw [acceptSafety_cyclic k src dst type seq payload s h]
  exact ((messageTaken_accepted k type seq payload s).stay (okSaid_stay _ _ _ _)).stay (zeroTold_stay _ _ _ _)
/-- What an authorisation leaves: it is held where it names this unit (R353). -/
theorem acceptSafety_auth_accepted (h : type = 4) :
    Accepted k (messageConn type seq payload s.now) (if dst = ownUnit s then s.camp.auths ++ [authOf payload s.now] else s.camp.auths) s
      (acceptSafety k src dst type seq payload s) := by
  have hm := messageTaken_accepted k type seq payload s
  have hown : ownUnit (messageTaken k type seq payload (lostFirst k s)) = ownUnit s := site_congr (siteView_congr hm.kept) (f := ownUnit) fun _ => rfl
  rw [acceptSafety_auth k src dst type seq payload s h, hown]
  by_cases hd : dst = ownUnit s
  · rw [if_neg (not_not.2 hd), if_pos hd]
    refine ⟨hm.kept.trans ((modCamp_kept _ _).mono (by decide)), hm.conn, hm.others, ?_⟩
    rw [← hm.auths, ← hm.kept.now (by decide)]
    rfl
  · rw [if_pos hd, if_neg hd]
    exact hm
end

/-! ## The ordered tests (R351) -/

theorem heardPeer_kept (n : Nat) (s : State) : KeptBut [.net, .sess, .sup] s (heardPeer n s) := by
  unfold heardPeer
  dsimp only
  split
  · exact KeptBut.refl _ s
  · split
    · exact ((modNet_kept s _).mono (by decide)).trans ((reportPeer_kept _ _ _).mono (by decide))
    · exact (modNet_kept s _).mono (by decide)
/-- A message with a wrong code changes nothing, whatever else it says. -/
theorem safetyFrame_wrong {b : List Byte} {key : Nat} {s : State} (hk : s.camp.a.skey = some key) (hc : b.drop 60 ≠ safetyCode key (b.take 60)) :
    safetyFrame b s = s := by
  have hreject : ∀ src, rejectSafety src false s = s := fun src => by simp [rejectSafety]
  unfold safetyFrame
  simp only [hk, hc, decide_false, Bool.false_and, hreject, Bool.false_eq_true, false_and, and_false, if_false]
  split
  · rfl
  · split <;> rfl
/-- A message that is for this unit, by an entry, with the right code, newer than the last and fresh (R351). -/
structure PassesTests (b : List Byte) (k key : Nat) (s : State) : Prop where
  length : b.length = 64
  version : fieldAt b 5 1 = 1
  type : 1 ≤ fieldAt b 4 1 ∧ fieldAt b 4 1 ≤ 4
  entry : safeIn s (fieldAt b 0 2) (smName (fieldAt b 4 1)) = some k
  system : s.key .unit .SYSID = .i (fieldAt b 6 2)
  dest : fieldAt b 2 2 = ownUnit s ∨ fieldAt b 2 2 = 65535
  keyA : s.camp.a.skey = some key
  keyB : s.camp.b.skey = some key
  code : b.drop 60 = safetyCode key (b.take 60)
  newer : ∀ l, (connOf s k).lastSeq = some l → 1 ≤ (BitVec.ofNat 32 (fieldAt b 8 4) - l).toNat ∧ (BitVec.ofNat 32 (fieldAt b 8 4) - l).toNat ≤ 2147483647
  fresh : -1000000 ≤ s.time - unleI (slice b 12 8) ∧ s.time - unleI (slice b 12 8) ≤ 1000 * s.keyI .unit .SMTIMEOUT
/-- A message that passes every test is accepted, and its source's unit is heard. -/
theorem safetyFrame_accepts {b : List Byte} {k key : Nat} {s : State} (h : PassesTests b k key s) :
    safetyFrame b s = acceptSafety k (fieldAt b 0 2) (fieldAt b 2 2) (fieldAt b 4 1) (BitVec.ofNat 32 (fieldAt b 8 4)) (slice b 20 40)
      (heardPeer (fieldAt b 0 2) s) := by
  unfold safetyFrame
  rw [if_neg (not_not.2 h.length)]
  dsimp only
  rw [if_pos h.type, h.entry]
  dsimp only
  refine if_pos ⟨h.version, decide_eq_true h.system, h.dest, ?_, ?_, decide_eq_true h.fresh⟩
  · rw [h.keyA]
    simp [h.keyB, ← h.code]
  · rw [Option.bind_some]
    cases hl : (connOf s k).lastSeq with
    | none => rfl
    | some l => exact decide_eq_true (h.newer l hl)

/-- The tests read nothing of the network engine's data. -/
theorem PassesTests.congr {b : List Byte} {k key : Nat} {s v : State} (h : PassesTests b k key s) (hk : KeptBut [.net] s v) : PassesTests b k key v := by
  have hsite := siteView_congr hk
  have hcamp : v.camp = s.camp := hk .camp (by decide)
  exact { h with
    entry := (site_congr hsite (f := (safeIn · _ _)) fun _ => rfl).trans h.entry
    system := (site_congr hsite (f := (State.key · _ _)) fun _ => rfl).trans h.system
    dest := by rw [site_congr hsite (f := ownUnit) fun _ => rfl]; exact h.dest
    keyA := by rw [hcamp]; exact h.keyA
    keyB := by rw [hcamp]; exact h.keyB
    newer := fun l hl => h.newer l (by rwa [connOf, hcamp, connKey_congr hsite] at hl)
    fresh := by
      rw [site_congr hsite (f := State.time) fun _ => rfl, site_congr hsite (f := (State.keyI · _ _)) fun _ => rfl]
      exact h.fresh }

end Sys2Proof.Machine
end

section
/-! SUPPORT. The rows of the elements and of the safety messages, and the obligation about them. -/

namespace Sys2Proof.Machine

open Sys2Proof

/-! ## The enable channels (R19, R228) -/

/-- A mask and its instant as a lane's enable channel brings them. -/
def takeMask (x : Lane) (mask : Byte) (now : Nat) (q : Slice) : Slice :=
  match x with
  | .a => { q with maskA := mask, maskAtA := some now }
  | .b => { q with maskB := mask, maskAtB := some now }

theorem enableMask_slc (x : Lane) (p k : Nat) (mask : Byte) (s : State) :
    (setElements x p mask (s.modSlc p (takeMask x mask s.now))).slc k = if k = p then setElem x mask (takeMask x mask s.now (s.slc p)) else s.slc k := by
  rw [setElements_slc]
  split
  · rw [slc_modSlc, if_pos rfl]
  · next h => rw [slc_modSlc, if_neg h]
/-- A missing mask leaves the elements of its slice open (R228). -/
theorem elementsClosed_setElements_zero (x : Lane) {p m : Nat} (hm : m ∈ stationsOf p) (s : State) : elementsClosed (setElements x p 0 s) m = false := by
  have hslot : slotOf m = p := mem_stationsOf.1 hm
  unfold elementsClosed
  rw [hslot, setElements_slc, if_pos rfl]
  cases x <;> simp [setElem, maskBit]

section
variable (x : Lane) (p : Fin 8) (mask : Byte) (s : State)

theorem enableMask_row (hp : (s.slc p).powered = true) (hh : s.head.powered = true) (hm : mask = tget 0 (s.lane x).masks p) :
    Does (.enableMask x p mask) s fun u =>
      (x = .a → u.slc p = { s.slc p with maskA := mask, maskAtA := some s.now, elemA := mask })
      ∧ (x = .b → u.slc p = { s.slc p with maskB := mask, maskAtB := some s.now, elemB := mask })
      ∧ (∀ k, k ≠ p.val → u.slc k = s.slc k) ∧ (∀ m, m ∉ stationsOf p → u.stn m = s.stn m) ∧ KeptBut [.sl, .st] s u
      ∧ (∀ m ∈ stationsOf p, (elementsClosed u m = false → (u.stn m).fd.on = false)
        ∧ (elementsClosed u m = true → (s.stn m).fd.cmd = true → (s.stn m).fd.maskOff = true → canTurnOn u m .fd = true → (u.stn m).fd.on = true)
        ∧ { u.stn m with fd := (s.stn m).fd } = s.stn m ∧ (u.stn m).fd.cmd = (s.stn m).fd.cmd) := by
  have hrow : exec (.enableMask x p mask) s = .next (settle s (setElements x p mask (s.modSlc p (takeMask x mask s.now)))) :=
    congrArg (fun u => Host.Outcome.next (settle s u)) (if_pos ⟨hp, hh, hm⟩)
  refine ⟨_, hrow, ?_⟩
  obtain ⟨-, hother, hfollow⟩ := setElements_follows x p mask (s.modSlc p (takeMask x mask s.now))
  refine ⟨?_, ?_, fun k hk => (enableMask_slc x p k mask s).trans (if_neg hk), hother,
    ((modSlc_kept s p _).mono (by decide)).trans (setElements_kept x p mask _), fun m hm => ?_⟩
  · rintro rfl; exact (enableMask_slc _ p p mask s).trans (if_pos rfl)
  · rintro rfl; exact (enableMask_slc _ p p mask s).trans (if_pos rfl)
  · obtain ⟨hoff, hon, hrest, hcmd⟩ := hfollow m hm
    exact ⟨hoff, hon, hrest, hcmd⟩
theorem enableMaskMissing_row (hp : (s.slc p).powered = true) (ha : x = .a → heldFor (s.slc p).maskAtA s.now 400 = true)
    (hb : x = .b → heldFor (s.slc p).maskAtB s.now 400 = true) :
    Does (.enableMaskMissing x p) s fun u => (x = .a → u.slc p = { s.slc p with elemA := 0 }) ∧ (x = .b → u.slc p = { s.slc p with elemB := 0 })
      ∧ (∀ k, k ≠ p.val → u.slc k = s.slc k) ∧ (∀ m ∈ stationsOf p, (u.stn m).fd.on = false) ∧ (∀ m, m ∉ stationsOf p → u.stn m = s.stn m)
      ∧ KeptBut [.sl, .st] s u := by
  obtain ⟨-, hother, hfollow⟩ := setElements_follows x p 0 s
  have hslc : ∀ k, (setElements x p 0 s).slc k = if k = p.val then setElem x 0 (s.slc p) else s.slc k := fun k => setElements_slc x p k 0 s
  have hrow : execEnableMaskMissing x p s = .next (settle s (setElements x p 0 s)) := by
    unfold execEnableMaskMissing
    cases x
    · rw [if_pos ⟨hp, ha rfl⟩]
    · rw [if_pos ⟨hp, hb rfl⟩]
  refine ⟨_, hrow, ?_, ?_, fun k hk => (hslc k).trans (if_neg hk), fun m hm => (hfollow m hm).1 (elementsClosed_setElements_zero x hm s), hother,
    setElements_kept x p 0 s⟩
  · rintro rfl; exact (hslc p).trans (if_pos rfl)
  · rintro rfl; exact (hslc p).trans (if_pos rfl)
end

/-! ## Sense tests as a lane counts them (R338, R341) -/

theorem sensed_early {now t : Nat} {failed : Bool} {l : LaneLamp} (ht : l.senseAt = some t) (hn : now < t + 10000000) : sensed now failed l = l := by
  unfold sensed
  rw [ht, Option.any_some, decide_eq_true hn, if_pos rfl]
theorem sensed_due {now : Nat} {failed : Bool} {l : LaneLamp} (h : ∀ t, l.senseAt = some t → t + 10000000 ≤ now) :
    sensed now failed l = { countSense (!failed) l with senseAt := some now } := by
  unfold sensed
  cases hs : l.senseAt with
  | none => rw [Option.any_none, if_neg Bool.false_ne_true]
  | some t => rw [Option.any_some, decide_eq_false (Nat.not_lt.2 (h t hs)), if_neg Bool.false_ne_true]

/-- An AXIS record of the first stations lets nothing that waits be read where nothing waits. -/
theorem uplink_inbuf {p : Nat} {b : List Byte} {s : State} (he : enabled s p = true) (hp : (s.slc p).powered = true) (hs : s.head.started = true)
    (hq : noSaving s = true) (hb : (fbyte b 0).toNat % 64 = 0) : (uplink p b s).inbuf = s.inbuf := by
  rw [uplink_eq he hp hs]
  have hwork : ∀ x u, (takeFrame (cycleCloses (headFrame p b s)) p b x u).inbuf = u.inbuf := fun x u => by
    have hw := takeFrame_work (cycleCloses (headFrame p b s)) p x u hb
    exact hw.kept .inbuf (by decide)
  rw [hwork, hwork]
  have hhead : HeadTakes s (headFrame p b s) := HeadTakes.headFrame hb hq
  exact hhead.kept .inbuf (by decide)
theorem readFreed_nil {s : State} (h : s.inbuf = []) : readFreed s = s := by
  unfold readFreed
  rw [h]
  rfl

/-! ## The rows of the safety messages (R350 to R352) -/

/-- Each lane counts the messages that the unit sends (R350). -/
theorem sendAllSafety_sends (s : State) : Sent s (sendAllSafety s)
    ∧ ∀ (x : Lane) (k : Nat), tget 0 ((sendAllSafety s).lane x).seq k = tget 0 (s.lane x).seq k + BitVec.ofNat 32 ((safeOuts s).countP (· = k)) := by
  rw [sendAllSafety_eq]
  exact ⟨sendEntries_sent _ s, sendEntries_seq _ s⟩
theorem maySendSafety_safe {s : State} (h : maySendSafety s = true) : s.camp.safe = false := by
  simp only [maySendSafety, Bool.and_eq_true, Bool.not_eq_true'] at h
  obtain ⟨⟨⟨⟨_, hcalm⟩, _⟩, _⟩, _⟩ := h
  exact hcalm

/-- A message that comes to a unit that takes part is judged by the tests. -/
def judgeMessage (b : List Byte) (s : State) : State := if s.head.started ∧ s.head.unit.isSome ∧ ¬ s.engDown .net then safetyFrame b s else s
theorem judgeMessage_takesPart {s : State} (b : List Byte) (h : takesPart s = true) : judgeMessage b s = safetyFrame b s := by
  simp only [takesPart, Bool.and_eq_true, Bool.not_eq_true'] at h
  obtain ⟨⟨hs, hu⟩, hd⟩ := h
  exact if_pos ⟨hs, hu, by simp [hd]⟩
theorem judgeMessage_wrong {b : List Byte} {key : Nat} {s : State} (hk : s.camp.a.skey = some key) (hc : b.drop 60 ≠ safetyCode key (b.take 60)) :
    judgeMessage b s = s := by
  unfold judgeMessage
  split
  · exact safetyFrame_wrong hk hc
  · rfl
theorem safetyMessageReceived_exec (a : Arrival) (b : List Byte) (s : State) :
    exec (.safetyMessageReceived ⟨a, b⟩) s = .next (settle s (receive a (judgeMessage b) s)) := rfl
theorem safetyMessageReceived_wrong {a : Arrival} {b : List Byte} {key : Nat} {s : State} (hk : s.camp.a.skey = some key)
    (hc : b.drop 60 ≠ safetyCode key (b.take 60)) : KeptBut [.net] s (receive a (judgeMessage b) s) := by
  obtain h | ⟨v, hv, h⟩ := receive_cases a (judgeMessage b) s
  · exact h
  · have hcamp : v.camp = s.camp := hv .camp (by decide)
    rw [h, judgeMessage_wrong (by rw [hcamp]; exact hk) hc]
    exact hv
theorem slice_slice {off len i n : Nat} (l : List Byte) (h : i + n ≤ len) : slice (slice l off len) i n = slice l (off + i) n := by
  simp only [slice, List.drop_take, List.drop_drop, List.take_take]
  rw [Nat.min_eq_left (by omega)]
/-- The authorisation in a frame's payload (R348, R353). -/
theorem authOf_payload (b : List Byte) (now : Nat) :
    authOf (slice b 20 40) now = { session := fieldAt b 20 1, tag := fieldAt b 21 4, check := fieldAt b 25 2, at_ := now } := by
  unfold authOf fieldAt
  rw [slice_slice b (by decide), slice_slice b (by decide), slice_slice b (by decide)]

/-- What a message that arrives and passes the tests leaves: it is accepted; until then only its source's unit was heard. -/
structure MessageHeld (b : List Byte) (k : Nat) (s u : State) : Prop where
  kept : KeptBut [.camp, .net, .sess, .sup, .jrn] s u
  conns : ∀ j, connOf u j = if connKey s j = connKey s k then
    messageConn (fieldAt b 4 1) (BitVec.ofNat 32 (fieldAt b 8 4)) (slice b 20 40) s.now else connOf s j
  auths : u.camp.auths = if fieldAt b 4 1 = 4 ∧ fieldAt b 2 2 = ownUnit s then s.camp.auths ++ [authOf (slice b 20 40) s.now] else s.camp.auths

theorem acceptSafety_held {b : List Byte} (k : Nat) {s v : State} (h : KeptBut [.net, .sess, .sup] s v) :
    MessageHeld b k s
      (acceptSafety k (fieldAt b 0 2) (fieldAt b 2 2) (fieldAt b 4 1) (BitVec.ofNat 32 (fieldAt b 8 4)) (slice b 20 40) v) := by
  have hsite := siteView_congr h
  have hcamp : v.camp = s.camp := h .camp (by decide)
  have hown : ownUnit v = ownUnit s := site_congr hsite (f := ownUnit) fun _ => rfl
  have hnow : v.now = s.now := h.now (by decide)
  have hheld : ∀ l u, Accepted k (messageConn (fieldAt b 4 1) (BitVec.ofNat 32 (fieldAt b 8 4)) (slice b 20 40) v.now) l v u →
      l = (if fieldAt b 4 1 = 4 ∧ fieldAt b 2 2 = ownUnit s then s.camp.auths ++ [authOf (slice b 20 40) s.now] else s.camp.auths) →
      MessageHeld b k s u := fun l u hu hl => {
    kept := (h.mono (by decide)).trans (hu.kept.mono (by decide))
    conns := fun j => by
      rw [hu.connOf j, connKey_congr hsite, connKey_congr hsite, hnow, connOf, hcamp, connKey_congr hsite]
      rfl
    auths := hu.auths.trans hl }
  by_cases ht : fieldAt b 4 1 = 4
  · exact hheld _ _ (acceptSafety_auth_accepted _ _ _ _ _ _ _ ht) (by simp only [ht, true_and, hown, hcamp, hnow])
  · exact hheld _ _ (acceptSafety_cyclic_accepted _ _ _ _ _ _ _ ht) (by rw [if_neg fun h => ht h.1, hcamp])
theorem safetyMessageReceived_held {a : Arrival} {b : List Byte} {k key : Nat} {s : State} (ha : arrives s a = true)
    (hu : s.head.unit.isSome = true) (h : PassesTests b k key s) : MessageHeld b k s (receive a (judgeMessage b) s) := by
  obtain ⟨v, hk, hv⟩ := receive_arrives (judgeMessage b) ha
  have hpart : takesPart v = true := by
    simp only [arrives, Bool.and_eq_true] at ha
    obtain ⟨⟨⟨⟨_, hs⟩, hd⟩, _⟩, _⟩ := ha
    rw [site_congr (siteView_congr hk) (f := takesPart) fun _ => rfl]
    simp only [takesPart, hs, hu, hd, Bool.and_self]
  rw [hv, judgeMessage_takesPart b hpart, safetyFrame_accepts (h.congr hk)]
  exact acceptSafety_held k ((hk.mono (by decide)).trans (heardPeer_kept _ v))

/-! ## The obligation -/

/-- Settles O52: each row's effect by the rules of the elements, the backstop, the sense paths and the safety messages above. -/
theorem elementsAndMessages : Obligations.ElementsAndMessages := by
  refine ⟨enableMask_row, enableMaskMissing_row, fun x n c t s hl hi hr hs hb ho hd hc ht hh hn => does_if rfl hl ?_,
    fun n c s hl h => does_if rfl hl (backstopSample_calm h), fun n w low high s hp hf => does_if rfl ⟨hp, hf⟩ ?_,
    fun p b x n old s he hp hs hi hq hn ho hr hok hb hf => ?_, fun s hm ht => does_if rfl ⟨hm, ?_⟩ ?_,
    fun a b k src type key s ha hu hlen hver hsrc htype h1 h4 hin hsys hdst hka hkb hcode hnew hold hyoung => ?_,
    fun a b key s hk hc => ⟨_, safetyMessageReceived_exec a b s, safetyMessageReceived_wrong hk hc⟩,
    fun k src t s hv ht hlate hs hty hr => does_if rfl ⟨hv, ?_⟩ ?_⟩
  · have hout := backstopSample_trips hl hi hn ho { runs := hr, sees := hs, calm := hb, driven := hd, above := hc, held := by simpa [ht, heldFor] using hh }
    exact ⟨hout.backstop, hout.since, hout.fault.leaf, hout.fault.cause, hout.fault.others, wantElement_of_backstop hout.leafs hout.backstop, hout.masks⟩
  · refine ⟨?_, ⟨fun m hm => ?_, fun v hv => ?_⟩, modSw_kept s n w _⟩
    · simp [senseTest]
    · simp [senseTest, hm]
    · simp [senseTest, hv]
  · subst n old
    refine ⟨_, congrArg (fun u => Host.Outcome.next (settle s u)) (readFreed_nil ((uplink_inbuf he hp hs hq hb).trans hi)), ?_⟩
    dsimp only
    rw [uplink_fd he hp hs hq hr hok hb hf]
    refine ⟨fun ⟨t, ht, hn⟩ => sensed_early ht hn, fun hdue hpass => ?_, fun hdue hfail => ?_⟩
    · rw [sensed_due hdue, hpass]; rfl
    · rw [sensed_due hdue, hfail]; rfl
  · cases hsent : s.camp.sentAt with
    | none => exact .inl rfl
    | some t => exact .inr (by simpa [heldFor] using ht t hsent)
  · obtain ⟨⟨hk, hsafe, hat⟩, hseq⟩ := sendAllSafety_sends (s.modCamp fun c => { c with sentAt := some s.now })
    refine ⟨((modCamp_kept s _).mono (by decide)).trans hk, hsafe.trans (maySendSafety_safe hm), hat, fun x k => (hseq x k).trans ?_⟩
    cases x <;> rfl
  · subst src type
    have hu := safetyMessageReceived_held ha hu ⟨hlen, hver, ⟨h1, h4⟩, hin, hsys, hdst, hka, hkb, hcode, hnew, hold, hyoung⟩
    refine ⟨_, safetyMessageReceived_exec a b s, (hu.conns k).trans (if_pos rfl), fun j hj => (hu.conns j).trans (if_neg hj), hu.kept,
      fun ht => hu.auths.trans (if_neg fun h => ht h.1), fun _ hd => hu.auths.trans (if_neg fun h => hd h.2), fun ht hd => ?_⟩
    rw [hu.auths, if_pos ⟨ht, hd⟩, authOf_payload]
  · simpa [connValid, hv, ht, heldFor] using hlate
  · have hstay := connectionLost_stay hs hty
    have hkept : KeptBut [.camp, .sess, .sup, .jrn] s (connectionLost k s) := ((modConn_kept k _ s).mono (by decide)).trans hstay.kept
    have hconn : ∀ j, connOf (connectionLost k s) j = if connKey s j = connKey s k then lostConn "RELEASE" (connOf s k) else connOf s j :=
      fun j => connOf_modConn hkept hstay.conns j
    exact ⟨(hconn k).trans (if_pos rfl), connectionLost_zeroSince hs hty hr, fun j hj => (hconn j).trans (if_neg hj), hkept, connectionLost_masks hs hty⟩

end Sys2Proof.Machine
end

section
/-! SUPPORT. The pool-full flag, the state after reset, and what follows a command for which nothing waits. -/

namespace Sys2Proof.Machine
open Sys2Proof
/-! ## The pool-full flag (R56) -/

theorem sealState_poolFlagged (rel : Bool) (s u : State) : poolFlagged (sealState rel s u) := by
  intro h
  have hb : blockFull u = true := h
  simp [sealState, hb]
theorem poolFlagged_congr {l : List Part} {s u : State} (h : KeptBut l s u) (hl : .pool ∉ l) (hs : poolFlagged s) : poolFlagged u := by
  obtain ⟨hp, hf⟩ := h .pool hl
  intro hb
  rw [hf]
  exact hs (by simpa [blockFull, usedSlots, hp] using hb)

/-! ## Settling where nothing waits -/

theorem forEach_same {α σ : Type} {l : List α} {f : α → σ → σ} {s : σ} (h : ∀ a ∈ l, f a s = s) : forEach l f s = s := by
  induction l with
  | nil => rfl
  | cons a l ih => rw [forEach_cons, h a (by simp)]; exact ih fun b hb => h b (by simp [hb])
theorem camsFollow_same {s u : State} (h : ∀ e ∈ u.st, masterMoved s u e.1 = false) : camsFollow s u = u := by
  have hno : (u.st.map (·.1)).filter (masterMoved s u) = [] := by
    simp only [List.filter_eq_nil_iff, List.mem_map]
    rintro _ ⟨e, he, rfl⟩
    simp [h e he]
  rw [camsFollow, hno, forEach_nil]
theorem searchesEnd_same {u : State} (h : ∀ e ∈ u.st, e.2.stepRefs = false) : searchesEnd u = u := by
  have hno : u.st.filter (·.2.stepRefs) = [] := List.filter_eq_nil_iff.2 fun e he => by simp [h e he]
  rw [searchesEnd, hno, List.map_nil, forEach_nil]
theorem releaseGone_same {s u : State} (h : ∀ c ∈ s.yar.charges, c.res = none) : releaseGone s u = u := by
  unfold releaseGone
  split
  · rfl
  · exact forEach_same fun c hc => by simp only [h c hc]
theorem sleepWatch_same {u : State} (h : u.slp.commit = none) : sleepWatch u = u := by simp [sleepWatch, h]
theorem clearMarks_same {u : State} (h : ∀ e ∈ u.st, e.2.suspect = false) : clearMarks u = u := by
  have hno : (u.st.filter fun e => e.2.suspect && !namedSuspect u e.1) = [] := List.filter_eq_nil_iff.2 fun e he => by simp [h e he]
  rw [clearMarks, hno, forEach_nil]
theorem watchDiff_same {s u : State} (h : ∀ o ∈ s.ops, ∀ objs rate marks, o.prog ≠ .watch objs rate marks) : watchDiff s u = u :=
  forEach_same fun o ho => by
    dsimp only
    split
    · exact absurd ‹_› (h o ho _ _ _)
    · rfl
theorem endFull_same {u : State} (h : ∀ e ∈ u.sess, e.2.st ≠ .held) : endFull u = u := by
  have hno : (u.sess.filter fun e => decide (e.2.st = .held ∧ 65536 ≤ outBytes e.2.out)) = [] :=
    List.filter_eq_nil_iff.2 fun e he => by simp [h e he]
  rw [endFull, hno, forEach_nil]

/-! ## The obligations -/

/-- Settles O5: a command's seal sets the flag by what it sees of the block, and idle time does not touch the pool. -/
theorem poolFlagKeptByEveryStep : Obligations.PoolFlagKeptByEveryStep := by
  intro s t hs ht
  cases hp : s.pending with
  | nil =>
    simp only [step, hp, Host.Outcome.next.injEq] at ht
    exact ht ▸ poolFlagged_congr (idleTick_kept s) (by simp) hs
  | cons c rest =>
    obtain ⟨rel, u, hu, -⟩ := exec_settles c { s with pending := rest }
    rw [stepRunsFront c rest s hp, hu] at ht
    cases ht
    exact sealState_poolFlagged rel _ _

/-- Settles O7: every table of the state after reset is empty, so each record reads as its default. -/
theorem resetValues : Obligations.ResetValues := by
  refine ⟨⟨rfl, rfl, fun e => ?_, fun n => ⟨?_, ?_⟩, fun x => ?_, fun n w => ?_, rfl⟩, fun h => h, rfl, rfl, fun o ho => ?_⟩
  · cases e <;> exact ⟨rfl, rfl⟩
  · simp [elementsClosed, State.slc, tget, State.reset, maskBit]
  · simp [fdConducts, elementsClosed, State.slc, tget, State.reset, maskBit]
  · cases x <;> exact ⟨rfl, rfl, rfl⟩
  · cases w <;> exact ⟨rfl, rfl⟩
  · cases ho
/-- Settles O8: no part of what follows a command has anything to do, so only the pool's record remains. -/
theorem settleOfACalmUnit : Obligations.SettleOfACalmUnit := by
  intro s u h
  simp only [calm, Bool.and_eq_true, List.all_eq_true, Option.isNone_iff_eq_none, Bool.not_eq_true', decide_eq_true_eq] at h
  obtain ⟨⟨⟨⟨⟨hres, hslp⟩, hst⟩, hcam⟩, hops⟩, hses⟩ := h
  have hnow : ∀ o ∈ s.ops, ∀ objs rate marks, o.prog ≠ .watch objs rate marks := fun o ho objs rate marks hw => by
    simpa [hw] using hops o ho
  rw [settle, settleWith, camsFollow_same hcam, searchesEnd_same fun e he => (hst e he).2, releaseGone_same hres, sleepWatch_same hslp,
    clearMarks_same fun e he => (hst e he).1, watchDiff_same hnow, endFull_same hses]

end Sys2Proof.Machine
end

section
/-! SUPPORT. An event whose LAMP command, run at its firing, names no channel: its numbers run backwards, so no frame is to carry anything and
the command's reply comes at once, which ends the event. EventsFire as stated lets every such reply wait for frames. -/

namespace Sys2Proof.Machine

open Sys2Proof

/-- A unit whose one session has an event armed on TIME, in slot 1024, with `LAMP S05-S03/LA ON` embedded; its crossing is the first of the row. -/
def emptyLampEvent : State :=
  { head := { started := true }, sess := [(1, { st := .opn, mode := .typed })], crossings := [{ at_ := 0, slot := 1024, tb := .time, value := 0 }], nextOp := 1
    ops := [{ slot := some 1024, id := 0, port := .session 1, tag := none, acc := 0, verb := .event .time, text := []
              prog := .event (.lamp (noChannels .la) true) 0 [] }]
    pool := [(1024, { kind := .event, st := .armed, tb := BitVec.ofNat 8 (tbCode .time), session := 1 })] }

/-- What follows a command lets no reply go that waits for frames, unless it ends a session, which it then names as free (R102, R111). -/
theorem settle_returns_or_ended {s u : State} (hslp : u.slp.commit = none) (hres : s.yar.charges = [])
    (hops : ∀ o ∈ s.ops, ∀ objs rate marks, o.prog ≠ .watch objs rate marks) :
    (settle s u).returns = u.returns ∨ ∃ e ∈ (settle s u).sess, ((settle s u).ses e.1).st = .free := by
  have hd : Drives u (searchesEnd (camsFollow s u)) := ((Drives.refl u).camsFollow s).searchesEnd
  unfold settle settleWith
  generalize searchesEnd (camsFollow s u) = v at hd ⊢
  have hv : v.slp.commit = none := by rw [show v.slp = u.slp from hd.kept .slp (by decide), hslp]
  rw [releaseGone_same (by simp [hres]), sleepWatch_same hv, watchDiff_same hops]
  have hk := poolRecord_kept (endFull (clearMarks v))
  have hses : (sealState false s (poolRecord (endFull (clearMarks v)))).sess = (endFull (clearMarks v)).sess := hk .sess (by simp)
  unfold State.ses
  rw [hses]
  refine (endFull_eq_self_or_ended (clearMarks v)).imp (fun he => ?_) id
  exact (hk .returns (by simp)).trans (by rw [he]; exact (clearMarks_kept v .returns (by simp)).trans (hd.kept .returns (by decide)))

/-- Refutes O33: `LAMP S05-S03/LA ON` names no channel, so the event's command is answered at once: nothing waits for frames. -/
theorem not_eventsFire : ¬ Obligations.EventsFire := by
  rintro ⟨-, -, hlamp⟩
  obtain ⟨u, hu, -, -, -, -, -, -, -, hwaits, -, hk⟩ :=
    hlamp _ [] _ (noChannels .la) true 0 [] 1 emptyLampEvent rfl (by decide) rfl (by decide) (by decide) (by decide) (by decide) rfl rfl rfl rfl rfl
      (by decide +kernel)
  obtain ⟨w, hw, hopen, hnone⟩ : ∃ w, exec .eventFire emptyLampEvent = .next w ∧ (∀ e ∈ w.sess, (w.ses e.1).st ≠ .free) ∧ w.returns = [] :=
    ⟨_, rfl, by decide +kernel, by decide +kernel⟩
  rw [hw, Host.Outcome.next.injEq] at hu
  subst hu
  have hslp : u.slp = emptyLampEvent.slp := hk .slp (by simp)
  obtain hret | ⟨e, he, hfree⟩ := settle_returns_or_ended (s := emptyLampEvent) (u := u) (by rw [hslp]; rfl) rfl (by simp [emptyLampEvent])
  · rw [hret, hwaits] at hnone
    simp at hnone
  · exact hopen e he hfree

end Sys2Proof.Machine
end

section
/-! SUPPORT. A REPEAT event armed again, and the merged report of a WATCH. -/

namespace Sys2Proof.Machine

open Sys2Proof

/-- A REPEAT event beyond its trigger by HYST is armed again: its entry alone is touched (R65). -/
theorem eventRearm_does {k : Nat} {o : Op} {s : State} {p : State → Prop} (ho : opAt s k = some o) (hk : (s.ent k).kind = .event)
    (hst : (s.ent k).st = .rearm) (ht : s.noTime .evt = false) (hl : timeLike (opTb o) = false)
    (hb : backBeyond (s.ent k) (tbValue s (opTb o)) = true) (hp : p (s.modEnt k fun e => { e with st := .armed })) : Does (.eventRearm k) s p :=
  ⟨_, by simp only [exec, execEventRearm, ho, hk, hst, ht, hl, hb]; rfl, hp⟩

/-- A line that a session hears stands last in its buffer; a report too, as the buffer holds none back (R107). -/
theorem hears_say {s u : State} {n : Nat} {c : Ctx} {r : Reply} (hw : c.within = none) (hp : c.port = .session n) (hh : hears s n = true)
    (hu : u.sess = s.sess) : ((say c r u).ses n).out = (s.ses n).out ++ [sentTo s n c.tag r] ∧ othersKept n s (say c r u)
      ∧ KeptBut [.sess] u (say c r u) := by
  simp only [hears, Bool.and_eq_true, decide_eq_true_eq, List.isEmpty_iff] at hh
  obtain ⟨⟨⟨hst, hb⟩, hlost⟩, hout⟩ := hh
  have hses : ∀ k, u.ses k = s.ses k := fun k => by unfold State.ses; rw [hu]
  have hsay : say c r u = u.modSes n (·.put { r with tag := c.tag }) := by
    simp only [say, sayIn, hw, hp, send, hses, if_neg hst]
  rw [hsay]
  refine ⟨?_, fun k hk => ?_, modSes_kept u n _⟩
  · rw [ses_modSes, if_pos rfl, hses]
    simp [Session.put, Session.putFor, hb, hlost, Nat.not_lt.2 hout, sentTo]
  · rw [ses_modSes, if_neg hk, hses]

/-- Settles O34: each row is its model's one branch: an entry changed, or an operation and the report it sends. -/
theorem rearmAndRate : Obligations.RearmAndRate := by
  refine ⟨fun k o s ho hk hst ht hl hb => eventRearm_does ho hk hst ht hl hb ⟨by simp, fun j hj => by simp [hj], modEnt_kept s k _⟩, ?_⟩
  intro k x w objs rate at_ c n marks y s hw hprog hmark hc hdue hwithin hport hh
  have hop := modOp_kept s w.id fun q => { q with prog := .watch objs rate ((x, s.now, 0) :: marks.filter (·.1 ≠ x)) }
  obtain ⟨hout, hothers, hk⟩ := hears_say (c := w.ctx) (r := watchReply s x c) hwithin hport hh (hop .sess (by simp))
  refine ⟨_, ?_, hout, fun q hq hid => ?_, hothers, (hop.mono (by simp)).trans (hk.mono (by simp))⟩
  · simp only [exec, execWatchRateInterval, hw, hprog, hmark, if_pos (And.intro hc hdue)]
  · rw [show State.ops _ = _ from hk .ops (by simp)] at hq
    obtain ⟨q', -, rfl⟩ := List.mem_map.1 hq
    split at hid
    · rw [if_pos ‹_›]
    · exact absurd hid ‹_›

end Sys2Proof.Machine
end

section
/-! SUPPORT. LINE: what its travel, its state and its marks touch (R78 to R83, R288), and the rows of the tacho. -/

namespace Sys2Proof.Machine

open Sys2Proof

/-! ## Held events, and events judged again (R74, R75) -/

theorem holdEvents_kept (tb : TB) (s : State) : KeptBut [.pool, .crossings, .sess, .sup] s (holdEvents tb s) := by
  have hrow : KeptBut [.pool, .crossings, .sess, .sup] s { s with crossings := s.crossings.filter fun c => c.tb ≠ tb } := by
    intro p hp; cases p <;> simp_all [samePart]
  refine hrow.trans (forEach_kept _ _ _ fun e u => ?_)
  have hent := (modEnt_kept u e.1 fun x => { x with st := .held }).mono (m := [.pool, .crossings, .sess, .sup]) (by simp)
  dsimp only
  split
  · exact hent
  · exact hent.trans ((say_kept _ _ _).mono (by simp))
theorem judge_kept (k : Nat) (tb : TB) (s : State) : KeptBut (.crossings :: .jrn :: overParts) s (judge k tb s) := by
  have harm := (modEnt_kept s k fun x => { x with st := .armed }).mono (m := .crossings :: .jrn :: overParts) (by decide)
  have hreport : ∀ u, KeptBut (.crossings :: .jrn :: overParts) u (match opAt u k with
      | none => u
      | some o => say o.ctx (colR "armed" [.tb tb]) u) := fun u => by
    split
    · exact KeptBut.refl _ u
    · exact (say_kept _ _ u).mono (by decide)
  unfold judge
  dsimp only
  split
  · exact harm
  split
  · split
    · exact harm.trans ((joinRow_kept _ _).mono (by decide))
    · exact harm.trans (hreport _)
    · split
      · exact (modEnt_kept s k _).mono (by decide)
      · exact (finOp_kept _ _ s).mono (by decide)
  · exact harm.trans (hreport _)
theorem reEvaluate_kept (tb : TB) (s : State) : KeptBut (.crossings :: .jrn :: overParts) s (reEvaluate tb s) :=
  forEach_kept _ _ s fun e u => judge_kept e.1 tb u
theorem rearmJump_kept (tb : TB) (s : State) : KeptBut [.pool] s (rearmJump tb s) := forEach_kept _ _ s fun _ u => modEnt_kept u _ _

/-! ## LINE's state (R82, R83) -/

/-- LINE on its way to a state is in it; its events are held, judged again, or left. -/
theorem setLineState_line (x : LineSt) (s : State) : (setLineState x s).line = { s.line with st := x } := by
  unfold setLineState
  dsimp only
  split
  · exact holdEvents_kept .line _ .line (by simp)
  · split
    · exact reEvaluate_kept .line _ .line (by decide)
    · rfl
theorem setLineState_kept (x : LineSt) (s : State) : KeptBut (.line :: .crossings :: .jrn :: overParts) s (setLineState x s) := by
  have hline := (modLine_kept s fun l => { l with st := x }).mono (m := .line :: .crossings :: .jrn :: overParts) (by decide)
  unfold setLineState
  dsimp only
  split
  · exact hline.trans ((holdEvents_kept .line _).mono (by decide))
  · split
    · exact hline.trans ((reEvaluate_kept .line _).mono (by decide))
    · exact hline
theorem setLineState_uncertain_kept {x : LineSt} (hx : x ≠ .certain) (s : State) :
    KeptBut [.line, .pool, .crossings, .sess, .sup] s (setLineState x s) := by
  have hline := (modLine_kept s fun l => { l with st := x }).mono (m := [.line, .pool, .crossings, .sess, .sup]) (by decide)
  unfold setLineState
  dsimp only
  split
  · exact hline.trans ((holdEvents_kept .line _).mono (by decide))
  · rw [if_neg fun h => hx h.2]
    exact hline

theorem noneCoupled_congr {l : List Part} {s u : State} (h : KeptBut l s u) (hl : .st ∉ l) : noneCoupled u = noneCoupled s := by
  unfold noneCoupled
  rw [show u.st = s.st from h .st hl]
theorem slavesOf_noneCoupled {s : State} (tb : TB) (h : noneCoupled s = true) : slavesOf tb s = [] := by
  unfold slavesOf
  rw [List.map_eq_nil_iff, List.filter_eq_nil_iff]
  intro e he
  have hnone := List.all_eq_true.1 h e he
  rw [Option.isNone_iff_eq_none] at hnone
  simp [hnone]
/-- Where no axis is coupled, LINE's change of state holds no slave (R163). -/
theorem toLineState_eq {s : State} (x : LineSt) (h : noneCoupled s = true) : toLineState x s = setLineState x s := by
  have hnone := slavesOf_noneCoupled .line ((noneCoupled_congr (setLineState_kept x s) (by decide)).trans h)
  unfold toLineState
  dsimp only
  rw [hnone, forEach_nil, ite_self]

/-! ## LINE's travel (R72, R78, R79) -/

@[simp] theorem lineTb_pulseIn_setPulseIn (l : LineTb) (i : PulseIn) (x : LineIn) : (l.setPulseIn i x).pulseIn i = x := by cases i <;> rfl
@[simp] theorem lineTb_setPulseIn_um (l : LineTb) (i : PulseIn) (x : LineIn) : (l.setPulseIn i x).um = l.um := by cases i <;> rfl
@[simp] theorem lineTb_setPulseIn_half (l : LineTb) (i : PulseIn) (x : LineIn) : (l.setPulseIn i x).half = l.half := by cases i <;> rfl
@[simp] theorem lineTb_setPulseIn_st (l : LineTb) (i : PulseIn) (x : LineIn) : (l.setPulseIn i x).st = l.st := by cases i <;> rfl
@[simp] theorem lineTb_setPulseIn_only (l : LineTb) (i : PulseIn) (x : LineIn) : (l.setPulseIn i x).only = l.only := by cases i <;> rfl

/-- LINE has moved by half microns from one state to another: its sum and its half, while its state and its circuits stay (R78, R79). -/
structure LineMoved (h : Int) (s u : State) : Prop where
  um : u.line.um = wrapUm (s.line.um + (s.line.half + h) / 2)
  half : u.line.half = (s.line.half + h) % 2
  st : u.line.st = s.line.st
  pulseIn : ∀ i, u.line.pulseIn i = s.line.pulseIn i
  kept : KeptBut [.line, .crossings, .work] s u

theorem travelled_kept (tb : TB) (b0 b1 : Int) (s : State) : KeptBut [.crossings, .work] s (travelled tb b0 b1 s) := by
  unfold travelled
  split
  · exact crossed_kept tb b0 b1 false false s
  · exact KeptBut.refl _ s
/-- A change of LINE's books of marks and counts is no part of its travel. -/
theorem LineMoved.modLine {h : Int} {s u : State} (f : LineTb → LineTb) (hu : LineMoved h s u) (hum : ∀ l, (f l).um = l.um)
    (hhalf : ∀ l, (f l).half = l.half) (hst : ∀ l, (f l).st = l.st) (hin : ∀ l i, (f l).pulseIn i = l.pulseIn i) :
    LineMoved h s (u.modLine f) where
  um := (hum u.line).trans hu.um
  half := (hhalf u.line).trans hu.half
  st := (hst u.line).trans hu.st
  pulseIn i := (hin u.line i).trans (hu.pulseIn i)
  kept := hu.kept.trans ((modLine_kept u f).mono (by simp))
theorem lineAdvance_moves (h : Int) (s : State) : LineMoved h s (lineAdvance h s) := by
  have hstart : LineMoved h s (s.modLine fun l => { l with um := wrapUm (l.um + (s.line.half + h) / 2), half := (s.line.half + h) % 2 }) :=
    ⟨rfl, rfl, rfl, fun i => by cases i <;> rfl, (modLine_kept s _).mono (by simp)⟩
  have hbooks : ∀ (u : State) (p m : LineTb → List Nat), LineMoved h s u → LineMoved h s (u.modLine fun l => { l with passed := p l, matched := m l }) :=
    fun u p m hu => hu.modLine _ (fun _ => rfl) (fun _ => rfl) (fun _ => rfl) fun l i => by cases i <;> rfl
  have htravel : ∀ (u : State) (b0 b1 : Int), LineMoved h s u → LineMoved h s (travelled .line b0 b1 u) := fun u b0 b1 hu => by
    have hk := travelled_kept .line b0 b1 u
    have hl : (travelled .line b0 b1 u).line = u.line := hk .line (by simp)
    exact ⟨hl ▸ hu.um, hl ▸ hu.half, hl ▸ hu.st, fun i => hl ▸ hu.pulseIn i, hu.kept.trans (hk.mono (by simp))⟩
  unfold lineAdvance
  dsimp only
  split
  · exact hstart
  · refine htravel _ _ _ (hbooks _ _ _ ?_)
    split
    · exact hbooks _ _ (fun l => l.matched) hstart
    · exact hstart

theorem LineMoved.of_modLine {h : Int} {s u : State} {f : LineTb → LineTb} (hu : LineMoved h (s.modLine f) u) (hum : (f s.line).um = s.line.um)
    (hhalf : (f s.line).half = s.line.half) (hst : (f s.line).st = s.line.st) (hin : ∀ i, (f s.line).pulseIn i = s.line.pulseIn i) :
    LineMoved h s u where
  um := hu.um.trans (by simp only [modLine_line, hum, hhalf])
  half := hu.half.trans (by simp only [modLine_line, hhalf])
  st := hu.st.trans hst
  pulseIn i := (hu.pulseIn i).trans (hin i)
  kept := ((modLine_kept s f).mono (by simp)).trans hu.kept

/-! ## Tacho edges (R78 to R80, R288) -/

theorem tachoCount_quad {s : State} (second rising forward : Bool) (hq : s.keyIs .line .TACHO "QUAD" = true) :
    LineMoved (if forward then 2 * s.keyI .line .DPP else -(2 * s.keyI .line .DPP)) s (tachoCount second rising forward s) := by
  simp only [tachoCount, hq, if_true]
  exact lineAdvance_moves _ s
/-- A rising edge counts in DIR's direction where no input is the sole one (R80). -/
theorem tachoCount_rising {s : State} (second forward : Bool) (hq : s.keyIs .line .TACHO "QUAD" = false) (honly : s.line.only = none) :
    LineMoved (if s.keyIs .line .DIR "REV" then -s.keyI .line .DPP else s.keyI .line .DPP) s (tachoCount second true forward s) := by
  cases second
  all_goals
    simp only [tachoCount, hq, Bool.false_eq_true, Bool.not_true, if_false, if_true, modLine_line, honly]
    exact LineMoved.of_modLine (LineMoved.of_modLine (lineAdvance_moves _ _) rfl rfl rfl fun i => by cases i <;> rfl) rfl rfl rfl
      fun i => by cases i <;> rfl

/-- A sample that changes the filtered state of a tacho circuit is an edge (R288). -/
theorem pulseSample_edge {i : PulseIn} {v : Nat} {s : State} (forward : Bool) (hi : i ≠ .mark)
    (hon : (lineSample s 5 v (s.line.pulseIn i)).on ≠ (s.line.pulseIn i).on) :
    pulseSample i v forward s = tachoCount (decide (i = .tacho2)) (lineSample s 5 v (s.line.pulseIn i)).on forward
      (s.modLine fun l => l.setPulseIn i (lineSample s 5 v (s.line.pulseIn i))) := by
  cases i
  case mark => exact absurd rfl hi
  all_goals exact if_neg hon
/-- An edge moves LINE by its distance, and its circuit has the state sampled (R79, R288). -/
theorem pulseSample_moves {i : PulseIn} {v : Nat} {forward : Bool} {s : State} {x : LineIn} {d : Int} (hi : i ≠ .mark)
    (hx : x = lineSample s 5 v (s.line.pulseIn i)) (hon : x.on ≠ (s.line.pulseIn i).on)
    (hd : LineMoved d (s.modLine fun l => l.setPulseIn i x) (tachoCount (decide (i = .tacho2)) x.on forward (s.modLine fun l => l.setPulseIn i x))) :
    (pulseSample i v forward s).line.um = wrapUm (s.line.um + (s.line.half + d) / 2) ∧ (pulseSample i v forward s).line.half = (s.line.half + d) % 2
      ∧ (pulseSample i v forward s).line.st = s.line.st ∧ (pulseSample i v forward s).line.pulseIn i = x
      ∧ KeptBut [.line, .crossings, .work] s (pulseSample i v forward s) := by
  subst hx
  rw [pulseSample_edge forward hi hon]
  exact ⟨hd.um.trans (by simp), hd.half.trans (by simp), hd.st.trans (by simp), (hd.pulseIn i).trans (by simp),
    ((modLine_kept s _).mono (by simp)).trans hd.kept⟩
/-- A sample of MARK, or one that changes no filtered state, touches its circuit and what is due of MARK (R288). -/
theorem pulseSample_still {i : PulseIn} {v : Nat} {s : State} {x : LineIn} (forward : Bool)
    (hx : x = lineSample s (if i = .mark then 200 else 5) v (s.line.pulseIn i)) (hi : i = .mark ∨ x.on = (s.line.pulseIn i).on) :
    (pulseSample i v forward s).line = { s.line.setPulseIn i x with
        markDue := s.line.markDue || (decide (i = .mark) && x.on && !(s.line.pulseIn i).on) }
      ∧ KeptBut [.line] s (pulseSample i v forward s) := by
  have hset : KeptBut [.line] s (s.modLine fun l => l.setPulseIn i x) := modLine_kept s _
  by_cases hsame : x.on = (s.line.pulseIn i).on
  · have hrun : pulseSample i v forward s = s.modLine fun l => l.setPulseIn i x := by subst hx; cases i <;> exact if_pos hsame
    rw [hrun]
    refine ⟨?_, hset⟩
    rw [hsame]
    cases i <;> simp [LineTb.setPulseIn]
  · obtain rfl := hi.resolve_right hsame
    have hrun : pulseSample .mark v forward s
        = (s.modLine fun l => l.setPulseIn .mark x).modLine fun l => { l with markDue := l.markDue || x.on } := by subst hx; exact if_neg hsame
    have hrise : (x.on && !(s.line.pulseIn .mark).on) = x.on := by
      rw [Bool.eq_not_of_ne hsame]; cases (s.line.pulseIn .mark).on <;> rfl
    rw [hrun]
    exact ⟨by simp [LineTb.setPulseIn, hrise], hset.trans (modLine_kept _ _)⟩

/-! ## Reference marks (R82) -/

theorem toLineState_line {s : State} (x : LineSt) (h : noneCoupled s = true) : (toLineState x s).line = { s.line with st := x } := by
  rw [toLineState_eq x h, setLineState_line]
theorem toLineState_kept {s : State} (x : LineSt) (h : noneCoupled s = true) :
    KeptBut (.line :: .crossings :: .jrn :: overParts) s (toLineState x s) := by
  rw [toLineState_eq x h]
  exact setLineState_kept x s
theorem toLineState_uncertain_kept {x : LineSt} {s : State} (hx : x ≠ .certain) (h : noneCoupled s = true) :
    KeptBut [.line, .pool, .crossings, .sess, .sup] s (toLineState x s) := by
  rw [toLineState_eq x h]
  exact setLineState_uncertain_kept hx s
theorem markRecord_kept (w : String) (e line pos : Int) (s : State) : KeptBut [.jrn] s (markRecord w e line pos s) := record_kept _ _ _ s
@[simp] theorem markRecord_line (w : String) (e line pos : Int) (s : State) : (markRecord w e line pos s).line = s.line :=
  markRecord_kept w e line pos s .line (by simp)

/-- LINE takes the position of a mark and has matched it (R82). -/
def lineAtMark (k : Nat) (mm : Int) (l : LineTb) : LineTb :=
  { l with um := 1000 * mm, half := 0, matched := if k ∈ l.matched then l.matched else k :: l.matched, passed := l.passed.filter (· ≠ k) }
/-- What the tiers of R82 make of LINE when a mark comes and entry k of the table, at mm, is the nearest. -/
def lineMarked (s : State) (k : Nat) (mm : Int) : LineTb :=
  let a : Int := (lineMm s - mm).natAbs
  match s.line.st with
  | .certain =>
    if a ≤ s.keyI .line .MARKTOL then lineAtMark k mm s.line
    else if a ≤ s.keyI .line .MARKWIN then lineAtMark k mm { s.line with st := .provisional } else { s.line with st := .provisional }
  | .provisional =>
    if a ≤ s.keyI .line .MARKTOL then
      { s.line with st := .certain, um := 1000 * mm, half := 0, matched := [k], passed := [], only := none, run1 := 0, run2 := 0, recent := [], travel := 0 }
    else if a ≤ s.keyI .line .MARKWIN then lineAtMark k mm s.line else s.line
  | .lost => s.line

theorem mem_matched_lineAtMark (k : Nat) (mm : Int) (l : LineTb) : k ∈ (lineAtMark k mm l).matched := by
  unfold lineAtMark
  dsimp only
  split
  · assumption
  · exact List.mem_cons_self
theorem lineMarked_certain_near {s : State} {k : Nat} {mm : Int} (hst : s.line.st = .certain) (ha : (lineMm s - mm).natAbs ≤ s.keyI .line .MARKTOL) :
    (lineMarked s k mm).st = .certain ∧ (lineMarked s k mm).um = 1000 * mm ∧ (lineMarked s k mm).half = 0 ∧ k ∈ (lineMarked s k mm).matched := by
  simp only [lineMarked, hst, if_pos ha]
  exact ⟨hst, rfl, rfl, mem_matched_lineAtMark k mm s.line⟩
theorem lineMarked_certain_far {s : State} {k : Nat} {mm : Int} (hst : s.line.st = .certain) (ha : s.keyI .line .MARKTOL < (lineMm s - mm).natAbs) :
    (lineMarked s k mm).st = .provisional
      ∧ (lineMarked s k mm).um = if (lineMm s - mm).natAbs ≤ s.keyI .line .MARKWIN then 1000 * mm else s.line.um := by
  simp only [lineMarked, hst, if_neg (not_le.2 ha)]
  split <;> exact ⟨rfl, rfl⟩
theorem lineMarked_provisional_near {s : State} {k : Nat} {mm : Int} (hst : s.line.st = .provisional)
    (ha : (lineMm s - mm).natAbs ≤ s.keyI .line .MARKTOL) :
    (lineMarked s k mm).st = .certain ∧ (lineMarked s k mm).um = 1000 * mm ∧ (lineMarked s k mm).half = 0 := by
  simp only [lineMarked, hst, if_pos ha, and_self]
theorem lineMarked_provisional_far {s : State} {k : Nat} {mm : Int} (hst : s.line.st = .provisional)
    (ha : s.keyI .line .MARKTOL < (lineMm s - mm).natAbs) :
    (lineMarked s k mm).st = .provisional
      ∧ (lineMarked s k mm).um = if (lineMm s - mm).natAbs ≤ s.keyI .line .MARKWIN then 1000 * mm else s.line.um := by
  simp only [lineMarked, hst, if_neg (not_le.2 ha)]
  split <;> exact ⟨hst, rfl⟩
theorem lineMarked_lost {s : State} (k : Nat) (mm : Int) (hst : s.line.st = .lost) : lineMarked s k mm = s.line := by simp only [lineMarked, hst]
theorem lineMarked_markDue (s : State) (k : Nat) (mm : Int) : (lineMarked s k mm).markDue = s.line.markDue := by
  unfold lineMarked
  dsimp only
  split
  · split
    · rfl
    · split <;> rfl
  · split
    · rfl
    · split <;> rfl
  · rfl
theorem matchMark_setLineMm (k : Nat) (mm : Int) (s : State) : matchMark k (setLineMm mm s) = s.modLine (lineAtMark k mm) := rfl
theorem markCame_line {s : State} {k : Nat} {mm : Int} (hn : nearest s = some (k, mm)) (h : noneCoupled s = true) :
    (markCame s).line = lineMarked s k mm := by
  unfold markCame lineMarked
  dsimp only
  simp only [hn, matchMark_setLineMm]
  cases hst : s.line.st <;> dsimp only
  · split
    · exact (rearmJump_kept .line _ .line (by simp)).trans ((crossed_kept .line _ _ _ _ _ .line (by simp)).trans (markRecord_line _ _ _ _ _))
    · split
      · rw [markRecord_line, modLine_line, toLineState_line _ h]
      · rw [markRecord_line, toLineState_line _ h]
  · split
    · rw [toLineState_line]
      · simp only [setLineMm, modLine_line, markRecord_line]
      · exact (noneCoupled_congr (markRecord_kept _ _ _ _ s) (by simp)).trans h
    · split <;> exact markRecord_line _ _ _ _ _
  · exact markRecord_line _ _ _ _ _
theorem markCame_kept {s : State} {k : Nat} {mm : Int} (hn : nearest s = some (k, mm)) (h : noneCoupled s = true) :
    KeptBut (.line :: .crossings :: .jrn :: overParts) s (markCame s) := by
  have hline : ∀ (u : State) f, KeptBut (.line :: .crossings :: .jrn :: overParts) u (u.modLine f) := fun u f => (modLine_kept u f).mono (by decide)
  have hrec : ∀ (u : State) w e l p, KeptBut (.line :: .crossings :: .jrn :: overParts) u (markRecord w e l p u) :=
    fun u w e l p => (markRecord_kept w e l p u).mono (by decide)
  unfold markCame
  simp only [hn, matchMark_setLineMm]
  split
  · split
    · exact (((hline _ _).trans (hrec _ _ _ _ _)).trans ((crossed_kept _ _ _ _ _ _).mono (by decide))).trans ((rearmJump_kept _ _).mono (by decide))
    · split
      · exact ((toLineState_kept _ h).trans (hline _ _)).trans (hrec _ _ _ _ _)
      · exact (toLineState_kept _ h).trans (hrec _ _ _ _ _)
  · split
    · exact (((hrec _ _ _ _ _).trans (hline _ _)).trans (hline _ _)).trans
        (toLineState_kept _ ((noneCoupled_congr (markRecord_kept _ _ _ _ s) (by simp)).trans h))
    · split
      · exact (hline _ _).trans (hrec _ _ _ _ _)
      · exact hrec _ _ _ _ _
  · exact hrec _ _ _ _ _

/-- A mark that is missed makes LINE provisional where it stands, and is no longer waited for (R82). -/
theorem markMissed_effect {s u : State} (k : Nat) {e line pos : Int} (hc : noneCoupled s = true)
    (hu : u = markRecord "missed" e line pos (toLineState .provisional (s.modLine fun l => { l with passed := l.passed.filter (· ≠ k) }))) :
    u.line.st = .provisional ∧ u.line.um = s.line.um ∧ k ∉ u.line.passed ∧ KeptBut [.line, .pool, .crossings, .sess, .sup, .jrn] s u := by
  have hline : u.line = { s.line with st := .provisional, passed := s.line.passed.filter (· ≠ k) } := by
    rw [hu, markRecord_line, toLineState_line _ (s := s.modLine _) hc]
    rfl
  rw [hline]
  refine ⟨rfl, rfl, by simp, hu ▸ ?_⟩
  exact (((modLine_kept s _).mono (by simp)).trans ((toLineState_uncertain_kept (x := .provisional) (by simp) (s := s.modLine _) hc).mono (by simp))).trans
    ((markRecord_kept _ _ _ _ _).mono (by simp))

/-! ## The obligation -/

/-- Settles O46: an edge is a move of LINE (`pulseSample_moves`), a mark makes of LINE what `lineMarked` says, and the other rows are a change of
LINE's state with the record they add. -/
theorem lineFollowsTacho : Obligations.LineFollowsTacho := by
  refine ⟨fun i v forward x s hl hq hi hx hon h hh => does_if rfl hl ?_, fun i v forward x s hl hq hi hx hon hoff honly h hh => does_if rfl hl ?_,
    fun i v forward x s hl hx hi => does_if rfl hl (pulseSample_still forward hx hi), fun k mm a s hl hd hn hc ha => does_if rfl ⟨hl, hd⟩ ?_,
    fun k s hl hst hk hfar hc => does_if rfl ⟨hl, hst, hk, by simp [hfar]⟩ ?_, fun s hl hq hc => does_if rfl ⟨hl, hq⟩ ?_,
    fun s hl hq hd hc => does_if rfl ⟨hl, hq, hd⟩ ?_⟩
  · subst hh
    exact pulseSample_moves hi hx hon (tachoCount_quad (s := s.modLine fun l => l.setPulseIn i x) _ _ forward hq)
  · subst hh
    refine pulseSample_moves hi hx (by simp [hon, hoff]) ?_
    rw [hon]
    exact tachoCount_rising (s := s.modLine fun l => l.setPulseIn i x) _ forward hq ((lineTb_setPulseIn_only _ i x).trans honly)
  · have hline := markCame_line (s := s.modLine fun l => { l with markDue := false }) hn hc
    subst ha
    refine ⟨((modLine_kept s _).mono (by decide)).trans (markCame_kept hn hc), ?_⟩
    rw [hline]
    exact ⟨fun hst hin => lineMarked_certain_near hst hin,
      fun hst hout => lineMarked_certain_far hst hout, fun hst hin => lineMarked_provisional_near hst hin,
      fun hst hout => lineMarked_provisional_far hst hout, lineMarked_markDue _ k mm, fun hst => lineMarked_lost k mm hst⟩
  · exact markMissed_effect k hc rfl
  · have hrec := record_kept 0x0205 (pWord "tacho") { engine := 3 } (toLineState .lost s)
    exact ⟨(hrec .line (by simp)).trans (toLineState_line _ hc),
      ((toLineState_uncertain_kept (by simp) hc).mono (by simp)).trans (hrec.mono (by simp))⟩
  · dsimp only
    have honly := (modLine_kept s fun l => { l with only := soleInput s }).mono (m := [.line, .pool, .crossings, .sess, .sup]) (by simp)
    split
    · next hst =>
      rw [toLineState_line _ (s := s.modLine _) hc]
      exact ⟨rfl, rfl, (if_pos hst).symm, honly.trans (toLineState_uncertain_kept (by simp) (s := s.modLine _) hc)⟩
    · next hst => exact ⟨rfl, rfl, (if_neg hst).symm, honly⟩

end Sys2Proof.Machine
end

section
/-! SUPPORT. A session's line that takes or gives up slots: the replies in its session's buffer, the pool's entries, its operation. -/

namespace Sys2Proof.Machine

open Sys2Proof

/-! ## The replies to a session's line (R98, R101, R107) -/

/-- A session has had a line of its own read, and these lines since in its output buffer; no other session is touched. -/
structure Heard (n : Nat) (s u : State) (sent : List Reply) : Prop where
  own : ∃ g, u.ses n = { s.ses n with lastLine := s.now, tags := g, out := (s.ses n).out ++ sent }
  others : othersKept n s u

namespace Heard

variable {n : Nat} {s u v : State} {sent : List Reply}

theorem lineGo {l : Line} {sp : Spec} (h : taken n l sp s = true) : Heard n s (lineGo n l sp s) [] := by
  obtain ⟨g, hg⟩ := lineGo_own n l sp s (taken_port h)
  exact ⟨⟨g, by simp [hg]⟩, fun k hk => lineGo_other n k l sp s (taken_port h) hk⟩
theorem of_kept {l : List Part} (h : Heard n s u sent) (hk : KeptBut l u v) (hl : .sess ∉ l) : Heard n s v sent :=
  ⟨by rw [hk.ses hl]; exact h.own, fun k hn => (hk.ses hl k).trans (h.others k hn)⟩
/-- A line put into the buffer of an open session that holds none back stands last in it. -/
theorem put {r : Reply} (h : Heard n s u sent) (ho : (s.ses n).st = .opn) (hb : (s.ses n).heldBack = []) (hr : r.pre ≠ .tilde) :
    Heard n s (send (.session n) r u) (sent ++ [{ r with checked := (s.ses n).rcheck && decide ((s.ses n).mode = .gen) }]) := by
  obtain ⟨⟨g, hg⟩, hothers⟩ := h
  have hst : ¬ (u.ses n).st = .free := by simp [hg, ho]
  simp only [send, if_neg hst]
  refine ⟨⟨g, ?_⟩, fun k hk => ?_⟩
  · rw [ses_modSes, if_pos rfl, hg]
    simp [Session.put, Session.putFor, hb, hr]
  · rw [ses_modSes, if_neg hk, hothers k hk]
theorem say {c : Ctx} {r : Reply} (h : Heard n s u sent) (ho : (s.ses n).st = .opn) (hb : (s.ses n).heldBack = []) (hr : r.pre ≠ .tilde)
    (hp : c.port = .session n) (hw : c.within = none) :
    Heard n s (say c r u) (sent ++ [sentTo s n c.tag r]) ∧ KeptBut [.sess] u (say c r u) := by
  have hsay : Machine.say c r u = send (.session n) { r with tag := c.tag } u := by simp only [Machine.say, sayIn, hw, hp]
  rw [hsay]
  refine ⟨h.put ho hb hr, ?_⟩
  simp only [send]
  split
  · exact KeptBut.refl _ u
  · exact modSes_kept u n _
theorem fin {c : Ctx} {r : Reply} (h : Heard n s u sent) (ho : (s.ses n).st = .opn) (hb : (s.ses n).heldBack = []) (hr : r.pre ≠ .tilde)
    (hp : c.port = .session n) (hw : c.within = none) :
    Heard n s (fin c r u) (sent ++ [sentTo s n c.tag r]) ∧ KeptBut [.sess] u (fin c r u) := by
  obtain ⟨⟨g, hg⟩, hothers⟩ := h
  obtain ⟨hk, hother, g', hown⟩ := fin_line c n r u hp hw
  have hst : ¬ (u.ses n).st = .free := by simp [hg, ho]
  refine ⟨⟨⟨g', ?_⟩, fun k hn => (hother k hn).trans (hothers k hn)⟩, hk⟩
  rw [hown, if_neg hst, hg]
  simp [Session.put, Session.putFor, hb, hr, sentTo]
theorem out (h : Heard n s u sent) : (u.ses n).out = (s.ses n).out ++ sent := by
  obtain ⟨g, hg⟩ := h.own
  rw [hg]

end Heard

/-! ## The pool's entries (R50, R51, R56, R57) -/

theorem KeptBut.ent {l : List Part} {s u : State} (h : KeptBut l s u) (hl : .pool ∉ l) (k : Nat) : u.ent k = s.ent k := by
  unfold State.ent; rw [(h .pool hl).1]
theorem poolRecord_pool (s : State) : (poolRecord s).pool = s.pool := by
  have hrec : ∀ c, (record c [] { engine := 2 } s).pool = s.pool := fun c => (record_kept c [] { engine := 2 } s .pool (by simp)).1
  unfold poolRecord
  split
  · exact hrec _
  · split
    · exact hrec _
    · rfl
theorem ent_takeSlot (n m : Nat) (f : PoolEntry → PoolEntry) (s : State) : (takeSlot n f s).ent m = if m = n then f (s.ent n) else s.ent m := by
  have h : (takeSlot n f s).ent m = (s.modEnt n f).ent m := by
    unfold takeSlot State.ent
    rw [poolRecord_pool]
    rfl
  rw [h, ent_modEnt]
/-- Slots that are released are free, and keep all but their kind and state (R57). -/
theorem ent_releaseSlots (l : List Nat) (k : Nat) (s : State) : (releaseSlots l s).ent k = if k ∈ l then (s.ent k).released else s.ent k := by
  induction l generalizing s with
  | nil => simp [releaseSlots]
  | cons a l ih =>
    have hcons : releaseSlots (a :: l) s = releaseSlots l (takeSlot a PoolEntry.released s) := rfl
    rw [hcons, ih, ent_takeSlot]
    by_cases ha : k = a
    · subst ha; simp [PoolEntry.released]
    · simp [ha]
theorem freeFrom_free {s : State} {fuel n k : Nat} (h : freeFrom s fuel n = some k) : (s.ent k).kind = .free := by
  induction fuel generalizing n with
  | zero => simp [freeFrom] at h
  | succ fuel ih =>
    unfold freeFrom at h
    split at h
    · next hn => cases h; simpa [slotFree] using hn
    · exact ih h
theorem freeFrom_congr {s u : State} (h : u.pool = s.pool) (fuel n : Nat) : freeFrom u fuel n = freeFrom s fuel n := by
  induction fuel generalizing n with
  | zero => rfl
  | succ fuel ih =>
    have hfree : slotFree u n = slotFree s n := by unfold slotFree State.ent; rw [h]
    simp only [freeFrom, hfree, ih]
theorem freeSlot_congr {s u : State} (h : u.pool = s.pool) : freeSlot u = freeSlot s := freeFrom_congr h _ _

/-- Slots taken one after another are none that was in use, and touch no entry of one (R50). -/
theorem takeSlots_spares {k : Nat} (kind : Kind) (st : ESt) (n : Nat) (tag : Option Nat) (m : Nat) {s : State} (hk : (s.ent k).kind ≠ .free) :
    k ∉ (takeSlots kind st n tag m s).1 ∧ (takeSlots kind st n tag m s).2.ent k = s.ent k
      ∧ KeptBut [.pool, .work, .jrn] s (takeSlots kind st n tag m s).2 := by
  induction m generalizing s with
  | zero => exact ⟨by simp [takeSlots], rfl, KeptBut.refl _ s⟩
  | succ m ih =>
    unfold takeSlots
    split
    · exact ⟨by simp, rfl, KeptBut.refl _ s⟩
    · next j hj =>
      have hne : k ≠ j := by rintro rfl; exact hk (freeFrom_free hj)
      dsimp only
      generalize hv : takeSlot j _ s = v
      have hent : v.ent k = s.ent k := by rw [← hv, ent_takeSlot, if_neg hne]
      have hkept : KeptBut [.pool, .work, .jrn] s v := hv ▸ takeSlot_kept j _ s
      obtain ⟨hmem, hsame, hrest⟩ := ih (s := v) (by rwa [hent])
      exact ⟨by simp [hne, hmem], hsame.trans hent, hkept.trans hrest⟩
theorem forEach_ent {α : Type} {k : Nat} {l : List α} {f : α → State → State} {s : State} (h : ∀ a ∈ l, ∀ v, (f a v).ent k = v.ent k) :
    (forEach l f s).ent k = s.ent k := by
  induction l generalizing s with
  | nil => rfl
  | cons a l ih => rw [forEach_cons, ih fun b hb => h b (by simp [hb]), h a (by simp)]
/-- Segment data touches the chain's own slots alone (R59). -/
theorem writeSegs_spares {k : Nat} (n : Nat) {slots : List Nat} (segs : List Seg) (s : State) (hk : k ∉ slots) :
    (writeSegs n slots segs s).ent k = s.ent k ∧ KeptBut [.pool] s (writeSegs n slots segs s) := by
  refine ⟨forEach_ent fun e he v => ?_, forEach_kept _ _ s fun e v => modEnt_kept v _ _⟩
  have hslot : e.1.1 ∈ slots := (List.of_mem_zip (List.of_mem_zip he).1).1
  have hne : k ≠ e.1.1 := fun h => hk (h ▸ hslot)
  rw [ent_modEnt, if_neg hne]

/-! ## Operations (R50, R51) -/

theorem opOf_append_new {s : State} {l : List Op} {o : Op} (hs : s.ops = l ++ [o]) (hl : ∀ q ∈ l, q.id ≠ o.id) : s.opOf o.id = some o := by
  have hnone : l.find? (fun q => decide (q.id = o.id)) = none := by
    rw [List.find?_eq_none]
    exact fun q hq => by simp [hl q hq]
  unfold State.opOf
  rw [hs, List.find?_append, hnone]
  simp
theorem dropOp_ops (o : Op) (s : State) : (dropOp o s).ops = s.ops.filter (·.id ≠ o.id) := releaseSlots_kept _ _ .ops (by simp)
theorem ent_dropOp (o : Op) (k : Nat) (s : State) : (dropOp o s).ent k = if k ∈ o.slot.toList ++ o.segs then (s.ent k).released else s.ent k :=
  ent_releaseSlots _ k _
/-- The operation that a session's lasting command starts, in slot k. -/
def startedOp (s : State) (c : Ctx) (v : Verb) (p : Prog) (k : Nat) : Op :=
  { slot := some k, id := s.nextOp, port := c.port, tag := c.tag, acc := c.acc, verb := v, text := c.text, within := none, prog := p }
/-- A session's lasting command takes the lowest free slot, which holds a queued command then (R50, R51, R59). -/
theorem startOp_session {c : Ctx} {n k : Nat} (v : Verb) (p : Prog) {s : State} (hw : c.within = none) (hp : c.port = .session n)
    (hf : freeSlot s = some k) :
    (startOp c v p true s).1 = s.nextOp ∧ ((startOp c v p true s).2.ent k).kind = .command
      ∧ (startOp c v p true s).2.ops = s.ops ++ [startedOp s c v p k] := by
  have hfree : freeSlot { s with nextOp := s.nextOp + 1 } = some k := by rw [← hf]; exact freeSlot_congr rfl
  simp only [startOp, hw, hp, hfree, Bool.not_false, Bool.and_true, ne_eq, reduceCtorEq, not_false_eq_true, decide_true, if_true]
  refine ⟨trivial, ?_, ?_⟩
  · show ((takeSlot k _ { s with nextOp := s.nextOp + 1 }).ent k).kind = .command
    rw [ent_takeSlot, if_pos rfl]
    rfl
  · rw [show (takeSlot k _ _).ops = _ from takeSlot_kept k _ { s with nextOp := s.nextOp + 1 } .ops (by simp)]
    simp [startedOp, hp]

end Sys2Proof.Machine
end

section
/-! SUPPORT. CANCEL (R70, R143, R496): with nothing to cancel, and of a motion that waits or is held. -/

namespace Sys2Proof.Machine

open Sys2Proof

/-- Where no crossing waits for these slots, none is handed on before a CANCEL (R70). -/
theorem fireFor_same {vs : State → Port → Verb → Spec} {l : List Nat} {s : State} (h : ∀ x ∈ s.crossings, x.slot ∉ l) : fireFor vs l s = s := by
  have hmine : s.crossings.filter (·.slot ∈ l) = [] := List.filter_eq_nil_iff.2 fun x hx => by simp [h x hx]
  have hrest : s.crossings.filter (·.slot ∉ l) = s.crossings := List.filter_eq_self.2 fun x hx => by simp [h x hx]
  unfold fireFor
  dsimp only
  rw [hmine, hrest, forEach_nil]
theorem cancelled_congr {l : List Part} {s u : State} (h : KeptBut l s u) (hl : .ops ∉ l) (n : Nat) (tag : Option Nat) :
    cancelled u n tag = cancelled s n tag := by
  unfold cancelled sessionOps
  rw [show u.ops = s.ops from h .ops hl]
theorem relayedTo_congr {l : List Part} {s u : State} (h : KeptBut l s u) (hl : .net ∉ l) (n : Nat) (tag : Option Nat) :
    relayedTo u n tag = relayedTo s n tag := by
  unfold relayedTo
  rw [show u.net = s.net from h .net hl]
theorem cancelled_mem {s : State} {n : Nat} {tag : Option Nat} {o : Op} (h : o ∈ cancelled s n tag) : o.port = .session n ∧ o.within = none := by
  have hs := (List.mem_filter.1 (List.mem_filter.1 h).1).2
  simpa using hs
/-- A CANCEL that no far unit and no crossing concerns cancels what it names, oldest first, and answers how many ended (R496). -/
theorem cancelSpec_run {l : Line} {tag : Option Nat} {n : Nat} {c : Ctx} {s : State} (hp : c.port = .session n) (hr : relayedTo s n tag = none)
    (hx : ∀ x ∈ s.crossings, x.slot ∉ (cancelled s n tag).filterMap (·.slot)) :
    (cancelSpec verbSpec l tag).run c s =
      (let r := (cancelled s n tag).foldl (fun r o => let q := cancelOp o.id r.2; (if q.1 then r.1 + 1 else r.1, q.2)) ((0 : Nat), s)
       fin c (eqR "cancel" [.n r.1]) r.2) := by
  simp only [cancelSpec, hp, portSession, hr, fireFor_same hx]

/-! ## A motion that waits or is held (R143) -/

theorem markOp_kept (id : Nat) (s : State) : KeptBut [.pool] s (markOp id s) ∧ ∀ k, ((markOp id s).ent k).kind = (s.ent k).kind := by
  unfold markOp
  split
  · exact ⟨KeptBut.refl _ s, fun _ => rfl⟩
  split
  · exact ⟨KeptBut.refl _ s, fun _ => rfl⟩
  · dsimp only
    split
    · exact ⟨KeptBut.refl _ s, fun _ => rfl⟩
    · refine ⟨modEnt_kept s _ _, fun k => ?_⟩
      rw [ent_modEnt]
      split
      · subst_vars; rfl
      · rfl
theorem markOps_kept (n : Nat) (s : State) : KeptBut [.pool] s (markOps n s) := forEach_kept _ _ s fun id v => (markOp_kept id v).1
theorem markOps_kind (n k : Nat) (s : State) : ((markOps n s).ent k).kind = (s.ent k).kind :=
  forEach_eq (fun v => (v.ent k).kind) _ _ s fun id v => (markOp_kept id v).2 k
/-- A wait that ends touches the station's wait, and the state that the entries of its commands show (R58, R311). -/
theorem endWait_stn (n k : Nat) (s : State) : (endWait n s).stn k = if k = n then { s.stn n with wait := none } else s.stn k :=
  ((markOps_kept n _).stn (by simp) k).trans (stn_modStn s n k _)
theorem endWait_kind (n k : Nat) (s : State) : ((endWait n s).ent k).kind = (s.ent k).kind := markOps_kind n k _
theorem endWait_kept (n : Nat) (s : State) : KeptBut [.st, .pool] s (endWait n s) :=
  ((modStn_kept s n _).mono (by simp)).trans ((markOps_kept n _).mono (by simp))
theorem resumeDone_none {n : Nat} {s : State} (h : noResume s n = true) : resumeDone n s = s :=
  forEach_same fun o ho => by
    obtain ⟨hmem, hwaits⟩ := List.mem_filter.1 ho
    have hno := List.all_eq_true.1 h o hmem
    cases hp : o.prog
    case resuming l k => simp_all
    all_goals rfl

/-- A motion that has made no step is over, and its wait with it; what it was charged with goes, and the entries of its commands show it
(R143, R307). -/
structure MotionOver (m : Nat) (s u : State) : Prop where
  motion : (u.ax m).motion = none
  wait : (u.stn m).wait = none
  others : ∀ k, k ≠ m → u.stn k = s.stn k
  kinds : ∀ k, (u.ent k).kind = (s.ent k).kind
  kept : KeptBut [.st, .pool, .yar] s u

theorem cancelMotion_over {m : Nat} {x : Motion} {s : State} (hm : (s.ax m).motion = some x) (hph : x.phase = .waiting ∨ x.phase = .held)
    (hr : noResume s m = true) : MotionOver m s (cancelMotion m s) := by
  simp only [cancelMotion, hm, if_pos hph]
  generalize hf : (fun a : Axis => { a with motion := none, moving := a.loaded.isSome }) = f
  have hmotion : ∀ a, (f a).motion = none := fun a => by rw [← hf]
  have hdrop : KeptBut [.yar] (s.modAx m f) (dropCharge m (s.modAx m f)) := modYar_kept _ _
  have hstn : ∀ k, (dropCharge m (s.modAx m f)).stn k = if k = m then { s.stn m with axis := f (s.stn m).axis } else s.stn k :=
    fun k => (hdrop.stn (by simp) k).trans (stn_modAx s m k f)
  have hv : KeptBut [.st, .pool, .yar] s (endWait m (dropCharge m (s.modAx m f))) :=
    (((modAx_kept s m f).mono (by simp)).trans (hdrop.mono (by simp))).trans ((endWait_kept m _).mono (by simp))
  have hno : noResume (endWait m (dropCharge m (s.modAx m f))) m = true := by
    unfold noResume
    rw [show State.ops _ = s.ops from hv .ops (by simp)]
    exact hr
  rw [resumeDone_none hno]
  refine ⟨?_, ?_, fun k hne => ?_, fun k => ?_, hv⟩
  · simp only [State.ax, endWait_stn, hstn, if_true, hmotion]
  · simp only [endWait_stn, if_true]
  · simp only [endWait_stn, hstn, if_neg hne]
  · rw [endWait_kind, hdrop.ent (by simp), (modAx_kept s m f).ent (by simp)]

theorem cancelOp_motion {id m : Nat} {o : Op} {s : State} (ho : s.opOf id = some o) (hp : o.prog = .motion m) :
    cancelOp id s = (true, cancelMotion m (failOp id { code := 70 } s)) := by
  simp only [cancelOp, cancelIn, ho, hp]

/-! ## The obligation -/

/-- An operation of a session's own, ended with an error: it is over, its slots are released, and the error stands in the session's buffer (R50,
R101). -/
theorem failOp_own {n : Nat} {o : Op} {s u : State} {sent : List Reply} (e : Err) (hs : Heard n s u sent) (ho : (s.ses n).st = .opn)
    (hb : (s.ses n).heldBack = []) (hu : u.opOf o.id = some o) (hp : o.port = .session n) (hw : o.within = none) :
    Heard n s (failOp o.id e u) (sent ++ [sentTo s n o.tag (errR e)]) ∧ (failOp o.id e u).ops = u.ops.filter (·.id ≠ o.id)
      ∧ (∀ k, (failOp o.id e u).ent k = if k ∈ o.slot.toList ++ o.segs then (u.ent k).released else u.ent k)
      ∧ KeptBut [.sess, .pool, .work, .ops, .jrn] u (failOp o.id e u) := by
  have hrun : failOp o.id e u = fin o.ctx (errR e) (dropOp o u) := by simp only [failOp, finOp, hu]
  have hdrop := dropOp_kept o u
  obtain ⟨hheard, hfin⟩ := (hs.of_kept hdrop (by simp)).fin (c := o.ctx) (r := errR e) ho hb (by simp [errR]) hp hw
  rw [hrun]
  exact ⟨hheard, (hfin .ops (by simp)).trans (dropOp_ops o u), fun k => (hfin.ent (by simp) k).trans (ent_dropOp o k u),
    (hdrop.mono (by simp)).trans (hfin.mono (by simp))⟩

/-- Settles O32: CANCEL's run is a fold over what it names (`cancelSpec_run`); the one motion of the second clause is its operation's end
(`failOp_own`), the motion's (`cancelMotion_over`), and the answer. -/
theorem cancelEnds : Obligations.CancelEnds := by
  refine ⟨fun l tag n s h hr hnone => does_of_taken h rfl ?_, fun l tag m n o x s h hr hcr hone ho hprog hm hph hres => does_of_taken h rfl ?_⟩
  · have hp := taken_port h
    have hk := lineGo_kept_plain n l (cancelSpec verbSpec l tag) s hp rfl
    have hnone' := (cancelled_congr hk (by decide) n tag).trans hnone
    rw [cancelSpec_run hp ((relayedTo_congr hk (by decide) n tag).trans hr) (by simp [hnone']), hnone']
    obtain ⟨ha, hothers, hfin⟩ := go_answers (r := eqR "cancel" [.n 0]) h (by simp [eqR]) (KeptBut.refl _ _)
    exact ⟨ha, hothers, hk.trans (hfin.mono (by decide))⟩
  · obtain ⟨hp, -, hopen, hb⟩ := taken_session h
    obtain ⟨hport, hwithin⟩ := cancelled_mem (hone ▸ List.mem_singleton_self o)
    have hk := lineGo_kept_plain n l (cancelSpec verbSpec l tag) s hp rfl
    have hheard := Heard.lineGo h
    generalize lineGo n l (cancelSpec verbSpec l tag) s = g at hk hheard ⊢
    have hops : g.ops = s.ops := hk .ops (by decide)
    have hone' := (cancelled_congr hk (by decide) n tag).trans hone
    have hcr' : g.crossings = [] := (hk .crossings (by decide)).trans hcr
    have ho' : g.opOf o.id = some o := by unfold State.opOf; rw [hops]; exact ho
    rw [cancelSpec_run hp ((relayedTo_congr hk (by decide) n tag).trans hr) (by simp [hcr']), hone']
    simp only [List.foldl_cons, List.foldl_nil, cancelOp_motion ho' hprog, if_true]
    obtain ⟨hheard, hleft, hent, hf⟩ := failOp_own { code := 70 } hheard hopen hb ho' hport hwithin
    generalize failOp o.id { code := 70 } g = f at hheard hleft hent hf ⊢
    have hstn : ∀ k, f.stn k = s.stn k := fun k => (hf.stn (by simp) k).trans (hk.stn (by decide) k)
    have hres' : noResume f m = true := by
      rw [noResume, hleft, List.all_eq_true, hops]
      exact fun q hq => List.all_eq_true.1 hres q (List.mem_filter.1 hq).1
    have hover := cancelMotion_over (s := f) (by unfold State.ax; rw [hstn]; exact hm) hph hres'
    generalize cancelMotion m f = u at hover ⊢
    obtain ⟨hanswer, hfin⟩ := (hheard.of_kept hover.kept (by simp)).fin (c := lineCtx l s) (r := eqR "cancel" [.n (0 + 1 : Nat)]) hopen hb (by simp [eqR]) hp rfl
    refine ⟨?_, ?_, fun q hq => ?_, fun k hslot => ?_, fun k hne => ?_, ?_, hanswer.others, ?_⟩
    · unfold State.ax
      rw [hfin.stn (by simp)]
      exact hover.motion
    · rw [hfin.stn (by simp)]
      exact hover.wait
    · rw [show State.ops _ = f.ops from (hfin .ops (by simp)).trans (hover.kept .ops (by simp)), hleft] at hq
      simpa using (List.mem_filter.1 hq).2
    · rw [hfin.ent (by simp), hover.kinds, hent, if_pos (by simp [hslot])]
      rfl
    · rw [hfin.stn (by simp), hover.others k hne, hstn]
    · exact hanswer.out.trans (by simp [sentTo, shown, lineCtx])
    · exact ((hk.mono (by decide)).trans (hf.mono (by decide))).trans ((hover.kept.mono (by decide)).trans (hfin.mono (by decide)))

end Sys2Proof.Machine
end

section
/-! SUPPORT. AT (R59 to R62): the event in its slot with its operation, and how IFPAST judges it. -/

namespace Sys2Proof.Machine

open Sys2Proof

/-! ## What a trigger and a timebase read (R44 to R48, R73) -/

/-- What the value, the certainty and the literals of a timebase are read from. -/
def timebaseView (s : State) : State := { fit := s.fit, clk := s.clk, head := headRest s.head, cfg := s.cfg, st := s.st, line := s.line }
theorem timebaseView_congr {l : List Part} {s u : State} (hk : KeptBut l s u)
    (hl : ∀ p ∈ [Part.fixed, .clk, .head, .cfg, .st, .line], p ∉ l := by decide) : timebaseView u = timebaseView s := by
  unfold timebaseView
  rw [(hk .fixed (hl _ (by simp))).1, show u.clk = s.clk from hk .clk (hl _ (by simp)),
    show headRest u.head = headRest s.head from hk .head (hl _ (by simp)), show u.cfg = s.cfg from hk .cfg (hl _ (by simp)),
    show u.st = s.st from hk .st (hl _ (by simp)), show u.line = s.line from hk .line (hl _ (by simp))]

section
variable {s u : State} (h : timebaseView u = timebaseView s)
include h
theorem timebase_congr {α : Type} {f : State → α} (hv : ∀ v, f (timebaseView v) = f v) : f u = f s := by rw [← hv u, h, hv]
theorem tbValue_congr (tb : TB) : tbValue u tb = tbValue s tb := timebase_congr h (f := (tbValue · tb)) fun _ => by cases tb <;> rfl
theorem tbUncertain_congr (tb : TB) : tbUncertain u tb = tbUncertain s tb := timebase_congr h (f := (tbUncertain · tb)) fun _ => by cases tb <;> rfl
theorem triggerOf_congr (a : AtArgs) : triggerOf u a = triggerOf s a := timebase_congr h (f := (triggerOf · a)) fun _ => rfl
end

/-! ## The event in its slot (R51, R52, R59) -/

/-- The operation of an event, in its slot, with the segment slots reserved for its command. -/
def eventOp (a : Arm) (k : Nat) (c : Ctx) (s : State) (segs : List Nat) : Op :=
  { startedOp s c (.event a.tb) (.event a.dv (tbValue s a.tb) []) k with segs }
/-- An event that a line arms is put into the slot of its operation: its entry, and the chain of segment slots reserved for its command. -/
def eventPut (a : Arm) (more id k n : Nat) (tag : Option Nat) (held : Bool) (s : State) : State :=
  let s := (dropRow k s).modEnt k (armEntry a n tag (if held then .held else .armed))
  let r := takeSlots .segment .segPending n tag more s
  let s := r.2.modOp id fun o => { o with segs := r.1 }
  let s := match r.1 with
    | f :: _ => s.modEnt k fun e => { e with next := f }
    | [] => s
  writeSegs (verbStation a.dv) r.1 (slotSegs (verbTypes a.dv more) []) s
/-- What IFPAST makes of an event that is put and answered: where its timebase, not held, stands beyond the trigger, it fires late, stays armed,
or has missed (R62). -/
def eventJudged (a : Arm) (id k : Nat) (held : Bool) (s : State) : State :=
  if held ∨ ¬ beyond a.dir (tbValue s a.tb) a.trigger then s
  else match a.ifpast with
    | 0 => joinRow { at_ := s.now, slot := k, tb := a.tb, value := tbValue s a.tb, late := true } s
    | 1 => s
    | _ => finOp id (eqR "missed") s
/-- AT starts the event's operation, puts the event into its slot, answers, and leaves the rest to IFPAST (R61, R62). -/
theorem armEvent_eq (a : Arm) (more : Nat) (c : Ctx) (s : State) (q : Nat × State) (k : Nat) (held : Bool)
    (hq : startOp c (.event a.tb) (.event a.dv (tbValue s a.tb) []) true s = q) (hk : ((q.2.opOf q.1).bind (·.slot)).getD 0 = k)
    (hh : tbUncertain q.2 a.tb = held) (hw : c.within = none) :
    armEvent a more c s = eventJudged a q.1 k held
      (say c (colR (if held then "held" else "armed") [.kn "slot" k ""]) (eventPut a more q.1 k (portSession c.port) c.tag held q.2)) := by
  subst hq hk hh
  unfold armEvent
  rw [hw]
  rfl

/-- An event put into slot k: its entry, its operation, and the row of crossings without those of the slot's earlier event. -/
structure EventPut (a : Arm) (k n : Nat) (c : Ctx) (held : Bool) (s u : State) : Prop where
  entry : ∃ e next, u.ent k = { armEntry a n c.tag (if held then .held else .armed) e with next }
  ops : ∃ segs, u.ops = s.ops ++ [eventOp a k c s segs]
  crossings : u.crossings = s.crossings.filter (·.slot ≠ k)
  kept : KeptBut [.pool, .ops, .crossings, .work, .ids, .jrn] s u

theorem dropRow_kept (k : Nat) (s : State) : KeptBut [.crossings] s (dropRow k s) := by
  intro p hp; cases p <;> simp_all [samePart, dropRow]
theorem modOp_append_new {s : State} {l : List Op} {o : Op} (f : Op → Op) (hs : s.ops = l ++ [o]) (hl : ∀ q ∈ l, q.id ≠ o.id) :
    (s.modOp o.id f).ops = l ++ [f o] := by
  have hold : l.map (fun q => if q.id = o.id then f q else q) = l :=
    (List.map_congr_left fun q hq => if_neg (hl q hq)).trans (List.map_id l)
  simp only [State.modOp, hs, List.map_append, hold, List.map_cons, List.map_nil, if_true]
/-- A slot's entry that is linked to a chain keeps all but its link. -/
theorem linkEntry_spec (k : Nat) (l : List Nat) {s u : State} (hu : u = match l with
      | f :: _ => s.modEnt k fun e => { e with next := f }
      | [] => s) :
    (∃ next, u.ent k = { s.ent k with next }) ∧ KeptBut [.pool] s u := by
  subst hu
  cases l with
  | nil => exact ⟨⟨(s.ent k).next, rfl⟩, KeptBut.refl _ s⟩
  | cons f l => exact ⟨⟨f, by rw [ent_modEnt, if_pos rfl]⟩, modEnt_kept s k _⟩

section
variable {a : Arm} {more k n : Nat} {c : Ctx} {s : State} (hw : c.within = none) (hp : c.port = .session n) (hf : freeSlot s = some k) (hid : idsFresh s)
include hw hp hf hid

theorem eventPut_puts (held : Bool) :
    EventPut a k n c held s (eventPut a more s.nextOp k n c.tag held (startOp c (.event a.tb) (.event a.dv (tbValue s a.tb) []) true s).2) := by
  obtain ⟨-, -, hops⟩ := startOp_session (.event a.tb) (.event a.dv (tbValue s a.tb) []) hw hp hf
  have hstart := startOp_kept c (.event a.tb) (.event a.dv (tbValue s a.tb) []) true s
  generalize (startOp c (.event a.tb) (.event a.dv (tbValue s a.tb) []) true s).2 = v at hops hstart ⊢
  unfold eventPut
  dsimp only
  generalize hst : (if held then ESt.held else ESt.armed) = st
  generalize hx : (dropRow k v).modEnt k (armEntry a n c.tag st) = x
  have hent : x.ent k = armEntry a n c.tag st (v.ent k) := by rw [← hx, ent_modEnt, if_pos rfl]; rfl
  have hxk : KeptBut [.crossings, .pool] v x := hx ▸ ((dropRow_kept k v).mono (by simp)).trans ((modEnt_kept _ k _).mono (by simp))
  have hrow : x.crossings = v.crossings.filter (·.slot ≠ k) := by rw [← hx]; rfl
  obtain ⟨hspare, hentT, htake⟩ := takeSlots_spares (k := k) .segment .segPending n c.tag more (s := x) (by rw [hent]; simp [armEntry])
  generalize takeSlots .segment .segPending n c.tag more x = r at hspare hentT htake ⊢
  have hopsR : r.2.ops = s.ops ++ [startedOp s c (.event a.tb) (.event a.dv (tbValue s a.tb) []) k] :=
    (htake .ops (by simp)).trans ((hxk .ops (by simp)).trans hops)
  have hmod : (r.2.modOp s.nextOp fun o => { o with segs := r.1 }).ops = s.ops ++ [eventOp a k c s r.1] :=
    modOp_append_new (fun o => { o with segs := r.1 }) hopsR fun q hq => Nat.ne_of_lt (hid q hq)
  have hyk := modOp_kept r.2 s.nextOp fun o => { o with segs := r.1 }
  generalize r.2.modOp s.nextOp (fun o => { o with segs := r.1 }) = y at hmod hyk ⊢
  generalize hz : (match r.1 with
    | f :: _ => y.modEnt k fun e => { e with next := f }
    | [] => y) = z
  obtain ⟨⟨next, hlink⟩, hzk⟩ := linkEntry_spec k r.1 hz.symm
  obtain ⟨hentW, hwk⟩ := writeSegs_spares (verbStation a.dv) (slotSegs (verbTypes a.dv more) []) z hspare
  generalize writeSegs (verbStation a.dv) r.1 (slotSegs (verbTypes a.dv more) []) z = u at hentW hwk ⊢
  have hxu : KeptBut [.pool, .ops, .work, .jrn] x u :=
    ((htake.mono (by simp)).trans (hyk.mono (by simp))).trans ((hzk.mono (by simp)).trans (hwk.mono (by simp)))
  refine ⟨⟨v.ent k, next, ?_⟩, ⟨r.1, ?_⟩, ?_, (hstart.mono (by simp)).trans ((hxk.mono (by simp)).trans (hxu.mono (by simp)))⟩
  · rw [hentW, hlink, hyk.ent (by simp), hentT, hent, hst]
  · rw [show u.ops = y.ops from (hwk .ops (by simp)).trans (hzk .ops (by simp))]
    exact hmod
  · rw [show u.crossings = x.crossings from hxu .crossings (by simp), hrow, show v.crossings = s.crossings from hstart .crossings (by simp)]

/-- AT of a session's line: the event in the lowest free slot, its answer, IFPAST's judgement. -/
theorem armEvent_puts : ∃ u, EventPut a k n c (tbUncertain s a.tb) s u ∧ armEvent a more c s
    = eventJudged a s.nextOp k (tbUncertain s a.tb) (say c (colR (if tbUncertain s a.tb then "held" else "armed") [.kn "slot" k ""]) u) := by
  obtain ⟨hnext, -, hops⟩ := startOp_session (.event a.tb) (.event a.dv (tbValue s a.tb) []) hw hp hf
  have hop := opOf_append_new hops fun q hq => Nat.ne_of_lt (hid q hq)
  have hunc := tbUncertain_congr (timebaseView_congr (startOp_kept c (.event a.tb) (.event a.dv (tbValue s a.tb) []) true s)) a.tb
  refine ⟨_, eventPut_puts (more := more) hw hp hf hid (tbUncertain s a.tb), ?_⟩
  rw [armEvent_eq a more c s _ k _ rfl ?_ hunc hw, hnext, hp]
  · rfl
  · rw [hnext]
    exact congrArg (fun o : Option Op => (o.bind (·.slot)).getD 0) hop
end

/-! ## IFPAST (R62) -/

theorem eventJudged_stays {a : Arm} {id k : Nat} {held : Bool} {s : State}
    (h : held = true ∨ beyond a.dir (tbValue s a.tb) a.trigger = false ∨ a.ifpast = 1) : eventJudged a id k held s = s := by
  unfold eventJudged
  split
  · rfl
  · next hn =>
    obtain h | h | h := h
    · exact absurd (.inl h) hn
    · exact absurd (.inr (by simp [h])) hn
    · simp only [h]
theorem eventJudged_late {a : Arm} {id k : Nat} {s : State} (hb : beyond a.dir (tbValue s a.tb) a.trigger = true) (h : a.ifpast = 0) :
    eventJudged a id k false s = joinRow { at_ := s.now, slot := k, tb := a.tb, value := tbValue s a.tb, late := true } s := by
  simp [eventJudged, hb, h]
theorem eventJudged_missed {a : Arm} {id k : Nat} {s : State} (hb : beyond a.dir (tbValue s a.tb) a.trigger = true) (h : a.ifpast = 2) :
    eventJudged a id k false s = finOp id (eqR "missed") s := by
  simp [eventJudged, hb, h]
theorem pastCode_cases (t : TB) (p : Option IfPast) : pastCode t p = 0 ∨ pastCode t p = 1 ∨ pastCode t p = 2 := by
  cases p with
  | none => cases t <;> simp [pastCode]
  | some p => cases p <;> simp [pastCode]

/-- The acceptance of a line draws no operation's id. -/
theorem lineGo_nextOp (n : Nat) (l : Line) (sp : Spec) (s : State) (hp : l.port = .session n) : (lineGo n l sp s).nextOp = s.nextOp := by
  have hread : (lineRead n l s).nextOp = s.nextOp := (lineRead_kept n l s hp .ids (by simp)).1
  have hseen : (lineSeen n l sp s).nextOp = s.nextOp := by
    unfold lineSeen
    split
    · exact (useAuthority_kept l _ .ids (by simp)).1.trans hread
    · exact hread
  unfold lineGo
  dsimp only
  split
  · exact (record_kept _ _ _ _ .ids (by simp)).1.trans hseen
  · exact hseen

/-- What an entry tells of the event that it was armed with (R58). -/
def tellsArm (a : Arm) (n : Nat) (e : PoolEntry) : Prop :=
  e.trigger = a.trigger ∧ e.dir = a.dir ∧ e.ifpast = a.ifpast ∧ e.rep = a.rep ∧ e.session = n ∧ e.firings = 0 ∧ e.tb = BitVec.ofNat 8 (tbCode a.tb)

/-- An event that a session's line has put into slot k and that is answered: its entry, the row, the operation, the reply. -/
structure EventAnswered (a : Arm) (k n : Nat) (c : Ctx) (held : Bool) (s g w : State) : Prop where
  tells : tellsArm a n (w.ent k)
  kind : (w.ent k).kind = .event
  st : (w.ent k).st = if held then .held else .armed
  ops : ∃ segs, w.ops = s.ops ++ [eventOp a k c g segs]
  crossings : w.crossings = s.crossings.filter (·.slot ≠ k)
  heard : Heard n s w [sentTo s n c.tag (colR (if held then "held" else "armed") [.kn "slot" k ""])]
  kept : KeptBut (.pool :: .ops :: .crossings :: heardParts) s w

theorem eventAnswered {a : Arm} {k n : Nat} {c : Ctx} {held : Bool} {s g u : State} (hu : EventPut a k n c held g u) (hg : KeptBut heardParts s g)
    (hheard : Heard n s g []) (ho : (s.ses n).st = .opn) (hb : (s.ses n).heldBack = []) (hp : c.port = .session n) (hw : c.within = none) :
    EventAnswered a k n c held s g (say c (colR (if held then "held" else "armed") [.kn "slot" k ""]) u) := by
  obtain ⟨⟨e, next, hent⟩, ⟨segs, hops⟩, hrow, hk⟩ := hu
  obtain ⟨hsaid, hkw⟩ := (hheard.of_kept hk (by simp)).say (r := colR (if held then "held" else "armed") [.kn "slot" k ""]) ho hb (by simp [colR]) hp hw
  generalize say c _ u = w at hsaid hkw ⊢
  have hentw : w.ent k = { armEntry a n c.tag (if held then .held else .armed) e with next } := (hkw.ent (by simp) k).trans hent
  refine ⟨?_, by rw [hentw]; rfl, by rw [hentw]; rfl, ⟨segs, ?_⟩, ?_, hsaid, (hg.mono (by decide)).trans ((hk.mono (by decide)).trans (hkw.mono (by decide)))⟩
  · rw [hentw]
    exact ⟨rfl, rfl, rfl, rfl, rfl, rfl, rfl⟩
  · rw [show w.ops = u.ops from hkw .ops (by simp), hops, show g.ops = s.ops from hg .ops (by decide)]
  · rw [show w.crossings = u.crossings from hkw .crossings (by simp), hrow, show g.crossings = s.crossings from hg .crossings (by decide)]

/-- An event that has missed is over: its slot is free again, its operation gone, and its final reply stands behind the first (R62). -/
theorem EventAnswered.missed {a : Arm} {k n : Nat} {c : Ctx} {held : Bool} {s g w : State} (h : EventAnswered a k n c held s g w) (hid : idsFresh s)
    (hn : g.nextOp = s.nextOp) (ho : (s.ses n).st = .opn) (hb : (s.ses n).heldBack = []) (hp : c.port = .session n) :
    let u := finOp s.nextOp (eqR "missed") w
    tellsArm a n (u.ent k) ∧ (u.ent k).kind = .free ∧ u.ops = s.ops ∧ u.crossings = s.crossings.filter (·.slot ≠ k)
      ∧ Heard n s u ([sentTo s n c.tag (colR (if held then "held" else "armed") [.kn "slot" k ""])] ++ [sentTo s n c.tag (eqR "missed")])
      ∧ KeptBut (.pool :: .ops :: .crossings :: heardParts) s u := by
  obtain ⟨htells, -, -, ⟨segs, hops⟩, hrow, hheard, hk⟩ := h
  dsimp only
  have hids : ∀ q ∈ s.ops, q.id ≠ (eventOp a k c g segs).id := fun q hq => Nat.ne_of_lt (lt_of_lt_of_eq (hid q hq) hn.symm)
  have hfind : w.opOf s.nextOp = some (eventOp a k c g segs) := hn ▸ opOf_append_new hops hids
  have hrun : finOp s.nextOp (eqR "missed") w = fin (eventOp a k c g segs).ctx (eqR "missed") (dropOp (eventOp a k c g segs) w) := by
    simp only [finOp, hfind]
  have hd := dropOp_kept (eventOp a k c g segs) w
  obtain ⟨hsaid, hf⟩ := (hheard.of_kept hd (by simp)).fin (c := (eventOp a k c g segs).ctx) (r := eqR "missed") ho hb (by simp [eqR]) hp rfl
  have hent : (dropOp (eventOp a k c g segs) w).ent k = (w.ent k).released := by
    rw [ent_dropOp, if_pos (by simp [eventOp, startedOp])]
  rw [hrun]
  generalize fin _ _ _ = u at hsaid hf ⊢
  refine ⟨?_, ?_, ?_, ?_, hsaid, hk.trans ((hd.mono (by decide)).trans (hf.mono (by decide)))⟩
  · rw [hf.ent (by simp), hent]
    exact htells
  · rw [hf.ent (by simp), hent]
    rfl
  · rw [show u.ops = _ from hf .ops (by simp), dropOp_ops, hops, List.filter_append, List.filter_eq_self.2 fun q hq => by simp [hids q hq]]
    simp
  · exact (hf .crossings (by simp)).trans ((hd .crossings (by simp)).trans hrow)

/-! ## The obligation -/

/-- Settles O31: the line's event is put and answered (`armEvent_puts`, `eventAnswered`), and IFPAST judges it: it stays, it fires late, or it has
missed. -/
theorem atArms : Obligations.AtArms := by
  intro l a k v n s h hid hfree hv
  obtain ⟨hp, -, ho, hb'⟩ := taken_session h
  refine does_of_taken h rfl ?_
  have hk := lineGo_kept_plain n l (atSpec l a (verbSpec s l.port a.doVerb)) s hp rfl
  have hnext := lineGo_nextOp n l (atSpec l a (verbSpec s l.port a.doVerb)) s hp
  have hheard := Heard.lineGo h
  generalize lineGo n l (atSpec l a (verbSpec s l.port a.doVerb)) s = g at hk hnext hheard ⊢
  have hview := timebaseView_congr hk
  have hidg : idsFresh g := by unfold idsFresh; rw [hnext, show g.ops = s.ops from hk .ops (by decide)]; exact hid
  have hfreeg : freeSlot g = some k := (freeSlot_congr (hk .pool (by decide)).1).trans hfree
  generalize harm : ({ tb := a.tb, trigger := (triggerOf g a).getD 0, dir := dirCode a.tb a.dir, ifpast := pastCode a.tb a.ifpast, rep := a.rep
                       periodic := a.period.isSome, aux := auxOf g a, limit := a.count.getD 0, user := a.user, dv := a.doVerb
                       textLen := a.doText.length } : Arm) = arm
  have htb : arm.tb = a.tb := by rw [← harm]
  have htrigger : arm.trigger = v := by rw [← harm, triggerOf_congr hview, hv]; rfl
  have hdir : arm.dir = dirCode a.tb a.dir := by rw [← harm]
  have hpast : arm.ifpast = pastCode a.tb a.ifpast := by rw [← harm]
  have hrep : arm.rep = a.rep := by rw [← harm]
  obtain ⟨u, hput, hrun⟩ := armEvent_puts (a := arm) (more := (verbSpec s l.port a.doVerb).slots g - 1) (c := lineCtx l s) rfl hp hfreeg hidg
  have hspec : (atSpec l a (verbSpec s l.port a.doVerb)).run (lineCtx l s) g = armEvent arm ((verbSpec s l.port a.doVerb).slots g - 1) (lineCtx l s) g := by
    rw [← harm]
    rfl
  rw [hspec, hrun, htb, tbUncertain_congr hview]
  rw [htb, tbUncertain_congr hview] at hput
  have hdone := eventAnswered hput hk hheard ho hb' hp rfl
  generalize say _ _ u = w at hdone ⊢
  have hvalue : tbValue w a.tb = tbValue s a.tb := tbValue_congr (timebaseView_congr hdone.kept) a.tb
  have hbeyond : beyond arm.dir (tbValue w arm.tb) arm.trigger = beyond (dirCode a.tb a.dir) (tbValue s a.tb) v := by rw [hdir, htb, htrigger, hvalue]
  have htells : ∀ e, tellsArm arm n e → e.trigger = v ∧ e.dir = dirCode a.tb a.dir ∧ e.ifpast = pastCode a.tb a.ifpast ∧ e.rep = a.rep ∧ e.session = n
      ∧ e.firings = 0 ∧ e.tb = BitVec.ofNat 8 (tbCode a.tb) := fun e he => by
    simpa only [tellsArm, htrigger, hdir, hpast, hrep, htb] using he
  obtain ⟨h1, h2, h3, h4, h5, h6, h7⟩ := htells _ hdone.tells
  cases hunc : tbUncertain s a.tb with
  | true =>
    rw [hunc] at hdone
    rw [eventJudged_stays (.inl rfl)]
    exact ⟨h1, h2, h3, h4, h5, h6, h7, hdone.heard.others, hdone.kept, fun _ => ⟨hdone.kind, hdone.st, hdone.crossings, hdone.heard.out⟩, nofun, nofun⟩
  | false =>
    rw [hunc] at hdone
    cases hb : beyond (dirCode a.tb a.dir) (tbValue s a.tb) v with
    | false =>
      rw [eventJudged_stays (.inr (.inl (hbeyond.trans hb)))]
      exact ⟨h1, h2, h3, h4, h5, h6, h7, hdone.heard.others, hdone.kept, nofun, fun _ _ => ⟨hdone.kind, hdone.st, hdone.crossings, hdone.heard.out⟩, nofun⟩
    | true =>
      obtain hcode | hcode | hcode := pastCode_cases a.tb a.ifpast
      · rw [eventJudged_late (hbeyond.trans hb) (hpast.trans hcode), htb, hvalue]
        have hrow := joinRow_kept { at_ := w.now, slot := k, tb := a.tb, value := tbValue s a.tb, late := true } w
        have hnow : w.now = s.now := hdone.kept.now (by decide)
        refine ⟨h1, h2, h3, h4, h5, h6, h7, hdone.heard.others, hdone.kept.trans (hrow.mono (by simp)), nofun, nofun, fun _ _ => ⟨fun _ => ?_, ?_, ?_⟩⟩
        · exact ⟨hdone.st, by rw [← hdone.crossings, ← hnow]; rfl, hdone.heard.out⟩
        · simp [hcode]
        · simp [hcode]
      · rw [eventJudged_stays (.inr (.inr (hpast.trans hcode)))]
        refine ⟨h1, h2, h3, h4, h5, h6, h7, hdone.heard.others, hdone.kept, nofun, nofun, fun _ _ => ⟨?_, fun _ => ⟨hdone.st, hdone.crossings, hdone.heard.out⟩, ?_⟩⟩
        · simp [hcode]
        · simp [hcode]
      · rw [eventJudged_missed (hbeyond.trans hb) (hpast.trans hcode), hnext]
        obtain ⟨htold, hfree', hops, hrow, hmissed, hkept⟩ := hdone.missed hid hnext ho hb' hp
        obtain ⟨h1, h2, h3, h4, h5, h6, h7⟩ := htells _ htold
        refine ⟨h1, h2, h3, h4, h5, h6, h7, hmissed.others, hkept, nofun, nofun, fun _ _ => ⟨?_, ?_, fun _ => ⟨hfree', hops, hrow, hmissed.out⟩⟩⟩
        · simp [hcode]
        · simp [hcode]

end Sys2Proof.Machine
end

section
/-! SUPPORT. A session's line on its arrival: it waits, goes to the front for its slot, or is read at once and answered before its verb is judged
(R34, R105, R107, R109, R117 to R119, R537). -/

namespace Sys2Proof.Machine

open Sys2Proof

/-! ## A line that arrives (R34, R110) -/

/-- A session has received a line now (R110). -/
def lineArrived (n : Nat) (s : State) : State := s.modSes n fun x => { x with lastLine := s.now }

theorem lineArrived_ses (n k : Nat) (s : State) : (lineArrived n s).ses k = if k = n then { s.ses n with lastLine := s.now } else s.ses k :=
  ses_modSes s n k _
theorem lineArrived_own (n : Nat) (s : State) : (lineArrived n s).ses n = { s.ses n with lastLine := s.now } := by rw [lineArrived_ses, if_pos rfl]
theorem lineArrived_others (n : Nat) (s : State) : othersKept n s (lineArrived n s) := fun k hk => by rw [lineArrived_ses, if_neg hk]
theorem lineArrived_kept (n : Nat) (s : State) : KeptBut [.sess] s (lineArrived n s) := modSes_kept s n _
theorem canRead_lineArrived (n k : Nat) (s : State) : canRead (lineArrived n s) k = canRead s k := by
  have hout : ((lineArrived n s).ses k).out = (s.ses k).out := by
    rw [lineArrived_ses]
    split
    · subst_vars; rfl
    · rfl
  unfold canRead
  rw [hout]
  rfl

/-- What `reached` says of a line, its session and the lines that wait. -/
structure Reached (n : Nat) (l : Line) (s : State) : Prop where
  port : l.port = .session n
  started : s.head.started = true
  opened : (s.ses n).st = .opn
  readable : canRead s n = true
  first : ∀ e ∈ s.inbuf, canRead s e.ses = false
  heldBack : (s.ses n).heldBack = []
  framed : framedIn s l = l
  line : ignoredLine l = false
  room : noRoom l n s = false
theorem reached_spec {n : Nat} {l : Line} {s : State} (h : reached n l s = true) : Reached n l s := by
  simp only [reached, Bool.and_eq_true, decide_eq_true_eq, List.all_eq_true, Bool.not_eq_true', List.isEmpty_iff] at h
  obtain ⟨⟨⟨⟨⟨⟨⟨⟨hp, hst⟩, ho⟩, hc⟩, hi⟩, hb⟩, hf⟩, hl⟩, hr⟩ := h
  exact ⟨hp, hst, ho, hc, hi, hb, hf, hl, hr⟩
theorem heard_spec {n : Nat} {l : Line} {s : State} (h : heard n l s = true) :
    Reached n l s ∧ ∀ e ∈ (s.ses n).tags, some e.tag ≠ lineTag l := by
  simp only [heard, Bool.and_eq_true] at h
  obtain ⟨⟨hr, -⟩, ht⟩ := h
  refine ⟨reached_spec hr, fun e he htag => ?_⟩
  rw [← htag] at ht
  simpa using List.find?_eq_none.1 (Option.isNone_iff_eq_none.1 ht) e he

/-- No line of a session waits that the interpreter reads next (R34). -/
theorem Reached.consoleFull {n : Nat} {l : Line} {s : State} (h : Reached n l s) : consoleFull s n = false := by
  have hnone : s.inbuf.filter (·.ses = n) = [] := List.filter_eq_nil_iff.2 fun e he hn => by
    have hunread := h.first e he
    rw [of_decide_eq_true hn, h.readable] at hunread
    exact Bool.noConfusion hunread
  simp [Machine.consoleFull, hnone]

/-- A line that comes to a started head in an open session with room for it, and is no comment, stands in its session's buffer (R87, R107, R109). -/
theorem handleLine_comes {i : Instr} {l : Line} {n : Nat} {sp : Spec} {s : State} (hp : l.port = .session n) (hst : s.head.started = true)
    (ho : (s.ses n).st = .opn) (hr : noRoom l n s = false) (hl : ignoredLine (framedIn s l) = false) :
    handleLine i l sp s = lineComes i (framedIn s l) n sp (consoleFull s n) (lineArrived n s) := by
  unfold handleLine
  rw [hp]
  refine (if_neg (by simp [hst, ho])).trans ((if_neg (by simp [hr])).trans ?_)
  exact if_neg (by simp [hl])
/-- A line that is reached is read, or goes to the front and waits for its slot (R34, R537). -/
theorem reached_comes {i : Instr} {l : Line} {n : Nat} {sp : Spec} {s : State} (h : Reached n l s) :
    handleLine i l sp s = if slotWaits n l sp s
      then { lineArrived n s with inbuf := { ses := n, line := l, cmd := i, at_ := s.now, asked := true } :: s.inbuf }
      else readLine l s.now sp (lineArrived n s) := by
  have hturn : (canRead (lineArrived n s) n && (lineArrived n s).inbuf.all fun e => !canRead (lineArrived n s) e.ses) = true := by
    simp only [canRead_lineArrived, h.readable, Bool.true_and, List.all_eq_true, Bool.not_eq_true']
    exact h.first
  have hframed := h.framed
  rw [handleLine_comes h.port h.started h.opened h.room (by rw [hframed]; exact h.line), hframed, h.consoleFull]
  unfold lineComes
  rw [hturn]
  rfl

/-! ## A reply that is all a line brings about -/

/-- One line has come from a session, and one reply has gone into its buffer; the interpreter has worked, and nothing else is touched. -/
structure OnlyAnswered (n : Nat) (s u : State) (r : Reply) : Prop where
  own : u.ses n = { s.ses n with lastLine := s.now, out := (s.ses n).out ++ [{ r with checked := (s.ses n).rcheck && decide ((s.ses n).mode = .gen) }] }
  others : othersKept n s u
  kept : KeptBut [.sess, .work] s u

theorem OnlyAnswered.out {n : Nat} {s u : State} {r : Reply} (h : OnlyAnswered n s u r) :
    u.ses n = { s.ses n with lastLine := s.now, out := (u.ses n).out } := by rw [h.own]
theorem OnlyAnswered.answered {n : Nat} {l : Line} {s u : State} {r : Reply} (h : OnlyAnswered n s u { r with tag := lineTag l }) :
    answered n l s u r := by rw [Machine.answered, h.own]; rfl

/-- The state in which a session's line is tested (R105). -/
def lineTested (n : Nat) (s : State) : State := (lineArrived n s).worked .int
theorem lineTested_kept (n : Nat) (s : State) : KeptBut [.sess, .work] s (lineTested n s) :=
  ((lineArrived_kept n s).mono (by simp)).trans ((worked_kept _ _ _).mono (by simp))

/-- A line that nothing is held back for goes into its session's buffer under any command's tag (R103, R107). -/
theorem putFor_unheld {x : Session} {tag : Option Nat} {r : Reply} (hb : x.heldBack = []) (hr : r.pre ≠ .tilde) :
    x.putFor tag r = { x with out := x.out ++ [{ r with checked := x.rcheck && decide (x.mode = .gen) }] } := by
  simp [Session.putFor, hb, hr]

section
variable {n : Nat} {l : Line} {s : State} (h : Reached n l s)
include h

theorem putFor_onlyAnswered (tag : Option Nat) {r : Reply} (hr : r.pre ≠ .tilde) :
    OnlyAnswered n s ((lineTested n s).modSes n (·.putFor tag r)) r := by
  have hses : ∀ k, (lineTested n s).ses k = (lineArrived n s).ses k := fun _ => rfl
  refine ⟨?_, fun k hk => ?_, (lineTested_kept n s).trans ((modSes_kept _ n _).mono (by simp))⟩
  · rw [ses_modSes, if_pos rfl, hses, lineArrived_own]
    exact putFor_unheld h.heldBack hr
  · rw [ses_modSes, if_neg hk, hses, lineArrived_others n s k hk]
theorem lineTested_open : ¬ ((lineTested n s).ses n).st = .free := by
  rw [show (lineTested n s).ses n = (lineArrived n s).ses n from rfl, lineArrived_own]
  simp [h.opened]
theorem send_onlyAnswered {r : Reply} (hr : r.pre ≠ .tilde) : OnlyAnswered n s (send (.session n) r (lineTested n s)) r := by
  simp only [send, if_neg (lineTested_open h)]
  exact putFor_onlyAnswered h r.tag hr

/-! ## The tests before a verb is judged (R105, R117) -/

theorem earlyTests_lineTested : earlyTests l (lineTested n s) = earlyTests l s := by
  have hc : needsCheck (lineTested n s) l.port = needsCheck s l.port := by
    rw [h.port]
    show decide (((lineArrived n s).ses n).mode = .gen) = _
    rw [lineArrived_own]
    rfl
  unfold earlyTests
  rw [hc]
theorem tagReply_lineArrived : tagReply l (lineArrived n s) = tagReply l s := by
  have ht : tagsOf (lineArrived n s) l.port = tagsOf s l.port := by
    rw [h.port]
    show ((lineArrived n s).ses n).tags = _
    rw [lineArrived_own]
    rfl
  unfold tagReply
  rw [ht]
theorem readLine_reached (at_ : Nat) (sp : Spec) :
    readLine l at_ sp (lineArrived n s) = (match earlyTests l s with
      | some e => send (.session n) { errR e with tag := lineTag l } (lineTested n s)
      | none => match tagReply l s with
        | some r => sendUnder (.session n) (lineTag l) r (lineTested n s)
        | none => match formError l sp s with
          | some w => send (.session n) { errR { code := 1, detail := if w = "" then .none else .word w } with tag := lineTag l } (lineTested n s)
          | none => readOn l at_ sp { port := l.port, tag := lineTag l, text := lineText l } (noteTag l (lineTested n s))) := by
  have hturn : lineTurn l.port (lineTag l) (lineArrived n s) = lineTested n s := by
    rw [h.port]
    exact session_entry n s (lineTag l) (by simp [h.heldBack])
  have htag : tagReply l (lineTested n s) = tagReply l s := tagReply_lineArrived h
  unfold readLine
  simp only [hturn, earlyTests_lineTested h, htag]
  rw [h.port]
  rfl

/-- A line that fails a test of steps 1 to 3 asks for no slot; it is answered with its error (R105, R537). -/
theorem early_answered {i : Instr} {sp : Spec} {e : Err} (he : earlyTests l s = some e) :
    OnlyAnswered n s (handleLine i l sp s) { errR e with tag := lineTag l } := by
  have hw : slotWaits n l sp s = false := by
    have htests : earlyTests l (lineArrived n s) = some e := (earlyTests_lineTested h).trans he
    show asksSlot l s.now sp (lineArrived n s) = false
    simp [asksSlot, htests]
  rw [reached_comes h, hw, if_neg (by simp), readLine_reached h, he]
  exact send_onlyAnswered h (by simp [errR])

end

/-- Settles O10: the error is all that the line brings about (`early_answered`). -/
theorem earlyErrorsAnswered : Obligations.EarlyErrorsAnswered := by
  intro i l n s e hi hc h he
  have ha := early_answered (reached_spec h) (i := i) (sp := lineSpec s l.port l i) he
  exact ⟨_, exec_line i l s hi hc, ha.answered, ha.out, ha.kept, ha.others⟩

end Sys2Proof.Machine
end

section
/-! SUPPORT. A tag memory that holds a report as a line's final reply: the reply to the duplicate is discarded and counted while reports are lost
(R107), so the line leaves more than its instant and its reply in its session. -/

namespace Sys2Proof.Machine

open Sys2Proof

/-- A unit with one open session in typed mode that has lost a report, whose tag memory gives a report as the final reply of its one entry. -/
def reportRemembered : State :=
  { head := { started := true }, sess := [(1, { st := .opn, mode := .typed, lost := 1, tags := [{ tag := 7, text := ascii " REF S00", reply := some (tilR "lost") }] })] }

theorem dropRelays_kept (n : Nat) (s : State) : KeptBut [.net, .work, .pool, .jrn] s (dropRelays n s) := by
  unfold dropRelays
  exact ((forEach_kept _ _ s fun _ u => (transmit_kept _ _ _ u _).mono (by simp)).trans
    (forEach_kept _ _ _ fun _ u => (releaseSlots_kept _ u).mono (by simp))).trans ((modNet_kept _ _).mono (by simp))
/-- Where nothing lasts, the end of a session frees its number and leaves the others (R111). -/
theorem endSession_idle {s : State} (n : Nat) (h : s.ops = []) :
    (endSession n s).ops = [] ∧ ∀ k, (endSession n s).ses k = if k = n then {} else s.ses k := by
  have hcancel : (cancelAll n s).2 = s := by simp [cancelAll, sessionOps, h]
  have hk := dropRelays_kept n s
  unfold endSession
  rw [hcancel]
  refine ⟨(hk .ops (by simp)).trans h, fun k => ?_⟩
  show ((dropRelays n s).modSes n fun _ => {}).ses k = _
  rw [ses_modSes, hk.ses (by simp)]

/-- No operation lasts, and session 1 has lost one report or is over. -/
def OneLostOrOver (v : State) : Prop := v.ops = [] ∧ ((v.ses 1).lost = 1 ∨ (v.ses 1).st = .free)
theorem endSession_oneLostOrOver (n : Nat) {v : State} (h : OneLostOrOver v) : OneLostOrOver (endSession n v) := by
  obtain ⟨hops, hses⟩ := endSession_idle n h.1
  refine ⟨hops, ?_⟩
  rw [hses]
  split
  · exact .inr rfl
  · exact h.2
/-- What follows a command adds no lost report where nothing but sessions and counters has changed. -/
theorem settle_oneLost {u : State} (hk : KeptBut [.sess, .work] reportRemembered u) (hl : (u.ses 1).lost = 1) :
    ((settle reportRemembered u).ses 1).lost = 1 ∨ ((settle reportRemembered u).ses 1).st = .free := by
  have hst : u.st = [] := hk .st (by simp)
  have hslp : u.slp = {} := hk .slp (by simp)
  have hsettle : settle reportRemembered u = sealState false reportRemembered (poolRecord (endFull u)) := by
    rw [settle, settleWith, camsFollow_same (by simp [hst]), searchesEnd_same (by simp [hst]), releaseGone_same (by simp [reportRemembered]),
      sleepWatch_same (by rw [hslp]), clearMarks_same (by simp [hst]), watchDiff_same (by simp [reportRemembered])]
  have hend : OneLostOrOver (endFull u) :=
    forEach_keeps _ _ u (fun e v => endSession_oneLostOrOver e.1) ⟨hk .ops (by simp), .inl hl⟩
  have hses : (settle reportRemembered u).ses 1 = (endFull u).ses 1 := by
    rw [hsettle]
    exact (poolRecord_kept (endFull u)).ses (by simp) 1
  rw [hses]
  exact hend.2

/-- Refutes O11: in `reportRemembered`, `#7 REF S00` is a duplicate whose remembered reply is a report; it is discarded, and the count of lost
reports goes from 1 to 2. -/
theorem not_tagsAndUnreadLines : ¬ Obligations.TagsAndUnreadLines := by
  rintro ⟨htag, -⟩
  obtain ⟨u, hu, hk, -, -, hown, -⟩ := htag (.ref (quietLine "#7 REF S00") 0) (quietLine "#7 REF S00") 1 7 reportRemembered
    { tag := 7, text := ascii " REF S00", reply := some (tilR "lost") } rfl (by simp) (by decide +kernel) (by decide +kernel) (by decide +kernel) (by decide +kernel)
  have hlost : (u.ses 1).lost = 1 := by rw [hown]; rfl
  have hnext : ∃ w, exec (.ref (quietLine "#7 REF S00") 0) reportRemembered = .next w ∧ (w.ses 1).lost = 2 ∧ (w.ses 1).st = .opn :=
    ⟨_, rfl, by decide +kernel⟩
  obtain ⟨w, hw, hlost', hopen⟩ := hnext
  rw [hw, Host.Outcome.next.injEq] at hu
  subst hu
  obtain h | h := settle_oneLost hk hlost
  · exact absurd (hlost'.symm.trans h) (by decide)
  · exact absurd (hopen.symm.trans h) (by decide)

end Sys2Proof.Machine
end

section
/-! SUPPORT. A heard line that is refused, and the verbs that change their own session alone: MODE, LOGIN SAFETY, LOGIN OFF (R88, R98, R105, R114). -/

namespace Sys2Proof.Machine

open Sys2Proof

/-! ## A refusal (R101, R105, R120) -/

theorem Heard.lineRead {n : Nat} {l : Line} {s : State} (hp : l.port = .session n) : Heard n s (lineRead n l s) [] := by
  obtain ⟨g, hg⟩ := lineRead_own n l s hp
  exact ⟨⟨g, by simp [hg]⟩, fun k hk => lineRead_other n k l s hp hk⟩
/-- The error that ends a line that has entered tag memory stands last in its session's buffer, and nothing else comes of the line. -/
theorem refused_heard {n : Nat} {l : Line} {s : State} (h : Reached n l s) (e : Err) :
    Heard n s (finErr { port := l.port, tag := lineTag l, text := lineText l } e (lineRead n l s)) [shown s n l (errR e)]
      ∧ KeptBut [.sess, .work] s (finErr { port := l.port, tag := lineTag l, text := lineText l } e (lineRead n l s)) := by
  obtain ⟨hheard, hk⟩ := (Heard.lineRead h.port).fin (c := { port := l.port, tag := lineTag l, text := lineText l }) (r := errR e)
    h.opened h.heldBack (by simp [errR]) h.port rfl
  exact ⟨hheard, (lineRead_kept n l s h.port).trans (hk.mono (by simp))⟩

/-! ## Lines that no verb form fits (R88) -/

/-- An unknown line asks for no slot: it is E01 before it enters tag memory, or E02 (R88, R105, R120). -/
theorem unknownVerb_read {i : Instr} {l : Line} {f : Option String} {n : Nat} {s : State} (h : heard n l s = true) :
    handleLine i l (unknownSpec f) s = (match formError l (unknownSpec f) s with
      | some w => send (.session n) { errR { code := 1, detail := if w = "" then .none else .word w } with tag := lineTag l } (lineTested n s)
      | none => finErr { port := l.port, tag := lineTag l, text := lineText l } { code := 2 } (lineRead n l s)) := by
  have hknown : verbKnown l (unknownSpec f) = false := by simp [verbKnown, unknownSpec]
  have hslot : slotWaits n l (unknownSpec f) s = false := by simp [slotWaits, asksSlot, hknown]
  rw [heard_reads i n l (unknownSpec f) s h hslot]
  simp only [readOn, hknown, Bool.not_false, if_true]
  rfl

/-- Settles O12: E01 is all that a line of no form brings about (`send_onlyAnswered`), E02 ends one that has entered tag memory (`refused_heard`). -/
theorem unknownAndCommentLines : Obligations.UnknownAndCommentLines := by
  refine ⟨fun l f n s h => ⟨_, rfl, ?_⟩, fun l n s hp hst ho => ⟨lineArrived n s, ?_, lineArrived_own n s, lineArrived_kept n s, lineArrived_others n s⟩⟩
  · obtain ⟨hreached, hnew⟩ := heard_spec h
    rw [unknownVerb_read h]
    cases hform : formError l (unknownSpec f) s with
    | none =>
      obtain ⟨hheard, hk⟩ := refused_heard hreached { code := 2 }
      exact ⟨hheard.others, hk, fun _ => hheard.out, nofun⟩
    | some w =>
      have hsent := send_onlyAnswered hreached (r := { errR { code := 1, detail := if w = "" then .none else .word w } with tag := lineTag l }) (by simp [errR])
      refine ⟨hsent.others, hsent.kept, nofun, fun v hv hne => ?_⟩
      obtain rfl : w = v := Option.some.inj hv
      simp only [if_neg hne] at hsent ⊢
      refine ⟨hsent.answered, ?_⟩
      rw [hsent.own]
      exact hnew
  · simp only [exec, execCommentLine, hp, hst, ho, and_self, if_true]
    rfl

/-! ## A final reply in the session's own buffer (R98, R101, R107) -/

/-- A session has been given a reply as its line's final one, and nothing else is touched. -/
structure FinalReply (n : Nat) (tag : Option Nat) (r : Reply) (u v : State) : Prop where
  own : ∃ g, v.ses n = { u.ses n with tags := g, out := (u.ses n).out ++ [sentTo u n tag r] }
  others : othersKept n u v
  kept : KeptBut [.sess] u v

theorem fin_finalReply {c : Ctx} {n : Nat} {r : Reply} {u : State} (hp : c.port = .session n) (hw : c.within = none) (ho : (u.ses n).st = .opn)
    (hb : (u.ses n).heldBack = []) (hr : r.pre ≠ .tilde) : FinalReply n c.tag r u (fin c r u) := by
  obtain ⟨hk, hothers, g, hown⟩ := fin_line c n r u hp hw
  refine ⟨⟨g, ?_⟩, hothers, hk⟩
  have hput : (u.ses n).put { r with tag := c.tag } = { u.ses n with out := (u.ses n).out ++ [sentTo u n c.tag r] } := putFor_unheld hb hr
  rw [hown, if_neg (by simp [ho]), hput]

section
variable {n : Nat} {l : Line} {sp : Spec} {s : State} {r : Reply} {f : Session → Session} (h : taken n l sp s = true) (hr : r.pre ≠ .tilde)
include h hr

/-- A taken line's verb changes its session, where the buffer and what shapes a reply stay, and then answers. -/
theorem modSes_fin_answers (hf : ∀ x, (f x).st = x.st ∧ (f x).heldBack = x.heldBack ∧ (f x).out = x.out ∧ (f x).rcheck = x.rcheck ∧ (f x).mode = x.mode) :
    let v := fin (lineCtx l s) r ((lineGo n l sp s).modSes n f)
    (∃ g g', v.ses n = { f { s.ses n with lastLine := s.now, tags := g } with tags := g', out := (v.ses n).out }) ∧ answered n l s v r ∧ othersKept n s v
      ∧ KeptBut [.sess] (lineGo n l sp s) v := by
  obtain ⟨hp, -, ho, hb⟩ := taken_session h
  obtain ⟨g, hg⟩ := lineGo_own n l sp s hp
  have hmod : ((lineGo n l sp s).modSes n f).ses n = f { s.ses n with lastLine := s.now, tags := g } := by rw [ses_modSes, if_pos rfl, hg]
  obtain ⟨hst, hheld, hout, hcheck, hmode⟩ := hf { s.ses n with lastLine := s.now, tags := g }
  obtain ⟨⟨g', hown⟩, hothers, hk⟩ := fin_finalReply (c := lineCtx l s) (r := r) hp rfl (by rw [hmod, hst]; exact ho) (by rw [hmod, hheld]; exact hb) hr
  refine ⟨⟨g, g', ?_⟩, ?_, fun k hne => ?_, (modSes_kept _ n f).trans hk⟩
  · rw [hown, hmod]
  · rw [answered, hown]
    simp only [sentTo, hmod, hout, hcheck, hmode]
    rfl
  · rw [hothers k hne, ses_modSes, if_neg hne, lineGo_other n k l sp s hp hne]

end

/-! ## MODE (R98) -/

/-- The answer of MODE. -/
def modeReply (m : Mode) : Reply := eqR "mode" [.w (match m with | .typed => "typed" | .gen => "gen")]
theorem modeSpec_run {l : Line} {n : Nat} {s : State} (m : Mode) (rc : Option Bool) (hp : l.port = .session n) :
    (modeSpec m rc).run (lineCtx l s) (lineGo n l (modeSpec m rc) s)
      = (fin (lineCtx l s) (modeReply m) (lineGo n l (modeSpec m rc) s)).modSes n fun x => { x with mode := m, rcheck := rc.getD x.rcheck } := by
  have hn : portSession (lineCtx l s).port = n := congrArg portSession hp
  cases m <;> simp only [modeSpec, sessionSpec, modeReply, hn]
/-- Either form of MODE answers under the mode in force, and then the session's mode changes. -/
theorem mode_changes {l : Line} {n : Nat} {s : State} {m : Mode} {rc : Option Bool} (h : taken n l (modeSpec m rc) s = true) :
    let u := (modeSpec m rc).run (lineCtx l s) (lineGo n l (modeSpec m rc) s)
    (u.ses n).mode = m ∧ (u.ses n).rcheck = rc.getD (s.ses n).rcheck ∧ answered n l s u (modeReply m) ∧ othersKept n s u
      ∧ KeptBut [.sess, .work, .ids] s u := by
  obtain ⟨hp, -, ho, hb⟩ := taken_session h
  obtain ⟨hheard, hfin⟩ := (Heard.lineGo h).fin (c := lineCtx l s) (r := modeReply m) ho hb (by simp [modeReply, eqR]) hp rfl
  rw [modeSpec_run m rc hp]
  generalize fin (lineCtx l s) (modeReply m) (lineGo n l (modeSpec m rc) s) = v at hheard hfin ⊢
  obtain ⟨g, hown⟩ := hheard.own
  dsimp only
  refine ⟨?_, ?_, ?_, fun k hk => ?_, ?_⟩
  · rw [ses_modSes, if_pos rfl]
  · rw [ses_modSes, if_pos rfl, hown]
  · rw [answered, ses_modSes, if_pos rfl, hown]
    rfl
  · rw [ses_modSes, if_neg hk, hheard.others k hk]
  · exact ((lineGo_kept_unlogged n l _ s hp rfl rfl).trans (hfin.mono (by simp))).trans ((modSes_kept v n _).mono (by simp))

/-- Settles O13: MODE TYPED and MODE GEN are `mode_changes`. -/
theorem modeVerbs : Obligations.ModeVerbs :=
  ⟨fun _ _ _ h => does_of_taken h rfl (mode_changes h), fun _ _ _ _ h => does_of_taken h rfl (mode_changes h)⟩

/-! ## LOGIN SAFETY and LOGIN OFF (R114) -/

theorem taken_tests {n : Nat} {l : Line} {sp : Spec} {s : State} (h : taken n l sp s = true) :
    lateTests l.port (hasAuthority l s.now (lineRead n l s)) sp (lineSeen n l sp s) = none := by
  simp only [taken, Bool.and_eq_true] at h
  exact Option.isNone_iff_eq_none.1 h.2
/-- LOGIN SAFETY is tested for its session and for KEY alone (R114). -/
theorem loginSafety_tests (n : Nat) (auth : Bool) (s : State) :
    lateTests (.session n) auth (loginSafetySpec (.session n)) s
      = if n = 0 then (if s.camp.key.active then none else some { code := 31 }) else some { code := 30 } := by
  by_cases hn : n = 0
  all_goals
    simp [hn, lateTests, objectTests, stateTests, slotTests, loginSafetySpec, sessionSpec, firstE03, optionE04, firstE04, windowRefuses, portSession]

/-- A form of LOGIN that gives its session authority, or takes it, and answers touches nothing else (R114). -/
theorem authority_answers {n : Nat} {l : Line} {sp : Spec} {s : State} (auth : Bool) (w : String) (h : taken n l sp s = true) (hs : sp.safety = false)
    (hrun : sp.run = fun c s => fin c (eqR "login" [.w w]) (s.modSes (portSession c.port) fun x => { x with auth })) :
    let u := sp.run (lineCtx l s) (lineGo n l sp s)
    (u.ses n).auth = auth ∧ answered n l s u (eqR "login" [.w w]) ∧ othersKept n s u ∧ KeptBut [.sess, .work, .ids, .jrn] s u := by
  have hp := taken_port h
  have hgo : sp.run (lineCtx l s) (lineGo n l sp s)
      = fin (lineCtx l s) (eqR "login" [.w w]) ((lineGo n l sp s).modSes n fun x => { x with auth }) := by
    rw [hrun, show n = portSession (lineCtx l s).port from (congrArg portSession hp).symm]
  obtain ⟨⟨g, g', hown⟩, ha, hothers, hk⟩ := modSes_fin_answers (r := eqR "login" [.w w]) (f := fun x => { x with auth }) h (by simp [eqR])
    fun _ => ⟨rfl, rfl, rfl, rfl, rfl⟩
  rw [hgo]
  exact ⟨by rw [hown], ha, hothers, (lineGo_kept_plain n l sp s hp hs).trans (hk.mono (by decide))⟩

/-! ### A heard line whose characters spell a command -/

section
variable {n : Nat} {l : Line} {s : State} (hw : worded l s = true)
include hw

theorem worded_spec : (∃ c, readText l = .cmd c) ∧ mixedUnits s.head.unit l.chars = none := by
  simp only [worded, Bool.and_eq_true, Option.isNone_iff_eq_none] at hw
  refine ⟨?_, hw.2⟩
  cases hr : readText l <;> simp_all
theorem formError_worded {sp : Spec} (hu : l.unit = none) (hf : sp.form = none) : formError l sp s = none := by
  obtain ⟨⟨c, hc⟩, hm⟩ := worded_spec hw
  simp [formError, hc, hm, hu, hf]
/-- A heard line that spells a command, names no unit and asks for no slot comes to the tests of its verb (R105). -/
theorem heard_judged {i : Instr} {sp : Spec} (h : heard n l s = true) (hu : l.unit = none) (hslot : slotWaits n l sp s = false) (hf : sp.form = none)
    (hk : sp.known = true) :
    handleLine i l sp s = runSpec { port := l.port, tag := lineTag l, text := lineText l } (hasAuthority l s.now (lineRead n l s)) sp (lineSeen n l sp s) := by
  obtain ⟨⟨c, hc⟩, -⟩ := worded_spec hw
  have hform : formError l sp (lineTested n s) = none := formError_worded hw hu hf
  have hknown : verbKnown l sp = true := by simp [verbKnown, hk, hc, (heard_spec h).1.port]
  have htext : textSpec l sp = sp := by simp [textSpec, hc]
  rw [heard_reads i n l sp s h hslot]
  simp only [show (s.modSes n fun x => { x with lastLine := s.now }).worked .int = lineTested n s from rfl, hform, readOn, hknown, htext, farUnit, hu,
    Bool.not_true, Bool.false_eq_true, if_false]
  rfl

end

/-- LOGIN SAFETY of any session but 0, or without KEY, is refused (R114). -/
theorem loginSafety_refused {i : Instr} {n : Nat} {l : Line} {s : State} (h : heard n l s = true) (hw : worded l s = true) (hu : l.unit = none)
    (hno : n ≠ 0 ∨ s.camp.key.active = false) :
    handleLine i l (loginSafetySpec l.port) s
      = finErr { port := l.port, tag := lineTag l, text := lineText l } { code := if n = 0 then 31 else 30 } (lineRead n l s) := by
  have hp := (heard_spec h).1.port
  have hslot : slotWaits n l (loginSafetySpec l.port) s = false := by simp [slotWaits, asksSlot, farUnit, hu, loginSafetySpec, sessionSpec]
  have hseen : lineSeen n l (loginSafetySpec l.port) s = lineRead n l s := rfl
  have hcamp : (lineRead n l s).camp = s.camp := lineRead_kept n l s hp .camp (by simp)
  have htests : lateTests l.port (hasAuthority l s.now (lineRead n l s)) (loginSafetySpec l.port) (lineRead n l s)
      = some { code := if n = 0 then 31 else 30 } := by
    rw [hp, loginSafety_tests, hcamp]
    obtain hn | hkey := hno
    · simp [hn]
    · simp only [hkey, Bool.false_eq_true, if_false]
      split <;> rfl
  rw [heard_judged hw h hu hslot rfl rfl, hseen, runSpec]
  simp only [htests]
  have hcode : (if n = 0 then 31 else 30) ≠ 7 := by split <;> decide
  simp only [refusalRecord, if_neg hcode, noteStaged, hp]
  rfl

/-- Settles O14: the tests of LOGIN SAFETY are its session and KEY (`loginSafety_tests`); it and LOGIN OFF change the authority of their session and
answer (`modSes_fin_answers`), and the refusal changes nothing (`loginSafety_refused`). -/
theorem loginGivesAuthority : Obligations.LoginGivesAuthority := by
  refine ⟨fun l n s h => ?_, fun l n s h hw hu hno => ⟨_, rfl, ?_⟩, fun l n s h => does_of_taken h rfl (authority_answers false "off" h rfl rfl)⟩
  · have hp := taken_port h
    have hcamp : (lineSeen n l (loginSafetySpec l.port) s).camp = s.camp := lineRead_kept n l s hp .camp (by simp)
    have htests := taken_tests h
    rw [hp, loginSafety_tests, ← hp, hcamp] at htests
    have hn : n = 0 := by
      by_contra hn
      simp [hn] at htests
    have hkey : s.camp.key.active = true := by
      by_contra hkey
      simp [hn, hkey] at htests
    subst hn
    exact ⟨rfl, hkey, does_of_taken h rfl (authority_answers true "safety" h rfl rfl)⟩
  · obtain ⟨hheard, hk⟩ := refused_heard (heard_spec h).1 { code := if n = 0 then 31 else 30 }
    rw [loginSafety_refused h hw hu hno]
    obtain ⟨g, hown⟩ := hheard.own
    exact ⟨hheard.out, by rw [hown], hheard.others, hk⟩

end Sys2Proof.Machine
end

section
/-! SUPPORT. Characters of a session in typed mode (R86, R99, R109). -/

namespace Sys2Proof.Machine

open Sys2Proof

/-! ## Characters (R86, R99, R109) -/

/-- A change of one session touches nothing else. -/
theorem modSes_others (s : State) (n : Nat) (f : Session → Session) : othersKept n s (s.modSes n f) := fun k hk => by rw [ses_modSes, if_neg hk]

section
variable {n : Nat} {b : Byte} {s : State} (hst : s.head.started = true) (ho : (s.ses n).st = .opn) (hm : (s.ses n).mode = .typed)
include hst ho hm

/-- A character that ends no line is edited in, or lost while the console's buffer is full. -/
theorem typedIn_edits (hb : b ≠ 0x0D#8) (hlf : b = 0x0A#8 → (s.ses n).afterCr = true) :
    typedIn n b s = s.modSes n fun x => if consoleFull s n then lostChar x b else typedChar x b := by
  have hend : ¬ (b = 0x0D#8 ∨ (b = 0x0A#8 ∧ ¬ (s.ses n).afterCr = true)) := by
    rintro (h | ⟨h, hcr⟩)
    · exact hb h
    · exact hcr (hlf h)
  simp only [typedIn, hst, ho, hm, and_self, if_true]
  exact if_neg hend
/-- CR, or an LF that follows none, ends the line, which is handled as it stands (log entry 70). -/
theorem typedIn_ends (hb : b = 0x0D#8 ∨ b = 0x0A#8 ∧ (s.ses n).afterCr = false) (hl : (s.ses n).typedLost = false) (hf : consoleFull s n = false) :
    typedIn n b s = (let t := s.modSes n (typedChar · b)
      handleLine (lineCommand (typedLine n (s.ses n))) (typedLine n (s.ses n)) (lineSpec t (.session n) (typedLine n (s.ses n))
        (lineCommand (typedLine n (s.ses n)))) t) := by
  have hend : b = 0x0D#8 ∨ (b = 0x0A#8 ∧ ¬ (s.ses n).afterCr = true) := by simpa using hb
  simp only [typedIn, hst, ho, hm, and_self, if_true, hl, hf, Bool.false_eq_true, if_false]
  exact if_pos hend

end

/-- A character that ends a line empties it (R99). -/
theorem typedChar_end {x : Session} {b : Byte} (hb : b = 0x0D#8 ∨ b = 0x0A#8 ∧ x.afterCr = false) :
    typedChar x b = { x with afterCr := decide (b = 0x0D#8), typed := [], typedOver := false, typedLost := false, echo := x.echo ++ endEcho } := by
  obtain rfl | ⟨rfl, hcr⟩ := hb
  · simp [typedChar]
  · simp [typedChar, hcr]
/-- A printable character is kept and echoed while there is room for it (R86, R99). -/
theorem typedChar_printable {x : Session} {b : Byte} (hb : 0x20#8 ≤ b) (hd : b ≠ 0x7F#8) :
    typedChar x b = if 253 ≤ x.typed.length then { x with afterCr := false, typedOver := true }
      else { x with afterCr := false, typed := x.typed ++ [b], echo := x.echo ++ [b] } := by
  have hne : ∀ c : Byte, c < 0x20#8 → b ≠ c := fun c hc h => by subst h; exact absurd hb (by simpa using hc)
  have hlow : ¬ b < 0x20 := by simpa using hb
  have hdel : b ≠ 0x7F := hd
  simp only [typedChar, hne 0x08 (by decide), hne 0x15 (by decide), hne 0x0D (by decide), hne 0x0A (by decide), hdel, hlow, or_self, if_false, decide_false]
/-- No character touches what is to be sent. -/
theorem typedChar_out (x : Session) (b : Byte) : (typedChar x b).out = x.out := by
  unfold typedChar
  dsimp only
  split
  · rfl
  split
  · rfl
  split
  · split <;> rfl
  split
  · rfl
  split <;> rfl
/-- A character that is lost takes its line with it (R109). -/
theorem lostChar_inLine {x : Session} {b : Byte} (hcr : b ≠ 0x0D#8) (hlf : b ≠ 0x0A#8) : lostChar x b = { x with afterCr := false, typedLost := true } := by
  simp [lostChar, hcr, hlf]

/-- Settles O15: a line's end is `typedIn_ends`; any other character changes the session as `typedChar` or `lostChar` says (`typedIn_edits`). -/
theorem typedEditing : Obligations.TypedEditing := by
  refine ⟨fun n b s hst ho hm hb hl hf => ?_, fun n b s hst ho hm hb hlf hf => ?_, fun n b s hst ho hm hcr hlf hf => ?_⟩
  · have hown : (s.modSes n (typedChar · b)).ses n = _ := (ses_modSes s n n _).trans ((if_pos rfl).trans (typedChar_end hb))
    refine ⟨s.modSes n (typedChar · b), ?_, ?_, ?_, ?_, modSes_others s n _, modSes_kept s n _⟩
    · exact congrArg (fun t => Host.Outcome.next (settle s t)) (typedIn_ends hst ho hm hb hl hf)
    all_goals rw [hown]
  · refine ⟨_, rfl, ?_⟩
    rw [typedIn_edits hst ho hm hb hlf, hf]
    have hown : (s.modSes n (typedChar · b)).ses n = typedChar (s.ses n) b := (ses_modSes s n n _).trans (if_pos rfl)
    simp only [Bool.false_eq_true, if_false]
    refine ⟨modSes_others s n _, modSes_kept s n _, ?_⟩
    rw [hown]
    refine ⟨typedChar_out _ b, ?_, ?_, fun h => ?_, fun hp hd hlen => ?_, fun hp hd hlen => ?_⟩
    · rintro (rfl | rfl) <;> rfl
    · rintro rfl
      rfl
    · simp [h, typedChar, hlf h]
    · rw [typedChar_printable hp hd, if_neg (by omega)]
      exact ⟨rfl, rfl⟩
    · rw [typedChar_printable hp hd, if_pos hlen]
      exact ⟨rfl, rfl⟩
  · refine ⟨_, rfl, ?_⟩
    rw [typedIn_edits hst ho hm hcr fun h => absurd h hlf, hf]
    have hown : (s.modSes n (lostChar · b)).ses n = _ := (ses_modSes s n n _).trans ((if_pos rfl).trans (lostChar_inLine hcr hlf))
    simp only [if_true]
    refine ⟨modSes_others s n _, modSes_kept s n _, ?_⟩
    rw [hown]
    exact ⟨rfl, rfl, rfl, rfl⟩

end Sys2Proof.Machine
end

section
/-! SUPPORT. Connections: what opens, holds, drains, resumes and ends a session (R107 to R111, R376). -/

namespace Sys2Proof.Machine

open Sys2Proof

/-! ## Opening, holding (R108, R110, R111) -/

/-- A session opens with its transport's mode, and nothing of another session is touched (R108). -/
theorem openSession_opens (n : Nat) (m : Mode) (s : State) :
    ((openSession n m s).ses n).st = .opn ∧ ((openSession n m s).ses n).mode = m ∧ ((openSession n m s).ses n).rcheck = false
      ∧ othersKept n s (openSession n m s) := by
  have hdraw : ∀ k, s.draw.2.ses k = s.ses k := fun _ => rfl
  refine ⟨?_, ?_, ?_, fun k hk => ?_⟩
  all_goals simp only [openSession, send, ses_modSes, if_true, reduceCtorEq, if_false]
  · simp [Session.put, Session.putFor, tilR, outBytes]
  · simp [Session.put, Session.putFor, tilR, outBytes]
  · simp [Session.put, Session.putFor, tilR, outBytes]
  · simp [hk, hdraw]
/-- A new connection takes the lowest free number (R108). -/
theorem connectionOpens_lowest {n : Nat} {s : State} (hu : netUp s = true) (h0 : 0 < n) (h64 : n < 64) (hf : (s.ses n).st = .free)
    (hlow : ∀ k, 0 < k → k < n → (s.ses k).st ≠ .free) : connectionOpens s = openSession n .gen s := by
  have hfind : ((List.range 64).filter (0 < ·)).find? (fun n => decide ((s.ses n).st = .free)) = some n := by
    rw [List.find?_filter, List.find?_range_eq_some]
    refine ⟨by simp [h0, hf], by simp [h64], fun k hk => ?_⟩
    by_cases hk0 : 0 < k
    · simp [hlow k hk0 hk]
    · simp [hk0]
  simp only [connectionOpens, hu, Bool.not_true, Bool.false_eq_true, if_false, hfind]
/-- A connection that closes leaves its session held for HOLD (R111). -/
theorem dropConnection_holds {n : Nat} {s : State} (ho : (s.ses n).st = .opn) (hh : 0 < (s.ses n).hold) :
    let u := dropConnection n s
    (u.ses n).st = .held ∧ (u.ses n).holdUntil = s.now + 1000000 * (s.ses n).hold ∧ (u.ses n).tags = (s.ses n).tags ∧ othersKept n s u
      ∧ KeptBut [.sess] s u := by
  have hdrop : dropConnection n s
      = s.modSes n fun x => { x with st := .held, holdUntil := s.now + 1000000 * x.hold, typed := [], typedOver := false, afterCr := false } := by
    unfold dropConnection
    rw [if_neg (by simp [ho]), if_neg (by omega)]
  rw [hdrop]
  refine ⟨?_, ?_, ?_, modSes_others s n _, modSes_kept s n _⟩
  all_goals rw [ses_modSes, if_pos rfl]

/-! ## The end of a session (R111, R376) -/

theorem dropRelays_relays (n : Nat) (s : State) : ∀ r ∈ (dropRelays n s).net.relays, r.near ≠ n := fun r hr => by
  simpa using (List.mem_filter.1 hr).2
/-- A session that ends leaves a free number, no waiting line, no relay, and no reply that waits for frames. -/
theorem endSession_ends (n : Nat) (s : State) :
    (endSession n s).ses n = {} ∧ (∀ e ∈ (endSession n s).inbuf, e.ses ≠ n) ∧ (∀ r ∈ (endSession n s).returns, r.ctx.port ≠ .session n)
      ∧ ∀ r ∈ (endSession n s).net.relays, r.near ≠ n := by
  refine ⟨?_, fun e he => ?_, fun r hr => ?_, dropRelays_relays n _⟩
  · show ((dropRelays n (cancelAll n s).2).modSes n fun _ => {}).ses n = {}
    rw [ses_modSes, if_pos rfl]
  · simpa using (List.mem_filter.1 he).2
  · simpa using (List.mem_filter.1 hr).2

/-! ## Draining (R107) -/

theorem sendJournals_none {ok : Port → Bool} {s : State} (h : noJournal s = true) : sendJournals ok s = s := by
  have hno : (s.ops.filter fun o => ok o.port && match o.prog with
      | .journal .. => true
      | _ => false) = [] := by
    refine List.filter_eq_nil_iff.2 fun o ho => ?_
    have hprog := List.all_eq_true.1 h o ho
    cases hp : o.prog <;> simp_all
  unfold sendJournals
  exact (congrArg (fun l : List Op => forEach (l.map (·.id)) sendJournal s) hno).trans rfl
theorem readFreed_none {s : State} (h : ∀ e ∈ s.inbuf, canRead s e.ses = false) : readFreed s = s := by
  have hone : readOne s = s := by
    have hnone : s.inbuf.find? (fun e => canRead s e.ses) = none := List.find?_eq_none.2 fun e he => by simp [h e he]
    unfold readOne
    rw [hnone]
  exact forEach_same fun _ _ => hone
/-- The oldest lines of an open session that has lost no report leave from its buffer's front, and nothing comes of the room (R107). -/
theorem drainOut_drains {n k : Nat} {s : State} (ho : (s.ses n).st = .opn) (hl : (s.ses n).lost = 0)
    (hi : ∀ e ∈ s.inbuf, e.ses ≠ n ∧ canRead s e.ses = false) (hj : noJournal s = true) :
    drainOut n k s = ({ s with left := s.left ++ ((s.ses n).out.take k).map fun r => (n, r) }).modSes n fun x => { x with out := x.out.drop k, echo := [] } := by
  generalize hu : ({ s with left := s.left ++ ((s.ses n).out.take k).map fun r => (n, r) }).modSes n (fun x => { x with out := x.out.drop k, echo := [] }) = u
  have hown : (u.ses n).lost = 0 := by
    rw [← hu, ses_modSes, if_pos rfl]
    exact hl
  have hjournal : noJournal u = true := by rw [← hu]; exact hj
  have hread : ∀ e ∈ u.inbuf, canRead u e.ses = false := fun e he => by
    rw [← hu] at he
    obtain ⟨hne, hr⟩ := hi e he
    have hses : u.ses e.ses = s.ses e.ses := by rw [← hu, ses_modSes, if_neg hne]; rfl
    have hsame : canRead u e.ses = canRead s e.ses := by
      unfold canRead
      rw [hses, ← hu]
      rfl
    rw [hsame, hr]
  unfold drainOut
  rw [if_neg (by simp [ho])]
  simp only [hu, hown, lt_self_iff_false, false_and, if_false]
  rw [sendJournals_none hjournal, readFreed_none hread]

/-! ## LOGIN RESUME and LOGIN END (R111, R376) -/

/-- LOGIN RESUME is tested for its number, then for the connection, the held session and its token (R111). -/
theorem loginResume_tests (m n : Nat) (token : W32) (auth : Bool) (s : State) :
    lateTests (.session m) auth (loginResumeSpec (.session m) n token) s
      = (if 1 ≤ n ∧ n < 64 then none else some { code := 5, detail := .word "RESUME" : Err }).or
        (if m ≠ 0 ∧ (s.ses m).st = .opn ∧ (s.ses n).st = .held ∧ (s.ses n).token = token then none else some { code := 13 }) := by
  simp [lateTests, objectTests, stateTests, slotTests, loginResumeSpec, sessionSpec, firstE03, optionE04, firstE04, windowRefuses, portSession]
  rfl
/-- LOGIN END is refused on the console alone (R111). -/
theorem loginEnd_tests (n : Nat) (auth : Bool) (s : State) :
    lateTests (.session n) auth (loginEndSpec (.session n)) s = if n = 0 then some { code := 6, detail := .obj .session } else none := by
  simp [lateTests, objectTests, stateTests, slotTests, loginEndSpec, sessionSpec, firstE03, optionE04, firstE04, windowRefuses, portSession]
  rfl
theorem loginResume_ready {l : Line} {m n : Nat} {token : W32} {s : State} (h : taken m l (loginResumeSpec l.port n token) s = true) :
    m ≠ 0 ∧ m ≠ n ∧ (s.ses n).st = .held ∧ (s.ses n).token = token := by
  obtain ⟨hp, -, ho, -⟩ := taken_session h
  have htests := taken_tests h
  rw [hp, loginResume_tests, ← hp] at htests
  obtain ⟨hm, -, hheld, htoken⟩ : m ≠ 0 ∧ ((lineRead m l s).ses m).st = .opn ∧ ((lineRead m l s).ses n).st = .held
      ∧ ((lineRead m l s).ses n).token = token := by
    by_contra hc
    exact absurd ((Option.or_eq_none_iff.1 htests).2.symm.trans (if_neg hc)) nofun
  have hne : m ≠ n := by
    rintro rfl
    obtain ⟨g, hg⟩ := lineRead_own m l s hp
    rw [hg] at hheld
    exact absurd (ho.symm.trans hheld) (by decide)
  have hses := lineRead_other m n l s hp hne.symm
  exact ⟨hm, hne, hses ▸ hheld, hses ▸ htoken⟩
/-- The session resumed is open, its hold over; the connection's own number is free and holds no line (R111; log entry 71). -/
theorem resumeSession_joins {m n : Nat} (hne : m ≠ n) (s : State) :
    let u := resumeSession m n s
    (u.ses n).st = .opn ∧ (u.ses n).holdUntil = 0 ∧ u.ses m = {} ∧ ∀ e ∈ u.inbuf, e.ses ≠ m := by
  generalize ht : dropRelays m (cancelAll m s).2 = t
  have hses : ∀ k, (resumeSession m n s).ses k = ((t.modSes n fun y => { y with
      st := .opn, out := allOut (t.ses m) ++ y.out, holdUntil := 0, lastLine := t.now, typed := (t.ses m).typed, afterCr := (t.ses m).afterCr
      echo := (t.ses m).echo }).modSes m fun _ => {}).ses k := fun k => by
    subst ht
    rfl
  dsimp only
  refine ⟨?_, ?_, ?_, fun e he => ?_⟩
  · rw [hses, ses_modSes, if_neg hne.symm, ses_modSes, if_pos rfl]
  · rw [hses, ses_modSes, if_neg hne.symm, ses_modSes, if_pos rfl]
  · rw [hses, ses_modSes, if_pos rfl]
  · obtain ⟨q, -, rfl⟩ := List.mem_map.1 (show e ∈ t.inbuf.map fun q => if q.ses = m then { q with ses := n } else q by subst ht; exact he)
    split
    · exact hne.symm
    · assumption

/-- Settles O16: a connection opens the lowest free number (`connectionOpens_lowest`), is held when it closes or idles (`dropConnection_holds`) and ends
when its hold expires or LOGIN END comes (`endSession_ends`); buffers leave from the front (`drainOut_drains`), and LOGIN RESUME joins
(`resumeSession_joins`). -/
theorem connectionsAndHolds : Obligations.ConnectionsAndHolds := by
  refine ⟨fun s hu n h0 h64 hf hlow => ⟨_, rfl, ?_⟩, fun n s hn ho hh => ⟨_, rfl, ?_⟩, fun n s hn ho hh hi hl => ⟨_, rfl, ?_⟩,
    fun n s hst hu => ⟨_, rfl, ?_⟩, fun n k s ho hl hi hj => ⟨_, rfl, ?_⟩, fun l m n token s h => ?_, fun l n s h => ?_⟩
  · rw [connectionOpens_lowest hu h0 h64 hf hlow]
    exact openSession_opens n .gen s
  · rw [if_neg (by simpa using hn)]
    exact dropConnection_holds ho hh
  · have hn' : n.val ≠ 0 := by simpa using hn
    have hidle : idleEnds n s = dropConnection n s := if_pos ⟨hn', ho, hi, hl⟩
    rw [hidle]
    obtain ⟨hst, huntil, -, hothers, hk⟩ := dropConnection_holds ho hh
    exact ⟨hst, huntil, hothers, hk⟩
  · have hend : holdEnds n s = endSession n s := if_pos ⟨hst, hu⟩
    obtain ⟨hown, hin, hret, -⟩ := endSession_ends n s
    rw [hend]
    exact ⟨by rw [hown], by rw [hown], hin, hret⟩
  · rw [drainOut_drains ho hl hi hj]
    refine ⟨?_, rfl, fun j hne => ?_, fun p hp => by cases p <;> simp_all [samePart]⟩
    · rw [ses_modSes, if_pos rfl]
      rfl
    · rw [ses_modSes, if_neg hne]
      rfl
  · obtain ⟨hm, hne, hheld, htoken⟩ := loginResume_ready h
    have hp : portSession (lineCtx l s).port = m := congrArg portSession (taken_port h)
    refine ⟨hm, hne, hheld, htoken, does_of_taken h rfl ?_⟩
    rw [← hp] at hne ⊢
    exact resumeSession_joins hne _
  · have hp := taken_port h
    have htests := taken_tests h
    rw [hp, loginEnd_tests] at htests
    have hn : n ≠ 0 := fun hn => by simp [hn] at htests
    refine ⟨hn, does_of_taken h rfl ?_⟩
    have hport : portSession (lineCtx l s).port = n := congrArg portSession hp
    obtain ⟨v, hv⟩ : ∃ v, (loginEndSpec l.port).run (lineCtx l s) (lineGo n l (loginEndSpec l.port) s) = endSession n v := by
      rw [← hport]
      exact ⟨_, rfl⟩
    obtain ⟨hown, hin, -, hrelays⟩ := endSession_ends n v
    rw [hv]
    exact ⟨by rw [hown], by rw [hown], by rw [hown], hin, hrelays⟩

end Sys2Proof.Machine
end

section
/-! SUPPORT. WATCH: its operation in its slot, and its first reply (R50, R58, R59, R106, R495). -/

namespace Sys2Proof.Machine

open Sys2Proof

/-! ## A lasting command in its slot (R50, R51, R58, R59) -/

section
variable {c : Ctx} {n : Nat} (v : Verb) (p : Prog) {s : State} (hw : c.within = none) (hp : c.port = .session n)
include hw hp

/-- A session's lasting command starts the operation with the next id, in the lowest free slot where there is one. -/
theorem startOp_ops : (startOp c v p true s).2.ops = s.ops ++ [{ startedOp s c v p 0 with slot := freeSlot s }] := by
  have hfree : freeSlot { s with nextOp := s.nextOp + 1 } = freeSlot s := freeSlot_congr rfl
  simp only [startOp, hw, hp, hfree, Bool.not_false, Bool.and_true, ne_eq, reduceCtorEq, not_false_eq_true, decide_true, if_true]
  cases hf : freeSlot s with
  | none => simp [startedOp, hp]
  | some k =>
    rw [show (takeSlot k _ _).ops = _ from takeSlot_kept k _ { s with nextOp := s.nextOp + 1 } .ops (by simp)]
    simp [startedOp, hp]
/-- The slot's entry is written as an executing command's. -/
theorem startOp_ent {k : Nat} (hf : freeSlot s = some k) :
    (startOp c v p true s).2.ent k = cmdEntry n c.tag c.text.length 0xFFFF .executing (s.ent k) := by
  have hfree : freeSlot { s with nextOp := s.nextOp + 1 } = some k := by rw [← hf]; exact freeSlot_congr rfl
  have htake : (startOp c v p true s).2.pool = (takeSlot k (cmdEntry n c.tag c.text.length 0xFFFF .executing) { s with nextOp := s.nextOp + 1 }).pool := by
    simp only [startOp, hw, hp, hfree, Bool.not_false, Bool.and_true, ne_eq, reduceCtorEq, not_false_eq_true, decide_true, if_true, portSession,
      Option.isSome_none, Bool.false_eq_true, if_false]
  have hent := ent_takeSlot k k (cmdEntry n c.tag c.text.length 0xFFFF .executing) { s with nextOp := s.nextOp + 1 }
  rw [if_pos rfl] at hent
  refine Eq.trans ?_ hent
  unfold State.ent
  rw [htake]

end

/-- A taken line's lasting command begins: its operation stands among the operations, and the entry of its slot shows it executing. -/
theorem startOp_begun {n : Nat} {l : Line} {s g : State} (v : Verb) (p : Prog) (hp : l.port = .session n) (hpool : g.pool = s.pool)
    (hnext : g.nextOp = s.nextOp) : begun n l s (startOp (lineCtx l s) v p true g).2 v p := by
  have hfree : freeSlot g = freeSlot s := freeSlot_congr hpool
  have hent : ∀ k, freeSlot s = some k → (startOp (lineCtx l s) v p true g).2.ent k = cmdEntry n (lineTag l) (lineText l).length 0xFFFF .executing (g.ent k) :=
    fun k hk => startOp_ent v p (c := lineCtx l s) rfl hp (hfree.trans hk)
  have hop := startOp_ops (s := g) v p (c := lineCtx l s) rfl hp
  refine ⟨⟨⟨{ startedOp g (lineCtx l s) v p 0 with slot := freeSlot g }, ?_, hnext, rfl, rfl, rfl, rfl, rfl, hfree⟩, fun k hk => ?_⟩, fun k hk => ?_⟩
  · rw [hop]
    simp
  · rw [hent k hk]
    exact ⟨rfl, rfl, rfl⟩
  · rw [hent k hk]
    rfl
theorem begun_of_kept {n : Nat} {l : Line} {s g u : State} {v : Verb} {p : Prog} {ps : List Part} (h : begun n l s g v p) (hk : KeptBut ps g u)
    (hops : .ops ∉ ps) (hpool : .pool ∉ ps) : begun n l s u v p := by
  have hent := hk.ent hpool
  unfold begun placed at h ⊢
  simpa only [hent, show u.ops = g.ops from hk .ops hops] using h

/-! ## WATCH (R106, R495) -/

theorem watchObjs_congr {s u : State} (h : siteView u = siteView s) (objs : List ObjSel) : watchObjs u objs = watchObjs s objs :=
  site_congr h (f := (watchObjs · objs)) fun _ => rfl

/-- Settles O21: WATCH starts its operation (`startOp_begun`) and says its first reply. -/
theorem watchBegins : Obligations.WatchBegins := by
  intro l objs rate r n s h hr
  obtain ⟨hp, -, ho, hb⟩ := taken_session h
  have hgo := lineGo_kept_plain n l (watchSpec objs rate) s hp rfl
  have hnext := lineGo_nextOp n l (watchSpec objs rate) s hp
  have hheard := Heard.lineGo h
  refine does_of_taken h rfl ?_
  generalize lineGo n l (watchSpec objs rate) s = g at hgo hnext hheard ⊢
  have hobjs := watchObjs_congr (siteView_congr hgo) objs
  have hrun : (watchSpec objs rate).run (lineCtx l s) g = say (lineCtx l s) (colR "watching" [.n (watchObjs s objs).length])
      (startOp (lineCtx l s) (.watch objs rate) (.watch (watchObjs s objs) (1000 * r.toNat) []) true g).2 := by
    simp only [watchSpec, hobjs, hr, Option.getD_some]
  have hbegun := startOp_begun (.watch objs rate) (.watch (watchObjs s objs) (1000 * r.toNat) []) hp (hgo .pool (by decide)).1 hnext
  have hstart := startOp_kept (lineCtx l s) (.watch objs rate) (.watch (watchObjs s objs) (1000 * r.toNat) []) true g
  rw [hrun]
  generalize (startOp (lineCtx l s) _ _ true g).2 = u at hbegun hstart ⊢
  obtain ⟨hsaid, hk⟩ := (hheard.of_kept hstart (by simp)).say (c := lineCtx l s) (r := colR "watching" [.n (watchObjs s objs).length]) ho hb
    (by simp [colR]) hp rfl
  exact ⟨begun_of_kept hbegun hk (by simp) (by simp), hsaid.out, hsaid.others, (hgo.mono (by decide)).trans ((hstart.mono (by decide)).trans (hk.mono (by decide)))⟩

end Sys2Proof.Machine
end

section
/-! SUPPORT. SET of one key of one object: what it assigns, a value that is clipped, and one that is staged (R104, R192, R476, R497). -/

namespace Sys2Proof.Machine

open Sys2Proof

/-! ## What SET reads (R92, R192, R344) -/

section
variable {s u : State} (h : siteView u = siteView s)
include h
theorem asgVal_congr (a : Asg) : asgVal u a = asgVal s a := site_congr h (f := (asgVal · a)) fun _ => rfl
theorem isSafety_congr (o : Obj) (k : Key) : isSafety u o k = isSafety s o k := site_congr h (f := (isSafety · o k)) fun _ => rfl
theorem clipOf_station_congr (m : Nat) (k : Key) (v : Int) : clipOf u (.st m) k v = clipOf s (.st m) k v :=
  site_congr h (f := (clipOf · (.st m) k v)) fun _ => by cases k <;> rfl
end

/-- A clip lets less through than was asked for (R192). -/
theorem clipOf_station_lt {s : State} {m : Nat} {k : Key} {v x : Int} (h : clipOf s (.st m) k v = some x) : x < v := by
  have hleast : ∀ b : Int, (if b < v then some b else none) = some x → x < v := fun b hb => by
    split at hb
    · obtain rfl := Option.some.inj hb
      assumption
    · cases hb
  cases k <;> simp only [clipOf, reduceCtorEq] at h
  case MARGIN =>
    split at h
    · cases h
    · exact hleast _ h
  case PERSIST => exact hleast _ h
  case DRIFT => exact hleast _ h
/-- One key of one object, outside the cam tables, is one assignment (R497). -/
theorem asgs_single {o : Obj} (ho : ∀ c, o ≠ .cam c) (k : Key) (v : Val) : asgs [o] [(k, v)] = [(o, k, v)] := by
  have hall : ∀ a : Asg, [a].filter (!removes ·) ++ [a].filter removes = [a] := fun a => by cases hr : removes a <;> simp [hr]
  cases o
  case cam c => exact absurd rfl (ho c)
  all_goals exact hall _

/-! ## A clipped value (R104, R192) -/

theorem modCfg_kept (s : State) (f : Cfg → Cfg) : KeptBut [.cfg] s (s.modCfg f) := by
  intro p hp; cases p <;> simp_all [samePart]
theorem queueWrite_kept (o : Obj) (k : Key) (v : KVal) (s : State) : KeptBut [.sl] s (queueWrite o k v s) := by
  unfold queueWrite
  split
  · exact KeptBut.refl _ s
  · exact KeptBut.refl _ s
  · split
    · exact modSlc_kept s _ _
    · exact KeptBut.refl _ s
theorem noteClip_station (m : Nat) (k : Key) (asked applied : Int) (hd : RecHd) (s : State) :
    (Obj.st m, k) ∈ (noteClip (.st m) k asked applied hd s).yar.clips ∧ KeptBut [.yar, .st, .jrn] s (noteClip (.st m) k asked applied hd s) := by
  generalize hy : s.modYar (fun y => { y with clips := if (Obj.st m, k) ∈ y.clips then y.clips else y.clips ++ [(Obj.st m, k)] }) = y
  have hin : (Obj.st m, k) ∈ y.yar.clips := by
    rw [← hy, modYar_yar]
    dsimp only
    split
    · assumption
    · simp
  have hk : KeptBut [.yar] s y := hy ▸ modYar_kept s _
  have hrest : KeptBut [.st, .jrn] y (noteClip (.st m) k asked applied hd s) := by
    rw [← hy]
    exact ((modStn_kept _ m _).mono (by simp)).trans ((record_kept _ _ _ _).mono (by simp))
  refine ⟨?_, (hk.mono (by simp)).trans (hrest.mono (by simp))⟩
  rw [show State.yar _ = y.yar from hrest .yar (by simp)]
  exact hin
theorem applyAsg_clipped {c : Ctx} {m : Nat} {k : Key} {v : Val} {w : KVal} {x : Int} {s : State} (hk : k ≠ .ROLE)
    (hv : asgVal s (.st m, k, v) = some w) (hs : isSafety s (.st m) k = false) (hx : clipOf s (.st m) k (kInt w) = some x) :
    applyAsg c (.st m, k, v) s = queueWrite (.st m) k (.i x)
      ((clip c (.st m) k (kInt w) x s).modCfg fun g => { g with plain := putKey g.plain (.st m) k (.i x) }) := by
  have heffect : ∀ t u : State, keyEffect t (.st m) k u = u := fun t u => by
    unfold keyEffect
    split <;> simp_all
  have haction : actionKey (.st m) k = false := rfl
  simp only [applyAsg, hv, haction, hs, hx, heffect, Bool.false_eq_true, if_false]

section
variable {l : Line} {n : Nat} {s : State} {o : Obj} {k : Key} {v : Val}

theorem setSpecIn_unsafe (ho : ∀ c, o ≠ .cam c) (hs : isSafety s o k = false) : (setSpecIn s l.port (.obj o) [(k, v)]).safety = false := by
  have hasgs : asgs (objSel s (.obj o)) [(k, v)] = [(o, k, v)] := asgs_single ho k v
  simp [setSpecIn, setSafety, hasgs, hs]
/-- SET of one key of one object applies its assignment and answers, unless it is staged (R476, R497). -/
theorem runSet_applies {c : Ctx} (ho : ∀ c, o ≠ .cam c) (hst : stagingOf s c.port = none) :
    runSet (.obj o) [(k, v)] c s = fin c (eqR "set" [.n 1]) (applyAsg c (o, k, v) s) := by
  have hasgs : asgs (objSel s (.obj o)) [(k, v)] = [(o, k, v)] := asgs_single ho k v
  simp only [runSet, hasgs, stages, hst, Option.isSome_none, Bool.false_and, Bool.false_eq_true, if_false]
  rfl
/-- While staging is open, with room in it, a configuration key outside the safety configuration is staged (R476). -/
theorem runSet_stages {c : Ctx} {w : KVal} {q : List (Sum ((Obj × Key) × KVal) Err)} (ho : ∀ c, o ≠ .cam c) (hp : c.port = .session n)
    (hst : (s.ses n).staging = some q) (hv : asgVal s (o, k, v) = some w) (ha : actionKey o k = false) (hs : isSafety s o k = false)
    (hroom : (s.ses n).stagedBytes + c.text.length ≤ 524220) :
    runSet (.obj o) [(k, v)] c s = fin c (eqR "set" [.w "staged"]) (s.modSes n fun x => { x with
      staging := x.staging.map (· ++ [.inl ((o, k), w)]), stagedBytes := x.stagedBytes + c.text.length, stagedLines := x.stagedLines + 1 }) := by
  have hasgs : asgs (objSel s (.obj o)) [(k, v)] = [(o, k, v)] := asgs_single ho k v
  have hstages : stages s (.session n) [(o, k, v)] = true := by simp [stages, stagingOf, hst, hs, ha]
  simp only [runSet, hasgs, hp, hstages, if_true, stagedLen, if_neg (Nat.not_lt.2 hroom)]
  simp [hv]
end

/-- A clipped value is stored at its bound, and warned of before SET answers (R104, R192). -/
theorem setClipped_applies {l : Line} {m n : Nat} {k : Key} {v : Val} {w : KVal} {x : Int} {s g : State} (hp : l.port = .session n)
    (ho : (s.ses n).st = .opn) (hb : (s.ses n).heldBack = []) (hheard : Heard n s g []) (hgo : KeptBut heardParts s g) (hst : (s.ses n).staging = none)
    (hrole : k ≠ .ROLE) (hv : asgVal s (.st m, k, v) = some w) (hs : isSafety s (.st m) k = false) (hx : clipOf s (.st m) k (kInt w) = some x) :
    let u := runSet (.obj (.st m)) [(k, v)] (lineCtx l s) g
    u.cfg = { s.cfg with plain := putKey s.cfg.plain (.st m) k (.i x) } ∧ answeredAll n l s u [e71 k (kInt w) x, eqR "set" [.n 1]]
      ∧ (Obj.st m, k) ∈ u.yar.clips ∧ othersKept n s u ∧ KeptBut (.cfg :: .sl :: .yar :: .st :: heardParts) s u := by
  have hview := siteView_congr hgo
  have hstaging : stagingOf g (lineCtx l s).port = none := by
    obtain ⟨t, ht⟩ := hheard.own
    show stagingOf g l.port = none
    rw [hp, stagingOf, ht]
    exact hst
  rw [runSet_applies (o := .st m) nofun hstaging, applyAsg_clipped hrole ((asgVal_congr hview _).trans hv) ((isSafety_congr hview _ k).trans hs)
    ((clipOf_station_congr hview m k _).trans hx), clip]
  obtain ⟨hsaid, hsay⟩ := hheard.say (c := lineCtx l s) (r := e71 k (kInt w) x) ho hb (by simp [e71]) hp rfl
  generalize say (lineCtx l s) (e71 k (kInt w) x) g = a at hsaid hsay ⊢
  obtain ⟨hclips, hnote⟩ := noteClip_station m k (kInt w) x { session := portByte (lineCtx l s).port, tag := (lineCtx l s).tag } a
  generalize noteClip (.st m) k (kInt w) x _ a = b at hclips hnote ⊢
  have hmod := modCfg_kept b fun q => { q with plain := putKey q.plain (.st m) k (.i x) }
  have hcfg : (b.modCfg fun q => { q with plain := putKey q.plain (.st m) k (.i x) }).cfg = { s.cfg with plain := putKey s.cfg.plain (.st m) k (.i x) } := by
    rw [modCfg_cfg, show b.cfg = s.cfg from (hnote .cfg (by simp)).trans ((hsay .cfg (by simp)).trans (hgo .cfg (by decide)))]
  generalize b.modCfg _ = d at hmod hcfg ⊢
  have hwrite := queueWrite_kept (.st m) k (.i x) d
  generalize queueWrite (.st m) k (.i x) d = e at hwrite ⊢
  have hrest : KeptBut [.yar, .st, .jrn, .cfg, .sl] a e := (hnote.mono (by simp)).trans ((hmod.mono (by simp)).trans (hwrite.mono (by simp)))
  obtain ⟨hanswer, hfin⟩ := (hsaid.of_kept hrest (by simp)).fin (c := lineCtx l s) (r := eqR "set" [.n 1]) ho hb (by simp [eqR]) hp rfl
  refine ⟨?_, ?_, ?_, hanswer.others, ?_⟩
  · rw [show State.cfg _ = d.cfg from (hfin .cfg (by simp)).trans (hwrite .cfg (by simp)), hcfg]
  · exact hanswer.out
  · rw [show State.yar _ = b.yar from (hfin .yar (by simp)).trans ((hwrite .yar (by simp)).trans (hmod .yar (by simp)))]
    exact hclips
  · exact ((hgo.mono (by decide)).trans (hsay.mono (by decide))).trans ((hrest.mono (by decide)).trans (hfin.mono (by decide)))

/-- Settles O19: a clipped value is stored and warned of (`setClipped_applies`), a staged one goes into its session's staging (`runSet_stages`). -/
theorem setClippedOrStaged : Obligations.SetClippedOrStaged := by
  refine ⟨fun l m k v w x n s h hst hrole hv hs hx => ⟨clipOf_station_lt hx, does_of_taken h rfl ?_⟩,
    fun l o k v w q n s h hst ho hv ha hs hroom => does_of_taken h rfl ?_⟩
  · obtain ⟨hp, -, ho, hb⟩ := taken_session h
    exact setClipped_applies hp ho hb (Heard.lineGo h) (lineGo_kept_plain n l _ s hp (setSpecIn_unsafe nofun hs)) hst hrole hv hs hx
  · have hp := taken_port h
    have hgo := lineGo_kept_plain n l _ s hp (setSpecIn_unsafe (l := l) (v := v) ho hs)
    have hview := siteView_congr hgo
    obtain ⟨t, ht⟩ := lineGo_own n l (setSpecIn s l.port (.obj o) [(k, v)]) s hp
    have hrun : (setSpecIn s l.port (.obj o) [(k, v)]).run (lineCtx l s) (lineGo n l (setSpecIn s l.port (.obj o) [(k, v)]) s) = _ :=
      runSet_stages (c := lineCtx l s) (q := q) ho hp (by rw [ht]; exact hst) ((asgVal_congr hview _).trans hv) ha ((isSafety_congr hview o k).trans hs)
        (by rw [ht]; exact hroom)
    obtain ⟨⟨t, t', hown⟩, hanswer, hothers, hk⟩ := modSes_fin_answers (r := eqR "set" [.w "staged"]) (f := fun x => { x with
      staging := x.staging.map (· ++ [.inl ((o, k), w)]), stagedBytes := x.stagedBytes + (lineText l).length, stagedLines := x.stagedLines + 1 }) h
      (by simp [eqR]) fun _ => ⟨rfl, rfl, rfl, rfl, rfl⟩
    rw [hrun]
    refine ⟨?_, ?_, hanswer, hothers, hgo.trans (hk.mono (by decide))⟩
    · exact (congrArg Session.staging hown).trans (congrArg (Option.map (· ++ [.inl ((o, k), w)])) hst)
    · exact congrArg Session.stagedLines hown

end Sys2Proof.Machine
end

section
/-! SUPPORT. What follows a command that no sleep, no held session, no searching step and no moved master waits for (R56, R106, R323, R429). -/

namespace Sys2Proof.Machine

open Sys2Proof

/-! ## Released reservations (R323, R326) -/

/-- Only frames have gone out: Yarrow's sequence, the ports and the engines' counters. -/
def FramesOnly (s u : State) : Prop := KeptBut [.yar, .net, .work] s u ∧ { u.yar with seq := s.yar.seq } = s.yar
theorem sendBudget_framesOnly {b type id cur cls dur : Nat} {time : Int} {s u : State} (h : FramesOnly s u) :
    FramesOnly s (sendBudget b type id cur cls time dur u) := by
  refine ⟨h.1.trans (sendBudget_kept b type id cur cls time dur u), ?_⟩
  have hyar : { (sendBudget b type id cur cls time dur u).yar with seq := s.yar.seq } = { u.yar with seq := s.yar.seq } := by
    unfold sendBudget
    split
    · rfl
    · exact congrArg (fun y : Yarrow => { y with seq := s.yar.seq }) (transmit_kept _ _ _ _ _ .yar (by simp))
  exact hyar.trans h.2
theorem releaseGone_framesOnly (s u : State) : FramesOnly u (releaseGone s u) := by
  have hu : FramesOnly u u := ⟨KeptBut.refl _ u, rfl⟩
  unfold releaseGone
  split
  · exact hu
  · refine forEach_keeps _ _ u (fun c v hv => ?_) hu
    split
    · split
      · exact hv
      · exact sendBudget_framesOnly hv
    · exact hv

/-! ## Suspect marks (R429) -/

/-- No station is touched but its suspect mark, and nothing else is. -/
def MarksOnly (s u : State) : Prop := KeptBut [.st] s u ∧ ∀ n, { u.stn n with suspect := (s.stn n).suspect } = s.stn n
theorem clearMarks_marksOnly (s : State) : MarksOnly s (clearMarks s) := by
  refine forEach_keeps _ _ s (fun e v ⟨hk, hv⟩ => ⟨hk.trans (modStn_kept v _ _), fun n => ?_⟩) ⟨KeptBut.refl _ s, fun _ => rfl⟩
  rw [stn_modStn]
  split
  · subst_vars
    exact hv _
  · exact hv n

/-! ## Reports (R106) -/

theorem mem_tset {α : Type} {t : Tbl α} {n : Nat} {a : α} {e : Nat × α} (h : e ∈ tset t n a) : e ∈ t ∨ e = (n, a) := by
  induction t with
  | nil => exact .inr (by simpa [tset] using h)
  | cons q t ih =>
    obtain ⟨k, v⟩ := q
    simp only [tset] at h
    split at h
    · next hn =>
      subst hn
      obtain rfl | h := List.mem_cons.1 h
      · exact .inr rfl
      · exact .inl (by simp [h])
    · split at h
      · obtain rfl | h := List.mem_cons.1 h
        · exact .inr rfl
        · exact .inl h
      · obtain rfl | h := List.mem_cons.1 h
        · exact .inl (by simp)
        · exact (ih h).imp_left fun h => by simp [h]
theorem tget_default_or_mem {α : Type} (d : α) (t : Tbl α) (n : Nat) : tget d t n = d ∨ ∃ e ∈ t, tget d t n = e.2 := by
  induction t with
  | nil => exact .inl rfl
  | cons q t ih =>
    obtain ⟨k, v⟩ := q
    simp only [tget]
    split
    · exact .inr ⟨(k, v), by simp, rfl⟩
    · exact ih.imp_right fun ⟨e, he, h⟩ => ⟨e, by simp [he], h⟩

/-- No session is held. -/
def NoneHeld (s : State) : Prop := ∀ e ∈ s.sess, e.2.st ≠ .held
theorem NoneHeld.ses {s : State} (h : NoneHeld s) (n : Nat) : (s.ses n).st ≠ .held := by
  obtain hd | ⟨e, he, hn⟩ := tget_default_or_mem ({} : Session) s.sess n
  · rw [State.ses, hd]
    decide
  · rw [State.ses, hn]
    exact h e he
theorem putFor_st (x : Session) (tag : Option Nat) (r : Reply) : (x.putFor tag r).st = x.st := by
  unfold Session.putFor
  dsimp only
  split
  · rfl
  · split <;> rfl

/-- Reports have gone out, and WATCH operations have noted them; no session is held. -/
def ReportsOnly (s u : State) : Prop := KeptBut [.sess, .sup, .ops] s u ∧ NoneHeld u
theorem ReportsOnly.send {s u : State} (h : ReportsOnly s u) (p : Port) (r : Reply) : ReportsOnly s (send p r u) := by
  refine ⟨h.1.trans ((send_kept p r u).mono (by simp)), fun e he => ?_⟩
  cases p with
  | supervisor =>
    have hs : (Machine.send .supervisor r u).sess = u.sess := by
      simp only [Machine.send]
      split <;> rfl
    exact h.2 e (hs ▸ he)
  | session n =>
    simp only [Machine.send] at he
    split at he
    · exact h.2 e he
    · obtain he | rfl := mem_tset he
      · exact h.2 e he
      · exact (putFor_st (u.ses n) r.tag r).symm ▸ h.2.ses n
theorem ReportsOnly.sayIn {s : State} (k : Nat) {c : Ctx} {r : Reply} {u : State} (h : ReportsOnly s u) : ReportsOnly s (sayIn k c r u) := by
  induction k generalizing c u with
  | zero => exact h
  | succ k ih =>
    unfold Machine.sayIn
    split
    · exact h.send _ _
    split
    · exact h.send _ _
    split
    · exact h.send _ _
    · split
      · exact h
      · exact ih h
theorem ReportsOnly.modOp {s u : State} (h : ReportsOnly s u) (id : Nat) (f : Op → Op) : ReportsOnly s (u.modOp id f) :=
  ⟨h.1.trans ((modOp_kept u id f).mono (by simp)), h.2⟩
theorem ReportsOnly.watchChange {s u : State} (h : ReportsOnly s u) (id : Nat) (o : Obj) : ReportsOnly s (watchChange id o u) := by
  unfold Machine.watchChange
  split
  · exact h
  split
  · dsimp only
    split
    · split
      · exact (h.modOp _ _).sayIn 4
      · exact h.modOp _ _
    · split
      · exact (h.modOp _ _).sayIn 4
      · exact h.modOp _ _
  · exact h
theorem watchDiff_reportsOnly {s u : State} (h : NoneHeld u) : ReportsOnly u (watchDiff s u) := by
  refine forEach_keeps _ _ u (fun w v hv => ?_) ⟨KeptBut.refl _ u, h⟩
  dsimp only
  split
  · have hone : ∀ o x, ReportsOnly u x → ReportsOnly u (if showFields s o = showFields x o then x else watchChange w.id o x) := fun o x hx => by
      split
      · exact hx
      · exact hx.watchChange w.id o
    refine forEach_keeps _ _ v (fun o x hx => ?_) hv
    split
    · exact forEach_keeps _ _ x (fun o y hy => hone o y hy) hx
    · exact hone o x hx
  · exact hv

/-! ## The obligation -/

theorem sealState_kept (rel : Bool) (s u : State) : KeptBut [.fixed, .clk, .pool, .camp] u (sealState rel s u) := by
  intro p hp; cases p <;> simp_all [samePart, sealState]

/-- Settles O9, part by part: released reservations (`releaseGone_framesOnly`), marks (`clearMarks_marksOnly`), reports (`watchDiff_reportsOnly`),
the pool's record, the seal. -/
theorem settleKeeps : Obligations.SettleKeeps := by
  intro s u hslp hheld hrefs hcam
  obtain ⟨hframes, hyar⟩ := releaseGone_framesOnly s u
  obtain ⟨hmarks, hstn⟩ := clearMarks_marksOnly (releaseGone s u)
  have hnone : NoneHeld (clearMarks (releaseGone s u)) := by
    unfold NoneHeld
    rw [show State.sess _ = u.sess from (hmarks .sess (by simp)).trans (hframes .sess (by simp))]
    exact hheld
  obtain ⟨hreports, hopen⟩ := watchDiff_reportsOnly (s := s) hnone
  have hsettle : settle s u = sealState false s (poolRecord (watchDiff s (clearMarks (releaseGone s u)))) := by
    rw [settle, settleWith, camsFollow_same hcam, searchesEnd_same hrefs,
      sleepWatch_same (by rw [show (releaseGone s u).slp = u.slp from hframes .slp (by simp)]; exact hslp), endFull_same hopen]
  generalize releaseGone s u = a at hframes hyar hmarks hstn hreports hsettle
  generalize clearMarks a = b at hmarks hstn hreports hsettle
  generalize watchDiff s b = c at hreports hsettle
  have hrecord := poolRecord_kept c
  have hpool := poolRecord_pool c
  generalize poolRecord c = d at hrecord hpool hsettle
  rw [hsettle]
  have hseal := sealState_kept false s d
  have hd : KeptBut [.yar, .net, .work, .st, .sess, .sup, .ops, .pool, .jrn] u d :=
    ((hframes.mono (by simp)).trans (hmarks.mono (by simp))).trans ((hreports.mono (by simp)).trans (hrecord.mono (by simp)))
  have hstd : d.st = b.st := (hrecord .st (by simp)).trans (hreports .st (by simp))
  have hyard : d.yar = a.yar := ((hrecord .yar (by simp)).trans (hreports .yar (by simp))).trans (hmarks .yar (by simp))
  refine ⟨(hd.mono (by simp)).trans (hseal.mono (by simp)), ?_, fun n => ?_, ?_, ?_, ?_⟩
  · exact hpool.trans ((hreports .pool (by simp)).1.trans ((hmarks .pool (by simp)).1.trans (hframes .pool (by simp)).1))
  · have hn : (sealState false s d).stn n = b.stn n := congrArg (tget ({} : Station) · n) hstd
    have hu : u.stn n = a.stn n := (hframes.stn (by simp) n).symm
    rw [hn, hu]
    exact hstn n
  · rw [← show d.camp = u.camp from hd .camp (by simp)]
    rfl
  · rw [← show d.clk = u.clk from hd .clk (by simp)]
    rfl
  · rw [show (sealState false s d).yar = a.yar from hyard]
    exact hyar

end Sys2Proof.Machine
end

section
/-! SUPPORT. A motion whose command ends while the pool-full record stands and a sleep is about to be given up: the slot that the command frees is
journalled before the sleep's abort. No effect that leaves the journal alone explains that order. -/

namespace Sys2Proof.Machine

open Sys2Proof

/-- A unit in start-up with a commit window open and an axis on station 0, whose motion is a command that holds a slot; the pool-full record
awaits its answer. -/
def fullPoolAxis (a : Axis) : State :=
  { slp := { commit := some 0 }, poolFull := true, st := [(0, { axis := a })]
    ops := [{ slot := some 2000, id := 5, port := .supervisor, tag := none, acc := 0, verb := .ref 0, text := [], prog := .motion 0 }] }

/-- Where no leaf has a step that another station drives, the end of its search touches stations and charges alone (R480). -/
theorem searchesEnd_kept {s : State} (h : ∀ n, stepStation s n = none) : KeptBut [.st, .yar] s (searchesEnd s) := by
  suffices hall : ∀ (l : List Nat) (u : State), KeptBut [.st, .yar] s u → KeptBut [.st, .yar] s (forEach l searchEnds u) from
    hall _ s (KeptBut.refl _ s)
  intro l
  induction l with
  | nil => exact fun u hu => hu
  | cons n l ih =>
    refine fun u hu => ih _ (hu.trans ?_)
    have hu0 : stepStation u n = none := (stepStation_congr (siteView_congr hu) n).trans (h n)
    have hdrop : ∀ f, stepStation (dropCharge n (u.modStn n f)) n = none := fun f =>
      (stepStation_congr (siteView_congr (((modStn_kept u n f).mono (by simp)).trans
        ((modYar_kept _ _).mono (by simp : [Part.yar] ⊆ [.st, .yar])))) n).trans hu0
    simp only [searchEnds, hu0, endSearch, hdrop]
    split
    · exact KeptBut.refl _ u
    · exact ((modStn_kept u n _).mono (by simp)).trans ((modYar_kept _ _).mono (by simp))

/-- In `fullPoolAxis`, and in whatever leaves its journal alone and couples no axis, a sleep's abort is journalled first (R403). -/
theorem settle_fullPoolAxis {a : Axis} {u : State} (hk : KeptBut (.st :: overParts) (fullPoolAxis a) u)
    (hc : ∀ n, (u.ax n).motion.bind (·.couple) = none) (hs : (settle (fullPoolAxis a) u).sess = []) :
    firstRecord (settle (fullPoolAxis a) u) 0x0A06 := by
  have hcams : camsFollow (fullPoolAxis a) u = u := camsFollow_same fun e _ => by simp only [masterMoved, hc]
  have hstep : ∀ n, stepStation u n = none := fun n => stepStation_congr (siteView_congr hk) n
  have hw := (hk.mono (by simp [overParts])).trans ((searchesEnd_kept hstep).mono (by simp : _ ⊆ Part.st :: .yar :: overParts))
  generalize hwe : searchesEnd u = w at hw
  have hjrn : w.jrn = {} := (hw .jrn (by decide)).1
  have hslp : w.slp = { commit := some 0 } := hw .slp (by decide)
  have hhead : headRest w.head = headRest {} := hw .head (by decide)
  have hstart : w.head.started = false := by have h := congrArg Head.started hhead; exact h
  have hbit : w.head.bit31 = true := by have h := congrArg Head.bit31 hhead; exact h
  have hres : w.head.resetting = none := by have h := congrArg Head.resetting hhead; exact h
  have hunit : w.head.unit = none := by have h := congrArg Head.unit hhead; exact h
  have hgone : releaseGone (fullPoolAxis a) w = w := releaseGone_same fun c hc => by simp [fullPoolAxis] at hc
  have hready : notReady w ≠ 0 := by simp [notReady, hbit]
  have hwatch : sleepWatch w = abortSleep 65535 ["local"] w := by
    unfold sleepWatch
    rw [if_pos ⟨by simp [hslp], by simp [hslp], hready⟩]
    simp [sendWake, hunit]
  have hdiff : ∀ v, watchDiff (fullPoolAxis a) v = v := fun _ => rfl
  have hfirst : firstRecord (clearMarks (abortSleep 65535 ["local"] w)) 0x0A06 := by
    unfold firstRecord
    rw [(clearMarks_kept _ .jrn (by simp)).1]
    exact abortSleep_firstRecord _ _ hjrn hres
  unfold settle settleWith at hs ⊢
  rw [hcams, hwe, hgone, hwatch, hdiff] at hs ⊢
  rw [endFull_eq_self ((poolRecord_kept _ .sess (by simp)).symm.trans hs)]
  exact poolRecord_firstRecord hfirst

/-- A command of `fullPoolAxis` that journals the pool as available first, and leaves the sessions alone, has no effect that leaves the journal
alone and couples no axis. -/
theorem not_does_fullPoolAxis {a : Axis} {i : Instr} {p : State → Prop}
    (hx : ∃ w, exec i (fullPoolAxis a) = .next w ∧ w.sess = [] ∧ firstRecord w 0x0202)
    (hp : ∀ u, p u → KeptBut (.st :: overParts) (fullPoolAxis a) u ∧ ∀ n, (u.ax n).motion.bind (·.couple) = none) : ¬ Does i (fullPoolAxis a) p := by
  rintro ⟨u, hu, hpu⟩
  obtain ⟨hk, hc⟩ := hp u hpu
  obtain ⟨w, hw, hsess, hrec⟩ := hx
  rw [hw, Host.Outcome.next.injEq] at hu
  subst hu
  have h := settle_fullPoolAxis hk hc hsess
  unfold firstRecord at h hrec
  rw [h] at hrec
  exact absurd hrec (by decide)

/-- No other station of `fullPoolAxis` has a motion, so what leaves the others alone couples none of them. -/
theorem others_uncoupled {a : Axis} {u : State} (ho : otherStations 0 (fullPoolAxis a) u) (h : (u.ax 0).motion.bind (·.couple) = none) (n : Nat) :
    (u.ax n).motion.bind (·.couple) = none := by
  by_cases hn : n = 0
  · rw [hn]; exact h
  · unfold State.ax
    rw [ho n hn, show (fullPoolAxis a).stn n = {} by simp [State.stn, fullPoolAxis, tget, Ne.symm hn]]
    rfl

/-- A reference search that runs, with an edge loaded, as the command of `fullPoolAxis`. -/
def runningAxis : Axis := { motion := some { kind := .ref, phase := .running, op := some 5 }, loaded := some { edge := 0, ticks := 1 } }
/-- A held search, far from where it was held. -/
def driftedAxis : Axis := { pos := 1000000, motion := some { kind := .ref, phase := .held, op := some 5 } }

/-- Refutes O47: where the command that a feed's loss ends holds a slot and the pool-full record stands, its end journals the pool as available
(R56), so the journal is not left alone. -/
theorem not_axisEdgesAndFaults : ¬ Obligations.AxisEdgesAndFaults := by
  rintro ⟨-, -, -, -, -, -, hfeed, -⟩
  refine not_does_fullPoolAxis ⟨_, rfl, ?_, ?_⟩ (fun u hu => ?_) (hfeed 0 _ _ (fullPoolAxis runningAxis) rfl rfl rfl rfl ?_ ?_)
  · decide +kernel
  · unfold firstRecord; decide +kernel
  · obtain ⟨-, -, hmotion, -, hothers, hk⟩ := hu
    exact ⟨hk, others_uncoupled hothers (by rw [show (u.ax 0).motion = _ from hmotion]; rfl)⟩
  · decide +kernel
  · decide +kernel

/-- Refutes O48: where the command of a held motion that drifts holds a slot and the pool-full record stands, its end journals the pool as
available (R56), so the journal is not left alone. -/
theorem not_motionsGoOnAndEnd : ¬ Obligations.MotionsGoOnAndEnd := by
  rintro ⟨-, hdrift, -⟩
  refine not_does_fullPoolAxis ⟨_, rfl, ?_, ?_⟩ (fun u hu => ?_) (hdrift 0 _ (fullPoolAxis driftedAxis) rfl rfl ?_)
  · decide +kernel
  · unfold firstRecord; decide +kernel
  · obtain ⟨hmotion, -, -, hothers, hk⟩ := hu
    exact ⟨hk, others_uncoupled hothers (by rw [show (u.ax 0).motion = none from hmotion]; rfl)⟩
  · decide +kernel

end Sys2Proof.Machine
end

section
/-! SUPPORT. A session's motion command: its operation in its slot, its segment slots, and the wait of its station for admission (R50, R51, R58,
R131, R139, R311). -/

namespace Sys2Proof.Machine

open Sys2Proof

/-! ## What a slot's entry tells of its command (R58, R59) -/

/-- What an entry tells of the command that holds its slot. -/
def entryHead (e : PoolEntry) : Kind × Nat × Bool := (e.kind, e.session, e.tagged)

theorem KeptBut.entryHead {l : List Part} {s u : State} (h : KeptBut l s u) (hl : .pool ∉ l) (k : Nat) :
    entryHead (u.ent k) = entryHead (s.ent k) := congrArg Machine.entryHead (h.ent hl k)
/-- A change of an entry that leaves what it tells of its command. -/
theorem modEnt_entryHead {f : PoolEntry → PoolEntry} (n k : Nat) (s : State) (hf : ∀ e, entryHead (f e) = entryHead e := by exact fun _ => rfl) :
    entryHead ((s.modEnt n f).ent k) = entryHead (s.ent k) := by
  rw [ent_modEnt]
  split
  · next h => rw [hf, h]
  · rfl
theorem markOp_entryHead (id k : Nat) (s : State) : entryHead ((markOp id s).ent k) = entryHead (s.ent k) := by
  unfold markOp
  split
  · rfl
  split
  · rfl
  · dsimp only
    split
    · rfl
    · exact modEnt_entryHead _ k s
/-- A command of a station that waits for admission shows it (R58). -/
theorem markOp_waiting {id k m : Nat} {o : Op} {s : State} (ho : s.opOf id = some o) (hs : o.slot = some k) (hc : (s.ent k).kind = .command)
    (hm : m ∈ o.movers) (hw : (s.stn m).wait.isSome = true) : ((markOp id s).ent k).st = .waiting := by
  have hany : o.movers.any (fun n => (s.stn n).wait.isSome) = true := List.any_eq_true.2 ⟨m, hm, hw⟩
  have hne : o.movers.isEmpty = false := List.isEmpty_eq_false_iff.2 (List.ne_nil_of_mem hm)
  simp [markOp, ho, hs, hc, hany, hne]
theorem writeSegs_entryHead (n k : Nat) (slots : List Nat) (segs : List Seg) (s : State) :
    entryHead ((writeSegs n slots segs s).ent k) = entryHead (s.ent k) :=
  forEach_eq (fun v => entryHead (v.ent k)) _ _ s fun _ v => modEnt_entryHead _ k v
theorem writeSegs_kept (n : Nat) (slots : List Nat) (segs : List Seg) (s : State) : KeptBut [.pool] s (writeSegs n slots segs s) :=
  forEach_kept _ _ s fun _ v => modEnt_kept v _ _
theorem takeSlots_kept (kind : Kind) (st : ESt) (n : Nat) (tag : Option Nat) (m : Nat) (s : State) :
    KeptBut [.pool, .work, .jrn] s (takeSlots kind st n tag m s).2 := by
  induction m generalizing s with
  | zero => exact KeptBut.refl _ s
  | succ m ih =>
    unfold takeSlots
    split
    · exact KeptBut.refl _ s
    · exact (takeSlot_kept _ _ s).trans (ih _)

/-- Taking segment slots touches the pool and the operation's list of them; the slots in use hold the commands they held (R51, R139). -/
structure SegsTaken (id : Nat) (s u : State) : Prop where
  kept : KeptBut [.pool, .work, .jrn, .ops] s u
  entries : ∀ k, (s.ent k).kind ≠ .free → entryHead (u.ent k) = entryHead (s.ent k)
  ops : ∃ l, u.ops = s.ops.map fun o => if o.id = id then { o with segs := o.segs ++ l } else o

theorem takeSegs_taken (id n : Nat) (types : List Nat) (segs : List Seg) (s : State) : SegsTaken id s (takeSegs id n types segs s) := by
  have hsame : ∀ l : List Op, l = l.map fun o => if o.id = id then { o with segs := o.segs ++ [] } else o := fun l => by simp
  unfold takeSegs
  split
  · exact ⟨KeptBut.refl _ s, fun _ _ => rfl, [], hsame _⟩
  next o _ =>
  split
  · split
    · exact ⟨KeptBut.refl _ s, fun _ _ => rfl, [], hsame _⟩
    · exact ⟨(writeSegs_kept _ _ _ s).mono (by simp), fun k _ => writeSegs_entryHead _ k _ _ s, [],
        ((writeSegs_kept _ _ _ s) .ops (by simp)).trans (hsame _)⟩
  next c _ =>
  have htake := takeSlots_kept .segment .segPending (portSession o.port) o.tag types.length s
  have hspare := fun k => takeSlots_spares (k := k) .segment .segPending (portSession o.port) o.tag types.length (s := s)
  generalize takeSlots .segment .segPending (portSession o.port) o.tag types.length s = r at htake hspare ⊢
  dsimp only
  have hmod := modOp_kept r.2 id fun o => { o with segs := o.segs ++ r.1 }
  generalize hy : (r.2.modOp id fun o => { o with segs := o.segs ++ r.1 }) = y at hmod
  generalize hz : (match r.1 with
    | f :: _ => y.modEnt c fun e => { e with next := f }
    | [] => y) = z
  have hzk : KeptBut [.pool] y z := (linkEntry_spec c r.1 hz.symm).2
  have hzh : ∀ k, entryHead (z.ent k) = entryHead (y.ent k) := fun k => by
    subst hz
    split
    · exact modEnt_entryHead c k y
    · rfl
  have hwk := writeSegs_kept n r.1 (slotSegs types segs) z
  suffices h : SegsTaken id s (writeSegs n r.1 (slotSegs types segs) z) by subst hz hy; exact h
  refine ⟨((htake.mono (by simp)).trans (hmod.mono (by simp))).trans ((hzk.mono (by simp)).trans (hwk.mono (by simp))), fun k hk => ?_, r.1, ?_⟩
  · obtain ⟨-, hent, -⟩ := hspare k hk
    rw [writeSegs_entryHead, hzh, hmod.entryHead (by simp), hent]
  · rw [show State.ops _ = y.ops from (hwk .ops (by simp)).trans (hzk .ops (by simp)), ← hy,
      ← show r.2.ops = s.ops from htake .ops (by simp)]
    rfl

/-! ## The operation of a session's line (R50, R51, R59) -/

/-- The operation that a session's line starts, with the segment slots it holds. -/
def commandOp (l : Line) (s : State) (v : Verb) (p : Prog) (segs : List Nat) : Op :=
  { startedOp s (lineCtx l s) v p 0 with slot := freeSlot s, segs }
/-- A session's line has started its operation: it stands behind the others, and the entry of its slot is a queued command's. -/
structure Started (n : Nat) (l : Line) (v : Verb) (p : Prog) (s u : State) : Prop where
  ops : ∃ segs, u.ops = s.ops ++ [commandOp l s v p segs]
  entry : ∀ k, freeSlot s = some k → entryHead (u.ent k) = (.command, n, (lineTag l).isSome)

/-- A line of a session, read into a state in which its verb runs: no operation, no slot and no session but its own has been touched. -/
structure LineReady (n : Nat) (l : Line) (s g : State) : Prop where
  port : l.port = .session n
  opn : (s.ses n).st = .opn
  free : (s.ses n).heldBack = []
  heard : Heard n s g []
  pool : g.pool = s.pool
  ops : g.ops = s.ops
  next : g.nextOp = s.nextOp

theorem lineReady_of_taken {n : Nat} {l : Line} {sp : Spec} {s : State} (h : taken n l sp s = true) : LineReady n l s (lineGo n l sp s) := by
  obtain ⟨hp, -, ho, hb⟩ := taken_session h
  have hk := lineGo_kept n l sp s hp
  exact ⟨hp, ho, hb, Heard.lineGo h, (hk .pool (by simp)).1, hk .ops (by simp), lineGo_nextOp n l sp s hp⟩

namespace Started

variable {n m : Nat} {l : Line} {v : Verb} {p : Prog} {s g u w : State}

theorem startOp (h : LineReady n l s g) (v : Verb) (p : Prog) : Started n l v p s (startOp (lineCtx l s) v p true g).2 := by
  have hfree : freeSlot g = freeSlot s := freeSlot_congr h.pool
  refine ⟨⟨[], ?_⟩, fun k hk => ?_⟩
  · rw [startOp_ops v p (c := lineCtx l s) rfl h.port, h.ops, hfree]
    simp [commandOp, startedOp, h.next]
  · rw [startOp_ent v p (c := lineCtx l s) rfl h.port (hfree.trans hk)]
    rfl
theorem of_kept {ps : List Part} (h : Started n l v p s u) (hk : KeptBut ps u w) (hops : .ops ∉ ps) (hpool : .pool ∉ ps) : Started n l v p s w :=
  ⟨by rw [show w.ops = u.ops from hk .ops hops]; exact h.ops, fun k hf => (hk.entryHead hpool k).trans (h.entry k hf)⟩
theorem kind (h : Started n l v p s u) {k : Nat} (hf : freeSlot s = some k) : (u.ent k).kind = .command := congrArg Prod.fst (h.entry k hf)
/-- The operation is found by its id, as that is no other's. -/
theorem found (h : Started n l v p s u) (hid : idsFresh s) : ∃ segs, u.opOf s.nextOp = some (commandOp l s v p segs) := by
  obtain ⟨segs, hops⟩ := h.ops
  exact ⟨segs, opOf_append_new (o := commandOp l s v p segs) hops fun q hq => Nat.ne_of_lt (hid q hq)⟩
theorem takeSegs (h : Started n l v p s u) (hid : idsFresh s) (types : List Nat) (segs : List Seg) :
    Started n l v p s (takeSegs s.nextOp m types segs u) := by
  obtain ⟨-, hentries, more, hmap⟩ := takeSegs_taken s.nextOp m types segs u
  obtain ⟨held, hops⟩ := h.ops
  refine ⟨⟨held ++ more, ?_⟩, fun k hf => (hentries k (by rw [h.kind hf]; simp)).trans (h.entry k hf)⟩
  have hold : s.ops.map (fun o => if o.id = s.nextOp then { o with segs := o.segs ++ more } else o) = s.ops :=
    (List.map_congr_left fun q hq => if_neg (Nat.ne_of_lt (hid q hq))).trans (List.map_id _)
  rw [hmap, hops, List.map_append, hold, List.map_singleton, if_pos (show (commandOp l s v p held).id = s.nextOp from rfl)]
  rfl
theorem placed (h : Started n l v p s u) : placed n l s u v p := by
  obtain ⟨segs, hops⟩ := h.ops
  refine ⟨⟨commandOp l s v p segs, by simp [hops], rfl, rfl, rfl, rfl, rfl, rfl, rfl⟩, fun k hf => ?_⟩
  have hent := h.entry k hf
  simpa [entryHead] using hent
theorem markOps (h : Started n l v p s u) (m : Nat) : Started n l v p s (markOps m u) :=
  ⟨by rw [show State.ops _ = u.ops from markOps_kept m u .ops (by simp)]; exact h.ops,
    fun k hf => (forEach_eq (fun v => entryHead (v.ent k)) _ _ u fun id v => markOp_entryHead id k v).trans (h.entry k hf)⟩
/-- The entry of a command that moves a station which waits shows it waiting, as it is the last to be marked (R58). -/
theorem markOps_waiting (h : Started n l v p s u) (hid : idsFresh s) (hm : ∀ segs, m ∈ (commandOp l s v p segs).movers)
    (hw : (u.stn m).wait.isSome = true) {k : Nat} (hf : freeSlot s = some k) : ((Machine.markOps m u).ent k).st = .waiting := by
  obtain ⟨segs, hops⟩ := h.ops
  have hlist : (u.ops.filter fun o => decide (m ∈ o.movers)).map (·.id) = (s.ops.filter fun o => decide (m ∈ o.movers)).map (·.id) ++ [s.nextOp] := by
    rw [hops, List.filter_append, List.map_append, List.filter_cons_of_pos (by simpa using hm segs)]
    rfl
  have hsplit : Machine.markOps m u = markOp s.nextOp (forEach ((s.ops.filter fun o => decide (m ∈ o.movers)).map (·.id)) markOp u) := by
    unfold Machine.markOps
    rw [hlist]
    simp [forEach]
  rw [hsplit]
  generalize (s.ops.filter fun o => decide (m ∈ o.movers)).map (·.id) = ids
  have hk : KeptBut [.pool] u (forEach ids markOp u) := forEach_kept _ _ u fun id v => (markOp_kept id v).1
  have hkind : ((forEach ids markOp u).ent k).kind = (u.ent k).kind :=
    forEach_eq (fun v => (v.ent k).kind) _ _ u fun id v => (markOp_kept id v).2 k
  refine markOp_waiting (o := commandOp l s v p segs) (m := m) ?_ hf (hkind.trans (h.kind hf)) (hm segs) ?_
  · exact opOf_append_new (o := commandOp l s v p segs) ((hk .ops (by simp)).trans hops) fun q hq => Nat.ne_of_lt (hid q hq)
  · rw [hk.stn (by simp)]
    exact hw

end Started

/-! ## A station begins to wait (R300, R311) -/

theorem beginWait_kept (n cls : Nat) (why : Why) (b : Bool) (s : State) : KeptBut [.st, .pool] s (beginWait n cls why b s) :=
  ((modStn_kept s n _).mono (by simp)).trans ((markOps_kept n _).mono (by simp))
theorem beginWait_stn (n cls k : Nat) (why : Why) (b : Bool) (s : State) :
    (beginWait n cls why b s).stn k = if k = n then { s.stn n with wait := some { cls, since := s.now, why, opening := b } } else s.stn k :=
  ((markOps_kept n _).stn (by simp) k).trans (stn_modStn s n k _)
/-- A station that has changed, and then begins to wait, is all that has changed beside the books. -/
theorem beginWait_own {m cls : Nat} {b : Bool} {l : List Part} {s v : State} {t : Station} (hv : KeptBut l s v)
    (hown : ∀ k, v.stn k = if k = m then t else s.stn k) (hl : .clk ∉ l := by decide) (hst : .st ∈ l := by decide) (hpool : .pool ∈ l := by decide) :
    (∀ k, (beginWait m cls .command b v).stn k = if k = m then { t with wait := asksFor s cls b } else s.stn k)
      ∧ KeptBut l s (beginWait m cls .command b v) := by
  refine ⟨fun k => ?_, hv.trans ((beginWait_kept m cls .command b v).mono (by simp [hst, hpool]))⟩
  rw [beginWait_stn, hown, hown, if_pos rfl, hv.now hl]
  by_cases hk : k = m
  · rw [if_pos hk, if_pos hk]
    rfl
  · rw [if_neg hk, if_neg hk, if_neg hk]
/-- A command whose station begins to wait shows it (R58, R311). -/
theorem Started.beginWait {n m : Nat} {l : Line} {v : Verb} {p : Prog} {s u : State} (h : Started n l v p s u) (hid : idsFresh s)
    (hm : ∀ segs, m ∈ (commandOp l s v p segs).movers) (cls : Nat) (why : Why) (b : Bool) : begunWaiting n l s (beginWait m cls why b u) v p := by
  have hset : Started n l v p s (u.modStn m fun t => { t with wait := some { cls, since := u.now, why, opening := b } }) :=
    h.of_kept (modStn_kept u m _) (by simp) (by simp)
  exact ⟨(hset.markOps m).placed, fun k hf => hset.markOps_waiting hid hm (by simp) hf⟩

/-! ## A motion is put on its axis (R51, R131, R139) -/

/-- A line's lasting command says its first reply. -/
theorem Started.said {n : Nat} {l : Line} {v : Verb} {p : Prog} {s g u : State} (h : Started n l v p s u) (hg : LineReady n l s g)
    {ps : List Part} (hk : KeptBut ps g u) (hps : .sess ∉ ps) {r : Reply} (hr : r.pre ≠ .tilde) :
    Started n l v p s (say (lineCtx l s) r u) ∧ Heard n s (say (lineCtx l s) r u) [shown s n l r] ∧ KeptBut [.sess] u (say (lineCtx l s) r u) := by
  obtain ⟨hsaid, hkept⟩ := (hg.heard.of_kept hk hps).say (c := lineCtx l s) hg.opn hg.free hr hg.port rfl
  exact ⟨h.of_kept hkept (by simp) (by simp), hsaid, hkept⟩

/-- A line's lasting command has begun and said its first reply. -/
theorem LineReady.begun {n : Nat} {l : Line} {s g : State} {ps : List Part} (h : LineReady n l s g) (hk : KeptBut ps s g) (v : Verb) (p : Prog)
    {r : Reply} (hr : r.pre ≠ .tilde) (hps : [Part.pool, .work, .jrn, .ops, .ids, .sess] ⊆ ps := by decide) :
    Started n l v p s (say (lineCtx l s) r (startOp (lineCtx l s) v p true g).2)
      ∧ Heard n s (say (lineCtx l s) r (startOp (lineCtx l s) v p true g).2) [shown s n l r]
      ∧ KeptBut ps s (say (lineCtx l s) r (startOp (lineCtx l s) v p true g).2) := by
  have hstart := startOp_kept (lineCtx l s) v p true g
  obtain ⟨hstarted, hheard, hsaid⟩ := (Started.startOp h v p).said h hstart (by simp) hr
  exact ⟨hstarted, hheard, hk.trans ((hstart.mono (by simp_all)).trans (hsaid.mono (by simp_all)))⟩

/-- An accepted motion command is a motion on its axis that waits for admission (R51, R131, R139). -/
theorem runMotion_put {n m : Nat} {l : Line} {s g : State} {v : Verb} {x : Motion} (hg : LineReady n l s g) (hk : KeptBut heardParts s g)
    (hid : idsFresh s) {r : Reply} (hr : r.pre ≠ .tilde) (segs : List Seg) (types : List Nat) {q : Motion → Prop} (hph : x.phase = .waiting)
    (hcls : x.cls = 4) (hq : q { x with op := some s.nextOp }) :
    motionPut m n l s (runMotion v m x segs types r (lineCtx l s) g) v r q := by
  have hrun : runMotion v m x segs types r (lineCtx l s) g
      = putMotion m { x with op := some s.nextOp } (say (lineCtx l s) r (takeSegs s.nextOp m types segs (startOp (lineCtx l s) v (.motion m) true g).2)) := by
    unfold runMotion
    dsimp only
    rw [show (startOp (lineCtx l s) v (.motion m) true g).1 = s.nextOp from hg.next]
  rw [hrun]
  have hstarted := (Started.startOp hg v (.motion m)).takeSegs (m := m) hid types segs
  have hku := ((startOp_kept (lineCtx l s) v (.motion m) true g).mono (by simp)).trans
    ((takeSegs_taken s.nextOp m types segs (startOp (lineCtx l s) v (.motion m) true g).2).kept.mono
      (by simp : _ ⊆ [.pool, .work, .jrn, .ops, .ids]))
  generalize takeSegs s.nextOp m types segs _ = u at hstarted hku ⊢
  obtain ⟨hstarted, hheard, hsaid⟩ := hstarted.said hg hku (by simp) hr
  generalize say (lineCtx l s) r u = w at hstarted hheard hsaid ⊢
  have hw : KeptBut (.pool :: .ops :: heardParts) s w := (hk.mono (by decide)).trans ((hku.mono (by decide)).trans (hsaid.mono (by decide)))
  unfold putMotion
  dsimp only
  generalize hax : (fun a : Axis => { a with
    motion := some { x with op := some s.nextOp }, ferrSince := none, fault := if a.fault = some "follow" then none else a.fault }) = f
  have hkax := modAx_kept w m f
  have hwait := beginWait_kept m x.cls .command false (w.modAx m f)
  have hstn := fun k => beginWait_stn m x.cls k .command false (w.modAx m f)
  have hnow : (w.modAx m f).now = s.now := (hkax.now (by simp)).trans (hw.now (by decide))
  have hown : ∀ k, (w.modAx m f).stn k = if k = m then { s.stn m with axis := f (s.stn m).axis } else s.stn k := fun k => by
    rw [stn_modAx, hw.stn (by decide), hw.stn (by decide)]
  refine ⟨(hstarted.of_kept hkax (by simp) (by simp)).beginWait hid (fun _ => by simp [Op.movers, commandOp, startedOp]) _ _ _,
    ((hheard.of_kept hkax (by simp)).of_kept hwait (by simp)).out, ?_, ⟨{ x with op := some s.nextOp }, ?_, hph, rfl, hcls, hq⟩, ?_, fun k hne => ?_,
    ((hheard.of_kept hkax (by simp)).of_kept hwait (by simp)).others,
    (hw.mono (by decide)).trans ((hkax.mono (by decide)).trans (hwait.mono (by decide)))⟩
  · rw [hstn, if_pos rfl, hnow, hcls]
    rfl
  · rw [State.ax, hstn, if_pos rfl, hown, if_pos rfl, ← hax]
  · rw [State.ax, hstn, if_pos rfl, hown, if_pos rfl, ← hax]
    rfl
  · rw [hstn, if_neg hne, hown, if_neg hne]

end Sys2Proof.Machine
end

section
/-! SUPPORT. MOVE, JOG, REF, MOVE FOLLOW, CAM and REF LEARN: what their lines read, the motions they put, and the obligation. -/

namespace Sys2Proof.Machine

open Sys2Proof

/-! ## What an axis's lines read (R45, R128, R129, R149) -/

/-- What the line of an axis reads of the unit. -/
def axisView (s : State) : State := { fit := s.fit, clk := s.clk, head := headRest s.head, cfg := s.cfg, st := s.st, sl := s.sl }
theorem axisView_congr {l : List Part} {s u : State} (hk : KeptBut l s u)
    (hl : ∀ p ∈ [Part.fixed, .clk, .head, .cfg, .st, .sl], p ∉ l := by decide) : axisView u = axisView s := by
  unfold axisView
  rw [(hk .fixed (hl _ (by simp))).1, show u.clk = s.clk from hk .clk (hl _ (by simp)),
    show headRest u.head = headRest s.head from hk .head (hl _ (by simp)), show u.cfg = s.cfg from hk .cfg (hl _ (by simp)),
    show u.st = s.st from hk .st (hl _ (by simp)), show u.sl = s.sl from hk .sl (hl _ (by simp))]

section
variable {s u : State} (h : axisView u = axisView s)
include h
theorem axis_congr {α : Type} {f : State → α} (hv : ∀ v, f (axisView v) = f v) : f u = f s := by rw [← hv u, h, hv]
theorem moveGoal_congr (m : Nat) (t : MoveTgt) : moveGoal u m t = moveGoal s m t := axis_congr h (f := (moveGoal · m t)) fun _ => rfl
theorem goalSteps_congr (m : Nat) (g : Int × Bool) : goalSteps u m g = goalSteps s m g := axis_congr h (f := (goalSteps · m g)) fun _ => rfl
theorem axK_congr (m : Nat) (k : Key) : u.axK m k = s.axK m k := axis_congr h (f := (·.axK m k)) fun _ => rfl
theorem ax_congr (m : Nat) : u.ax m = s.ax m := axis_congr h (f := (·.ax m)) fun _ => rfl
theorem time_congr : u.time = s.time := axis_congr h (f := (·.time)) fun _ => rfl
end

/-! ## The motions of MOVE and JOG (R136, R148, R149) -/

/-- A MOVE's motion goes to its target, or searches the reference first (R136, R148). -/
theorem moveMotion_moves {s : State} {m : Nat} {t : MoveTgt} {g : Int × Bool} (k : MotionKeys) (hg : moveGoal s m t = some g) :
    (moveMotion s m t k).phase = .waiting ∧ (moveMotion s m t k).cls = 4 ∧ (moveMotion s m t k).kind = .move
      ∧ ((s.ax m).referenced = true → (moveMotion s m t k).target = some (goalSteps s m g) ∧ (moveMotion s m t k).after = none)
      ∧ ((s.ax m).referenced = false → (moveMotion s m t k).target = none ∧ (moveMotion s m t k).after = some g.1
        ∧ (moveMotion s m t k).afterRel = g.2) := by
  unfold moveMotion
  dsimp only
  rw [hg]
  split
  · next hr => exact ⟨rfl, rfl, rfl, fun _ => ⟨rfl, rfl⟩, fun h => by rw [hr] at h; cases h⟩
  · next hr => exact ⟨rfl, rfl, rfl, fun h => absurd h hr, fun _ => ⟨rfl, rfl, rfl⟩⟩

/-- A JOG's motion before its goal and its direction, at CREEP without a reference (R149). -/
theorem jogStart_fields (s : State) (m : Nat) (k : MotionKeys) (y : Motion)
    (hy : y = if (s.ax m).referenced then lineMotion s m .jog k
      else { lineMotion s m .jog k with speed := min (lineMotion s m .jog k).speed (axRate s m .CREEP) }) :
    y.phase = .waiting ∧ y.cls = 4 ∧ y.kind = .jog ∧ y.target = none := by
  rw [hy]
  split <;> exact ⟨rfl, rfl, rfl, rfl⟩
/-- The motion of a JOG line: to a goal, or at a signed speed without one (R149). -/
theorem jogSpec_puts (m : Nat) (t : MoveTgt) (k : MotionKeys) (c : Ctx) (s : State) :
    ∃ x segs types, (jogSpec m t k).run c s = runMotion (.jog m t k) m x segs types (colR "jogging" [.n 1]) c s
      ∧ x.phase = .waiting ∧ x.cls = 4 ∧ x.kind = .jog ∧ (∀ g, moveGoal s m t = some g → x.target = some (goalSteps s m g))
      ∧ (∀ v, t = .speed v → x.target = none ∧ x.neg = decide ((jogUm v).getD 0 < 0)) := by
  refine ⟨_, _, _, rfl, ?_⟩
  cases t with
  | speed v =>
    obtain ⟨hph, hcls, hkind, hto⟩ := jogStart_fields s m { k with speed := some { v with mant := (v.mant.natAbs : Int) } } _ rfl
    exact ⟨hph, hcls, hkind, fun g hg => by simp [moveGoal] at hg, fun w hw => by cases hw; exact ⟨hto, rfl⟩⟩
  | pos v =>
    obtain ⟨hph, hcls, hkind, -⟩ := jogStart_fields s m k _ rfl
    dsimp only
    cases hgoal : moveGoal s m (.pos v) with
    | none => exact ⟨hph, hcls, hkind, nofun, nofun⟩
    | some g => exact ⟨hph, hcls, hkind, fun w hw => by cases hw; rfl, nofun⟩
  | dist v =>
    obtain ⟨hph, hcls, hkind, -⟩ := jogStart_fields s m k _ rfl
    dsimp only
    cases hgoal : moveGoal s m (.dist v) with
    | none => exact ⟨hph, hcls, hkind, nofun, nofun⟩
    | some g => exact ⟨hph, hcls, hkind, fun w hw => by cases hw; rfl, nofun⟩

/-! ## REF LEARN (R184) -/

/-- A leaf's learning run has begun. -/
def learnBegins (id : Nat) (t : Station) : Station := { t with learning := some id, traverses := [], points := [] }
/-- REF LEARN starts its operation, answers, and its leaf waits for admission to open (R184). -/
theorem refLearnSpec_run (m times : Nat) (c : Ctx) (s : State) : (refLearnSpec m times).run c s =
    beginWait m 4 .command true
      ((say c (colR "referencing" [.n 1]) (startOp c (.refLearn m times) (.learn m times) true s).2).modStn m (learnBegins s.nextOp)) := rfl

/-- Settles O30: each motion verb puts its motion (`runMotion_put`); REF LEARN starts, answers and waits (`refLearnSpec_run`). -/
theorem motionsBegin : Obligations.MotionsBegin := by
  refine ⟨⟨fun l m t k g n s h hg hid => does_of_taken h rfl ?_, fun l m f n s h hid => does_of_taken h rfl ?_,
    fun l m t k n s h hid => does_of_taken h rfl ?_, fun l m n s h hid => does_of_taken h rfl ?_,
    fun l m c t off n s h hid => does_of_taken h rfl ?_⟩, fun l m times n s h hid => does_of_taken h rfl ?_⟩
  · have hin := lineReady_of_taken h
    have hk := lineGo_kept_plain n l (moveSpec m t k) s hin.port rfl
    generalize lineGo n l (moveSpec m t k) s = a at hin hk ⊢
    have hview := axisView_congr hk
    obtain ⟨hph, hcls, hkind, hto, hsearch⟩ := moveMotion_moves k ((moveGoal_congr hview m t).trans hg)
    rw [ax_congr hview, goalSteps_congr hview] at hto
    rw [ax_congr hview] at hsearch
    exact runMotion_put hin hk hid (by simp [colR]) _ _ hph hcls ⟨hkind, hto, hsearch⟩
  · have hin := lineReady_of_taken h
    have hk := lineGo_kept_plain n l (followSpec m f) s hin.port rfl
    generalize lineGo n l (followSpec m f) s = a at hin hk ⊢
    refine runMotion_put hin hk hid (by simp [colR]) _ _ rfl rfl ⟨rfl, rfl, ?_⟩
    rw [← axK_congr (axisView_congr hk)]
  · have hin := lineReady_of_taken h
    have hk := lineGo_kept_plain n l (jogSpec m t k) s hin.port rfl
    generalize lineGo n l (jogSpec m t k) s = a at hin hk ⊢
    have hview := axisView_congr hk
    obtain ⟨x, segs, types, hrun, hph, hcls, hkind, hto, hspeed⟩ := jogSpec_puts m t k (lineCtx l s) a
    rw [hrun]
    refine runMotion_put hin hk hid (by simp [colR]) _ _ hph hcls ⟨hkind, fun g hg => ?_, hspeed⟩
    rw [← goalSteps_congr hview]
    exact hto g ((moveGoal_congr hview m t).trans hg)
  · have hin := lineReady_of_taken h
    have hk := lineGo_kept_plain n l (refSpec m) s hin.port rfl
    generalize lineGo n l (refSpec m) s = a at hin hk ⊢
    exact runMotion_put hin hk hid (by simp [colR]) _ _ rfl rfl ⟨rfl, rfl, rfl⟩
  · have hin := lineReady_of_taken h
    have hk := lineGo_kept_plain n l (camSpec m c (.tb t) off) s hin.port rfl
    generalize lineGo n l (camSpec m c (.tb t) off) s = a at hin hk ⊢
    have hview := axisView_congr hk
    refine runMotion_put hin hk hid (by simp [colR]) _ _ rfl rfl ⟨rfl, ?_⟩
    rw [← time_congr hview, ← ax_congr hview]
    rfl
  · have hin := lineReady_of_taken h
    have hk := lineGo_kept n l (refLearnSpec m times) s hin.port
    generalize lineGo n l (refLearnSpec m times) s = a at hin hk ⊢
    rw [refLearnSpec_run, hin.next]
    obtain ⟨hstarted, hheard, hw⟩ := hin.begun (ps := .pool :: .ops :: .camp :: heardParts) (hk.mono (by decide)) (.refLearn m times) (.learn m times)
      (r := colR "referencing" [.n 1]) (by simp [colR])
    generalize say (lineCtx l s) _ _ = w at hstarted hheard hw ⊢
    have hset := modStn_kept w m (learnBegins s.nextOp)
    have hown : ∀ k, (w.modStn m (learnBegins s.nextOp)).stn k = if k = m then learnBegins s.nextOp (s.stn m) else s.stn k := fun k => by
      rw [stn_modStn, hw.stn (by decide), hw.stn (by decide)]
    obtain ⟨hstn, hall⟩ := beginWait_own (m := m) (cls := 4) (b := true) (l := .st :: .pool :: .ops :: .camp :: heardParts)
      ((hw.mono (by decide)).trans (hset.mono (by decide))) hown
    have hheard := (hheard.of_kept hset (by simp)).of_kept (beginWait_kept m 4 .command true _) (by simp)
    refine ⟨(hstarted.of_kept hset (by simp) (by simp)).beginWait hid (fun _ => by simp [Op.movers, commandOp, startedOp]) _ _ _, hheard.out,
      ?_, ?_, ?_, ?_, fun k hne => by rw [hstn, if_neg hne], hheard.others, hall⟩
    all_goals simp [hstn, learnBegins, asksFor]

end Sys2Proof.Machine
end

section
/-! SUPPORT. What the end of a motion touches: its own station, and sessions' buffers by lines that stand last in them (R101, R142, R143). -/

namespace Sys2Proof.Machine

open Sys2Proof

/-! ## Lines sent (R101, R107, R117) -/

/-- A state in which every session's buffer holds what it held in another, and perhaps further lines behind it. -/
def Sends (s u : State) : Prop := ∀ n, ∃ r, (u.ses n).out = (s.ses n).out ++ r

namespace Sends

variable {s u v : State}

theorem refl (s : State) : Sends s s := fun _ => ⟨[], by simp⟩
theorem trans (h : Sends s u) (g : Sends u v) : Sends s v := fun n => by
  obtain ⟨a, ha⟩ := h n
  obtain ⟨b, hb⟩ := g n
  exact ⟨a ++ b, by rw [hb, ha, List.append_assoc]⟩
theorem of_kept {l : List Part} (h : Sends s u) (hk : KeptBut l u v) (hl : .sess ∉ l := by decide) : Sends s v :=
  h.trans fun n => ⟨[], by rw [hk.ses hl]; simp⟩
theorem ite {c : Prop} {_ : Decidable c} (hu : Sends s u) (hv : Sends s v) : Sends s (if c then u else v) := by split <;> assumption
theorem forEach {α : Type} {l : List α} {f : α → State → State} (h : Sends s u) (hf : ∀ a v, Sends v (f a v)) : Sends s (forEach l f u) := by
  induction l generalizing u with
  | nil => exact h
  | cons a l ih => exact ih (h.trans (hf a u))
/-- A session changed so that its buffer keeps what it holds. -/
theorem modSes {f : Session → Session} (h : Sends s u) (n : Nat) (hf : ∀ x, ∃ r, (f x).out = x.out ++ r) : Sends s (u.modSes n f) :=
  h.trans fun k => by
    rw [ses_modSes]
    split
    · next hk => rw [hk]; exact hf _
    · exact ⟨[], by simp⟩
theorem put_out (x : Session) (r : Reply) : ∃ l, (x.put r).out = x.out ++ l := by
  unfold Session.put Session.putFor
  dsimp only
  split
  · exact ⟨[], by simp⟩
  split
  · exact ⟨[], by simp⟩
  · exact ⟨_, rfl⟩
theorem send {p : Port} {r : Reply} (h : Sends s u) : Sends s (send p r u) := by
  cases p with
  | session n => exact ite h (h.modSes n fun x => put_out x r)
  | supervisor => exact ite h (h.of_kept (modSup_kept u _))
theorem remember {p : Port} {t : Option Nat} {r : Reply} (h : Sends s u) : Sends s (remember p t r u) := by
  cases t with
  | none => exact h
  | some t => cases p with
    | session n => exact h.modSes n fun x => ⟨[], by simp⟩
    | supervisor => exact h.of_kept (modSup_kept u _)
theorem sayIn {k : Nat} {c : Ctx} {r : Reply} (h : Sends s u) : Sends s (sayIn k c r u) := by
  induction k generalizing c r with
  | zero => exact h
  | succ k ih =>
    unfold Machine.sayIn
    split
    · exact h.send
    split
    · exact h.send
    split
    · exact h.send
    · exact ite h ih
theorem sayOp {id : Nat} {r : Reply} (h : Sends s u) : Sends s (sayOp id r u) := by
  unfold Machine.sayOp
  split
  · exact h
  · exact h.sayIn
theorem dropOp {o : Op} (h : Sends s u) : Sends s (dropOp o u) := h.of_kept (dropOp_kept o u)
theorem modOp {n : Nat} {f : Op → Op} (h : Sends s u) : Sends s (u.modOp n f) := h.of_kept (modOp_kept u n f)
/-- A session that is no longer marked, or newly marked, as suspect. -/
theorem suspects {b : Bool} {n : Nat} (h : Sends s u) : Sends s (u.modSes n fun x => { x with suspect := b }) := h.modSes n fun x => ⟨[], by simp⟩
theorem finIn {k : Nat} {c : Ctx} {r : Reply} (h : Sends s u) : Sends s (finIn k c r u) := by
  induction k generalizing c r u with
  | zero => exact h
  | succ k ih =>
    unfold Machine.finIn
    split
    · exact h.send.remember
    split
    · exact h
    dsimp only
    split
    · split
      · refine ih ?_
        split
        · exact h.send.modOp.dropOp.suspects
        · exact h.send.modOp.dropOp
      · exact ite (ih h.send.modOp.dropOp.suspects) h.send.modOp
    · split
      · exact h
      · exact ite (ite (ih h.modOp.sayIn.dropOp) h.modOp.sayIn) (ih h.dropOp)
    · exact h
theorem finOp {id : Nat} {r : Reply} (h : Sends s u) : Sends s (finOp id r u) := by
  unfold Machine.finOp
  split
  · exact h
  · exact h.dropOp.finIn
theorem motionSays {n : Nat} {r : Reply} (h : Sends s u) : Sends s (motionSays n r u) := by
  unfold Machine.motionSays
  split
  · exact h
  split
  · exact h
  · exact h.sayOp
theorem cycleSays {n : Nat} {r : Reply} (h : Sends s u) : Sends s (cycleSays n r u) := by
  unfold Machine.cycleSays
  split
  · exact h
  · exact h.sayOp
theorem stopDone {n : Nat} (h : Sends s u) : Sends s (stopDone n u) := h.forEach fun o v => by
  dsimp only
  split
  · exact ite (refl v).finOp (refl v).modOp
  · exact refl v
theorem resumeDone {n : Nat} (h : Sends s u) : Sends s (resumeDone n u) := h.forEach fun o v => by
  dsimp only
  split
  · exact ite (refl v).finOp (refl v).modOp
  · exact refl v

end Sends

/-! ## What the end of a motion does beside its axis (R58, R139, R143, R152) -/

theorem sysDrop_kept (n off : Nat) (s : State) : KeptBut [.pool] s (sysDrop n off s) := by
  unfold sysDrop
  split
  · exact KeptBut.refl _ s
  · exact modEnt_kept s _ _
theorem leafSegs_kept (n : Nat) (l : List Seg) (s : State) : KeptBut [.pool] s (leafSegs n l s) :=
  forEach_kept _ _ s fun i v => by
    split
    · exact sysDrop_kept _ _ v
    · exact modEnt_kept v _ _
theorem releaseStarted_kept (n : Nat) (x : Option Nat) (s : State) : KeptBut [.pool, .work, .jrn, .ops] s (releaseStarted n x s) := by
  unfold releaseStarted
  split
  · split
    · split
      · refine (forEach_kept (l := [.pool]) _ _ s fun i v => ?_).mono (by simp)
        dsimp only
        split
        · exact KeptBut.refl _ v
        split
        · exact modEnt_kept v _ _
        · exact sysDrop_kept _ _ v
      · exact KeptBut.refl _ s
    · dsimp only
      split
      · exact KeptBut.refl _ s
      · exact ((modOp_kept s _ _).mono (by simp)).trans ((releaseSlots_kept _ _).mono (by simp))
  · exact KeptBut.refl _ s
theorem draw_kept (s : State) : KeptBut [.ids] s s.draw.2 := by intro p hp; cases p <;> simp_all [samePart, State.draw]
theorem dropCharge_kept (n : Nat) (s : State) : KeptBut [.yar] s (dropCharge n s) := modYar_kept s _
theorem heldRem_kept (n : Nat) (m : Motion) (s : State) : KeptBut [.ids] s (heldRem n m s).2 := by
  unfold heldRem
  split
  · exact KeptBut.refl _ s
  · exact draw_kept s
theorem leafRem_kept (n : Nat) (s : State) : KeptBut [.ids] s (leafRem n s).2 := by
  unfold leafRem
  dsimp only
  split
  · exact KeptBut.refl _ s
  · split
    · exact KeptBut.refl _ s
    · exact draw_kept s

/-! ## One axis at work -/

/-- What the end of a motion leaves of its station as it is, beside the axis: its wait, its leaf's state, the target kept. -/
def stopView (t : Station) : Option Wait × Leaf × Option Bool := (t.wait, t.leaf, t.kept)

/-- A change by the axis of one station, that touches no other station and of its own the axis alone, and sends lines. -/
structure AxisWork (m : Nat) (s u : State) : Prop where
  others : ∀ k, k ≠ m → u.stn k = s.stn k
  part : stopView (u.stn m) = stopView (s.stn m)
  sends : Sends s u

namespace AxisWork

variable {m : Nat} {s u v : State}

theorem refl (m : Nat) (s : State) : AxisWork m s s := ⟨fun _ _ => rfl, rfl, Sends.refl s⟩
theorem trans (h : AxisWork m s u) (g : AxisWork m u v) : AxisWork m s v :=
  ⟨fun k hk => (g.others k hk).trans (h.others k hk), g.part.trans h.part, h.sends.trans g.sends⟩
theorem ite {c : Prop} {_ : Decidable c} (hu : AxisWork m s u) (hv : AxisWork m s v) : AxisWork m s (if c then u else v) := by split <;> assumption
/-- What touches no station and sends lines. -/
theorem told (h : AxisWork m s u) (g : Books u v) (hs : Sends u v) : AxisWork m s v :=
  h.trans ⟨fun k _ => g.kept.stn (by decide) k, by rw [g.kept.stn (by decide)], hs⟩
/-- What touches no station and no session. -/
theorem books {l : List Part} (h : AxisWork m s u) (hk : KeptBut l u v) (hl : .st ∉ l := by decide) (hs : .sess ∉ l := by decide) : AxisWork m s v :=
  h.trans ⟨fun k _ => hk.stn hl k, by rw [hk.stn hl], (Sends.refl u).of_kept hk hs⟩
theorem modStn {f : Station → Station} (h : AxisWork m s u) (hf : stopView (f (u.stn m)) = stopView (u.stn m)) : AxisWork m s (u.modStn m f) :=
  h.trans ⟨fun k hk => by rw [stn_modStn, if_neg hk], by rw [stn_modStn, if_pos rfl, hf], (Sends.refl u).of_kept (modStn_kept u m f)⟩
theorem modAx {f : Axis → Axis} (h : AxisWork m s u) : AxisWork m s (u.modAx m f) := h.modStn rfl
theorem wait (h : AxisWork m s u) : (u.stn m).wait = (s.stn m).wait := congrArg Prod.fst h.part
theorem leaf (h : AxisWork m s u) : (u.stn m).leaf = (s.stn m).leaf := congrArg (·.2.1) h.part
theorem keptTarget (h : AxisWork m s u) : (u.stn m).kept = (s.stn m).kept := congrArg (·.2.2) h.part

/-! ### The step train (R141, R142) -/

theorem refill (h : AxisWork m s u) : AxisWork m s (refill m u) := h.modAx.books (worked_kept _ .mot _)
theorem loadNext (h : AxisWork m s u) : AxisWork m s (loadNext m u) := by
  unfold Machine.loadNext
  dsimp only
  split
  · exact h
  split
  · exact h
  split
  · exact h
  · have hd : AxisWork m s (if overloaded u = true then u.draw else (0, u)).2 := by
      split
      · exact h.books (draw_kept u)
      · exact h
    exact (hd.modAx.books (releaseStarted_kept m _ _)).refill
theorem setCourse {l : List Seg} {f : Motion → Motion} (h : AxisWork m s u) : AxisWork m s (setCourse m l f u) :=
  (ite (h.modAx.books (leafSegs_kept m l _)) h.modAx).refill.loadNext
theorem rampStop {d : Nat} {e : Ending} (h : AxisWork m s u) : AxisWork m s (rampStop m d e u) := by
  unfold Machine.rampStop
  dsimp only
  split
  · exact h
  · exact ite h.modAx (ite h.modAx h.setCourse)
theorem hardStop {e : Ending} (h : AxisWork m s u) : AxisWork m s (hardStop m e u) := h.modAx

/-! ### Standstill (R143, R152, R175) -/

theorem motionReply {r : Reply} (h : AxisWork m s u) : AxisWork m s (motionReply m r u) := by
  unfold Machine.motionReply
  split
  · exact h
  split
  · exact h
  · exact h.modAx.told (Books.refl _).finOp (Sends.refl _).finOp
theorem motionSays {r : Reply} (h : AxisWork m s u) : AxisWork m s (motionSays m r u) :=
  h.told (Books.refl u).motionSays (Sends.refl u).motionSays
theorem cycleSays {r : Reply} (h : AxisWork m s u) : AxisWork m s (cycleSays m r u) :=
  h.told (Books.refl u).cycleSays (Sends.refl u).cycleSays
theorem markOps (h : AxisWork m s u) : AxisWork m s (markOps m u) := h.books (markOps_kept m u)
/-- A wait that is over stays over. -/
theorem endWait (h : AxisWork m s u) (hw : (s.stn m).wait = none) : AxisWork m s (endWait m u) :=
  (h.modStn (f := fun t => { t with wait := none }) (by rw [stopView, stopView, ← hw, ← h.wait])).markOps
theorem stopsDone (h : AxisWork m s u) : AxisWork m s (resumeDone m (stopDone m u)) :=
  h.told (Books.refl u).stopDone.resumeDone (Sends.refl u).stopDone.resumeDone
theorem axisStops (h : AxisWork m s u) (hw : (s.stn m).wait = none) : AxisWork m s (axisStops m u) := by
  have h0 : AxisWork m s (Machine.dropCharge m (Machine.endWait m (u.modAx m fun a => { a with moving := false, ahead := [] }))) :=
    (h.modAx.endWait hw).books (dropCharge_kept m _)
  have hend : ∀ {w}, AxisWork m s w → AxisWork m s (Machine.resumeDone m (Machine.stopDone m (if isLeaf w m then Machine.leafSegs m [] w else w))) :=
    fun hw => (ite (hw.books (leafSegs_kept m [] _)) hw).stopsDone
  unfold Machine.axisStops
  dsimp only
  refine hend ?_
  split
  · exact h0
  split
  · split
    · exact (h0.books (heldRem_kept m _ _)).modAx.cycleSays.markOps
    · exact (h0.books (heldRem_kept m _ _)).modAx.motionSays.markOps
  · exact h0.motionReply.modAx
  · exact h0.modAx
theorem leafHeld (h : AxisWork m s u) : AxisWork m s (leafHeld m u) := ite (h.books (leafRem_kept m u)).cycleSays h

end AxisWork

/-! ## The motion of an axis that stops (R142, R143, R152) -/

/-- What the computation of a train leaves of its motion as it is: its phase, its target, its ending, its turn. -/
def courseView (x : Motion) : MPhase × Option Int × Option Ending × Option Bool := (x.phase, x.target, x.ending, x.turn)
/-- The same of an axis's motion, where it has one. -/
def courseOf (s : State) (m : Nat) : Option (MPhase × Option Int × Option Ending × Option Bool) := (s.ax m).motion.map courseView

theorem courseOf_kept {l : List Part} {s u : State} (h : KeptBut l s u) (hl : .st ∉ l) (m : Nat) : courseOf u m = courseOf s m := by
  unfold courseOf State.ax
  rw [h.stn hl]
theorem courseOf_modAx (m : Nat) (f : Axis → Axis) (s : State) : courseOf (s.modAx m f) m = (f (s.ax m)).motion.map courseView := by
  unfold courseOf
  rw [ax_modAx, if_pos rfl]
theorem nextIvl_course {a b : Nat} {neg : Bool} {k : Nat} {x y : Motion} {i : Ivl} (h : nextIvl a b neg k x = some (i, y)) :
    courseView y = courseView x := by
  induction k generalizing x with
  | zero => simp [nextIvl] at h
  | succ k ih =>
    unfold nextIvl at h
    split at h
    · simp at h
    split at h
    · simp at h
    split at h
    · exact (ih h).trans rfl
    · simp only [Option.some.injEq, Prod.mk.injEq] at h
      rw [← h.2]
      rfl
theorem fillAx_course (a b k c : Nat) (x : Axis) : (fillAx a b k c x).2.motion.map courseView = x.motion.map courseView := by
  induction k generalizing c x with
  | zero => rfl
  | succ k ih =>
    unfold fillAx
    split
    · rfl
    split
    · rfl
    next m hm =>
    split
    · rfl
    next i y hi =>
    rw [ih]
    simp [hm, nextIvl_course hi]
theorem refill_course (m : Nat) (s : State) : courseOf (refill m s) m = courseOf s m :=
  (courseOf_kept (worked_kept _ .mot _) (by decide) m).trans ((courseOf_modAx m _ s).trans (fillAx_course _ _ 64 0 (s.ax m)))
theorem loadNext_course (m : Nat) (s : State) : courseOf (loadNext m s) m = courseOf s m := by
  unfold loadNext
  dsimp only
  split
  · rfl
  split
  · rfl
  split
  · rfl
  · have hd : courseOf (if overloaded s = true then s.draw else (0, s)).2 m = courseOf s m := by
      split
      · exact courseOf_kept (draw_kept s) (by decide) m
      · rfl
    rw [refill_course, courseOf_kept (releaseStarted_kept m _ _) (by decide), courseOf_modAx]
    refine Eq.trans ?_ hd
    simp only [delayAhead, Option.map_map]
    rfl
theorem setCourse_course {m : Nat} {l : List Seg} {f : Motion → Motion} {s : State} {x : Motion} (hx : (s.ax m).motion = some x) :
    courseOf (setCourse m l f s) m = some (courseView (f { x with segs := l, k := 0, t0 := baseTick s m * subTick, lastEdge := baseTick s m })) := by
  have hset : ∀ u, (u = s.modAx m fun a => { a with
      ahead := [], moving := true
      motion := a.motion.map fun x => f { x with segs := l, k := 0, t0 := baseTick s m * subTick, lastEdge := baseTick s m } }) →
      courseOf u m = some (courseView (f { x with segs := l, k := 0, t0 := baseTick s m * subTick, lastEdge := baseTick s m })) := by
    rintro u rfl
    rw [courseOf_modAx, hx]
    rfl
  unfold setCourse
  dsimp only
  rw [loadNext_course, refill_course]
  split
  · rw [courseOf_kept (leafSegs_kept m l _) (by decide)]
    exact hset _ rfl
  · exact hset _ rfl
theorem courseOf_ite {c : Prop} {_ : Decidable c} {m : Nat} {u v : State} {y : Option (MPhase × Option Int × Option Ending × Option Bool)}
    (hu : c → courseOf u m = y) (hv : ¬ c → courseOf v m = y) : courseOf (if c then u else v) m = y := by
  split
  · next h => exact hu h
  · next h => exact hv h
theorem rampStop_course {m d : Nat} {e : Ending} {s : State} {x : Motion} (hx : (s.ax m).motion = some x) :
    courseOf (rampStop m d e s) m = some (.stopping, x.target, some e, x.turn) := by
  simp only [rampStop, hx]
  refine courseOf_ite (fun _ => ?_) fun _ => courseOf_ite (fun hsooner => ?_) fun _ => ?_
  · rw [courseOf_modAx]
    rfl
  · have hph : x.phase = .stopping := of_decide_eq_true (Bool.and_eq_true_iff.mp hsooner).1
    rw [courseOf_modAx, ← hph]
    rfl
  · rw [setCourse_course hx]
    rfl
theorem hardStop_course {m : Nat} {e : Ending} {s : State} {x : Motion} (hx : (s.ax m).motion = some x) :
    courseOf (hardStop m e s) m = some (.stopping, x.target, some e, x.turn) := by
  rw [hardStop, courseOf_modAx, hx]
  rfl
/-- A motion that has come to standstill and is held there (R152, R163). -/
def heldAt (pos : Int) (x : Motion) : Motion :=
  { x with phase := .held, segs := [], heldPos := pos, moving := false, couple := x.couple.map fun c => { c with engaged := false, lagSince := none } }
/-- A motion that comes to standstill to be held is held, with its target (R152, R153). -/
theorem axisStops_held {m : Nat} {s : State} {x : Motion} (hx : (s.ax m).motion = some x) (he : x.ending = some .hold) :
    ∃ y, ((axisStops m s).ax m).motion = some y ∧ y.phase = .held ∧ y.target = x.target := by
  have hend : ∀ (w : State) (y : Motion), (w.ax m).motion = some y →
      ((resumeDone m (stopDone m (if isLeaf w m then leafSegs m [] w else w))).ax m).motion = some y := fun w y hy => by
    have hk : Books w (resumeDone m (stopDone m (if isLeaf w m then leafSegs m [] w else w))) :=
      (Books.ite (Books.refl w).leafSegs (Books.refl w)).stopDone.resumeDone
    unfold State.ax
    rw [hk.kept.stn (by decide)]
    exact hy
  unfold axisStops
  simp only [hx, he]
  refine ⟨heldAt (s.ax m).pos x, hend _ _ ?_, rfl, rfl⟩
  have htold : ∀ (c : Prop) [Decidable c] (r : Reply) (w : State),
      (markOps m ((if c then cycleSays m else motionSays m) r w)).ax m = w.ax m := fun c _ r w => by
    have hk : Books w (markOps m ((if c then cycleSays m else motionSays m) r w)) := by
      split
      · exact (Books.refl w).cycleSays.markOps
      · exact (Books.refl w).motionSays.markOps
    unfold State.ax
    rw [hk.kept.stn (by decide)]
  rw [htold, ax_modAx, if_pos rfl, heldAt, he]

end Sys2Proof.Machine
end

section
/-! SUPPORT. STOP and RESUME: the train that ends, the leaf that is held, the operation that is over at once, and the obligation. -/

namespace Sys2Proof.Machine

open Sys2Proof

/-! ## A train ends (R130, R142, R143, R150) -/

/-- A motion ends by STOP, HARD or at a deceleration, and comes to standstill at once where it stands. -/
def halted (hard : Bool) (m dec : Nat) (e : Ending) (s : State) : State := settleAxis m (if hard then hardStop m e s else rampStop m dec e s)

/-- A leaf that is to make no turn, and does not reverse, only comes to standstill. -/
theorem AxisWork.standstill {m : Nat} {s u : State} (h : AxisWork m s u) (ht : turnOf (u.ax m) = none) (hw : (s.stn m).wait = none)
    (hl : isLeaf s m = true → (s.stn m).leaf ≠ .reversing) (hs : siteView u = siteView s) : AxisWork m s (standstill m u) := by
  have hturn : (u.ax m).motion.bind (·.turn) = none := ht
  have hstops := h.axisStops hw
  have hleaf : isLeaf (Machine.axisStops m u) m = isLeaf s m := isLeaf_congr ((Drives.refl u).axisStops.site.trans hs) m
  have hheld : AxisWork m s (if ((u.ax m).motion.any doorKind) then Machine.leafHeld m (Machine.axisStops m u) else Machine.axisStops m u) :=
    ite hstops.leafHeld hstops
  unfold Machine.standstill
  dsimp only
  rw [hturn]
  split
  · next hlf =>
    unfold doorStands
    dsimp only
    rw [if_pos (.inl (by rw [hheld.leaf]; exact hl (hleaf ▸ hlf)))]
    exact hheld
  · exact hstops
theorem AxisWork.halted {m : Nat} {s : State} (hard : Bool) (d : Nat) (e : Ending) (ht : turnOf (s.ax m) = none) (hw : (s.stn m).wait = none)
    (hl : isLeaf s m = true → (s.stn m).leaf ≠ .reversing) : AxisWork m s (halted hard m d e s) := by
  have hstop : LeafStays m s (if hard then Machine.hardStop m e s else Machine.rampStop m d e s) :=
    .ite (LeafStays.refl m s).hardStop ((LeafStays.refl m s).rampStop (.inl rfl))
  have hwork : AxisWork m s (if hard then Machine.hardStop m e s else Machine.rampStop m d e s) := ite (refl m s).hardStop (refl m s).rampStop
  exact ite (hwork.standstill (hstop.turn.trans ht) hw hl hstop.drives.site) hwork
/-- A motion that is to be held stops, or is held, with its target (R152). -/
theorem halted_holds {m : Nat} {s : State} {x : Motion} (hard : Bool) (d : Nat) (hx : (s.ax m).motion = some x) (ht : x.turn = none)
    (hl : isLeaf s m = false) :
    ∃ y, ((halted hard m d .hold s).ax m).motion = some y ∧ (y.phase = .stopping ∨ y.phase = .held) ∧ y.target = x.target := by
  have hcourse : courseOf (if hard then hardStop m .hold s else rampStop m d .hold s) m = some (.stopping, x.target, some .hold, x.turn) := by
    split
    · exact hardStop_course hx
    · exact rampStop_course hx
  have hsite : siteView (if hard then hardStop m .hold s else rampStop m d .hold s) = siteView s :=
    (Drives.ite (Drives.refl s).hardStop (Drives.refl s).rampStop).site
  unfold halted settleAxis
  generalize (if hard then hardStop m .hold s else rampStop m d .hold s) = u at hcourse hsite ⊢
  obtain ⟨y, hy, hview⟩ := Option.map_eq_some_iff.1 hcourse
  obtain ⟨hph, htarget, hending, hturn⟩ : y.phase = .stopping ∧ y.target = x.target ∧ y.ending = some .hold ∧ y.turn = x.turn := by
    simpa [courseView] using hview
  split
  · have hleaf : isLeaf (axisStops m u) m = false := (isLeaf_congr ((Drives.refl u).axisStops.site.trans hsite) m).trans hl
    have hstand : standstill m u = axisStops m u := by
      unfold standstill
      simp only [hy, hleaf, Option.bind_some, hturn, ht]
      rfl
    rw [hstand]
    obtain ⟨z, hz, hheld, hto⟩ := axisStops_held hy hending
    exact ⟨z, hz, .inr hheld, hto.trans htarget⟩
  · exact ⟨y, hy, .inl hph, htarget⟩

/-! ## An axis that STOP reaches (R152, R307) -/

/-- A station that waits no longer and whose motion is to make no turn. -/
def unwaited (m : Nat) (s : State) : State :=
  (leaveWait m s).modAx m fun a => { a with motion := a.motion.map fun x => { x with turn := none } }
theorem leaveWait_kept (m : Nat) (s : State) : KeptBut [.st, .pool, .yar] s (leaveWait m s) := by
  have hdrop : KeptBut [.yar] s (if (s.stn m).wait.isSome then dropCharge m s else s) := by
    split
    · exact dropCharge_kept m s
    · exact KeptBut.refl _ s
  exact (hdrop.mono (by simp)).trans (((modStn_kept _ m _).mono (by simp)).trans ((markOps_kept m _).mono (by simp)))
theorem leaveWait_stn (m k : Nat) (s : State) : (leaveWait m s).stn k = if k = m then { s.stn m with wait := none } else s.stn k := by
  have hdrop : ∀ j, (if (s.stn m).wait.isSome then dropCharge m s else s).stn j = s.stn j := fun j => by
    split
    · exact (dropCharge_kept m s).stn (by simp) j
    · rfl
  unfold leaveWait endWait
  rw [(markOps_kept m _).stn (by simp), stn_modStn, hdrop, hdrop]
theorem unwaited_kept (m : Nat) (s : State) : KeptBut [.st, .pool, .yar] s (unwaited m s) :=
  (leaveWait_kept m s).trans ((modAx_kept _ m _).mono (by simp))
theorem unwaited_stn (m k : Nat) (s : State) : (unwaited m s).stn k = if k = m then
    { s.stn m with wait := none, axis := { s.ax m with motion := (s.ax m).motion.map fun x => { x with turn := none } } } else s.stn k := by
  unfold unwaited
  rw [stn_modAx, leaveWait_stn, leaveWait_stn]
  split
  · rw [if_pos rfl]
    rfl
  · rfl
theorem unwaited_turn (m : Nat) (s : State) : turnOf ((unwaited m s).ax m) = none := by
  unfold State.ax
  rw [unwaited_stn, if_pos rfl]
  cases (s.ax m).motion <;> simp [turnOf]

/-- A motion's command gives up its segment slots. -/
def slotsGiven (i : Nat) (s : State) : State :=
  match s.opOf i with
  | none => s
  | some o => releaseSlots o.segs (s.modOp o.id fun o => { o with segs := [] })
theorem slotsGiven_kept (i : Nat) (s : State) : KeptBut [.pool, .work, .jrn, .ops] s (slotsGiven i s) := by
  unfold slotsGiven
  split
  · exact KeptBut.refl _ s
  · exact ((modOp_kept s _ _).mono (by simp)).trans ((releaseSlots_kept _ _).mono (by simp))

/-- A session's motion is to be held; its segment slots are released. -/
theorem stopAxis_command {hard : Bool} {m i : Nat} {x : Motion} {s : State} (hx : (s.ax m).motion = some x) (hph : x.phase ≠ .held)
    (hop : x.op = some i) : stopAxis hard m s = halted hard m x.dec .hold (unwaited m (slotsGiven i s)) := by
  have hend : stopEnding s m x = .hold := by simp [stopEnding, hop]
  simp only [stopAxis, hx, if_neg hph, hend, hop]
  rfl
/-- A leaf on its way is held by its state; its motion ends for good. -/
theorem stopAxis_leaf {hard : Bool} {m : Nat} {x : Motion} {s : State} (hx : (s.ax m).motion = some x) (hph : x.phase ≠ .held) (hop : x.op = none)
    (hl : isLeaf s m = true) (hmoves : leafMoves (s.stn m).leaf = true) :
    stopAxis hard m s = halted hard m x.dec .done (unwaited m (stopLeaf m s)) := by
  have hend : stopEnding s m x = .done := by simp [stopEnding, hop, hl]
  simp only [stopAxis, hx, if_neg hph, hend, hop, Option.isNone_none, if_true, if_pos (And.intro hl hmoves), Option.bind_none]
  rfl
/-- A session's motion that STOP reaches stops, or is held, with its target; its station waits no longer (R152, R307). -/
structure AxisHalts (m : Nat) (x : Motion) (s u : State) : Prop where
  motion : ∃ y, (u.ax m).motion = some y ∧ (y.phase = .stopping ∨ y.phase = .held) ∧ y.target = x.target
  wait : (u.stn m).wait = none
  others : ∀ k, k ≠ m → u.stn k = s.stn k
  sends : Sends s u
theorem stopAxis_halts {hard : Bool} {m i : Nat} {x : Motion} {s : State} (hx : (s.ax m).motion = some x) (hph : x.phase ≠ .held)
    (hop : x.op = some i) (hl : isLeaf s m = false) : AxisHalts m x s (stopAxis hard m s) := by
  rw [stopAxis_command hx hph hop]
  have hslots := slotsGiven_kept i s
  have hstn := hslots.stn (by simp)
  generalize slotsGiven i s = v at hslots hstn ⊢
  have hun := unwaited_kept m v
  have hleaf : isLeaf (unwaited m v) m = false := (isLeaf_congr ((siteView_congr hun).trans (siteView_congr hslots)) m).trans hl
  have hown := unwaited_stn m m v
  rw [if_pos rfl] at hown
  have hmotion : ((unwaited m v).ax m).motion = some { x with turn := none } := by
    unfold State.ax
    rw [hown, show v.ax m = s.ax m by unfold State.ax; rw [hstn], hx]
    rfl
  have hwait : ((unwaited m v).stn m).wait = none := by rw [hown]
  have hwork := AxisWork.halted hard x.dec .hold (unwaited_turn m v) hwait fun hlf => by rw [hleaf] at hlf; cases hlf
  exact ⟨halted_holds (x := { x with turn := none }) hard x.dec hmotion rfl hleaf, hwork.wait.trans hwait,
    fun k hne => by rw [hwork.others k hne, unwaited_stn, if_neg hne, hstn],
    (((Sends.refl s).of_kept hslots).of_kept hun).trans hwork.sends⟩
/-- What has no motion, and no leaf on its way, STOP leaves alone. -/
theorem stopAxis_idle {hard : Bool} {m : Nat} {s : State} (hx : (s.ax m).motion = none)
    (hl : isLeaf s m = true → leafMoves (s.stn m).leaf = false) : stopAxis hard m s = s := by
  simp only [stopAxis, hx]
  exact if_neg fun h => by simp [hl h.1] at h

/-! ## A leaf is HELD with its target (R174, R175) -/

/-- No station's kept target has changed. -/
def TargetsStay (s u : State) : Prop := ∀ k, (u.stn k).kept = (s.stn k).kept

namespace TargetsStay

variable {s u v : State}

theorem refl (s : State) : TargetsStay s s := fun _ => rfl
theorem books (h : TargetsStay s u) (g : Books u v) : TargetsStay s v := fun k => by rw [g.kept.stn (by decide)]; exact h k
theorem ite {c : Prop} {_ : Decidable c} (hu : TargetsStay s u) (hv : TargetsStay s v) : TargetsStay s (if c then u else v) := by split <;> assumption
theorem modStn {m : Nat} {f : Station → Station} (h : TargetsStay s u) (hf : ∀ t, (f t).kept = t.kept := by exact fun _ => rfl) :
    TargetsStay s (u.modStn m f) := fun k => by
  rw [stn_modStn]
  split
  · next hk => rw [hf, hk]; exact h _
  · exact h k
theorem ask {m : Nat} {w : Sw} {c : LoadCmd} (h : TargetsStay s u) : TargetsStay s (ask m w c u) := h.modStn
theorem askOn {m : Nat} {w : Sw} (h : TargetsStay s u) : TargetsStay s (askOn m w u) := h.ask.modStn
theorem leafLamp {m : Nat} (h : TargetsStay s u) : TargetsStay s (leafLamp m u) := by
  unfold Machine.leafLamp
  split
  · exact h
  · exact h.ask
theorem doorFeed {m : Nat} {b : Bool} (h : TargetsStay s u) : TargetsStay s (doorFeed m b u) := by
  unfold Machine.doorFeed
  dsimp only
  split
  · exact ite h.askOn h.ask
  · exact ite (ite (ite h.askOn h.ask).askOn (ite h.askOn h.ask).ask) (ite h.askOn h.ask)
theorem clearTimers {m : Nat} (h : TargetsStay s u) : TargetsStay s (clearTimers m u) := h.modStn.books (Books.refl _).sysDrop.sysDrop.sysDrop
theorem disarm {m : Nat} (h : TargetsStay s u) : TargetsStay s (disarm m u) := h.modStn.books (Books.refl _).sysDrop.sysDrop
theorem leaveWait {m : Nat} (h : TargetsStay s u) : TargetsStay s (leaveWait m u) :=
  (modStn (ite (h.books (Books.refl _).dropCharge) h)).books (Books.refl _).markOps
theorem setLeaf {m : Nat} {x : Leaf} (h : TargetsStay s u) : TargetsStay s (setLeaf m x u) := by
  have h1 := h.modStn (m := m) (f := fun t => { t with cycle := cycleTime (u.stn m) u.now, leaf := x, leafSince := u.now, closedMade := false })
  unfold Machine.setLeaf
  dsimp only
  refine (ite (modStn ?_) ?_).leafLamp.doorFeed
  all_goals
    refine ite (modStn ((disarm ?_).clearTimers.books (Books.refl _).sysDrop)) (books ?_ (Books.refl _).sysControl)
    all_goals exact ite (modStn ((ite h1.modStn h1).books (Books.refl _).record)) (ite h1.modStn h1)

end TargetsStay

/-- A leaf that stands held is HELD with the target it is given. -/
theorem holdLeaf_held (m : Nat) (b : Option Bool) (s : State) :
    ((holdLeaf m b s).stn m).leaf = .held ∧ ((holdLeaf m b s).stn m).kept = b := by
  unfold holdLeaf standHeld
  dsimp only
  constructor
  · rw [(LeafStays.setLeaf m .held _).leaf, stn_modStn, if_pos rfl]
  · rw [((TargetsStay.refl _).leaveWait.clearTimers.setLeaf) m, stn_modStn, if_pos rfl]
theorem stopLeaf_held (m : Nat) (s : State) :
    ((stopLeaf m s).stn m).leaf = .held ∧ ((stopLeaf m s).stn m).kept = some (decide ((s.stn m).leaf = .opening)) := holdLeaf_held m _ _

/-- A leaf on its way that STOP reaches is HELD with its target kept, and waits no longer (R175). -/
theorem stopAxis_leafHeld {hard : Bool} {m : Nat} {x : Motion} {s : State} (hx : (s.ax m).motion = some x) (hph : x.phase ≠ .held) (hop : x.op = none)
    (hl : isLeaf s m = true) (hmoves : leafMoves (s.stn m).leaf = true) :
    ((stopAxis hard m s).stn m).leaf = .held ∧ ((stopAxis hard m s).stn m).kept = some (decide ((s.stn m).leaf = .opening))
      ∧ ((stopAxis hard m s).stn m).wait = none := by
  rw [stopAxis_leaf hx hph hop hl hmoves]
  obtain ⟨hheld, hkept⟩ := stopLeaf_held m s
  generalize stopLeaf m s = v at hheld hkept ⊢
  have hown := unwaited_stn m m v
  rw [if_pos rfl] at hown
  have hwork := AxisWork.halted hard x.dec .done (unwaited_turn m v) (by rw [hown]) fun _ => by simp [hown, hheld]
  rw [hwork.leaf, hwork.keptTarget, hwork.wait, hown]
  exact ⟨hheld, hkept, rfl⟩

/-! ## STOP as a whole (R152) -/

/-- The state in which a STOP has begun its operation and said how many axes it stops. -/
def stopSaid (sts : StSel) (hard : Bool) (l : List Nat) (c : Ctx) (g : State) : State :=
  say c (colR "stopping" [.n l.length]) (startOp c (.stop sts hard) (.stopping l l.length) true g).2
theorem stopSaid_view (sts : StSel) (hard : Bool) (l : List Nat) (c : Ctx) (g : State) : axisView (stopSaid sts hard l c g) = axisView g :=
  axisView_congr (l := [.pool, .work, .jrn, .ops, .ids, .sess, .sup]) (((startOp_kept c _ _ true g).mono (by simp)).trans ((say_kept c _ _).mono (by simp)))
theorem stn_congr {s u : State} (h : axisView u = axisView s) (m : Nat) : u.stn m = s.stn m := axis_congr h (f := (·.stn m)) fun _ => rfl
theorem isLeaf_axis {s u : State} (h : axisView u = axisView s) (m : Nat) : isLeaf u m = isLeaf s m := axis_congr h (f := (isLeaf · m)) fun _ => rfl
theorem axNamed_congr {s u : State} (h : axisView u = axisView s) (sts : StSel) : axNamed u sts = axNamed s sts :=
  axis_congr h (f := (axNamed · sts)) fun _ => rfl
/-- STOP of one axis that has motion. -/
theorem stopSpec_one {sts : StSel} {hard : Bool} {m : Nat} {x : Motion} {c : Ctx} {g : State} (hone : axNamed g sts = [m])
    (hx : (g.ax m).motion = some x) (hph : x.phase ≠ .held) : (stopSpec sts hard).run c g = stopAxis hard m (stopSaid sts hard [m] c g) := by
  have hl : (axNamed g sts).filter (stoppable g) = [m] := by simp [hone, stoppable, hx, hph]
  have hnamed := (axNamed_congr (stopSaid_view sts hard [m] c g) sts).trans hone
  have hrun : (stopSpec sts hard).run c g = forEach (axNamed (stopSaid sts hard [m] c g) sts) (stopAxis hard) (stopSaid sts hard [m] c g) := by
    simp only [stopSpec, runStop, hl]
    rfl
  rw [hrun, hnamed]
  rfl
/-- STOP that finds nothing to stop. -/
theorem stopSpec_none {sts : StSel} {hard : Bool} {c : Ctx} {g : State}
    (hnone : ∀ m ∈ axNamed g sts, (g.ax m).motion = none ∧ (isLeaf g m = true → leafMoves (g.stn m).leaf = false)) :
    (stopSpec sts hard).run c g = finOp g.nextOp (eqR "stop" [.n 0]) (stopSaid sts hard [] c g) := by
  have hl : (axNamed g sts).filter (stoppable g) = [] := List.filter_eq_nil_iff.2 fun m hm => by simp [stoppable, (hnone m hm).1]
  have hview := stopSaid_view sts hard [] c g
  have hrun : (stopSpec sts hard).run c g = finOp g.nextOp (eqR "stop" [.n 0])
      (forEach (axNamed (stopSaid sts hard [] c g) sts) (stopAxis hard) (stopSaid sts hard [] c g)) := by
    simp only [stopSpec, runStop, hl]
    rfl
  rw [hrun, axNamed_congr hview, forEach_same fun m hm => ?_]
  obtain ⟨hidle, hstill⟩ := hnone m hm
  refine stopAxis_idle ?_ fun hlf => ?_
  · rw [ax_congr hview]
    exact hidle
  · rw [stn_congr hview]
    exact hstill ((isLeaf_axis hview m).symm.trans hlf)
/-- A session's own operation ends with its final reply (R50, R101). -/
theorem finOp_own {n : Nat} {o : Op} {s u : State} {sent : List Reply} {r : Reply} (hr : r.pre ≠ .tilde) (hs : Heard n s u sent)
    (ho : (s.ses n).st = .opn) (hb : (s.ses n).heldBack = []) (hu : u.opOf o.id = some o) (hp : o.port = .session n) (hw : o.within = none) :
    Heard n s (finOp o.id r u) (sent ++ [sentTo s n o.tag r]) ∧ (finOp o.id r u).ops = u.ops.filter (·.id ≠ o.id)
      ∧ KeptBut [.sess, .pool, .work, .ops, .jrn] u (finOp o.id r u) := by
  have hrun : finOp o.id r u = fin o.ctx r (dropOp o u) := by simp only [finOp, hu]
  have hdrop := dropOp_kept o u
  obtain ⟨hheard, hfin⟩ := (hs.of_kept hdrop (by simp)).fin (c := o.ctx) (r := r) ho hb hr hp hw
  rw [hrun]
  exact ⟨hheard, (hfin .ops (by simp)).trans (dropOp_ops o u), (hdrop.mono (by simp)).trans (hfin.mono (by simp))⟩
/-- A line's own operation that ends in the same instant leaves the operations as they were (R50). -/
theorem Started.over {n : Nat} {l : Line} {v : Verb} {p : Prog} {s g u : State} {sent : List Reply} {r : Reply} (h : Started n l v p s u)
    (hg : LineReady n l s g) (hid : idsFresh s) (hs : Heard n s u sent) (hr : r.pre ≠ .tilde) :
    Heard n s (finOp s.nextOp r u) (sent ++ [shown s n l r]) ∧ (finOp s.nextOp r u).ops = s.ops
      ∧ KeptBut [.sess, .pool, .work, .ops, .jrn] u (finOp s.nextOp r u) := by
  obtain ⟨segs, hfound⟩ := h.found hid
  obtain ⟨held, hops⟩ := h.ops
  obtain ⟨hheard, hleft, hkept⟩ := finOp_own (o := commandOp l s v p segs) hr hs hg.opn hg.free hfound hg.port rfl
  refine ⟨hheard, hleft.trans ?_, hkept⟩
  have hold : s.ops.filter (·.id ≠ s.nextOp) = s.ops := List.filter_eq_self.2 fun q hq => decide_eq_true (Nat.ne_of_lt (hid q hq))
  rw [hops, List.filter_append, show (commandOp l s v p segs).id = s.nextOp from rfl, hold]
  simp [commandOp, startedOp]

/-! ## RESUME (R154, R175) -/

theorem resumed_congr {s u : State} (h : axisView u = axisView s) (sts : StSel) :
    (axNamed u sts).filter (resumable u) = (axNamed s sts).filter (resumable s) :=
  axis_congr h (f := fun v => (axNamed v sts).filter (resumable v)) fun _ => rfl
theorem resumeSpec_none {sts : StSel} {c : Ctx} {g : State} (hnone : (axNamed g sts).filter (resumable g) = []) :
    (resumeSpec sts).run c g = fin c (eqR "resume" [.n 0]) g := by
  simp only [resumeSpec, runResume, hnone]
  rfl
theorem resumeSpec_one {sts : StSel} {m : Nat} {c : Ctx} {g : State} (hone : (axNamed g sts).filter (resumable g) = [m]) :
    (resumeSpec sts).run c g = resumeAxis m (say c (colR "resuming" [.n 1]) (startOp c (.resume sts) (.resuming [m] 1) true g).2) := by
  simp only [resumeSpec, runResume, hone]
  rfl
/-- What a held motion's command takes for its new profile (R139, R154). -/
def resumeSlots (m : Nat) (x : Motion) (s : State) : State :=
  match x.op with
  | none => s
  | some i => takeSegs i m (resumeTypes s m) (if x.after.isSome then [] else motionPlan s m x) s
theorem resumeSlots_kept (m : Nat) (x : Motion) (s : State) : KeptBut [.pool, .work, .jrn, .ops] s (resumeSlots m x s) := by
  unfold resumeSlots
  split
  · exact KeptBut.refl _ s
  · exact (takeSegs_taken _ m _ _ s).kept
theorem resumeAxis_held {m : Nat} {x : Motion} {s : State} (hx : (s.ax m).motion = some x) (hph : x.phase = .held) :
    resumeAxis m s = beginWait m x.cls .command false ((resumeSlots m x s).modAx m fun a => { a with
      motion := some { x with phase := .waiting, ending := none, d := ((resumeSlots m x s).stn m).derate } }) := by
  simp only [resumeAxis, hx, hph]
  rfl
theorem resumeAxis_leaf {m : Nat} {b : Bool} {s : State} (hx : (s.ax m).motion = none) (hkept : (s.stn m).kept = some b) :
    resumeAxis m s = beginWait m (if b then 2 else 1) .command b (s.modStn m fun t => { t with why := .command }) := by
  simp only [resumeAxis, hx, hkept]
  rfl

/-- Settles O25: STOP of one axis gives up its wait (`unwaited_stn`) and ends its train, which touches its axis alone and sends lines
(`AxisWork.halted`): a session's motion halts (`stopAxis_halts`), a leaf is HELD (`stopAxis_leafHeld`); RESUME begins a wait (`resumeAxis_leaf`,
`resumeAxis_held`). -/
theorem stopAndResume : Obligations.StopAndResume := by
  refine ⟨⟨fun l sts hard n s h hnone hid => does_of_taken h rfl ?_, fun l sts hard m i n x s h hone hx hph hop hl => does_of_taken h rfl ?_,
    fun l sts hard m n x s h hone hx hph hop hl hmoves => does_of_taken h rfl ?_⟩, fun l sts n s h hnone => does_of_taken h rfl ?_,
    fun l sts m n b s h hone hx hkept => does_of_taken h rfl ?_, fun l sts m n x s h hone hx hph => does_of_taken h rfl ?_⟩
  · have hin := lineReady_of_taken h
    have hk := lineGo_kept_plain n l (stopSpec sts hard) s hin.port rfl
    generalize lineGo n l (stopSpec sts hard) s = g at hin hk ⊢
    have hview := axisView_congr hk
    have hidle : ∀ m ∈ axNamed g sts, (g.ax m).motion = none ∧ (isLeaf g m = true → leafMoves (g.stn m).leaf = false) := fun m hm => by
      rw [ax_congr hview, isLeaf_axis hview, stn_congr hview]
      exact hnone m (by rwa [axNamed_congr hview] at hm)
    rw [stopSpec_none hidle, hin.next]
    obtain ⟨hstarted, hheard, hw⟩ := hin.begun (ps := .pool :: .ops :: heardParts) (hk.mono (by decide)) (.stop sts hard) (.stopping [] 0)
      (r := colR "stopping" [.n 0]) (by simp [colR])
    obtain ⟨hover, hops, hend⟩ := hstarted.over hin hid hheard (r := eqR "stop" [.n 0]) (by simp [eqR])
    exact ⟨hover.out, hops, hover.others, hw.trans (hend.mono (by decide))⟩
  · have hin := lineReady_of_taken h
    have hk := lineGo_kept_plain n l (stopSpec sts hard) s hin.port rfl
    generalize lineGo n l (stopSpec sts hard) s = g at hin hk ⊢
    have hview := axisView_congr hk
    rw [stopSpec_one ((axNamed_congr hview sts).trans hone) (by rw [ax_congr hview]; exact hx) hph]
    obtain ⟨-, hheard, hw⟩ := hin.begun (ps := .pool :: .ops :: heardParts) (hk.mono (by decide)) (.stop sts hard) (.stopping [m] 1)
      (r := colR "stopping" [.n 1]) (by simp [colR])
    change Heard n s (stopSaid sts hard [m] (lineCtx l s) g) _ at hheard
    change KeptBut _ s (stopSaid sts hard [m] (lineCtx l s) g) at hw
    generalize stopSaid sts hard [m] (lineCtx l s) g = w at hheard hw ⊢
    have hall := axisView_congr hw
    obtain ⟨hmotion, hwait, hothers, hsends⟩ := stopAxis_halts (hard := hard) (by rw [ax_congr hall]; exact hx) hph hop ((isLeaf_axis hall m).trans hl)
    obtain ⟨r, hr⟩ := hsends n
    refine ⟨hmotion, hwait, fun k hne => (hothers k hne).trans (stn_congr hall k), r, ?_⟩
    rw [hr, hheard.out]
    simp
  · have hin := lineReady_of_taken h
    have hk := lineGo_kept_plain n l (stopSpec sts hard) s hin.port rfl
    generalize lineGo n l (stopSpec sts hard) s = g at hin hk ⊢
    have hview := axisView_congr hk
    rw [stopSpec_one ((axNamed_congr hview sts).trans hone) (by rw [ax_congr hview]; exact hx) hph]
    have hall := (stopSaid_view sts hard [m] (lineCtx l s) g).trans hview
    generalize stopSaid sts hard [m] (lineCtx l s) g = w at hall ⊢
    rw [← stn_congr hall]
    exact stopAxis_leafHeld (by rw [ax_congr hall]; exact hx) hph hop ((isLeaf_axis hall m).trans hl) (by rw [stn_congr hall]; exact hmoves)
  · have hk := lineGo_kept_plain n l (resumeSpec sts) s (taken_port h) rfl
    rw [resumeSpec_none ((resumed_congr (axisView_congr hk) sts).trans hnone)]
    obtain ⟨ha, hothers, hfin⟩ := go_answers (r := eqR "resume" [.n 0]) h (by simp [eqR]) (KeptBut.refl _ _)
    exact ⟨ha, hothers, hk.trans (hfin.mono (by decide))⟩
  · have hin := lineReady_of_taken h
    have hk := lineGo_kept_plain n l (resumeSpec sts) s hin.port rfl
    generalize lineGo n l (resumeSpec sts) s = g at hin hk ⊢
    rw [resumeSpec_one ((resumed_congr (axisView_congr hk) sts).trans hone)]
    obtain ⟨hstarted, hheard, hw⟩ := hin.begun (ps := .pool :: .ops :: heardParts) (hk.mono (by decide)) (.resume sts) (.resuming [m] 1)
      (r := colR "resuming" [.n 1]) (by simp [colR])
    generalize say (lineCtx l s) _ _ = w at hstarted hheard hw ⊢
    have hstn := hw.stn (by decide)
    rw [resumeAxis_leaf (by unfold State.ax; rw [hstn]; exact hx) (by rw [hstn]; exact hkept)]
    have hset := modStn_kept w m fun t => { t with why := .command }
    have hown : ∀ k, (w.modStn m fun t => { t with why := .command }).stn k = if k = m then { s.stn m with why := .command } else s.stn k := fun k => by
      rw [stn_modStn, hstn, hstn]
    have hstarted := hstarted.of_kept hset (by simp) (by simp)
    generalize (w.modStn m fun t => { t with why := .command }) = v at hset hown hstarted ⊢
    obtain ⟨hstn, hall⟩ := beginWait_own (cls := if b then 2 else 1) (b := b) (l := .st :: .pool :: .ops :: heardParts)
      ((hw.mono (by decide)).trans (hset.mono (by decide))) hown
    have hheard := (hheard.of_kept hset (by simp)).of_kept (beginWait_kept m (if b then 2 else 1) .command b v) (by simp)
    refine ⟨?_, ?_, ((hstarted.of_kept (modStn_kept v m _) (by simp) (by simp)).markOps m).placed, hheard.out, fun k hne => by rw [hstn, if_neg hne],
      hheard.others, hall⟩
    all_goals rw [hstn, if_pos rfl]
  · have hin := lineReady_of_taken h
    have hk := lineGo_kept_plain n l (resumeSpec sts) s hin.port rfl
    generalize lineGo n l (resumeSpec sts) s = g at hin hk ⊢
    rw [resumeSpec_one ((resumed_congr (axisView_congr hk) sts).trans hone)]
    obtain ⟨-, hheard, hw⟩ := hin.begun (ps := .pool :: .ops :: heardParts) (hk.mono (by decide)) (.resume sts) (.resuming [m] 1)
      (r := colR "resuming" [.n 1]) (by simp [colR])
    generalize say (lineCtx l s) _ _ = w at hheard hw ⊢
    rw [resumeAxis_held (by unfold State.ax; rw [hw.stn (by decide)]; exact hx) hph]
    have hslots := resumeSlots_kept m x w
    have hv : KeptBut (.pool :: .ops :: heardParts) s (resumeSlots m x w) := hw.trans (hslots.mono (by decide))
    have hheard := hheard.of_kept hslots (by simp)
    generalize resumeSlots m x w = v at hv hheard ⊢
    rw [hv.stn (by decide) m]
    generalize hf : (fun a : Axis => { a with motion := some { x with phase := .waiting, ending := none, d := (s.stn m).derate } }) = f
    have hset := modAx_kept v m f
    have hown : ∀ k, (v.modAx m f).stn k = if k = m then { s.stn m with axis := f (s.stn m).axis } else s.stn k := fun k => by
      rw [stn_modAx, hv.stn (by decide), hv.stn (by decide)]
    obtain ⟨hstn, hall⟩ := beginWait_own (cls := x.cls) (b := false) (l := .st :: .pool :: .ops :: heardParts)
      ((hv.mono (by decide)).trans (hset.mono (by decide))) hown
    have hheard := (hheard.of_kept hset (by simp)).of_kept (beginWait_kept m x.cls .command false _) (by simp)
    refine ⟨?_, hheard.out, ?_, fun k hne => by rw [hstn, if_neg hne], hheard.others, hall⟩
    · rw [hstn, if_pos rfl]
    · rw [State.ax, hstn, if_pos rfl, ← hf]

end Sys2Proof.Machine
end

section
-- One declaration at a time: the whole text elaborated side by side outgrows the memory a check may take.
set_option Elab.async false
/-! SUPPORT. The door cycle at work on one leaf: which parts of its station become what, while beside the books no station but its own and its
step's is touched, and no turn is made that was not to be made. -/

namespace Sys2Proof.Machine

open Sys2Proof

/-! ## The part of a station that the leaf's states are about (R174, R175) -/

/-- A station without its part of the frame buffer, its cycle's record, its samples and profiles, and its axis's train. -/
def doorPart (t : Station) : Station :=
  { t with
    leafSince := 0, clean := false, points := [], traverses := [], learnedOpen := [], learnedClose := [], boundsOpen := [], boundsClose := []
    boundTold := false, buf := {}, cycle := {}, axis := { pos := t.axis.pos, referenced := t.axis.referenced } }

/-- A station whose leaf's timers are off. -/
@[simp] def untimed (t : Station) : Station := { t with unlockT := none, lockT := none, finalT := none, rdwell := none, autoT := none }
/-- A station whose force detection is off. -/
@[simp] def disarmed (t : Station) : Station := { t with armed := false, forceSince := none }
/-- A leaf state that ends a cycle (R450). -/
@[simp] def endsCycle (x : Leaf) : Bool := decide (x = .closedLocked ∨ x = .fault ∨ x = .isolated)
/-- A station whose leaf has taken a state (R175). -/
@[simp] def entered (x : Leaf) (t : Station) : Station :=
  let t := { t with leaf := x, closedMade := false }
  let t := if endsCycle x then { untimed (disarmed t) with stowT := none } else t
  if x = .opn ∨ x = .closedLocked then { t with obstacle := false } else t

/-- The door cycle has worked on one leaf, whose station is now, but for its buffer, its record, its samples and its train, the one given. -/
structure LeafWork (n : Nat) (t : Station) (s u : State) : Prop where
  drives : Drives s u
  others : otherButStep n s u
  parts : ∀ m, doorPart (u.stn m) = doorPart (if m = n then t else s.stn m)
  turn : turnOf (s.ax n) = none → turnOf (u.ax n) = none

theorem fillAx_reference (a b k c : Nat) (x : Axis) :
    (fillAx a b k c x).2.pos = x.pos ∧ (fillAx a b k c x).2.referenced = x.referenced := by
  induction k generalizing c x with
  | zero => exact ⟨rfl, rfl⟩
  | succ k ih =>
    unfold fillAx
    split
    · exact ⟨rfl, rfl⟩
    split
    · exact ⟨rfl, rfl⟩
    split
    · exact ⟨rfl, rfl⟩
    · exact ih _ _

namespace LeafWork

variable {n m : Nat} {t t' : Station} {s u v : State}

open LeafStays (At)

theorem refl (n : Nat) (s : State) : LeafWork n (s.stn n) s s where
  drives := Drives.refl s
  others _ _ _ := rfl
  parts m := by
    split
    · next h => rw [h]
    · rfl
  turn := id
theorem trans (h : LeafWork n t s u) (g : LeafWork n t' u v) : LeafWork n t' s v where
  drives := h.drives.trans g.drives
  others m hm hk := (g.others m hm (by rwa [stepStation_congr h.drives.site])).trans (h.others m hm hk)
  parts m := by
    have hg := g.parts m
    have hh := h.parts m
    split
    · next hm => rwa [if_pos hm] at hg
    · next hm =>
      rw [if_neg hm] at hg hh
      exact hg.trans hh
  turn := g.turn ∘ h.turn
theorem own (h : LeafWork n t s u) : doorPart (u.stn n) = doorPart t := (h.parts n).trans (by rw [if_pos rfl])
theorem books (h : LeafWork n t s u) (g : Books u v) : LeafWork n t s v where
  drives := h.drives.books g
  others m hm hk := (g.kept.stn (by decide) m).trans (h.others m hm hk)
  parts m := by rw [g.kept.stn (by decide) m]; exact h.parts m
  turn ht := by unfold State.ax; rw [g.kept.stn (by decide) n]; exact h.turn ht
/-- What is read of a station beside its buffer, its record, its samples and its train. -/
theorem field {α : Type} (h : LeafWork n t s u) (g : Station → α) (hg : ∀ a, g (doorPart a) = g a := by intro; rfl) : g (u.stn n) = g t := by
  rw [← hg (u.stn n), h.own, hg]
theorem pos (h : LeafWork n t s u) : (u.ax n).pos = t.axis.pos := h.field (α := Int) fun t => t.axis.pos
theorem referenced (h : LeafWork n t s u) : (u.ax n).referenced = t.axis.referenced := h.field (α := Bool) fun t => t.axis.referenced
theorem reshape (h : LeafWork n t s u) (ht : doorPart t = doorPart t') : LeafWork n t' s u :=
  ⟨h.drives, h.others, fun m => (h.parts m).trans (by split <;> simp [ht]), h.turn⟩
theorem choose {c : Prop} {_ : Decidable c} (hu : LeafWork n t s u) (hv : LeafWork n t' s v) :
    LeafWork n (if c then t else t') s (if c then u else v) := by split <;> assumption
theorem ite {c : Prop} {_ : Decidable c} (hu : LeafWork n t s u) (hv : LeafWork n t s v) : LeafWork n t s (if c then u else v) := by
  split <;> assumption

/-! ## A station changed -/

/-- The leaf's station is changed, but not in its axis's turn. -/
theorem modStn {f : Station → Station} (h : LeafWork n t s u) (hf : ∀ a, doorPart (f a) = doorPart (f (doorPart a)) := by intro; rfl)
    (hturn : ∀ a, turnOf a.axis = none → turnOf (f a).axis = none := by exact fun _ => id) : LeafWork n (f t) s (u.modStn n f) where
  drives := h.drives.modStn
  others m hm hk := by rw [stn_modStn, if_neg hm]; exact h.others m hm hk
  parts m := by
    rw [stn_modStn]
    split
    · rw [hf, h.own, ← hf]
    · next hm => rw [h.parts m, if_neg hm]
  turn ht := by
    unfold State.ax
    rw [stn_modStn, if_pos rfl]
    exact hturn _ (h.turn ht)
/-- A change of a station that the door cycle reaches from its leaf, in what is not followed here. -/
theorem aside {f : Station → Station} (h : LeafWork n t s u) (hm : At n m s) (hf : doorPart (f (u.stn m)) = doorPart (u.stn m))
    (hturn : turnOf (s.ax m) = none → turnOf (u.ax m) = none → turnOf (f (u.stn m)).axis = none) : LeafWork n t s (u.modStn m f) where
  drives := h.drives.modStn
  others k hk hstep := by
    rw [stn_modStn, if_neg]
    · exact h.others k hk hstep
    · rintro rfl
      exact hm.elim hk hstep
  parts k := by
    rw [stn_modStn]
    split
    · next hk => rw [hf, hk]; exact h.parts m
    · exact h.parts k
  turn ht := by
    unfold State.ax
    rw [stn_modStn]
    split
    · next hk => subst hk; exact hturn ht (h.turn ht)
    · exact h.turn ht
theorem at_step (h : LeafWork n t s u) (hm : stepStation u n = some m) : At n m s := .inr (by rwa [stepStation_congr h.drives.site] at hm)
theorem modAx {f : Axis → Axis} (h : LeafWork n t s u) (hm : At n m s)
    (hf : (f (u.ax m)).pos = (u.ax m).pos ∧ (f (u.ax m)).referenced = (u.ax m).referenced)
    (hturn : turnOf (s.ax m) = none → turnOf (u.ax m) = none → turnOf (f (u.ax m)) = none) : LeafWork n t s (u.modAx m f) := by
  obtain ⟨hpos, href⟩ := hf
  refine h.aside hm ?_ hturn
  unfold State.ax at hpos href
  simp only [doorPart, hpos, href]
theorem modBuf {f : FrameBuf → FrameBuf} (h : LeafWork n t s u) (hm : At n m s) : LeafWork n t s (u.modBuf m f) := h.aside hm rfl fun _ => id

/-! ## The step train (R134 to R142) -/

theorem refill (h : LeafWork n t s u) (hm : At n m s) : LeafWork n t s (refill m u) :=
  (h.modAx hm (fillAx_reference _ _ 64 0 (u.ax m)) fun _ ht => (fillAx_turn _ _ 64 0 (u.ax m)).trans ht).books (Books.refl _).worked
theorem loadNext (h : LeafWork n t s u) (hm : At n m s) : LeafWork n t s (loadNext m u) := by
  unfold Machine.loadNext
  dsimp only
  split
  · exact h
  split
  · exact h
  split
  · exact h
  · have hd : LeafWork n t s (if overloaded u = true then u.draw else (0, u)).2 := by
      split
      · exact h.books (Books.refl u).draw
      · exact h
    refine ((hd.modAx hm ⟨rfl, rfl⟩ fun _ ht => ?_).books (Books.refl _).releaseStarted).refill hm
    refine Eq.trans ?_ ht
    exact turnOf_map fun _ => rfl
theorem setCourse {l : List Seg} {f : Motion → Motion} (h : LeafWork n t s u) (hm : At n m s) (hf : ∀ x, x.turn = none → (f x).turn = none) :
    LeafWork n t s (setCourse m l f u) := by
  have h1 : LeafWork n t s (u.modAx m fun a => { a with
      ahead := [], moving := true
      motion := a.motion.map fun x => f { x with segs := l, k := 0, t0 := baseTick u m * subTick, lastEdge := baseTick u m } }) := by
    refine h.modAx hm ⟨rfl, rfl⟩ fun _ ht => ?_
    unfold turnOf at ht ⊢
    cases hx : (u.ax m).motion with
    | none => rfl
    | some x => rw [hx] at ht; exact hf _ ht
  exact ((ite (h1.books (Books.refl _).leafSegs) h1).refill hm).loadNext hm
theorem rampStop {d : Nat} {e : Ending} (h : LeafWork n t s u) (hm : At n m s) : LeafWork n t s (rampStop m d e u) := by
  unfold Machine.rampStop
  dsimp only
  split
  · exact h
  next x hx =>
  have ht : ∀ y : Motion, y.turn = x.turn → turnOf (s.ax m) = none → turnOf (u.ax m) = none → some y >>= (·.turn) = none := fun y hy _ ht => by
    simpa [turnOf, hx, hy] using ht
  exact ite (h.modAx hm ⟨rfl, rfl⟩ (ht _ rfl)) (ite (h.modAx hm ⟨rfl, rfl⟩ (ht _ rfl)) (h.setCourse hm fun _ => id))
theorem hardStop {e : Ending} (h : LeafWork n t s u) : LeafWork n t s (hardStop n e u) :=
  h.modAx (.inl rfl) ⟨rfl, rfl⟩ fun _ ht => (turnOf_map (f := fun x => { x with segs := [], phase := .stopping, ending := some e }) fun _ => rfl).trans ht

/-! ## Waits (R300, R311) -/

theorem endWait (h : LeafWork n t s u) : LeafWork n { t with wait := none } s (endWait n u) :=
  (h.modStn (f := fun t => { t with wait := none })).books (Books.refl _).markOps
theorem leaveWait (h : LeafWork n t s u) : LeafWork n { t with wait := none } s (leaveWait n u) := (ite (h.books (Books.refl u).dropCharge) h).endWait
theorem beginWait {cls : Nat} {why : Why} {b : Bool} (h : LeafWork n t s u) :
    LeafWork n { t with wait := some { cls, since := s.now, why, opening := b } } s (beginWait n cls why b u) := by
  have hnow : u.now = s.now := site_congr h.drives.site (f := State.now) fun _ => rfl
  rw [← hnow]
  exact (h.modStn (f := fun t => { t with wait := some { cls, since := u.now, why, opening := b } })).books (Books.refl _).markOps
theorem askLeaf {b : Bool} {why : Why} (h : LeafWork n t s u) :
    LeafWork n { t with why, wait := some { cls := if b then 2 else 1, since := s.now, why, opening := b } } s (askLeaf n b why u) :=
  (h.modStn (f := fun t => { t with why })).beginWait

/-! ## The leaf's switches (R167, R169, R209) -/

theorem ask {w : Sw} {c : LoadCmd} (h : LeafWork n t s u) (hm : At n m s) : LeafWork n t s (ask m w c u) := h.modBuf hm
theorem askOn {w : Sw} (h : LeafWork n t s u) (hm : At n m s) : LeafWork n t s (askOn m w u) := (h.ask hm).modBuf hm
theorem askOut {a b : Bool} (h : LeafWork n t s u) : LeafWork n t s (askOut n a b u) := h.modBuf (.inl rfl)
theorem unlockOut {b : Bool} (h : LeafWork n t s u) : LeafWork n t s (unlockOut n b u) := h.askOut
theorem leafLamp (h : LeafWork n t s u) : LeafWork n t s (leafLamp n u) := by
  unfold Machine.leafLamp
  split
  · exact h
  · exact h.ask (.inl rfl)
theorem doorFeed {b : Bool} (h : LeafWork n t s u) : LeafWork n t s (doorFeed n b u) := by
  have hfeed : ∀ {k : Nat} {c : Prop} {_ : Decidable c} {x w}, LeafWork n t s w → At n k s →
      LeafWork n t s (if c then Machine.askOn k .fd w else Machine.ask k .fd x w) := fun hw hk => ite (hw.askOn hk) (hw.ask hk)
  unfold Machine.doorFeed
  dsimp only
  split
  · exact hfeed h (.inl rfl)
  next k hk => exact ite (hfeed (hfeed h (.inl rfl)) (at_step (hfeed h (.inl rfl)) hk)) (hfeed h (.inl rfl))

/-! ## The leaf's states (R174, R175) -/

theorem clearTimers (h : LeafWork n t s u) : LeafWork n (untimed t) s (clearTimers n u) :=
  (h.modStn (f := untimed)).books (Books.refl _).sysDrop.sysDrop.sysDrop
theorem disarm (h : LeafWork n t s u) : LeafWork n (disarmed t) s (disarm n u) := (h.modStn (f := disarmed)).books (Books.refl _).sysDrop.sysDrop
/-- A leaf takes a state. -/
theorem setLeaf (x : Leaf) (h : LeafWork n t s u) : LeafWork n (entered x t) s (setLeaf n x u) := by
  have h1 : LeafWork n { t with leaf := x, closedMade := false } s
      (u.modStn n fun t => { t with cycle := cycleTime (u.stn n) u.now, leaf := x, leafSince := u.now, closedMade := false }) :=
    (h.modStn (f := fun t => { t with cycle := cycleTime (u.stn n) u.now, leaf := x, leafSince := u.now, closedMade := false })).reshape rfl
  have hcycle : ∀ {a w} {f : Station → Cycle}, LeafWork n a s w → LeafWork n a s (w.modStn n fun t => { t with cycle := f t }) :=
    fun ha => ha.aside (.inl rfl) rfl fun _ => id
  unfold Machine.setLeaf entered
  dsimp only
  refine doorFeed (leafLamp (choose (modStn (f := fun t => { t with obstacle := false }) ?_) ?_))
  all_goals
    refine choose (modStn (f := fun t => { t with stowT := none }) ((clearTimers (disarm ?_)).books (Books.refl _).sysDrop))
      (books ?_ (Books.refl _).sysControl)
    all_goals exact ite (hcycle ((ite (hcycle h1) h1).books (Books.refl _).record)) (ite (hcycle h1) h1)

/-! ## A door command's part, and a learning run (R171, R184) -/

theorem doorFailed {e : Err} {c : String} (h : LeafWork n t s u) : LeafWork n { t with doorOp := none } s (doorFailed n e c u) := by
  have h1 := h.modStn (f := fun t => { t with doorOp := none })
  unfold Machine.doorFailed
  split
  · next hnone =>
    refine h.reshape ?_
    have := h.field Station.doorOp
    rw [hnone] at this
    rw [this]
  · refine h1.books ((Books.modOp (Books.refl _).sayOp fun o => ?_).finishDoor)
    split
    · exact .inl (by simp [NotSaving])
    · exact .inr rfl
theorem doorReached (h : LeafWork n t s u) : LeafWork n { t with doorOp := none } s (doorReached n u) := by
  have h1 := h.modStn (f := fun t => { t with doorOp := none })
  unfold Machine.doorReached
  split
  · next hnone =>
    refine h.reshape ?_
    have := h.field Station.doorOp
    rw [hnone] at this
    rw [this]
  · refine h1.books ((Books.modOp (Books.refl _) fun o => ?_).finishDoor)
    split
    · exact .inl (by simp [NotSaving])
    · exact .inr rfl
theorem learnFails {e : Err} (h : LeafWork n t s u) : LeafWork n { t with learning := none } s (learnFails n e u) := by
  have h1 : LeafWork n { t with learning := none } s (u.modStn n fun t => { t with learning := none, traverses := [], points := [] }) :=
    (h.modStn (f := fun t => { t with learning := none, traverses := [], points := [] })).reshape rfl
  unfold Machine.learnFails
  split
  · next hnone =>
    refine h.reshape ?_
    have := h.field Station.learning
    rw [hnone] at this
    rw [this]
  · exact h1.books (Books.refl _).failOp

end LeafWork
end Sys2Proof.Machine
end

section
-- One declaration at a time: the whole text elaborated side by side outgrows the memory a check may take.
set_option Elab.async false
/-! SUPPORT. What the door cycle's moves, its lock, its obstacles and its faults make of a leaf's station (R175 to R189). -/

namespace Sys2Proof.Machine

open Sys2Proof

/-- A station whose step has come to a state at an instant, with an end of STOWT (R182, R183). -/
@[simp] def stepping (x : StepSt) (since : Nat) (ends : Option Int) (t : Station) : Station := { t with step := x, stepSince := since, stowT := ends }
/-- A station whose leaf is CLOSED_LOCKED at 0 (R175, R179). -/
@[simp] def locked (x : StepSt) (t : Station) : Station :=
  let t := entered .closedLocked { t with
    stepRefs := false, attempts := 0, kept := none, atZone := false, reopened := false, cause := "", step := x }
  { t with axis := { t.axis with pos := 0, referenced := true }, wait := none, doorOp := none }
/-- A station whose leaf is in FAULT with a cause (R175). -/
@[simp] def faulted (cause : String) (t : Station) : Station :=
  { entered .fault { t with cause, kept := none, atZone := false, reopened := false, wait := none, learning := none } with
    stepRefs := false, doorOp := none }
/-- A station whose closing leaf has met an obstacle, to reopen to a position (R189). -/
@[simp] def reversed (goal : Int) (t : Station) : Station :=
  { entered .reversing (untimed (disarmed t)) with obstacle := true, reopened := false, reopenTo := goal, kept := some false }
/-- The station of a reversing leaf that stands: its wait is over, its command may have ended, and its step goes out (R181, R189). -/
@[simp] def reopening (w : Option Wait) (d : Option Nat) (r : Bool) (t : Station) : Station := { t with wait := w, doorOp := d, reopened := r }
/-- A station whose leaf is LOCKING since now (R178). -/
@[simp] def zoned (s : State) (n : Nat) (t : Station) : Station :=
  { disarmed (entered .locking t) with finalT := some (afterUs (s.stK n .FINALT).toNat s), atZone := false }
/-- A station whose leaf waits for LOCKSW since now (R178). -/
@[simp] def closedNow (s : State) (n : Nat) (t : Station) : Station :=
  { t with closedMade := true, finalT := none, lockT := some (afterUs (s.stK n .LOCKT).toNat s) }

/-- The slots of a closing leaf's lock zone and of its step are armed (R172). -/
def closingSlots (n : Nat) (s : State) : State :=
  let s := sysArm n 2 (.ax n) 2 (lockPos s n) s
  if stepOut1 s n then sysArm n 5 (.ax n) 2 (stCounts s n .STEPSTOW) s else s
theorem armClosing_eq (n : Nat) (s : State) : armClosing n s =
    if !((closingSlots n s).ax n).referenced ∨ ((closingSlots n s).ax n).pos < stCounts (closingSlots n s) n .OBSTARM then
      (closingSlots n s).modStn n fun t => { t with armed := true, forceSince := none }
    else sysArm n 3 (.ax n) 2 (stCounts (closingSlots n s) n .OBSTARM)
      ((closingSlots n s).modStn n fun t => { t with armed := false, forceSince := none }) := rfl

namespace LeafWork

variable {n m : Nat} {t t' : Station} {s u v : State}

open LeafStays (At)

/-! ## What a leaf reads (R167, R168) -/

theorem stK (h : LeafWork n t s u) (m : Nat) (k : Key) : u.stK m k = s.stK m k := site_congr h.drives.site (f := fun v => v.stK m k) fun _ => rfl
theorem counts (h : LeafWork n t s u) (m : Nat) (k : Key) : stCounts u m k = stCounts s m k := site_congr h.drives.site (f := (stCounts · m k)) fun _ => rfl
theorem afterUs (h : LeafWork n t s u) (k : Nat) : afterUs k u = afterUs k s := site_congr h.drives.site (f := (Machine.afterUs k ·)) fun _ => rfl
theorem isLeaf (h : LeafWork n t s u) (m : Nat) : isLeaf u m = isLeaf s m := isLeaf_congr h.drives.site m
theorem hasStep (h : LeafWork n t s u) (m : Nat) : hasStep u m = hasStep s m := site_congr h.drives.site (f := (Machine.hasStep · m)) fun _ => rfl
theorem inOn (h : LeafWork n t s u) (hi : t.inputs = (s.stn n).inputs) (m : Nat) (k : Key) : inOn u m k = inOn s m k := by
  have hk : swInput u m k = swInput s m k := site_congr h.drives.site (f := (swInput · m k)) fun _ => rfl
  have hin : (u.stn m).inputs = (s.stn m).inputs := by
    have := congrArg Station.inputs (h.parts m)
    rw [show (doorPart (u.stn m)).inputs = (u.stn m).inputs from rfl] at this
    rw [this]
    split
    · next hm => rw [hm]; exact hi
    · rfl
  unfold Machine.inOn Station.inp
  rw [hk, hin]
theorem bothMade (h : LeafWork n t s u) (hi : t.inputs = (s.stn n).inputs) (m : Nat) : bothMade u m = bothMade s m := by
  unfold Machine.bothMade
  rw [h.inOn hi, h.inOn hi]
theorem stepOk (h : LeafWork n t s u) (hi : t.inputs = (s.stn n).inputs) (m : Nat) : stepOk u m = stepOk s m := by
  unfold Machine.stepOk
  rw [h.inOn hi, h.hasStep]

/-! ## The leaf's step (R181 to R183) -/

theorem endSearch (h : LeafWork n t s u) : LeafWork n { t with stepRefs := false } s (endSearch n u) := by
  have h1 := (h.modStn (f := fun t => { t with stepRefs := false })).books ((Books.refl _).dropCharge (n := n))
  unfold Machine.endSearch
  dsimp only
  split
  · next hno =>
    refine h.reshape ?_
    have hstep := h.field Station.stepRefs
    rw [show (u.stn n).stepRefs = false by simpa using hno] at hstep
    rw [hstep]
  split
  · exact h1
  next k hk => exact ite (h1.rampStop (h1.at_step hk)) h1
theorem uncoupleStep (h : LeafWork n t s u) : LeafWork n { t with stepRefs := false } s (uncoupleStep n u) := by
  have h1 : LeafWork n { t with stepRefs := false } s (sysDrop n 6 (Machine.endSearch n u)) := h.endSearch.books (Books.refl _).sysDrop
  unfold Machine.uncoupleStep
  dsimp only
  split
  · exact h1
  next k hk =>
  split
  · exact ite (h1.rampStop (h1.at_step hk)) h1
  · exact h1
theorem coupleStep (h : LeafWork n t s u) : LeafWork n t s (coupleStep n u) := by
  unfold Machine.coupleStep
  split
  · next k _ hk _ =>
    refine ite h ((h.books (Books.refl u).sysHold).modAx (h.at_step hk) ⟨rfl, rfl⟩ fun _ _ => rfl)
  · exact h
theorem deployStep (h : LeafWork n t s u) : ∃ x a b, LeafWork n (stepping x a b t) s (deployStep n u) := by
  unfold Machine.deployStep
  split
  · exact ⟨_, _, _, (h.modStn (f := stepping .deploying u.now none)).coupleStep⟩
  · exact ⟨t.step, t.stepSince, t.stowT, coupleStep h⟩
theorem armDeploy (h : LeafWork n t s u) : LeafWork n t s (armDeploy n u) := ite (h.books (Books.refl u).sysArm) h
theorem beginStow (h : LeafWork n t s u) : ∃ x a b, LeafWork n (stepping x a b t) s (beginStow n u) :=
  ⟨_, _, _, (h.modStn (f := stepping .stowing u.now (some (Machine.afterUs (u.stK n .STOWT).toNat u)))).books (Books.refl _).slotTimer⟩
theorem restow (h : LeafWork n t s u) : LeafWork n t s (restow n u) := by
  unfold Machine.restow
  split
  · exact ite (h.books (Books.refl u).sysArm) h
  · exact h

/-! ## Door moves (R177, R178, R189) -/

/-- A door motion starts that is to make no turn. -/
theorem startDoor {x : Motion} (h : LeafWork n t s u) (hx : x.turn = none) : LeafWork n t s (startDoor n x u) := by
  have h1 : LeafWork n t s (u.modAx n fun a => { a with
      motion := some x, fault := if a.fault = some "follow" then none else a.fault, ferrSince := none }) :=
    h.modAx (.inl rfl) ⟨rfl, rfl⟩ fun _ _ => hx
  have h2 := h1.setCourse (l := doorPlan u n x) (f := fun m => m) (.inl rfl) fun _ => id
  exact ite (h2.books (Books.refl _).resumeDone) h2
theorem beginOpening (h : LeafWork n t s u) : ∃ c x a b,
    LeafWork n (stepping x a b { t with leaf := .opening, closedMade := c, forceSince := none, kept := some true, autoT := none }) s
      (beginOpening n u) := by
  have h1 : ∃ c, LeafWork n { t with leaf := .opening, closedMade := c } s (if (u.stn n).leaf = .opening then u else Machine.setLeaf n .opening u) := by
    split
    · next hl =>
      refine ⟨t.closedMade, h.reshape ?_⟩
      have := h.field Station.leaf
      rw [hl] at this
      rw [this]
    · exact ⟨_, h.setLeaf .opening⟩
  obtain ⟨c, h1⟩ := h1
  unfold Machine.beginOpening
  dsimp only
  generalize (if (u.stn n).leaf = .opening then u else Machine.setLeaf n .opening u) = v at h1 ⊢
  have h2 : LeafWork n { t with leaf := .opening, closedMade := c, forceSince := none, kept := some true, autoT := none } s
      (v.modStn n fun t => { t with
        points := [], forceSince := none, kept := some true, autoT := none, clean := t.clean && decide (t.admD = 10000)
        cycle := { t.cycle with
          disturbedOpen := t.cycle.disturbedOpen || decide (t.admD < 10000), derated := t.cycle.derated || decide (t.admD < 10000) } }) :=
    (h1.modStn (f := fun t => { t with
        points := [], forceSince := none, kept := some true, autoT := none, clean := t.clean && decide (t.admD = 10000)
        cycle := { t.cycle with
          disturbedOpen := t.cycle.disturbedOpen || decide (t.admD < 10000), derated := t.cycle.derated || decide (t.admD < 10000) } })).reshape rfl
  obtain ⟨x, a, b, h3⟩ := h2.armDeploy.deployStep
  exact ⟨c, x, a, b, h3.startDoor rfl⟩
theorem armClosing (h : LeafWork n t s u) : ∃ b, LeafWork n { t with armed := b, forceSince := none } s (armClosing n u) := by
  have h1 : LeafWork n t s (closingSlots n u) := h.books (Books.ite (Books.refl u).sysArm.sysArm (Books.refl u).sysArm)
  rw [armClosing_eq]
  generalize closingSlots n u = v at h1 ⊢
  split
  · exact ⟨true, h1.modStn (f := fun t => { t with armed := true, forceSince := none })⟩
  · exact ⟨false, (h1.modStn (f := fun t => { t with armed := false, forceSince := none })).books (Books.refl _).sysArm⟩
theorem beginClosing (h : LeafWork n t s u) : ∃ t', LeafWork n t' s (beginClosing n u) := by
  have h1 : ∃ t', LeafWork n t' s (if (u.stn n).leaf = .closing ∨ (u.stn n).leaf = .locking then u else Machine.setLeaf n .closing u) := by
    split
    · exact ⟨t, h⟩
    · exact ⟨_, h.setLeaf .closing⟩
  obtain ⟨t1, h1⟩ := h1
  unfold Machine.beginClosing
  dsimp only
  generalize (if (u.stn n).leaf = .closing ∨ (u.stn n).leaf = .locking then u else Machine.setLeaf n .closing u) = v at h1 ⊢
  have h2 := h1.modStn (f := fun t => { t with
    points := [], kept := some false, autoT := none, reopened := false, atZone := false, clean := t.clean && decide (t.admD = 10000)
    cycle := { t.cycle with
      disturbedClose := t.cycle.disturbedClose || decide (t.admD < 10000), derated := t.cycle.derated || decide (t.admD < 10000), derate := t.admD / 100 } })
  generalize v.modStn n _ = v at h2 ⊢
  have h3 : ∃ t', LeafWork n t' s (if (v.stn n).leaf = .closing then Machine.armClosing n v else v) := by
    split
    · obtain ⟨b, h3⟩ := h2.armClosing
      exact ⟨_, h3⟩
    · exact ⟨_, h2⟩
  obtain ⟨t3, h3⟩ := h3
  generalize (if (v.stn n).leaf = .closing then Machine.armClosing n v else v) = v at h3 ⊢
  have h4 : ∃ t', LeafWork n t' s (if (stepStation v n).isSome = true ∧ ¬ Machine.inOn v n .STOWSW = true then Machine.beginStow n v else Machine.restow n v) := by
    split
    · obtain ⟨x, a, b, h4⟩ := h3.beginStow
      exact ⟨_, h4⟩
    · exact ⟨_, h3.restow⟩
  obtain ⟨t4, h4⟩ := h4
  exact ⟨t4, (h4.coupleStep.books (Books.refl _).sysDrop).startDoor rfl⟩
theorem motionReply {r : Reply} (h : LeafWork n t s u) : LeafWork n t s (motionReply n r u) := by
  unfold Machine.motionReply
  split
  · exact h
  split
  · exact h
  · refine (h.modAx (.inl rfl) ⟨rfl, rfl⟩ fun _ ht => ?_).books (Books.refl _).finOp
    refine Eq.trans ?_ ht
    exact turnOf_map fun _ => rfl
theorem motionFails (h : LeafWork n t s u) : LeafWork n t s (motionFails n u) := h.motionReply
theorem limitTold {b : Bool} (h : LeafWork n t s u) : LeafWork n { t with doorOp := none } s (limitTold n b u) := by
  unfold Machine.limitTold
  dsimp only
  split
  · exact (h.books (Books.refl u).sayOp).motionFails.doorFailed
  · exact (h.books (Books.refl u).motionSays).motionFails.doorFailed
theorem beginReopen (h : LeafWork n t s u) : ∃ d r x a b, LeafWork n (stepping x a b (reopening t.wait d r t)) s (beginReopen n u) := by
  unfold Machine.beginReopen
  dsimp only
  split
  · exact ⟨none, true, t.step, t.stepSince, t.stowT, h.limitTold.modStn (f := fun t => { t with reopened := true })⟩
  · have h1 : ∀ x, LeafWork n t s (chargeP0 n x true u) := fun x => h.books (Books.refl u).dropCharge.chargeAll
    obtain ⟨x, a, b, h2⟩ := (h1 _).armDeploy.deployStep
    exact ⟨t.doorOp, t.reopened, x, a, b, h2.startDoor rfl⟩

/-! ## Standstill (R143, R175, R306) -/

theorem axisStops (h : LeafWork n t s u) : LeafWork n { t with wait := none } s (axisStops n u) := by
  have hw : LeafWork n { t with wait := none } s (dropCharge n (Machine.endWait n (u.modAx n fun a => { a with moving := false, ahead := [] }))) :=
    (h.modAx (.inl rfl) ⟨rfl, rfl⟩ fun _ => id).endWait.books (Books.refl _).dropCharge
  have hend : ∀ {w}, LeafWork n { t with wait := none } s w →
      LeafWork n { t with wait := none } s (resumeDone n (stopDone n (if Machine.isLeaf w n then leafSegs n [] w else w))) :=
    fun hw => hw.books (Books.ite (Books.refl _).leafSegs (Books.refl _)).stopDone.resumeDone
  have hm : ∀ m, (u.ax n).motion = some m → turnOf (s.ax n) = none → m.turn = none := fun m hm hs => by
    have := h.turn hs
    simpa [turnOf, hm] using this
  unfold Machine.axisStops
  dsimp only
  refine hend ?_
  split
  · exact hw
  next m hmot =>
  split
  · have hheld := (hw.books ((Books.refl _).heldRem (n := n) (m := m))).modAx (f := fun a => { a with motion := some (heldAt (u.ax n).pos m) }) (.inl rfl) ⟨rfl, rfl⟩
      fun hs _ => hm m hmot hs
    split
    · exact hheld.books (Books.refl _).cycleSays.markOps
    · exact hheld.books (Books.refl _).motionSays.markOps
  · exact hw.motionReply.modAx (.inl rfl) ⟨rfl, rfl⟩ fun _ _ => rfl
  · exact hw.modAx (.inl rfl) ⟨rfl, rfl⟩ fun _ _ => rfl

end LeafWork
end Sys2Proof.Machine
end

section
-- One declaration at a time: the whole text elaborated side by side outgrows the memory a check may take.
set_option Elab.async false
/-! SUPPORT. A leaf's axis comes to standstill in its cycle; the leaf locks, reverses or goes to FAULT (R143, R175, R178, R179, R189). -/

namespace Sys2Proof.Machine

open Sys2Proof

/-- Where nothing is charged, no charge is taken over (R306). -/
theorem takenOver_nil (s : State) (n cls : Nat) (b : Bool) (m : Motion) : takenOver [] (leafCharges s n cls b m) = none := by
  unfold leafCharges takenOver
  dsimp only
  rw [List.foldr_cons]
  simp

/-- A station's charges once they are dropped are its feed's alone (R301, R307). -/
theorem dropCharge_uncharged (n : Nat) (s : State) : ∀ c ∈ (dropCharge n s).yar.charges, c.of ≠ n ∨ c.byOut = true :=
  fun _ hc => of_decide_eq_true (List.mem_filter.1 hc).2
theorem finishDoor_kept (id : Nat) (s : State) : KeptBut [.sess, .sup, .pool, .work, .ops, .jrn] s (finishDoor id s) := by
  unfold finishDoor
  split
  · exact KeptBut.refl _ s
  split
  · split
    · exact finOp_kept _ _ s
    · split
      · exact failOp_kept _ _ s
      · exact failOp_kept _ _ s
  · exact KeptBut.refl _ s
theorem doorReached_kept (n : Nat) (s : State) : KeptBut [.st, .sess, .sup, .pool, .work, .ops, .jrn] s (doorReached n s) := by
  unfold doorReached
  split
  · exact KeptBut.refl _ s
  · exact (((modStn_kept s n _).mono (by simp)).trans ((modOp_kept _ _ _).mono (by simp))).trans ((finishDoor_kept _ _).mono (by simp))
/-- What a leaf that is CLOSED_LOCKED was charged with has gone (R307). -/
theorem closeAndLock_uncharged (n : Nat) (s : State) : ∀ c ∈ (closeAndLock n s).yar.charges, c.of ≠ n ∨ c.byOut = true := by
  unfold closeAndLock
  dsimp only
  rw [show (doorReached n _).yar = _ from doorReached_kept n _ .yar (by simp)]
  exact dropCharge_uncharged n _

/-- A closing obstacle is recorded, and its command told (R171, R189). -/
def obstacleTold (n : Nat) (w : String) (current limit : Int) (s : State) : State :=
  let attempt := (s.stn n).attempts + 1
  let v := obstacleRec n w current limit attempt s
  match (s.stn n).doorOp with
  | none => v
  | some id => sayOp id (colR "obstacle" [.obj (.st n), .w w, .kn "attempt" attempt ""]) v
/-- A station whose leaf is to reopen by a distance, but no further than a position, after an obstacle of a cause (R189, R450). -/
def obstructed (i : Nat) (by_ top : Int) (t : Station) : Station :=
  { t with
    clean := false, obstacle := true, reopened := false, reopenTo := min (t.axis.pos + by_) top, kept := some false
    cycle := { t.cycle with
      obstacles := (List.range 3).map fun k => t.cycle.obstacles.getD k 0 + (if k = i then 1 else 0), disturbedClose := true } }
theorem closingObstacle_eq (n : Nat) (w : String) (current limit : Int) (s : State) : closingObstacle n w current limit s =
    (let v := setLeaf n .reversing (clearTimers n (disarm n (obstacleTold n w current limit s)))
     let y := v.modStn n (obstructed (obstacleIdx w) (stCounts v n .REOPEN) (openPos v n))
     rampStop n (axRate y n .SDEC) .done y) := rfl

namespace LeafWork

variable {n m : Nat} {t t' : Station} {s u v : State}

open LeafStays (At)

/-! ## Standstill in the cycle (R175, R306) -/

/-- What the cycle of a leaf goes on from once its axis has come to standstill. -/
theorem stopsHeld (h : LeafWork n t s u) (c : Bool) :
    LeafWork n { t with wait := none } s (if c then leafHeld n (Machine.axisStops n u) else Machine.axisStops n u) :=
  ite (h.axisStops.books (Books.refl _).leafHeld) h.axisStops
theorem standstill_eq (h : LeafWork n t s u) (hl : Machine.isLeaf s n = true) : standstill n u =
    doorStands n (turnOf (u.ax n)) ((u.ax n).motion.map (·.kind)) (u.yar.charges.filter fun c => decide (c.of = n ∧ ¬ c.byOut))
      (if (u.ax n).motion.any doorKind then leafHeld n (Machine.axisStops n u) else Machine.axisStops n u) := by
  unfold standstill
  dsimp only
  rw [if_pos ((h.axisStops.isLeaf n).trans hl)]
  rfl
/-- A leaf that is to make no turn and does not reverse stays where it stands. -/
theorem standstill_stays (h : LeafWork n t s u) (ht : turnOf (s.ax n) = none) (hr : t.leaf ≠ .reversing) :
    LeafWork n { t with wait := none } s (standstill n u) := by
  cases hl : Machine.isLeaf s n with
  | true =>
    have hheld := h.stopsHeld ((u.ax n).motion.any doorKind)
    rw [h.standstill_eq hl, h.turn ht]
    unfold doorStands
    dsimp only
    rw [if_pos (.inl (by rw [hheld.field Station.leaf]; exact hr))]
    exact hheld
  | false =>
    have hturn : (u.ax n).motion.bind (·.turn) = none := h.turn ht
    unfold standstill
    dsimp only
    rw [h.axisStops.isLeaf n, hl, hturn]
    exact h.axisStops
theorem settleAxis_stays (h : LeafWork n t s u) (ht : turnOf (s.ax n) = none) (hr : t.leaf ≠ .reversing) :
    ∃ w, (w = t.wait ∨ w = none) ∧ LeafWork n { t with wait := w } s (settleAxis n u) := by
  unfold settleAxis
  split
  · exact ⟨none, .inr rfl, h.standstill_stays ht hr⟩
  · exact ⟨t.wait, .inl rfl, h⟩
/-- A reversing leaf that is to make no turn reopens once it stands (R189). -/
theorem settleAxis_reopens (h : LeafWork n t s u) (hl : Machine.isLeaf s n = true) (ht : turnOf (s.ax n) = none) :
    ∃ w d r x a b, LeafWork n (stepping x a b (reopening w d r t)) s (settleAxis n u) := by
  unfold settleAxis
  split
  · have hheld := h.stopsHeld ((u.ax n).motion.any doorKind)
    rw [h.standstill_eq hl, h.turn ht]
    unfold doorStands
    dsimp only
    generalize (if (u.ax n).motion.any doorKind = true then _ else _ : State) = v at hheld ⊢
    split
    · exact ⟨none, t.doorOp, t.reopened, t.step, t.stepSince, t.stowT, hheld⟩
    split
    · exact ⟨none, t.doorOp, true, t.step, t.stepSince, t.stowT, hheld.modStn (f := fun t => { t with reopened := true })⟩
    · exact ⟨none, hheld.beginReopen⟩
  · exact ⟨t.wait, t.doorOp, t.reopened, t.step, t.stepSince, t.stowT, h⟩
/-- However a leaf's axis is to go on from standstill, it works on its leaf. -/
theorem settleAxis_works (h : LeafWork n t s u) (hl : Machine.isLeaf s n = true) : ∃ t', LeafWork n t' s (settleAxis n u) := by
  unfold settleAxis
  split
  · have hheld := h.stopsHeld ((u.ax n).motion.any doorKind)
    rw [h.standstill_eq hl]
    unfold doorStands
    dsimp only
    generalize (if (u.ax n).motion.any doorKind = true then _ else _ : State) = v at hheld ⊢
    split
    · split
      · exact ⟨_, hheld.limitTold.learnFails⟩
      split
      · split
        · obtain ⟨c, x, a, b, h1⟩ := (hheld.books (Books.refl _).modYar).beginOpening
          exact ⟨_, h1⟩
        · exact (hheld.books (Books.refl _).modYar).beginClosing
      · exact ⟨_, hheld.beginWait⟩
    · split
      · exact ⟨_, hheld⟩
      split
      · exact ⟨_, hheld.modStn (f := fun t => { t with reopened := true })⟩
      · obtain ⟨d, r, x, a, b, h1⟩ := hheld.beginReopen
        exact ⟨_, h1⟩
  · exact ⟨t, h⟩
/-- A leaf without a charge that does not reverse begins no move at standstill: at most it asks for one (R306). -/
theorem settleAxis_uncharged (h : LeafWork n t s u) (hl : Machine.isLeaf s n = true) (hr : t.leaf ≠ .reversing)
    (hc : ∀ c ∈ u.yar.charges, c.of ≠ n ∨ c.byOut = true) :
    ∃ w d l, LeafWork n { t with wait := w, doorOp := d, learning := l } s (settleAxis n u) := by
  have hnone : u.yar.charges.filter (fun c => decide (c.of = n ∧ ¬ c.byOut)) = [] :=
    List.filter_eq_nil_iff.2 fun c hcm => by simpa [imp_iff_not_or] using hc c hcm
  unfold settleAxis
  split
  · have hheld := h.stopsHeld ((u.ax n).motion.any doorKind)
    rw [h.standstill_eq hl, hnone]
    unfold doorStands
    dsimp only
    generalize (if (u.ax n).motion.any doorKind = true then _ else _ : State) = v at hheld ⊢
    split
    · split
      · exact ⟨_, _, _, hheld.limitTold.learnFails⟩
      · rw [takenOver_nil]
        exact ⟨_, _, _, hheld.beginWait⟩
    · rw [if_pos (.inl (by rw [hheld.field Station.leaf]; exact hr))]
      exact ⟨none, t.doorOp, t.learning, hheld⟩
  · exact ⟨t.wait, t.doorOp, t.learning, h⟩

/-! ## CLOSED_LOCKED (R175, R178, R179) -/

theorem referenceSet {p : Int} {i : Option Int} (h : LeafWork n t s u) :
    LeafWork n { t with axis := { t.axis with pos := p, referenced := true } } s (referenceSet n p i u) := by
  have h1 : LeafWork n { t with axis := { t.axis with pos := p, referenced := true } } s (u.modAx n fun a => { a with
      pos := p, cmd := countsToSteps u n p, referenced := true, idx := i, sinceIdx := 0, fault := none, ferrSince := none }) :=
    (h.modStn (f := fun t => { t with axis := { t.axis with
      pos := p, cmd := countsToSteps u n p, referenced := true, idx := i, sinceIdx := 0, fault := none, ferrSince := none } })).reshape rfl
  exact h1.books (Books.refl _).reEvaluate
theorem closeAndLock (h : LeafWork n t s u) : ∃ x, (x = t.step ∨ x = .stowed) ∧ LeafWork n (locked x t) s (closeAndLock n u) := by
  have h1 : LeafWork n { t with stepRefs := false } s (Machine.unlockOut n false (Machine.uncoupleStep n (Machine.hardStop n .done u))) :=
    h.hardStop.uncoupleStep.unlockOut
  have hend : ∀ {x w}, LeafWork n { t with
      stepRefs := false, attempts := 0, kept := none, atZone := false, reopened := false, cause := "", step := x } s w →
      LeafWork n (locked x t) s (Machine.doorReached n (dropCharge n (Machine.endWait n (Machine.referenceSet n 0 none (Machine.setLeaf n .closedLocked w))))) :=
    fun hw => ((hw.setLeaf .closedLocked).referenceSet.endWait.books (Books.refl _).dropCharge).doorReached
  unfold Machine.closeAndLock
  dsimp only
  generalize Machine.unlockOut n false _ = v at h1 ⊢
  by_cases hstep : Machine.hasStep v n = true ∧ Machine.inOn v n .STOWSW = true
  · simp only [if_pos hstep]
    exact ⟨.stowed, .inr rfl, hend (h1.modStn (f := fun t => { t with
      attempts := 0, kept := none, atZone := false, reopened := false, cause := "", step := .stowed }))⟩
  · simp only [if_neg hstep]
    exact ⟨t.step, .inl rfl, hend (h1.modStn (f := fun t => { t with
      attempts := 0, kept := none, atZone := false, reopened := false, cause := "" }))⟩

/-! ## Obstacles (R189) -/

theorem closingObstacle {w : String} {c l : Int} (h : LeafWork n t s u) :
    LeafWork n (reversed (min (t.axis.pos + stCounts s n .REOPEN) (openPos s n)) t) s (closingObstacle n w c l u) := by
  have htold : LeafWork n t s (obstacleTold n w c l u) := by
    unfold obstacleTold
    dsimp only
    split
    · exact h.books (Books.refl u).record
    · exact h.books (Books.refl u).record.sayOp
  have h1 := htold.disarm.clearTimers.setLeaf .reversing
  rw [closingObstacle_eq]
  generalize Machine.setLeaf n .reversing _ = v at h1 ⊢
  dsimp only
  rw [h1.counts, show openPos v n = openPos s n from h1.counts n .OPENPOS]
  refine rampStop ?_ (.inl rfl)
  exact (h1.modStn (f := obstructed (obstacleIdx w) (stCounts s n .REOPEN) (openPos s n))).reshape rfl

end LeafWork
end Sys2Proof.Machine
end

section
-- One declaration at a time: the whole text elaborated side by side outgrows the memory a check may take.
set_option Elab.async false
/-! SUPPORT. What the door cycle's own happenings make of a leaf's station: its traverses and its samples, its faults, its lock zone, its lock
and its opening (R175 to R189). -/

namespace Sys2Proof.Machine

open Sys2Proof

/-- A station whose leaf is HELD with a target kept (R174). -/
@[simp] def heldWith (kept : Option Bool) (t : Station) : Station :=
  entered .held (untimed { disarmed t with kept, atZone := false, reopened := false, wait := none })
/-- A station whose leaf is OPEN, with an end of AUTOCLOSE (R175). -/
@[simp] def opened (autoT : Option Int) (t : Station) : Station := { entered .opn (disarmed t) with autoT, kept := none, doorOp := none }
/-- A station that has had a sample of its feed's current (R185). -/
@[simp] def fed (c : Int) (t : Station) : Station := { t with feed := c, feedSum := t.feedSum + c.toNat, feedCount := t.feedCount + 1 }
/-- A station whose leaf turns toward a target, from standstill or from a move (R142, R175). -/
@[simp] def turning (b : Bool) (why : Why) (t : Station) : Station :=
  entered (if b then .opening else .closing)
    { disarmed (untimed { t with wait := none }) with why, atZone := false, reopened := false, kept := some b }

/-- A learning run touches no station but its leaf's, nor the leaf's own part in the door cycle (R184). -/
theorem learnNext_stn (n m : Nat) (s : State) : ∃ l w a b, (learnNext n s).stn m =
    if m = n then { s.stn n with learning := l, wait := w, traverses := a, points := b } else s.stn m := by
  have hself : ∃ l w a b, s.stn m = if m = n then { s.stn n with learning := l, wait := w, traverses := a, points := b } else s.stn m :=
    ⟨(s.stn n).learning, (s.stn n).wait, (s.stn n).traverses, (s.stn n).points, by split <;> simp_all⟩
  have hdone : ∀ id, ∃ l w a b, (learnDone n id s).stn m =
      if m = n then { s.stn n with learning := l, wait := w, traverses := a, points := b } else s.stn m := fun id => by
    refine ⟨none, (s.stn n).wait, [], [], ?_⟩
    have hset := stn_modStn s n m fun t => { t with learning := none, traverses := [], points := [] }
    unfold learnDone
    dsimp only
    split
    · exact (((finOp_kept _ _ _).stn (by simp) m).trans ((modCfg_kept _ _).stn (by simp) m)).trans hset
    · exact ((failOp_kept _ _ _).stn (by simp) m).trans hset
  unfold learnNext
  split
  · exact hself
  split
  · exact hself
  split
  · split
    · exact hdone _
    · exact ⟨(s.stn n).learning, some { cls := 4, since := s.now, why := .command, opening := true }, (s.stn n).traverses, (s.stn n).points,
        beginWait_stn n 4 m .command true _⟩
  · exact hself

namespace LeafWork

variable {n m : Nat} {t t' : Station} {s u v : State}

/-! ## Traverses and samples (R184 to R186) -/

theorem report {l : List Obj} {o : Obj} {f : List Fld} (h : LeafWork n t s u) : LeafWork n t s (Machine.report l o f u) :=
  h.books ((Books.refl u).of (report_kept l o f u))
theorem driftProfile {b : Bool} (h : LeafWork n t s u) : LeafWork n t s (driftProfile n b u) := by
  unfold Machine.driftProfile
  split
  · exact h
  · dsimp only
    refine ite (books (report ?_) (Books.refl _).record) ?_
    all_goals
      refine aside h (.inl rfl) ?_ fun _ ht => ?_
      · split <;> rfl
      · split <;> exact ht
theorem endTraverse {b : Bool} (h : LeafWork n t s u) : LeafWork n t s (endTraverse n b u) :=
  aside (ite (aside h (.inl rfl) rfl fun _ => id) (ite h.driftProfile h)) (.inl rfl) rfl fun _ => id
theorem feedSample {c : Int} (h : LeafWork n t s u) : LeafWork n (fed c t) s (feedSample n c u) := by
  have h1 := h.modStn (f := fed c)
  have haside : ∀ {w} {f : Station → Cycle}, LeafWork n (fed c t) s w → LeafWork n (fed c t) s (w.modStn n fun t => { t with cycle := f t }) :=
    fun hw => hw.aside (.inl rfl) rfl fun _ => id
  have hclose : ∀ {w} {p : Prop} {_ : Decidable p} {f : Station → List (Nat × Int × Nat)}, LeafWork n (fed c t) s w →
      LeafWork n (fed c t) s (if p then w.modStn n fun t => { t with points := f t } else w) :=
    fun hw => ite (hw.aside (.inl rfl) rfl fun _ => id) hw
  unfold Machine.feedSample
  dsimp only
  split
  · exact h1
  split
  · exact h1.aside (.inl rfl) rfl fun _ => id
  · exact hclose (haside h1)
  · exact hclose (haside h1)
  · exact hclose (haside h1)
  · exact h1

/-! ## FAULT and HELD (R174, R175) -/

theorem faultLeaf {c : String} {e : Err} (h : LeafWork n t s u) (hl : t.leaf ≠ .isolated) : LeafWork n (faulted c t) s (faultLeaf n c e u) := by
  have h1 := h.modStn (f := fun t => { t with cause := c, kept := none, atZone := false, reopened := false })
  unfold Machine.faultLeaf
  rw [if_neg (by rw [h.field Station.leaf]; exact hl)]
  dsimp only
  generalize u.modStn n _ = v at h1 ⊢
  have h2 : LeafWork n { t with cause := c, kept := none, atZone := false, reopened := false, wait := none } s
      (if (v.stn n).wait.isSome then resumeFails n e (Machine.leaveWait n v) else v) := by
    split
    · exact h1.leaveWait.books (Books.refl _).resumeFails
    · next hnone =>
      refine h1.reshape ?_
      have hw := h1.field Station.wait
      rw [show (v.stn n).wait = none by simpa using hnone] at hw
      rw [show t.wait = none from hw.symm]
  exact (h2.unlockOut.learnFails.setLeaf .fault).endSearch.doorFailed
/-- A leaf that is to make no turn goes to FAULT from a driven state, and stays. -/
theorem leafTrips {c : String} (h : LeafWork n t s u) (ht : turnOf (s.ax n) = none) (hi : t.leaf ≠ .isolated) :
    LeafWork n (faulted c t) s (leafTrips n c u) := by
  have hstop : LeafWork n t s (if (u.ax n).motion.isSome then Machine.rampStop n (axRate u n .SDEC) .done u else dropCharge n u) :=
    ite (h.rampStop (.inl rfl)) (h.books (Books.refl u).dropCharge)
  obtain ⟨w, hw, h1⟩ := (hstop.faultLeaf (c := c) (e := e06St n) hi).settleAxis_stays ht (by simp [faulted, entered, endsCycle, untimed, disarmed])
  rw [show w = none by simpa [faulted, entered, endsCycle, untimed, disarmed] using hw] at h1
  exact h1
theorem holdLeaf {b : Option Bool} (h : LeafWork n t s u) : LeafWork n (heldWith b t) s (holdLeaf n b u) := by
  have h1 : LeafWork n { disarmed t with kept := b, atZone := false, reopened := false } s
      ((Machine.disarm n u).modStn n fun t => { t with clean := false, kept := b, atZone := false, reopened := false, armed := false, forceSince := none }) :=
    (h.disarm.modStn (f := fun t =>
      { t with clean := false, kept := b, atZone := false, reopened := false, armed := false, forceSince := none })).reshape rfl
  exact h1.leaveWait.clearTimers.setLeaf .held

/-! ## The lock zone and the lock (R175, R178, R183) -/

theorem closedIsMade (h : LeafWork n t s u) : LeafWork n (closedNow s n t) s (closedIsMade n u) := by
  have h1 : LeafWork n (closedNow s n t) s (u.modStn n fun t => { t with
      cycle := cycleTime t u.now, leafSince := u.now, closedMade := true, finalT := none
      lockT := some (Machine.afterUs (u.stK n .LOCKT).toNat u) }) := by
    rw [h.stK, h.afterUs]
    exact (h.modStn (f := fun t => { t with
      cycle := cycleTime t u.now, leafSince := u.now, closedMade := true, finalT := none
      lockT := some (Machine.afterUs (s.stK n .LOCKT).toNat s) })).reshape rfl
  exact h1.books (Books.refl _).sysDrop.slotTimer
theorem enterLocking (h : LeafWork n t s u) (hi : t.inputs = (s.stn n).inputs) :
    LeafWork n (if Machine.inOn s n .CLOSEDSW = true then closedNow s n (zoned s n t) else zoned s n t) s (enterLocking n u) := by
  have h1 : LeafWork n (disarmed (entered .locking t)) s (Machine.disarm n (Machine.setLeaf n .locking u)) := (h.setLeaf .locking).disarm
  unfold Machine.enterLocking
  dsimp only
  generalize Machine.disarm n (Machine.setLeaf n .locking u) = v at h1 ⊢
  have h2 : LeafWork n (zoned s n t) s (slotTimer n 7 (v.stK n .FINALT).toNat
      (v.modStn n fun t => { t with finalT := some (Machine.afterUs (v.stK n .FINALT).toNat v), atZone := false })) := by
    rw [h1.stK, h1.afterUs]
    exact (h1.modStn (f := fun t => { t with finalT := some (Machine.afterUs (s.stK n .FINALT).toNat s), atZone := false })).books (Books.refl _).slotTimer
  generalize slotTimer n 7 _ _ = v at h2 ⊢
  rw [h2.inOn hi]
  exact choose h2.closedIsMade h2
/-- However a leaf locks: it is CLOSED_LOCKED, and what follows is its learning run's (R178, R184). -/
theorem lockDone (h : LeafWork n t s u) (hl : Machine.isLeaf s n = true) : ∃ v x w d l, (x = t.step ∨ x = .stowed) ∧
    LeafWork n { locked x t with wait := w, doorOp := d, learning := l } s v ∧ Machine.lockDone n u = learnNext n v := by
  have h1 : LeafWork n t s (if (u.stn n).learning.isSome then Machine.endTraverse n false u else u) := ite h.endTraverse h
  obtain ⟨x, hx, h2⟩ := h1.closeAndLock
  obtain ⟨w, d, l, h3⟩ := h2.settleAxis_uncharged hl (by simp [locked, entered, endsCycle, untimed, disarmed]) (closeAndLock_uncharged n _)
  exact ⟨_, x, w, d, l, hx, h3, rfl⟩
/-- A leaf that learns nothing and is to make no turn locks. -/
theorem lockDone_stays (h : LeafWork n t s u) (ht : turnOf (s.ax n) = none) (hlearn : t.learning = none) :
    ∃ x, (x = t.step ∨ x = .stowed) ∧ LeafWork n (locked x t) s (Machine.lockDone n u) := by
  have h1 : LeafWork n t s (if (u.stn n).learning.isSome then Machine.endTraverse n false u else u) := ite h.endTraverse h
  obtain ⟨x, hx, h2⟩ := h1.closeAndLock
  obtain ⟨w, hw, h3⟩ := h2.settleAxis_stays ht (by simp [locked, entered, endsCycle, untimed, disarmed])
  rw [show w = none by simpa [locked] using hw] at h3
  refine ⟨x, hx, ?_⟩
  have hnone := h3.field Station.learning
  rw [show ({ locked x t with wait := none } : Station).learning = t.learning by simp [locked, entered, endsCycle, untimed, disarmed], hlearn] at hnone
  unfold Machine.lockDone learnNext
  dsimp only
  rw [hnone]
  exact h3

end LeafWork
end Sys2Proof.Machine
end

section
-- One declaration at a time: the whole text elaborated side by side outgrows the memory a check may take.
set_option Elab.async false
/-! SUPPORT. A leaf opens, turns, leaves UNLOCKING, meets its lock zone, and loses its permission (R175 to R180, R196). -/

namespace Sys2Proof.Machine

open Sys2Proof

/-- An opening leaf ends at OPENPOS (R175). -/
def openingEnds (n : Nat) (s : State) : State :=
  let s := endTraverse n true s
  let s := unlockOut n false (setLeaf n .opn (disarm n s))
  let us := (s.stK n .AUTOCLOSE).toNat
  let s := if us = 0 ∨ (s.stn n).learning.isSome then s else slotTimer n 15 us (s.modStn n fun t => { t with autoT := some (afterUs us s) })
  let s := doorReached n (s.modStn n fun t => { t with kept := none })
  if (s.stn n).learning.isSome then beginWait n 4 .command false s else s
theorem openReached_eq (n : Nat) (s : State) :
    openReached n s = if isLeaf s n ∧ (s.stn n).leaf = .opening ∧ openPos s n ≤ (s.ax n).pos then openingEnds n s else s := rfl
/-- A leaf takes the state of a turn (R175). -/
def turned (n : Nat) (b : Bool) (why : Why) (s : State) : State :=
  setLeaf n (if b then .opening else .closing) ((disarm n (clearTimers n (leaveWait n s))).modStn n fun t =>
    { t with why, atZone := false, reopened := false, clean := false, kept := some b })
theorem turnLeaf_eq (n : Nat) (b : Bool) (why : Why) (s : State) : turnLeaf n b why s =
    if (s.ax n).motion.isSome then
      let y := (turned n b why s).modAx n fun a => { a with motion := a.motion.map fun m => { m with turn := some b } }
      settleAxis n (rampStop n (axRate y n .DEC) .done y)
    else beginWait n (if b then 2 else 1) why b (turned n b why s) := rfl

theorem lockIfMade_open {n : Nat} {s : State} (h : bothMade s n = false) : lockIfMade n s = s := if_neg (by simp [h])
theorem lockIfMade_made {n : Nat} {s : State} (hl : (s.stn n).leaf = .locking) (h : bothMade s n = true) : lockIfMade n s = lockDone n s :=
  if_pos ⟨hl, h⟩

namespace LeafWork

variable {n m : Nat} {t t' : Station} {s u v : State}

/-! ## Opening (R175, R177) -/

theorem lockOpens (h : LeafWork n t s u) (hd : u.engDown .lamp = false) : ∃ c x a b,
    LeafWork n (stepping x a b { untimed t with leaf := .opening, closedMade := c, forceSince := none, kept := some true, autoT := none }) s
      (lockOpens n u) := by
  have h1 : LeafWork n t s (u.modStn n fun t => { t with clean := true }) := h.aside (.inl rfl) rfl fun _ => id
  unfold Machine.lockOpens
  rw [if_neg (by simp [hd])]
  exact h1.clearTimers.beginOpening
theorem lockOpens_works (h : LeafWork n t s u) : ∃ t', LeafWork n t' s (Machine.lockOpens n u) := by
  by_cases hd : u.engDown .lamp = true
  · exact ⟨t, by rwa [Machine.lockOpens, if_pos hd]⟩
  · obtain ⟨c, x, a, b, h1⟩ := h.lockOpens (by simpa using hd)
    exact ⟨_, h1⟩
theorem openingEnds (h : LeafWork n t s u) : ∃ a w, LeafWork n { opened a t with wait := w } s (openingEnds n u) ∧
    (t.learning = none → w = t.wait ∧ ((s.stK n .AUTOCLOSE).toNat ≠ 0 → a = some (Machine.afterUs (s.stK n .AUTOCLOSE).toNat s))) := by
  have h1 := (h.endTraverse (b := true)).disarm.setLeaf .opn |>.unlockOut (b := false)
  unfold Machine.openingEnds
  dsimp only
  generalize Machine.unlockOut n false _ = v at h1 ⊢
  have hlearn : (v.stn n).learning = t.learning := (h1.field Station.learning).trans (by simp)
  have h2 : ∃ a, LeafWork n { entered .opn (disarmed t) with autoT := a } s
      (if (v.stK n .AUTOCLOSE).toNat = 0 ∨ (v.stn n).learning.isSome = true then v else
        slotTimer n 15 (v.stK n .AUTOCLOSE).toNat (v.modStn n fun t => { t with autoT := some (Machine.afterUs (v.stK n .AUTOCLOSE).toNat v) })) ∧
      (t.learning = none → (s.stK n .AUTOCLOSE).toNat ≠ 0 → a = some (Machine.afterUs (s.stK n .AUTOCLOSE).toNat s)) := by
    rw [h1.stK, h1.afterUs, hlearn]
    split
    · next hnot =>
      refine ⟨_, h1.reshape rfl, fun hnone hk => ?_⟩
      exact absurd hnot (by simp [hnone, hk])
    · exact ⟨_, (h1.modStn (f := fun t => { t with autoT := some (Machine.afterUs (s.stK n .AUTOCLOSE).toNat s) })).books (Books.refl _).slotTimer,
        fun _ _ => rfl⟩
  obtain ⟨a, h2, ha⟩ := h2
  have h3 := (h2.modStn (f := fun t => { t with kept := none })).doorReached
  generalize Machine.doorReached n _ = v at h3 ⊢
  have hlearn : (v.stn n).learning = t.learning := (h3.field Station.learning).trans (by simp)
  rw [hlearn]
  split
  · next hsome => exact ⟨a, _, h3.beginWait, fun hnone => by simp [hnone] at hsome⟩
  · exact ⟨a, t.wait, h3.reshape (by simp), fun hnone => ⟨rfl, ha hnone⟩⟩
theorem openReached_works (h : LeafWork n t s u) : ∃ t', LeafWork n t' s (openReached n u) := by
  rw [openReached_eq]
  split
  · obtain ⟨a, w, h1, _⟩ := h.openingEnds
    exact ⟨_, h1⟩
  · exact ⟨t, h⟩
theorem unlockExpires_works (h : LeafWork n t s u) : ∃ t', LeafWork n t' s (unlockExpires n u) := by
  unfold unlockExpires
  split
  · next hdue =>
    split
    · exact ⟨_, (h.books (Books.refl u).dropCharge).faultLeaf (by rw [← h.field Station.leaf, hdue.2.1]; decide)⟩
    · exact h.lockOpens_works
  · exact ⟨t, h⟩
theorem ripe_works (n : Nat) (s : State) : ∃ t, LeafWork n t s (ripe n s) := by
  obtain ⟨_, h⟩ := (refl n s).unlockExpires_works
  exact h.openReached_works

/-! ## The lock zone, obstacles (R175, R178, R183, R189) -/

theorem otherObstacle {w : String} (h : LeafWork n t s u) :
    LeafWork n (reversed (min (t.axis.pos + stCounts s n .REOPEN) (openPos s n)) { t with learning := none }) s (otherObstacle n w u) :=
  h.learnFails.closingObstacle
/-- A leaf that is to make no turn reverses before an obstacle. -/
theorem obstacleReverses {w : String} (h : LeafWork n t s u) (hl : Machine.isLeaf s n = true) (ht : turnOf (s.ax n) = none) :
    ∃ w' d r x a b, LeafWork n (stepping x a b (reopening w' d r
      (reversed (min (t.axis.pos + stCounts s n .REOPEN) (openPos s n)) { t with learning := none }))) s
      (settleAxis n (Machine.otherObstacle n w u)) := h.otherObstacle.settleAxis_reopens hl ht
/-- However a leaf locks or does not, no station but its own and its step's is touched, its force detection stays off, and its step is where it
was or STOWED. -/
theorem lockIfMade_parts (h : LeafWork n t s u) (hl : Machine.isLeaf s n = true) : otherButStep n s (Machine.lockIfMade n u)
    ∧ (t.armed = false → ((Machine.lockIfMade n u).stn n).armed = false)
    ∧ (((Machine.lockIfMade n u).stn n).step = t.step ∨ ((Machine.lockIfMade n u).stn n).step = .stowed) := by
  unfold Machine.lockIfMade
  split
  · obtain ⟨v, x, w, d, l, hx, h1, hv⟩ := h.lockDone hl
    rw [hv]
    refine ⟨fun m hm hk => ?_, fun _ => ?_, ?_⟩
    · obtain ⟨_, _, _, _, hm'⟩ := learnNext_stn n m v
      rw [hm', if_neg hm]
      exact h1.others m hm hk
    · obtain ⟨_, _, _, _, hn⟩ := learnNext_stn n n v
      rw [hn, if_pos rfl]
      simpa using h1.field Station.armed
    · obtain ⟨_, _, _, _, hn⟩ := learnNext_stn n n v
      rw [hn, if_pos rfl]
      have := h1.field Station.step
      simp at this
      simpa [this] using hx
  · exact ⟨h.others, fun ha => (h.field Station.armed).trans ha, .inl (h.field Station.step)⟩

/-! ## Turns (R142, R175, R176) -/

theorem turned {b : Bool} {why : Why} (h : LeafWork n t s u) : LeafWork n (turning b why t) s (turned n b why u) := by
  have h1 : LeafWork n { disarmed (untimed { t with wait := none }) with why, atZone := false, reopened := false, kept := some b } s
      ((Machine.disarm n (Machine.clearTimers n (Machine.leaveWait n u))).modStn n fun t =>
        { t with why, atZone := false, reopened := false, clean := false, kept := some b }) :=
    (h.leaveWait.clearTimers.disarm.modStn (f := fun t =>
      { t with why, atZone := false, reopened := false, clean := false, kept := some b })).reshape rfl
  exact h1.setLeaf _
/-- A leaf that stands takes its new state and asks for admission. -/
theorem turnLeaf {b : Bool} {why : Why} (h : LeafWork n t s u) (hm : (u.ax n).motion = none) :
    LeafWork n { turning b why t with wait := some { cls := if b then 2 else 1, since := s.now, why, opening := b } } s (turnLeaf n b why u) := by
  rw [turnLeaf_eq, if_neg (show ¬ (u.ax n).motion.isSome = true by simp [hm])]
  exact h.turned.beginWait
/-- However a leaf turns, no station but its own and its step's is touched. -/
theorem turnLeaf_others {b : Bool} {why : Why} (h : LeafWork n t s u) (hl : Machine.isLeaf s n = true) :
    otherButStep n s (Machine.turnLeaf n b why u) := by
  have h1 := h.turned (b := b) (why := why)
  rw [turnLeaf_eq]
  dsimp only
  split
  · generalize Machine.turned n b why u = v at h1 ⊢
    generalize hw : v.modAx n _ = w
    have hd : Drives v w := hw ▸ (Drives.refl v).modAx
    have hl' : Machine.isLeaf w n = true := (isLeaf_congr hd.site n).trans ((h1.isLeaf n).trans hl)
    obtain ⟨_, h2⟩ := ((refl n w).rampStop (d := axRate w n .DEC) (e := .done) (.inl rfl)).settleAxis_works hl'
    intro m hm hk
    rw [h2.others m hm (by rwa [stepStation_congr hd.site, stepStation_congr h1.drives.site]), ← hw, stn_modAx, if_neg hm]
    exact h1.others m hm hk
  · exact h1.beginWait.others
/-- UNLOCKING is left with LOCKSW made: the leaf is CLOSED_LOCKED. -/
theorem abortUnlock_locked {why : Why} (h : LeafWork n t s u) (hi : t.inputs = (s.stn n).inputs) (hlock : Machine.inOn s n .LOCKSW = true) :
    ∃ x, LeafWork n (locked x (untimed t)) s (abortUnlock n why u) := by
  have h1 := (h.unlockOut (b := false)).clearTimers
  obtain ⟨x, _, h2⟩ := h1.closeAndLock
  unfold abortUnlock
  dsimp only
  rw [h1.inOn hi, if_pos hlock]
  exact ⟨x, h2⟩
theorem abortUnlock_works {why : Why} (h : LeafWork n t s u) : ∃ t', LeafWork n t' s (abortUnlock n why u) := by
  have h1 := (h.unlockOut (b := false)).clearTimers
  unfold abortUnlock
  dsimp only
  split
  · obtain ⟨x, _, h2⟩ := h1.closeAndLock
    exact ⟨_, h2⟩
  · exact ⟨_, h1.trans ((refl n _).enterLocking rfl).askLeaf⟩

end LeafWork
end Sys2Proof.Machine
end

section
-- One declaration at a time: the whole text elaborated side by side outgrows the memory a check may take.
set_option Elab.async false
/-! SUPPORT. A leaf's permission is lost (R175, R196); the motion a door move starts with; a station changed with nothing else beside the books. -/

namespace Sys2Proof.Machine

open Sys2Proof

/-! ## A loss of permission (R175, R196) -/

/-- Nothing is due of a leaf that neither opens at its OPENPOS nor has its UNLOCKT expired. -/
theorem ripe_calm {n : Nat} {s : State} (ho : (s.stn n).leaf = .opening → (s.ax n).pos < openPos s n)
    (hu : (s.stn n).leaf = .unlocking → dueTime (s.stn n).unlockT s = false) : ripe n s = s := by
  have hexp : unlockExpires n s = s := if_neg fun h => by simp [hu h.2.1] at h
  rw [ripe, hexp]
  exact if_neg fun h => absurd h.2.2 (Int.not_le.2 (ho h.2.1))
/-- A loss of permission fails what a leaf does for a command and what it learns, and the cycle's record takes note of it (R175, R450). -/
def permissionFailed (n : Nat) (s : State) : State :=
  learnFails n (e06St n) (doorFailed n (e06St n) "permission" (s.modStn n fun t => { t with cycle := { t.cycle with permissionClose := true } }))
theorem permissionGone_opn {n : Nat} {s : State} (ho : (s.stn n).leaf = .opn) (hw : (s.stn n).wait = none) :
    permissionGone n s = askLeaf n false .permission (permissionFailed n s) := by
  unfold permissionGone
  rw [ripe_calm (by simp [ho]) (by simp [ho])]
  dsimp only
  rw [ho, hw]
  rfl
theorem permissionGone_unlocking {n : Nat} {s : State} (hu : (s.stn n).leaf = .unlocking) (hdue : dueTime (s.stn n).unlockT s = false) :
    permissionGone n s = abortUnlock n .permission (dropCharge n (permissionFailed n s)) := by
  unfold permissionGone
  rw [ripe_calm (by simp [hu]) fun _ => hdue]
  dsimp only
  rw [hu]
  rfl

namespace LeafWork

variable {n : Nat} {t : Station} {s u : State}

theorem permissionFailed (h : LeafWork n t s u) : LeafWork n { t with doorOp := none, learning := none } s (permissionFailed n u) :=
  (h.aside (.inl rfl) rfl fun _ => id).doorFailed.learnFails
theorem permissionGone_others (n : Nat) (s : State) (hl : Machine.isLeaf s n = true) : otherButStep n s (permissionGone n s) := by
  obtain ⟨t, h⟩ := ripe_works n s
  unfold permissionGone
  dsimp only
  generalize ripe n s = v at h ⊢
  split
  · obtain ⟨_, h1⟩ := (h.permissionFailed.books (Books.refl _).dropCharge).abortUnlock_works (why := .permission)
    exact h1.others
  · exact h.permissionFailed.turnLeaf_others hl
  · split
    · split
      · exact h.leaveWait.permissionFailed.askLeaf.others
      · exact h.others
    · exact h.permissionFailed.askLeaf.others
  · split
    · split
      · exact h.leaveWait.doorFailed.learnFails.others
      · exact h.others
    · exact h.others

end LeafWork

/-! ## The motion a door move starts with (R131, R177) -/

/-- A motion without the place its train's computation has come to. -/
def trainless (x : Motion) : Motion := { x with segs := [], k := 0, t0 := 0, lastEdge := 0 }
/-- The same of an axis's motion, where it has one. -/
def plainMotion (s : State) (m : Nat) : Option Motion := (s.ax m).motion.map trainless

theorem plainMotion_kept {l : List Part} {s u : State} (h : KeptBut l s u) (hl : .st ∉ l) (m : Nat) : plainMotion u m = plainMotion s m := by
  unfold plainMotion State.ax
  rw [h.stn hl]
theorem plainMotion_modAx (m : Nat) (f : Axis → Axis) (s : State) : plainMotion (s.modAx m f) m = (f (s.ax m)).motion.map trainless := by
  unfold plainMotion
  rw [ax_modAx, if_pos rfl]
theorem nextIvl_motion {a b : Nat} {neg : Bool} {k : Nat} {x y : Motion} {i : Ivl} (h : nextIvl a b neg k x = some (i, y)) :
    trainless y = trainless x := by
  induction k generalizing x with
  | zero => simp [nextIvl] at h
  | succ k ih =>
    unfold nextIvl at h
    split at h
    · simp at h
    split at h
    · simp at h
    split at h
    · exact (ih h).trans rfl
    · simp only [Option.some.injEq, Prod.mk.injEq] at h
      rw [← h.2]
      rfl
theorem fillAx_motion (a b k c : Nat) (x : Axis) : (fillAx a b k c x).2.motion.map trainless = x.motion.map trainless := by
  induction k generalizing c x with
  | zero => rfl
  | succ k ih =>
    unfold fillAx
    split
    · rfl
    split
    · rfl
    next m hm =>
    split
    · rfl
    next i y hi =>
    rw [ih]
    simp [hm, nextIvl_motion hi]
theorem refill_motion (m : Nat) (s : State) : plainMotion (refill m s) m = plainMotion s m :=
  (plainMotion_kept (worked_kept _ .mot _) (by decide) m).trans ((plainMotion_modAx m _ s).trans (fillAx_motion _ _ 64 0 (s.ax m)))
theorem loadNext_motion (m : Nat) (s : State) : plainMotion (loadNext m s) m = plainMotion s m := by
  have hdraw : plainMotion (if overloaded s = true then s.draw else (0, s)).2 m = plainMotion s m := by
    split
    · exact plainMotion_kept (draw_kept s) (by decide) m
    · rfl
  unfold loadNext
  dsimp only
  split
  · rfl
  split
  · rfl
  split
  · rfl
  · rw [refill_motion, plainMotion_kept (releaseStarted_kept m _ _) (by decide), plainMotion_modAx]
    refine Eq.trans ?_ hdraw
    simp only [delayAhead, Option.map_map]
    rfl
/-- A door motion starts as it was made. -/
theorem startDoor_motion (n : Nat) (x : Motion) (s : State) : plainMotion (startDoor n x s) n = some (trainless x) := by
  have hset : ∀ l : List Seg, ∀ v : State, plainMotion v n = some (trainless x) → plainMotion (setCourse n l (fun m => m) v) n = some (trainless x) := by
    intro l v hv
    have h1 : plainMotion (v.modAx n fun a => { a with
        ahead := [], moving := true
        motion := a.motion.map fun x => { x with segs := l, k := 0, t0 := baseTick v n * subTick, lastEdge := baseTick v n } }) n = some (trainless x) := by
      rw [plainMotion_modAx, ← hv]
      simp only [plainMotion, Option.map_map]
      rfl
    unfold setCourse
    dsimp only
    rw [loadNext_motion, refill_motion]
    split
    · rw [plainMotion_kept (leafSegs_kept n l _) (by decide)]
      exact h1
    · exact h1
  have h2 : plainMotion (s.modAx n fun a => { a with
      motion := some x, fault := if a.fault = some "follow" then none else a.fault, ferrSince := none }) n = some (trainless x) := plainMotion_modAx n _ s
  unfold startDoor
  dsimp only
  split
  · rw [plainMotion_kept ((Books.refl _).resumeDone).kept (by decide)]
    exact hset _ _ h2
  · exact hset _ _ h2
theorem beginOpening_motion (n : Nat) (s : State) : ∃ m, ((beginOpening n s).ax n).motion = some m ∧ m.kind = .doorOpen ∧ m.op = none := by
  have h : ∃ d v, plainMotion (beginOpening n s) n = some (trainless (openMotion v n d)) := ⟨_, _, startDoor_motion n _ _⟩
  obtain ⟨d, v, h⟩ := h
  obtain ⟨m, hm, hx⟩ := Option.map_eq_some_iff.1 h
  exact ⟨m, hm, congrArg Motion.kind hx, congrArg Motion.op hx⟩

/-! ## One station's change -/

/-- One station is now the one given, and beside the stations nothing outside some parts has changed. -/
structure StationSet (n : Nat) (t : Station) (l : List Part) (s u : State) : Prop where
  kept : KeptBut (.st :: l) s u
  stn : ∀ k, u.stn k = if k = n then t else s.stn k

namespace StationSet

variable {n : Nat} {t : Station} {l : List Part} {s u v : State}

theorem refl (n : Nat) (l : List Part) (s : State) : StationSet n (s.stn n) l s s := ⟨KeptBut.refl _ s, fun k => by split <;> simp_all⟩
theorem own (h : StationSet n t l s u) : u.stn n = t := by rw [h.stn, if_pos rfl]
theorem others (h : StationSet n t l s u) : otherStations n s u := fun m hm => by rw [h.stn, if_neg hm]
theorem modStn {f : Station → Station} (h : StationSet n t l s u) : StationSet n (f t) l s (u.modStn n f) where
  kept := h.kept.trans ((modStn_kept u n f).mono (by simp))
  stn k := by
    rw [stn_modStn, h.own]
    split
    · rfl
    · next hk => rw [h.stn, if_neg hk]
/-- A change of none but some parts. -/
theorem aside {m : List Part} (h : StationSet n t l s u) (g : KeptBut m u v) (hm : m ⊆ l := by decide) (hst : .st ∉ m := by decide) :
    StationSet n t l s v := ⟨h.kept.trans (g.mono fun _ hp => List.mem_cons_of_mem _ (hm hp)), fun k => (g.stn hst k).trans (h.stn k)⟩
theorem now (h : StationSet n t l s u) (hl : .clk ∉ l := by decide) : u.now = s.now := h.kept.now (by simpa using hl)
theorem sysDrop {off : Nat} (h : StationSet n t l s u) (hl : [.pool] ⊆ l := by decide) : StationSet n t l s (sysDrop n off u) :=
  h.aside (sysDrop_kept n off u) hl
theorem slotTimer {off us : Nat} (h : StationSet n t l s u) (hl : [.pool, .crossings] ⊆ l := by decide) : StationSet n t l s (slotTimer n off us u) := by
  refine h.aside (m := [.pool, .crossings]) ?_ hl
  exact ((dropRow_kept _ u).mono (by simp)).trans ((modEnt_kept _ _ _).mono (by simp))
theorem askLeaf {b : Bool} {why : Why} (h : StationSet n t l s u) (hl : [.pool] ⊆ l := by decide) (hclk : .clk ∉ l := by decide) :
    StationSet n { t with why, wait := some { cls := if b then 2 else 1, since := s.now, why, opening := b } } l s (askLeaf n b why u) := by
  rw [← h.now hclk]
  have h1 := (h.modStn (f := fun t => { t with why })).modStn (f := fun t =>
    { t with wait := some { cls := if b then 2 else 1, since := u.now, why, opening := b } })
  exact h1.aside (markOps_kept n _) hl
theorem asksClose {why : Why} (h : StationSet n t l s u) (hl : [.pool] ⊆ l := by decide) (hclk : .clk ∉ l := by decide) :
    StationSet n { t with why, wait := Machine.asksClose s why } l s (Machine.askLeaf n false why u) :=
  h.askLeaf (b := false) (why := why) hl hclk

end StationSet
end Sys2Proof.Machine
end

section
-- One declaration at a time: the whole text elaborated side by side outgrows the memory a check may take.
set_option Elab.async false
/-! PROOF. The door cycle: opening and locking (R175 to R180, R196). -/

namespace Sys2Proof.Machine

open Sys2Proof

variable {n : Nat} {s : State}

/-! ## UNLOCKING (R175, R177) -/

theorem lockOpens_motion (hd : s.engDown .lamp = false) : ∃ m, ((lockOpens n s).ax n).motion = some m ∧ m.kind = .doorOpen ∧ m.op = none := by
  rw [lockOpens, if_neg (by simp [hd])]
  exact beginOpening_motion n _
theorem lockOpens_opens (hd : s.engDown .lamp = false) : ((lockOpens n s).stn n).leaf = .opening ∧ ((lockOpens n s).stn n).kept = some true
    ∧ ((lockOpens n s).stn n).unlockT = none ∧ otherButStep n s (lockOpens n s) := by
  obtain ⟨c, x, a, b, h⟩ := (LeafWork.refl n s).lockOpens hd
  exact ⟨h.field Station.leaf, h.field Station.kept, h.field Station.unlockT, h.others⟩
theorem unlockExpires_faults (hleaf : isLeaf s n = true) (hl : (s.stn n).leaf = .unlocking) (hdue : dueTime (s.stn n).unlockT s = true)
    (hlock : inOn s n .LOCKSW = true) : LeafWork n (faulted "unlock" (s.stn n)) s (unlockExpires n s) := by
  rw [unlockExpires, if_pos ⟨hleaf, hl, hdue⟩, if_pos hlock]
  exact ((LeafWork.refl n s).books (Books.refl s).dropCharge).faultLeaf (by simp [hl])
theorem lockExpires_faults (hleaf : isLeaf s n = true) (hl : (s.stn n).leaf = .locking) (hdue : dueTime (s.stn n).lockT s = true)
    (hlock : inOn s n .LOCKSW = false) (ht : noTurn s n) : LeafWork n (faulted "lock" (s.stn n)) s (lockExpires n s) := by
  rw [lockExpires, if_pos ⟨hleaf, hl, hdue, by simp [hlock]⟩]
  exact (LeafWork.refl n s).leafTrips (turnOf_of_noTurn ht) (by simp [hl])
theorem unlockOut_off (n : Nat) (s : State) :
    (if s.keyIs (.st n) .UNLOCK "OUT1" then ((unlockOut n false s).stn n).buf.out1 else ((unlockOut n false s).stn n).buf.out0) = false
      ∧ bufferedOnly s (unlockOut n false s) ∧ otherStations n s (unlockOut n false s) ∧ KeptBut [.st] s (unlockOut n false s) := by
  have hset : ∀ k, (unlockOut n false s).stn k = if k = n then { s.stn n with
      buf := if s.keyIs (.st n) .UNLOCK "OUT1" then { (s.stn n).buf with out1 := false } else { (s.stn n).buf with out0 := false } } else s.stn k :=
    fun k => stn_modStn s n k _
  refine ⟨?_, fun k => ?_, fun m hm => by rw [hset, if_neg hm], modStn_kept s n _⟩
  · rw [hset, if_pos rfl]
    split <;> rfl
  · rw [hset]
    split
    · next hk => rw [hk]
    · rfl

/-! ## The lock zone (R175, R178, R183) -/

/-- A closing leaf that has reached its lock zone with its step STOWED is LOCKING, or locks. -/
theorem zoneEntry_locks (hstep : stepOk s n = true) : ∃ v,
    LeafWork n (if inOn s n .CLOSEDSW = true then closedNow s n (zoned s n (s.stn n)) else zoned s n (s.stn n)) s v ∧ zoneEntry n s = lockIfMade n v := by
  have h : LeafWork n (s.stn n) s (if (s.stn n).learning.isSome then s else endTraverse n false s) := by
    split
    · exact LeafWork.refl n s
    · exact (LeafWork.refl n s).endTraverse
  refine ⟨_, h.enterLocking rfl, ?_⟩
  unfold zoneEntry
  dsimp only
  rw [if_pos ((h.stepOk rfl n).trans hstep)]
/-- A closing leaf that has reached its lock zone before its step is STOWED stops there. -/
theorem zoneEntry_waits (hstep : stepOk s n = false) : LeafWork n (disarmed { s.stn n with atZone := true }) s (zoneEntry n s) := by
  have h : LeafWork n (s.stn n) s (if (s.stn n).learning.isSome then s else endTraverse n false s) := by
    split
    · exact LeafWork.refl n s
    · exact (LeafWork.refl n s).endTraverse
  unfold zoneEntry
  dsimp only
  rw [if_neg (by simp [h.stepOk rfl n, hstep])]
  exact ((h.modStn (f := fun t => { t with atZone := true })).disarm).rampStop (.inl rfl)
/-- The lock zone entry of a closing leaf with its step STOWED (R178). -/
theorem zoneEntry_stowed (hleaf : isLeaf s n = true) (hstep : stepOk s n = true) :
    ((zoneEntry n s).stn n).armed = false ∧ otherButStep n s (zoneEntry n s)
      ∧ (inOn s n .CLOSEDSW = false → ((zoneEntry n s).stn n).leaf = .locking
        ∧ ((zoneEntry n s).stn n).finalT = some (afterUs (s.stK n .FINALT).toNat s))
      ∧ (inOn s n .CLOSEDSW = true → inOn s n .LOCKSW = false → ((zoneEntry n s).stn n).leaf = .locking ∧ ((zoneEntry n s).stn n).closedMade = true
        ∧ ((zoneEntry n s).stn n).finalT = none ∧ ((zoneEntry n s).stn n).lockT = some (afterUs (s.stK n .LOCKT).toNat s))
      ∧ (bothMade s n = true → (s.stn n).learning = none → noTurn s n → ((zoneEntry n s).stn n).leaf = .closedLocked ∧ ((zoneEntry n s).ax n).pos = 0) := by
  obtain ⟨v, h, hv⟩ := zoneEntry_locks hstep
  have hboth : bothMade v n = bothMade s n := h.bothMade (by split <;> simp) n
  have hparts := h.lockIfMade_parts hleaf
  rw [hv]
  refine ⟨hparts.2.1 (by split <;> simp), hparts.1, fun hc => ?_, fun hc hk => ?_, fun hb hlearn ht => ?_⟩
  · rw [lockIfMade_open (hboth.trans (by simp [bothMade, hc]))]
    rw [if_neg (by simp [hc])] at h
    exact ⟨by simpa using h.field Station.leaf, by simpa using h.field Station.finalT⟩
  · rw [lockIfMade_open (hboth.trans (by simp [bothMade, hk]))]
    rw [if_pos hc] at h
    exact ⟨by simpa using h.field Station.leaf, by simpa using h.field Station.closedMade, by simpa using h.field Station.finalT,
      by simpa using h.field Station.lockT⟩
  · rw [lockIfMade_made ((h.field Station.leaf).trans (by split <;> simp)) (hboth.trans hb)]
    obtain ⟨x, _, h1⟩ := h.lockDone_stays (turnOf_of_noTurn ht) (by split <;> simpa using hlearn)
    exact ⟨by simpa using h1.field Station.leaf, by simpa using h1.pos⟩
theorem zoneReached_enters (hdue : zoneDue s n = true) (he : edgePresses s n = false) : zoneReached n s = zoneEntry n s := by
  rw [zoneReached, if_pos hdue, if_neg (by simp [he])]
theorem zoneReached_reverses (hdue : zoneDue s n = true) (he : edgePresses s n = true) :
    zoneReached n s = settleAxis n (otherObstacle n "EDGE" s) := by
  rw [zoneReached, if_pos hdue, if_pos he]

/-! ## LOCKING (R178) -/

theorem closedIsMade_set (n : Nat) (s : State) : StationSet n { s.stn n with
    cycle := cycleTime (s.stn n) s.now, leafSince := s.now, closedMade := true, finalT := none
    lockT := some (afterUs (s.stK n .LOCKT).toNat s) } [.pool, .crossings] s (closedIsMade n s) :=
  ((StationSet.refl n _ s).modStn (f := fun t => { t with
    cycle := cycleTime t s.now, leafSince := s.now, closedMade := true, finalT := none
    lockT := some (afterUs (s.stK n .LOCKT).toNat s) })).sysDrop.slotTimer
/-- CLOSEDSW has made in LOCKING with LOCKSW open. -/
theorem closedMakes_waits (hc : (s.stn n).closedMade = false) (hlock : inOn s n .LOCKSW = false) : closedMakes n s = closedIsMade n s := by
  have h := (LeafWork.refl n s).closedIsMade
  rw [closedMakes, if_neg (by simp [hc])]
  refine lockIfMade_open ?_
  rw [h.bothMade (by simp)]
  simp [bothMade, hlock]

end Sys2Proof.Machine

namespace Sys2Proof

open Machine

/-- Settles O49, clause by clause of R175's table: what the cycle works on its leaf, and which of the leaf's parts become what. -/
theorem leavesOpenAndLock : Obligations.LeavesOpenAndLock := by
  refine ⟨fun n s hleaf hl hlock hd => ⟨_, rfl, ?_⟩, fun n s hleaf hl hdue hlock => ⟨_, rfl, ?_⟩, fun n s hleaf hl hdue hlock hd => ⟨_, rfl, ?_⟩,
    fun n s hleaf hl hpos => ⟨_, rfl, ?_⟩, fun n s hleaf hl hpos hlearn => ⟨_, rfl, ?_⟩,
    fun n s hleaf hl href hpos hz hm hw he => ⟨_, rfl, ?_⟩, fun n s hleaf hl href hpos hz hm hw he hlearn ht => ⟨_, rfl, ?_⟩,
    fun n s hleaf hc hl hmade hlock => ⟨_, rfl, ?_⟩, fun n s hleaf hl hmade hboth hlearn ht => ⟨_, rfl, ?_⟩,
    fun n s hleaf hl hdue hlock ht => ⟨_, rfl, ?_⟩, fun n s hleaf hl hboth hop hlearn hw => ⟨_, rfl, ?_⟩,
    fun n s hleaf hperm => ⟨_, rfl, ?_⟩⟩
  · -- LOCKSW opens
    rw [if_pos ⟨hleaf, hl, by simp [hlock]⟩]
    obtain ⟨h1, h2, h3, h4⟩ := lockOpens_opens (n := n) hd
    exact ⟨h1, h2, h3, lockOpens_motion hd, h4⟩
  · -- UNLOCKT expires
    have h := unlockExpires_faults hleaf hl hdue hlock
    exact ⟨by simpa using h.field Station.leaf, by simpa using h.field Station.cause, by simpa using h.field Station.wait,
      by simpa using h.field Station.kept, by simpa using h.field Station.unlockT, by simpa using h.field Station.doorOp, h.others⟩
  · -- UNLOCKT expires with LOCKSW open
    rw [unlockExpires, if_pos ⟨hleaf, hl, hdue⟩, if_neg (by simp [hlock])]
    exact lockOpens_opens hd
  · -- the lock zone passed up
    rw [if_pos ⟨hleaf, hl, hpos⟩]
    exact unlockOut_off n s
  · -- OPENPOS
    rw [openReached_eq, if_pos ⟨hleaf, hl, hpos⟩]
    obtain ⟨a, w, h, hnone⟩ := (LeafWork.refl n.val s).openingEnds
    obtain ⟨_, ha⟩ := hnone hlearn
    exact ⟨by simpa using h.field Station.leaf, by simpa using h.field Station.kept, by simpa using h.field Station.armed,
      by simpa using h.field Station.obstacle, by simpa using h.field Station.doorOp, fun hk => (by simpa using h.field Station.autoT : _ = a).trans (ha hk),
      h.others⟩
  · -- the lock zone entry
    rw [zoneReached_enters (by simp [zoneDue, *]) he]
    cases hstep : stepOk s n with
    | true =>
      obtain ⟨h1, h2, h3, h4, h5⟩ := zoneEntry_stowed hleaf hstep
      exact ⟨h1, h2, fun _ => h3, fun _ => h4, fun _ => h5, fun hno => by simp at hno⟩
    | false =>
      have h := zoneEntry_waits hstep
      exact ⟨by simpa using h.field Station.armed, h.others, fun hno => by simp at hno, fun hno => by simp at hno, fun hno => by simp at hno,
        fun _ => ⟨(h.field Station.leaf).trans (by simpa using hl), by simpa using h.field Station.atZone⟩⟩
  · -- an edge at the lock zone
    rw [zoneReached_reverses (by simp [zoneDue, *]) he]
    obtain ⟨w, d, r, x, a, b, h⟩ := (LeafWork.refl n.val s).obstacleReverses (w := "EDGE") hleaf (turnOf_of_noTurn ht)
    exact ⟨by simpa using h.field Station.leaf, by simpa using h.field Station.obstacle, by simpa using h.field Station.armed, h.others⟩
  · -- CLOSEDSW makes
    rw [if_pos ⟨hleaf, hc⟩]
    dsimp only
    rw [if_pos hl, closedMakes_waits hmade hlock]
    have h := closedIsMade_set n.val s
    refine ⟨?_, ?_, ?_, ?_, h.others, h.kept⟩
    all_goals rw [h.own]
    exact hl
  · -- LOCKSW makes
    rw [if_pos ⟨hleaf, hl, hmade, hboth⟩]
    obtain ⟨x, _, h⟩ := (LeafWork.refl n.val s).lockDone_stays (turnOf_of_noTurn ht) hlearn
    exact ⟨by simpa using h.field Station.leaf, by simpa using h.referenced, by simpa using h.pos,
      by simpa using h.field Station.attempts, by simpa using h.field Station.doorOp, by simpa using h.field Station.wait,
      by simpa using h.field Station.lockT, h.others⟩
  · -- LOCKT expires
    have h := lockExpires_faults hleaf hl hdue hlock ht
    exact ⟨by simpa using h.field Station.leaf, by simpa using h.field Station.cause, by simpa using h.field Station.doorOp, h.others⟩
  · -- a forced leaf
    dsimp only
    rw [if_pos ⟨hleaf, hl, by simp [hboth], hop, hlearn, hw⟩]
    have h := (LeafWork.refl n.val s).faultLeaf (c := "forced") (e := e06St n.val) (by simp [hl])
    exact ⟨by simpa using h.field Station.leaf, by simpa using h.field Station.cause, h.others⟩
  · -- permission is lost
    rw [if_pos ⟨hleaf, by simp [hperm]⟩]
    refine ⟨LeafWork.permissionGone_others n s hleaf, fun ho hw => ?_, fun hu hdue hlock => ?_⟩
    · rw [permissionGone_opn ho hw]
      have h := (LeafWork.refl n.val s).permissionFailed.askLeaf (b := false) (why := .permission)
      exact ⟨h.field Station.wait, h.field Station.why, (h.field Station.leaf).trans ho, h.field Station.doorOp⟩
    · rw [permissionGone_unlocking hu hdue]
      obtain ⟨x, h⟩ := ((LeafWork.refl n.val s).permissionFailed.books (Books.refl _).dropCharge).abortUnlock_locked (why := .permission) rfl hlock
      exact ⟨by simpa using h.field Station.leaf, by simpa using h.field Station.doorOp⟩

end Sys2Proof
end

section
-- One declaration at a time: the whole text elaborated side by side outgrows the memory a check may take.
set_option Elab.async false
/-! PROOF. Obstacles, dwells and the step (R181 to R189). -/

namespace Sys2Proof.Machine

open Sys2Proof

variable {n : Nat} {s : State}

/-! ## Force (R186) -/

/-- A sample of the feed's current leaves what its leaf has learned (R185). -/
theorem feedSample_learned (n : Nat) (c : Int) (b : Bool) (s : State) : learned ((feedSample n c s).stn n) b = learned (s.stn n) b := by
  unfold feedSample
  dsimp only
  split
  · simp [learned]
  split
  · simp [learned]
  · split <;> simp [learned]
  · split <;> simp [learned]
  · split <;> simp [learned]
  · simp [learned]
theorem feedSample_limit (n : Nat) (c : Int) (b : Bool) (s : State) : forceLimit (feedSample n c s) n b = forceLimit s n b := by
  have h := (LeafWork.refl n s).feedSample (c := c)
  have hceil : ∀ k top, underCeiling (feedSample n c s) n k top = underCeiling s n k top := fun k top =>
    site_congr h.drives.site (f := (underCeiling · n k top)) fun _ => rfl
  have hprof : ∀ l p, profPoint (feedSample n c s) n l p = profPoint s n l p := fun l p => site_congr h.drives.site (f := (profPoint · n l p)) fun _ => rfl
  have hpos : ((feedSample n c s).stn n).axis.pos = (s.stn n).axis.pos := h.pos
  have href : ((feedSample n c s).stn n).axis.referenced = (s.stn n).axis.referenced := h.referenced
  unfold forceLimit
  dsimp only
  rw [feedSample_learned, hceil, hprof, hpos, href]
/-- The sample of an armed closing leaf: above the threshold for PERSIST it is an obstacle. -/
theorem forceSample_closing {c : Int} (hleaf : isLeaf s n = true) (hl : (s.stn n).leaf = .closing) (ha : (s.stn n).armed = true)
    (hlearn : (s.stn n).learning = none) (hd : s.engDown .lamp = false) : ∃ v,
    LeafWork n { fed c (s.stn n) with forceSince := sinceOf (s.stn n).forceSince (decide (forceLimit s n false < c)) s.now } s v ∧
    forceSample n c s =
      if heldFor (sinceOf (s.stn n).forceSince (decide (forceLimit s n false < c)) s.now) s.now (underCeiling s n .PERSIST .PERSISTMAX).toNat then
        closingObstacle n "FORCE" c (forceLimit s n false) v
      else v := by
  have h := (LeafWork.refl n s).feedSample (c := c)
  have h1 := h.modStn (f := fun t => { t with forceSince := sinceOf t.forceSince (decide (forceLimit s n false < c)) s.now })
  refine ⟨_, h1, ?_⟩
  have hl' : ((feedSample n c s).stn n).leaf = .closing := (h.field Station.leaf).trans hl
  have ha' : ((feedSample n c s).stn n).armed = true := (h.field Station.armed).trans ha
  have hlearn' : ((feedSample n c s).stn n).learning = none := (h.field Station.learning).trans hlearn
  have hnow : (feedSample n c s).now = s.now := site_congr h.drives.site (f := State.now) fun _ => rfl
  unfold forceSample
  rw [if_neg (by simp [hd])]
  dsimp only
  rw [if_neg (by simp [h.isLeaf n, hleaf, hlearn']), decide_eq_false (p := ((feedSample n c s).stn n).leaf = .opening) (by simp [hl']),
    if_neg (by simp [hl', ha']), feedSample_limit, hnow]
  generalize (feedSample n c s).modStn n _ = v at h1 ⊢
  have hceil : underCeiling v n .PERSIST .PERSISTMAX = underCeiling s n .PERSIST .PERSISTMAX :=
    site_congr h1.drives.site (f := (underCeiling · n .PERSIST .PERSISTMAX)) fun _ => rfl
  have hnow' : v.now = s.now := site_congr h1.drives.site (f := State.now) fun _ => rfl
  rw [hceil, hnow', h1.field Station.forceSince, if_neg Bool.false_ne_true]
  rfl

/-! ## The dwell and its end (R189) -/

theorem dwellBegins_set (n : Nat) (s : State) : StationSet n { s.stn n with rdwell := some (afterUs (s.stK n .RDWELL).toNat s) } [.pool, .crossings] s
    (slotTimer n 7 (s.stK n .RDWELL).toNat (s.modStn n fun t => { t with rdwell := some (afterUs (s.stK n .RDWELL).toNat s) })) :=
  ((StationSet.refl n _ s).modStn (f := fun t => { t with rdwell := some (afterUs (s.stK n .RDWELL).toNat s) })).slotTimer
theorem dwellEnds_set (hleaf : isLeaf s n = true) (hl : (s.stn n).leaf = .reversing) (hdue : dueTime (s.stn n).rdwell s = true) :
    StationSet n { s.stn n with rdwell := none, attempts := (s.stn n).attempts + 1, why := .reclose, wait := asksClose s .reclose } [.pool] s (dwellEnds n s) := by
  rw [dwellEnds, if_pos ⟨hleaf, hl, hdue⟩]
  have h : StationSet n { s.stn n with rdwell := none, attempts := (s.stn n).attempts + 1 } [.pool] s
      (sysDrop n 7 (s.modStn n fun t => { t with rdwell := none, attempts := t.attempts + 1 })) :=
    ((StationSet.refl n _ s).modStn (f := fun t => { t with rdwell := none, attempts := t.attempts + 1 })).sysDrop
  exact h.asksClose
theorem autoCloses_set (hleaf : isLeaf s n = true) (hl : (s.stn n).leaf = .opn) (hdue : dueTime (s.stn n).autoT s = true) (hw : (s.stn n).wait = none) :
    StationSet n { s.stn n with autoT := none, why := .autoclose, wait := asksClose s .autoclose } [.pool] s (autoCloses n s) := by
  have h : StationSet n { s.stn n with autoT := none } [.pool] s (sysDrop n 15 (s.modStn n fun t => { t with autoT := none })) :=
    ((StationSet.refl n _ s).modStn (f := fun t => { t with autoT := none })).sysDrop
  rw [autoCloses, if_pos ⟨hleaf, hl, hdue⟩]
  dsimp only
  rw [if_pos (by rw [h.own]; exact hw)]
  exact h.asksClose

/-! ## The step (R181 to R183) -/

theorem stepOut1Deploys_set (hleaf : isLeaf s n = true) (h1 : stepOut1 s n = true) (hl : (s.stn n).leaf = .opening ∨ (s.stn n).leaf = .reversing)
    (href : (s.ax n).referenced = true) (hpos : stCounts s n .STEPDEP ≤ (s.ax n).pos) (ho : (s.stn n).buf.out1 = false) :
    StationSet n { s.stn n with
      step := .deploying, stepSince := s.now, stowT := none, stepT := some (afterUs (s.stK n .STEPT).toNat s), buf := { (s.stn n).buf with out1 := true } }
      [.pool] s (stepOut1Deploys n s) := by
  rw [stepOut1Deploys, if_pos ⟨hleaf, h1, hl, href, hpos, by simp [ho]⟩]
  exact ((StationSet.refl n _ s).modStn (f := fun t => { t with
    step := .deploying, stepSince := s.now, stowT := none, stepT := some (afterUs (s.stK n .STEPT).toNat s) })).sysDrop.modStn
    (f := fun t => { t with buf := { t.buf with out1 := true } })
theorem stepOut1Stows_set (hleaf : isLeaf s n = true) (h1 : stepOut1 s n = true) (hl : (s.stn n).leaf = .closing)
    (hpos : (s.ax n).pos ≤ stCounts s n .STEPSTOW) (ho : (s.stn n).buf.out1 = true) :
    StationSet n { s.stn n with
      stepT := none, step := .stowing, stepSince := s.now, stowT := some (afterUs (s.stK n .STOWT).toNat s), buf := { (s.stn n).buf with out1 := false } }
      [.pool, .crossings] s (stepOut1Stows n s) := by
  rw [stepOut1Stows, if_pos ⟨hleaf, h1, hl, hpos, ho⟩]
  exact (((StationSet.refl n _ s).modStn (f := fun t => { t with stepT := none })).modStn (f := fun t => { t with
    step := .stowing, stepSince := s.now, stowT := some (afterUs (s.stK n .STOWT).toNat s) })).slotTimer.sysDrop.modStn
    (f := fun t => { t with buf := { t.buf with out1 := false } })
theorem stepOut1Deployed_set (hleaf : isLeaf s n = true) (h1 : stepOut1 s n = true) (hstep : (s.stn n).step = .deploying)
    (hdue : dueTime (s.stn n).stepT s = true) (hs : inOn s n .STOWSW = false) :
    StationSet n { s.stn n with
      step := .deployed, stepT := none, cycle := { (s.stn n).cycle with deploy := some (s.now - (s.stn n).stepSince) } } [] s (stepOut1Deployed n s) := by
  rw [stepOut1Deployed, if_pos ⟨hleaf, h1, hstep, hdue, by simp [hs]⟩]
  exact (StationSet.refl n _ s).modStn (f := fun t => { t with
    step := .deployed, stepT := none, cycle := { t.cycle with deploy := some (s.now - t.stepSince) } })
/-- A leaf's step is STOWED (R182, R183). -/
def stepStowed (n : Nat) (s : State) : State :=
  let u := s.modStn n fun t => { t with
    step := .stowed, stowT := none, stepT := none, cycle := if t.step = .stowing then { t.cycle with stow := some (s.now - t.stepSince) } else t.cycle }
  if (s.stn n).finalT = none ∧ (s.stn n).rdwell = none then sysDrop n 7 u else u
theorem stepStowed_works (n : Nat) (s : State) : LeafWork n { s.stn n with step := .stowed, stowT := none, stepT := none } s (stepStowed n s) := by
  have h : LeafWork n { s.stn n with step := .stowed, stowT := none, stepT := none } s (s.modStn n fun t => { t with
      step := .stowed, stowT := none, stepT := none
      cycle := if t.step = .stowing then { t.cycle with stow := some (s.now - t.stepSince) } else t.cycle }) :=
    ((LeafWork.refl n s).modStn (f := fun t => { t with
      step := .stowed, stowT := none, stepT := none
      cycle := if t.step = .stowing then { t.cycle with stow := some (s.now - t.stepSince) } else t.cycle })).reshape rfl
  exact (h.books (Books.refl _).sysDrop).ite h
theorem execStowswMakes_eq (n : Nat) (s : State) : execStowswMakes n s = .next (settle s (
    if isLeaf s n ∧ inOn s n .STOWSW then
      if (s.stn n).atZone ∧ (s.stn n).leaf = .closing then lockIfMade n (askLeaf n false (s.stn n).why (enterLocking n (stepStowed n s)))
      else stepStowed n s
    else s)) := rfl
theorem stowExpires_faults (hleaf : isLeaf s n = true) (hl : (s.stn n).leaf = .closing) (hdue : dueTime (s.stn n).stowT s = true)
    (hs : inOn s n .STOWSW = false) (ht : noTurn s n) : LeafWork n (faulted "step" (s.stn n)) s (stowExpires n s) := by
  rw [stowExpires, if_pos ⟨hleaf, hl, hdue, by simp [hs]⟩]
  exact (LeafWork.refl n s).leafTrips (turnOf_of_noTurn ht) (by simp [hl])

end Sys2Proof.Machine

namespace Sys2Proof

open Machine

/-- Settles O50, clause by clause: what reverses a leaf is one lemma of the cycle's obstacles, a dwell and an OUT1 step's move are changes of one
station, and the rest is a fault or the lock zone's. -/
theorem obstaclesAndSteps : Obligations.ObstaclesAndSteps := by
  refine ⟨fun n s hleaf hl hdue hc hlearn ht => ⟨_, rfl, ?_⟩, fun n c t s hup hleaf hl ha hlearn ht hsince hd => ⟨_, rfl, ?_⟩,
    fun n s he hlearn ht hmade => ⟨_, rfl, ?_⟩, fun n s hleaf hl hre hdw hw => ⟨_, rfl, ?_⟩, fun n s hleaf hl hdue => ⟨_, rfl, ?_⟩,
    fun n s hleaf hl hdue hw => ⟨_, rfl, ?_⟩, fun n s hleaf h1 hl href hpos ho => ⟨_, rfl, ?_⟩, fun n s hleaf h1 hl hpos ho => ⟨_, rfl, ?_⟩,
    fun n s hleaf h1 hstep hdue hs => ⟨_, rfl, ?_⟩, fun n s hleaf hs => ⟨_, execStowswMakes_eq n s, ?_⟩, fun n s hleaf hl hdue hs ht => ⟨_, rfl, ?_⟩⟩
  · -- FINALT expires
    rw [finalExpires, if_pos ⟨hleaf, hl, hdue, by simp [hc]⟩]
    obtain ⟨w, d, r, x, a, b, h⟩ := (LeafWork.refl n.val s).obstacleReverses (w := "FINAL") hleaf (turnOf_of_noTurn ht)
    exact ⟨by simpa using h.field Station.leaf, by simpa using h.field Station.obstacle, by simpa using h.field Station.finalT,
      (h.field Station.reopenTo).trans (by simp [State.ax]), h.others⟩
  · -- force above its threshold
    rw [if_pos hup]
    obtain ⟨v, h, hv⟩ := forceSample_closing (c := c) hleaf hl ha hlearn hd
    rw [hsince] at h hv
    rw [hv]
    split
    · next hheld =>
      obtain ⟨w, d, r, x, a, b, h1⟩ := (h.closingObstacle (w := "FORCE") (c := c) (l := forceLimit s n false)).settleAxis_reopens hleaf (turnOf_of_noTurn ht)
      refine ⟨by simpa using h1.field Station.feed, h1.others, fun _ _ => ⟨by simpa using h1.field Station.leaf, by simpa using h1.field Station.obstacle⟩,
        fun hlim hlt => ?_⟩
      simp [hlim, sinceOf, heldFor] at hheld
      omega
    · next hnot =>
      obtain ⟨w, _, h1⟩ := h.settleAxis_stays (turnOf_of_noTurn ht) (by simp [hl])
      refine ⟨by simpa using h1.field Station.feed, h1.others, fun hlim hle => ?_, fun _ _ => (h1.field Station.leaf).trans (by simpa using hl)⟩
      simp [hlim, sinceOf, heldFor] at hnot
      omega
  · -- an edge pressed
    have hsame : (if (s.stn n).closedMade = true then lockIfMade n s else s) = s := by
      split
      · next hc => exact lockIfMade_open (hmade.resolve_left (by simp [hc]))
      · rfl
    have hleaf : isLeaf s n = true := by
      simp only [edgePresses, Bool.and_eq_true] at he
      exact he.1.1.1
    dsimp only
    rw [hsame, if_pos he]
    obtain ⟨w, d, r, x, a, b, h⟩ := (LeafWork.refl n.val s).obstacleReverses (w := "EDGE") hleaf (turnOf_of_noTurn ht)
    exact ⟨by simpa using h.field Station.leaf, by simpa using h.field Station.obstacle, by simpa using h.field Station.finalT, h.others⟩
  · -- the reopen is complete
    dsimp only
    rw [if_pos ⟨hleaf, hl, hre, hdw, hw⟩]
    split
    · next hlt =>
      have h := dwellBegins_set n.val s
      refine ⟨fun m hm _ => h.others m hm, fun _ => ⟨?_, ?_, h.kept⟩, fun hle => absurd hle (by omega)⟩
      · rw [h.own]
        exact hl
      · rw [h.own]
    · next hnot =>
      have h := ((LeafWork.refl n.val s).holdLeaf (b := some false)).doorFailed (e := e06St n) (c := "obstacle")
      exact ⟨h.others, fun hlt => absurd hlt hnot,
        fun _ => ⟨by simpa using h.field Station.leaf, by simpa using h.field Station.kept, by simpa using h.field Station.doorOp⟩⟩
  · -- RDWELL ends
    have h := dwellEnds_set hleaf hl hdue
    refine ⟨?_, ?_, ?_, ?_, h.others, h.kept⟩
    all_goals rw [h.own]
    exact hl
  · -- AUTOCLOSE expires
    have h := autoCloses_set hleaf hl hdue hw
    refine ⟨?_, ?_, ?_, h.others, h.kept⟩
    all_goals rw [h.own]
    exact hl
  · -- an OUT1 step deploys
    have h := stepOut1Deploys_set hleaf h1 hl href hpos ho
    refine ⟨?_, ?_, ?_, ?_, ?_, ?_, h.others, h.kept⟩
    all_goals rw [h.own]
  · -- an OUT1 step stows
    have h := stepOut1Stows_set hleaf h1 hl hpos ho
    refine ⟨?_, ?_, ?_, ?_, ?_, ?_, h.others, h.kept⟩
    all_goals rw [h.own]
    exact hl
  · -- STEPT elapses
    have h := stepOut1Deployed_set hleaf h1 hstep hdue hs
    refine ⟨?_, ?_, ?_, h.others, h.kept⟩
    all_goals rw [h.own]
  · -- STOWSW makes
    rw [if_pos ⟨hleaf, hs⟩]
    have h := stepStowed_works n.val s
    split
    · next hz =>
      have h1 : LeafWork n.val _ s (askLeaf n.val false (s.stn n.val).why (enterLocking n.val (stepStowed n s))) := (h.enterLocking rfl).askLeaf
      have hparts := h1.lockIfMade_parts hleaf
      refine ⟨hparts.2.2.elim (fun hx => hx.trans (by split <;> simp)) id, hparts.1, fun hno => by simp [hz.1] at hno, fun _ _ hboth => ?_⟩
      rw [lockIfMade_open ((h1.bothMade (by split <;> simp) n.val).trans hboth)]
      exact ⟨(h1.field Station.leaf).trans (by split <;> simp), (h1.field Station.wait).trans (by simp [asksClose])⟩
    · next hz =>
      exact ⟨h.field Station.step, h.others, fun _ => ⟨h.field Station.leaf, h.field Station.wait⟩, fun hat hl => absurd ⟨hat, hl⟩ hz⟩
  · -- STOWT expires
    have h := stowExpires_faults hleaf hl hdue hs ht
    exact ⟨by simpa using h.field Station.leaf, by simpa using h.field Station.cause, by simpa using h.field Station.doorOp, h.others⟩

end Sys2Proof
end

section
-- One declaration at a time: the whole text elaborated side by side outgrows the memory a check may take.
set_option Elab.async false
/-! SUPPORT. OPEN and CLOSE: what their lines read, their first replies, and a station taken over by one (R171, R176, R189, R190). -/

namespace Sys2Proof.Machine

open Sys2Proof

/-! ## What a door command reads of the unit (R170, R200 to R202) -/

/-- What the selection of a door command reads of the unit. -/
def doorView (s : State) : State := { axisView s with line := s.line }
theorem doorView_congr {l : List Part} {s u : State} (hk : KeptBut l s u)
    (hl : ∀ p ∈ [Part.fixed, .clk, .head, .cfg, .st, .sl, .line], p ∉ l := by decide) : doorView u = doorView s := by
  unfold doorView
  rw [axisView_congr hk fun p hp => hl p (by simp at hp ⊢; tauto), show u.line = s.line from hk .line (hl _ (by simp))]

section
variable {s u : State} (h : doorView u = doorView s)
include h
theorem door_congr {α : Type} {f : State → α} (hv : ∀ v, f (doorView v) = f v) : f u = f s := by rw [← hv u, h, hv]
theorem doorNamed_congr (x : StSel) : doorNamed u x = doorNamed s x := door_congr h (f := (doorNamed · x)) fun _ => rfl
theorem openKept_congr (x : StSel) (side : Option Side) (auto : Option Bool) : openKept u x side auto = openKept s x side auto :=
  door_congr h (f := (openKept · x side auto)) fun _ => rfl
theorem closeKept_congr (x : StSel) (side : Option Side) : closeKept u x side = closeKept s x side :=
  door_congr h (f := (closeKept · x side)) fun _ => rfl
end
theorem isRole_congr {s u : State} (h : siteView u = siteView s) (n : Nat) (w : String) : isRole u n w = isRole s n w :=
  site_congr h (f := (isRole · n w)) fun _ => rfl
theorem inOn_congr {s u : State} (h : siteView u = siteView s) {n : Nat} (hi : (u.stn n).inputs = (s.stn n).inputs) (k : Key) :
    inOn u n k = inOn s n k := by
  have hk : swInput u n k = swInput s n k := site_congr h (f := (swInput · n k)) fun _ => rfl
  unfold inOn Station.inp
  rw [hk, hi]
theorem doorNamed_nodup (s : State) (x : StSel) : (doorNamed s x).Nodup := List.nodup_range.filter _
theorem openKept_nodup (s : State) (x : StSel) (side : Option Side) (auto : Option Bool) : (openKept s x side auto).Nodup :=
  (doorNamed_nodup s x).filter _
theorem closeKept_nodup (s : State) (x : StSel) (side : Option Side) : (closeKept s x side).Nodup := (doorNamed_nodup s x).filter _

/-! ## The first replies of a door command (R171, R202) -/

/-- The state in which a door command has begun its operation and said what it keeps and skips. -/
def doorSaid (v : Verb) (named kept : List Nat) (c : Ctx) (g : State) : State :=
  let s := say c (colR "queued" [.n kept.length]) (startOp c v (.door kept [] []) true g).2
  match (named.filter (· ∉ kept)).head? with
  | none => s
  | some f => say c (colR "skipped" [.n (named.filter (· ∉ kept)).length, .obj (.st f)]) s
theorem runDoor_eq (v : Verb) (named kept : List Nat) (part : Nat → Nat → State → State) (c : Ctx) (g : State) :
    runDoor v named kept part c g = finishDoor g.nextOp (forEach kept (part g.nextOp) (doorSaid v named kept c g)) := rfl
theorem LineReady.doorSaid {n : Nat} {l : Line} {s g : State} (h : LineReady n l s g) (hk : KeptBut heardParts s g) (v : Verb) (named kept : List Nat) :
    Started n l v (.door kept [] []) s (doorSaid v named kept (lineCtx l s) g)
      ∧ Heard n s (Machine.doorSaid v named kept (lineCtx l s) g) ((doorReplies named kept).map (shown s n l))
      ∧ KeptBut (.pool :: .ops :: heardParts) s (Machine.doorSaid v named kept (lineCtx l s) g) := by
  obtain ⟨hstarted, hheard, hw⟩ := h.begun (ps := .pool :: .ops :: heardParts) (hk.mono (by decide)) v (.door kept [] [])
    (r := colR "queued" [.n kept.length]) (by simp [colR])
  unfold Machine.doorSaid doorReplies
  dsimp only
  cases hf : (named.filter (· ∉ kept)).head? with
  | none => exact ⟨hstarted, hheard, hw⟩
  | some f =>
    obtain ⟨hheard, hsaid⟩ := hheard.say (c := lineCtx l s) (r := colR "skipped" [.n (named.filter (· ∉ kept)).length, .obj (.st f)])
      h.opn h.free (by simp [colR]) h.port rfl
    exact ⟨hstarted.of_kept hsaid (by simp) (by simp), hheard, hw.trans (hsaid.mono (by decide))⟩

/-! ## A station is taken over (R171, R176, R189, R190) -/

/-- A new door command clears the backstop trips that have no active edge. -/
def backstopsEnd (n : Nat) (s : State) : State :=
  forEach [Lane.a, .b] (fun x s => s.modLaneStn x n fun t => { t with backstop := t.backstop && laneOn s x n .EDGE }) s
theorem backstopsEnd_kept (n : Nat) (s : State) : KeptBut [.camp] s (backstopsEnd n s) := forEach_kept _ _ s fun x v => modLaneStn_kept v x n _
/-- A station without what a door command takes over, and without its cycle's record. -/
def takenPart (t : Station) : Station :=
  { t with doorOp := none, attempts := 0, wait := none, learning := none, traverses := [], points := [], cycle := {} }
/-- A station that a door command has taken over from an earlier command, a wait or a learning run. -/
structure TakenOver (n : Nat) (s u : State) : Prop where
  kept : KeptBut (.camp :: driveParts) s u
  own : takenPart (u.stn n) = takenPart (s.stn n)

namespace TakenOver

variable {n : Nat} {s u v : State}

theorem refl (n : Nat) (s : State) : TakenOver n s s := ⟨KeptBut.refl _ s, rfl⟩
theorem site (h : TakenOver n s u) : siteView u = siteView s := siteView_congr h.kept
theorem now (h : TakenOver n s u) : u.now = s.now := h.kept.now (by decide)
theorem modStn {f : Station → Station} (h : TakenOver n s u) (hf : ∀ t, takenPart (f t) = takenPart t := by intro; rfl) :
    TakenOver n s (u.modStn n f) where
  kept := h.kept.trans ((modStn_kept u n f).mono (by decide))
  own := by rw [stn_modStn, if_pos rfl, hf, h.own]
theorem aside {l : List Part} (h : TakenOver n s u) (g : KeptBut l u v) (hl : l ⊆ .camp :: driveParts := by decide) (hst : .st ∉ l := by decide) :
    TakenOver n s v := ⟨h.kept.trans (g.mono hl), by rw [g.stn hst, h.own]⟩
theorem ite {c : Prop} {_ : Decidable c} (hu : TakenOver n s u) (hv : TakenOver n s v) : TakenOver n s (if c then u else v) := by split <;> assumption
theorem doorFailed {e : Err} {c : String} (h : TakenOver n s u) : TakenOver n s (doorFailed n e c u) := by
  unfold Machine.doorFailed
  split
  · exact h
  · exact ((h.modStn.aside (sayOp_kept _ _ _)).aside (modOp_kept _ _ _)).aside (finishDoor_kept _ _)
theorem learnFails {e : Err} (h : TakenOver n s u) : TakenOver n s (learnFails n e u) := by
  unfold Machine.learnFails
  split
  · exact h
  · exact h.modStn.aside (failOp_kept _ _ _)
theorem leaveWait (h : TakenOver n s u) : TakenOver n s (leaveWait n u) :=
  (ite (h.aside (dropCharge_kept n u)) h).modStn.aside (markOps_kept n _)
theorem takeOver (id n : Nat) (s : State) : TakenOver n s (takeOver id n s) := by
  have h1 := ((refl n s).doorFailed (e := { code := 70 }) (c := "superseded")).learnFails (e := { code := 70 })
  unfold Machine.takeOver
  dsimp only
  generalize Machine.learnFails n { code := 70 } _ = v at h1 ⊢
  refine aside (modStn (f := fun t => { t with doorOp := some id, attempts := 0 }) (ite ?_ h1)) (backstopsEnd_kept n _)
  exact h1.leaveWait.aside (Books.refl _).resumeDone.kept
theorem noteClose {id : Nat} (h : TakenOver n s u) : TakenOver n s (noteClose id n u) := by
  unfold Machine.noteClose
  split
  · exact h
  · exact h.modStn
/-- What is read of the taken station beside its command, its count, its wait, its learning run and its record. -/
theorem field {α : Type} (h : TakenOver n s u) (g : Station → α) (hg : ∀ t, g (takenPart t) = g t := by intro; rfl) : g (u.stn n) = g (s.stn n) := by
  rw [← hg (u.stn n), h.own, hg]
theorem axis (h : TakenOver n s u) : u.ax n = s.ax n := h.field Station.axis
theorem inOn (h : TakenOver n s u) (k : Key) : inOn u n k = inOn s n k := inOn_congr h.site (h.field Station.inputs) k

end TakenOver
end Sys2Proof.Machine
end

section
-- One declaration at a time: the whole text elaborated side by side outgrows the memory a check may take.
set_option Elab.async false
/-! PROOF. OPEN and CLOSE on a leaf under way (R175, R176, R236). -/

namespace Sys2Proof.Machine

open Sys2Proof

variable {id m : Nat} {w : State}

/-- UNLOCKING is left with LOCKSW open: the leaf is LOCKING, and asks to close. -/
theorem LeafWork.abortUnlock_locking {n : Nat} {t : Station} {s u : State} {why : Why} (h : LeafWork n t s u) (hi : t.inputs = (s.stn n).inputs)
    (hlock : Machine.inOn s n .LOCKSW = false) :
    LeafWork n { (if Machine.inOn s n .CLOSEDSW = true then closedNow s n (zoned s n (untimed t)) else zoned s n (untimed t)) with
      why, wait := some { cls := 1, since := s.now, why, opening := false } } s (abortUnlock n why u) := by
  have h1 := (h.unlockOut (b := false)).clearTimers
  unfold abortUnlock
  dsimp only
  rw [h1.inOn hi, if_neg (show ¬ Machine.inOn s n .LOCKSW = true by simp [hlock])]
  exact (h1.enterLocking hi).askLeaf (b := false)
/-- OPEN of a leaf that stands CLOSING turns it. -/
theorem openPart_turns (hrole : isRole w m "STEP" = false) (hl : (w.stn m).leaf = .closing) (hm : (w.ax m).motion = none) :
    ((openPart id m w).stn m).leaf = .opening ∧ ((openPart id m w).stn m).kept = some true ∧ ((openPart id m w).stn m).wait = asksFor w 2 true := by
  have h := TakenOver.takeOver id m w
  unfold openPart
  dsimp only
  generalize takeOver id m w = v at h ⊢
  rw [isRole_congr h.site, hrole, if_neg Bool.false_ne_true, show (v.stn m).leaf = .closing from (h.field Station.leaf).trans hl]
  have h1 := (LeafWork.refl m v).turnLeaf (b := true) (why := .command) (by rw [h.axis]; exact hm)
  exact ⟨(h1.field Station.leaf).trans (by simp), (h1.field Station.kept).trans (by simp), (h1.field Station.wait).trans (by simp [asksFor, h.now])⟩

/-- What a CLOSE makes of the leaf it has taken over (R175, R176). -/
def closesLeaf (m : Nat) (v : State) : State :=
  match (v.stn m).leaf with
  | .closedLocked => doorReached m (endSearch m v)
  | .closing | .locking => if (v.ax m).motion.isNone && (v.stn m).wait.isNone && !(v.stn m).atZone then askLeaf m false .command v else v
  | .reversing => v
  | .unlocking => abortUnlock m .command v
  | .opening => turnLeaf m false .command v
  | .fault => askLeaf m false .command (askOn m .fd v)
  | _ => askLeaf m false .command v
theorem closePart_eq (hrole : isRole w m "STEP" = false) (hripe : ripe m w = w) :
    ∃ v, TakenOver m w v ∧ closePart id m w = closesLeaf m v := by
  have h := (TakenOver.takeOver id m w).noteClose (id := id)
  refine ⟨_, h, ?_⟩
  unfold closePart closesLeaf
  dsimp only
  rw [hripe, isRole_congr h.site, hrole]
  exact if_neg Bool.false_ne_true
/-- CLOSE of a leaf that stands OPENING turns it. -/
theorem closePart_turns (hrole : isRole w m "STEP" = false) (hl : (w.stn m).leaf = .opening) (hm : (w.ax m).motion = none)
    (hpos : (w.ax m).pos < openPos w m) :
    ((closePart id m w).stn m).leaf = .closing ∧ ((closePart id m w).stn m).kept = some false ∧ ((closePart id m w).stn m).wait = asksFor w 1 false := by
  obtain ⟨v, h, hv⟩ := closePart_eq (id := id) hrole (ripe_calm (fun _ => hpos) (by simp [hl]))
  have h1 := (LeafWork.refl m v).turnLeaf (b := false) (why := .command) (by rw [h.axis]; exact hm)
  rw [hv, closesLeaf, show (v.stn m).leaf = .opening from (h.field Station.leaf).trans hl]
  exact ⟨(h1.field Station.leaf).trans (by simp), (h1.field Station.kept).trans (by simp), (h1.field Station.wait).trans (by simp [asksFor, h.now])⟩
/-- CLOSE of a leaf that is UNLOCKING leaves it, by its LOCKSW. -/
theorem closePart_unlocking (hrole : isRole w m "STEP" = false) (hl : (w.stn m).leaf = .unlocking) (hdue : dueTime (w.stn m).unlockT w = false) :
    (inOn w m .LOCKSW = true → ((closePart id m w).stn m).leaf = .closedLocked ∧ ((closePart id m w).stn m).wait = none)
      ∧ (inOn w m .LOCKSW = false → ((closePart id m w).stn m).leaf = .locking ∧ ((closePart id m w).stn m).wait = asksFor w 1 false) := by
  obtain ⟨v, h, hv⟩ := closePart_eq (id := id) hrole (ripe_calm (by simp [hl]) fun _ => hdue)
  rw [hv, closesLeaf, show (v.stn m).leaf = .unlocking from (h.field Station.leaf).trans hl]
  refine ⟨fun hlock => ?_, fun hlock => ?_⟩
  · obtain ⟨x, h1⟩ := (LeafWork.refl m v).abortUnlock_locked (why := .command) rfl ((h.inOn .LOCKSW).trans hlock)
    exact ⟨(h1.field Station.leaf).trans (by simp), (h1.field Station.wait).trans (by simp)⟩
  · have h1 := (LeafWork.refl m v).abortUnlock_locking (why := .command) rfl ((h.inOn .LOCKSW).trans hlock)
    exact ⟨(h1.field Station.leaf).trans (by split <;> simp), (h1.field Station.wait).trans (by simp [asksFor, h.now])⟩
/-- CLOSE of a leaf in FAULT commands its feed on, as an ON that clears its trips, before its close. -/
theorem closePart_fault (hrole : isRole w m "STEP" = false) (hl : (w.stn m).leaf = .fault) :
    ((closePart id m w).stn m).buf.fd = true ∧ Sw.fd ∈ ((closePart id m w).stn m).buf.fresh
      ∧ ((closePart id m w).stn m).wait = asksFor w 1 false := by
  obtain ⟨v, h, hv⟩ := closePart_eq (id := id) hrole (ripe_calm (by simp [hl]) (by simp [hl]))
  have h1 : StationSet m _ [.pool] v (askLeaf m false .command (askOn m .fd v)) :=
    ((StationSet.refl m [.pool] v).modStn.modStn (f := fun t => { t with
      buf := { t.buf with fresh := if .fd ∈ t.buf.fresh then t.buf.fresh else t.buf.fresh ++ [.fd] } })).askLeaf (b := false) (why := .command)
  rw [hv, closesLeaf, show (v.stn m).leaf = .fault from (h.field Station.leaf).trans hl, h1.own]
  refine ⟨rfl, ?_, ?_⟩
  · dsimp only
    split
    · assumption
    · simp
  · simp [asksFor, h.now]

/-- The state in which a door command has said its first replies reads as the one before its line. -/
structure DoorReady (s w : State) : Prop where
  site : siteView w = siteView s
  stn : ∀ k, w.stn k = s.stn k

namespace DoorReady

variable {s : State}

theorem ax (h : DoorReady s w) (k : Nat) : w.ax k = s.ax k := by unfold State.ax; rw [h.stn]
theorem role (h : DoorReady s w) (k : Nat) (x : String) : isRole w k x = isRole s k x := isRole_congr h.site k x
theorem now (h : DoorReady s w) : w.now = s.now := site_congr h.site (f := State.now) fun _ => rfl
theorem openPos (h : DoorReady s w) (k : Nat) : openPos w k = openPos s k := site_congr h.site (f := (Machine.openPos · k)) fun _ => rfl
theorem due (h : DoorReady s w) (t : Option Int) : dueTime t w = dueTime t s := site_congr h.site (f := (dueTime t ·)) fun _ => rfl
theorem inOn (h : DoorReady s w) (k : Nat) (x : Key) : inOn w k x = inOn s k x := inOn_congr h.site (by rw [h.stn]) x
theorem asksFor (h : DoorReady s w) (cls : Nat) (b : Bool) : asksFor w cls b = asksFor s cls b := by simp only [Machine.asksFor, h.now]

end DoorReady

/-- A door command that keeps one station works on it alone. -/
theorem runDoor_one {v : Verb} {named : List Nat} {part : Nat → Nat → State → State} {l : Line} {n : Nat} {s g : State} (hin : LineReady n l s g)
    (hk : KeptBut heardParts s g) : ∃ w, DoorReady s w ∧ (runDoor v named [m] part (lineCtx l s) g).stn m = (part s.nextOp m w).stn m := by
  obtain ⟨-, -, hw⟩ := hin.doorSaid hk v named [m]
  refine ⟨doorSaid v named [m] (lineCtx l s) g, ⟨siteView_congr hw, hw.stn (by decide)⟩, ?_⟩
  rw [runDoor_eq, hin.next]
  exact (finishDoor_kept _ _).stn (by simp) m

/-- Settles O24: a door command takes its leaf over (`TakenOver`), and the leaf turns, leaves UNLOCKING, or asks with its feed on. -/
theorem doorCommandsTurn : Obligations.DoorCommandsTurn := by
  refine ⟨fun l sts side auto m n s h hone hrole hl hm => does_of_taken h rfl ?_, fun l sts side m n s h hone hrole => does_of_taken h rfl ?_⟩
  · have hin := lineReady_of_taken h
    have hk := lineGo_kept_plain n l (openSpec sts side auto) s hin.port rfl
    generalize lineGo n l (openSpec sts side auto) s = g at hin hk ⊢
    dsimp only [openSpec]
    rw [openKept_congr (doorView_congr hk), hone]
    obtain ⟨w, hw, hu⟩ := runDoor_one (v := .opn sts side auto) (named := doorNamed g sts) (part := openPart) (m := m) hin hk
    rw [hu, ← hw.asksFor]
    exact openPart_turns ((hw.role m _).trans hrole) (by rw [hw.stn]; exact hl) (by rw [hw.ax]; exact hm)
  · have hin := lineReady_of_taken h
    have hk := lineGo_kept_plain n l (closeSpec sts side) s hin.port rfl
    generalize lineGo n l (closeSpec sts side) s = g at hin hk ⊢
    dsimp only [closeSpec]
    rw [closeKept_congr (doorView_congr hk), hone]
    obtain ⟨w, hw, hu⟩ := runDoor_one (v := .cls sts side) (named := doorNamed g sts) (part := closePart) (m := m) hin hk
    have hrole' := (hw.role m _).trans hrole
    rw [hu, ← hw.asksFor, ← hw.stn m, ← hw.ax m, ← hw.openPos m, ← hw.due, ← hw.inOn]
    exact ⟨fun hl hm hpos => closePart_turns hrole' hl hm hpos, fun hl hdue => (closePart_unlocking hrole' hl hdue).1,
      fun hl hdue => (closePart_unlocking hrole' hl hdue).2, fun hl => closePart_fault hrole' hl⟩

end Sys2Proof.Machine
end

section
-- One declaration at a time: the whole text elaborated side by side outgrows the memory a check may take.
set_option Elab.async false
/-! PROOF. OPEN and CLOSE of leaves that stand: every kept leaf asks for admission (R171, R175, R189, R300). -/

namespace Sys2Proof.Machine

open Sys2Proof

variable {id n : Nat} {b : Bool} {s u w : State}

/-! ## One station's part -/

/-- A station that nothing holds: no command, no wait, no learning run. -/
def Idle (t : Station) : Prop := t.doorOp = none ∧ t.wait = none ∧ t.learning = none
/-- A door command's part on a station: it takes the station over, and the leaf asks for admission in a direction. -/
def AsksPart (id : Nat) (b : Bool) (n : Nat) (s u : State) : Prop :=
  ∃ y c, KeptBut [.st, .camp] s y ∧ (∀ k, y.stn k = if k = n then { s.stn n with doorOp := some id, attempts := 0, cycle := c } else s.stn k)
    ∧ u = askLeaf n b .command y

theorem takeOver_idle (id : Nat) (h : Idle (s.stn n)) :
    takeOver id n s = backstopsEnd n (s.modStn n fun t => { t with doorOp := some id, attempts := 0 }) := by
  obtain ⟨hop, hw, hl⟩ := h
  have hfail : doorFailed n { code := 70 } "superseded" s = s := by
    unfold doorFailed
    rw [hop]
  have hlearn : learnFails n { code := 70 } s = s := by
    unfold learnFails
    rw [hl]
  unfold takeOver
  dsimp only
  rw [hfail, hlearn, if_neg (by simp [hw])]
  rfl
theorem takeOver_idle_stn (id : Nat) (h : Idle (s.stn n)) (k : Nat) :
    (takeOver id n s).stn k = if k = n then { s.stn n with doorOp := some id, attempts := 0 } else s.stn k := by
  rw [takeOver_idle id h, (backstopsEnd_kept n _).stn (by simp), stn_modStn]
theorem takeOver_idle_kept (id : Nat) (h : Idle (s.stn n)) : KeptBut [.st, .camp] s (takeOver id n s) := by
  rw [takeOver_idle id h]
  exact ((modStn_kept s n _).mono (by simp)).trans ((backstopsEnd_kept n _).mono (by simp))
theorem openPart_asks (hrole : isRole s n "STEP" = false) (hidle : Idle (s.stn n)) (href : (s.stn n).stepRefs = false)
    (hl : (s.stn n).leaf = .closedLocked ∨ (s.stn n).leaf = .held) : AsksPart id true n s (openPart id n s) := by
  have hk := takeOver_idle_kept id hidle
  have hstn := takeOver_idle_stn id hidle
  have hown : (takeOver id n s).stn n = { s.stn n with doorOp := some id, attempts := 0 } := (hstn n).trans (if_pos rfl)
  refine ⟨takeOver id n s, (s.stn n).cycle, hk, hstn, ?_⟩
  unfold openPart
  dsimp only
  rw [isRole_congr (siteView_congr hk), hrole, if_neg Bool.false_ne_true]
  have href' : ¬ ((takeOver id n s).stn n).stepRefs = true := by simp [hown, href]
  have hl' : ((takeOver id n s).stn n).leaf = (s.stn n).leaf := by rw [hown]
  rcases hl with hl | hl <;> rw [hl', hl] <;> exact if_neg href'
theorem closePart_asks (hrole : isRole s n "STEP" = false) (hidle : Idle (s.stn n)) (hl : (s.stn n).leaf = .opn ∨ (s.stn n).leaf = .held) :
    AsksPart id false n s (closePart id n s) := by
  have hripe : ripe n s = s := ripe_calm (fun h => by simp [h] at hl) fun h => by simp [h] at hl
  have hnote : ∃ c, KeptBut [.st, .camp] s (noteClose id n (takeOver id n s)) ∧ ∀ k, (noteClose id n (takeOver id n s)).stn k =
      if k = n then { s.stn n with doorOp := some id, attempts := 0, cycle := c } else s.stn k := by
    have hstn := takeOver_idle_stn id hidle
    unfold noteClose
    split
    · exact ⟨(s.stn n).cycle, takeOver_idle_kept id hidle, hstn⟩
    · next o _ =>
      refine ⟨{ (s.stn n).cycle with closeSession := portByte o.port, closeTag := o.tag }, (takeOver_idle_kept id hidle).trans ((modStn_kept _ n _).mono (by simp)), fun k => ?_⟩
      rw [stn_modStn, hstn, hstn, if_pos rfl]
      split <;> rfl
  obtain ⟨c, hk, hstn⟩ := hnote
  refine ⟨_, c, hk, hstn, ?_⟩
  unfold closePart
  dsimp only
  rw [hripe, isRole_congr (siteView_congr hk), hrole, if_neg Bool.false_ne_true]
  have hl' : ((noteClose id n (takeOver id n s)).stn n).leaf = (s.stn n).leaf := by rw [hstn, if_pos rfl]
  rcases hl with hl | hl <;> rw [hl', hl]

/-! ## Every part -/

/-- A list of stations has been taken over by a command, and each asks for admission in a direction; no other station has changed. -/
structure DoorsAsked (id : Nat) (b : Bool) (l : List Nat) (s u : State) : Prop where
  kept : KeptBut [.st, .camp, .pool] s u
  asked : ∀ k ∈ l, ∃ c, u.stn k = { s.stn k with
    doorOp := some id, attempts := 0, cycle := c, why := .command, wait := asksFor s (if b then 2 else 1) b }
  others : ∀ k, k ∉ l → u.stn k = s.stn k

theorem AsksPart.asked (h : AsksPart id b n s u) : DoorsAsked id b [n] s u := by
  obtain ⟨y, c, hk, hstn, rfl⟩ := h
  have hask := (StationSet.refl n [.pool] y).askLeaf (b := b) (why := .command)
  refine ⟨(hk.mono (by simp)).trans (hask.kept.mono (by simp)), fun k hmem => ?_, fun k hne => ?_⟩
  · obtain rfl := List.mem_singleton.1 hmem
    refine ⟨c, ?_⟩
    rw [hask.own, hstn, if_pos rfl, asksFor, hk.now (by simp)]
  · have hkn : k ≠ n := fun h => hne (List.mem_singleton.2 h)
    rw [hask.others k hkn, hstn, if_neg hkn]
theorem forEach_asks {part : Nat → Nat → State → State} {q : Station → Prop}
    (hpart : ∀ n s, isRole s n "STEP" = false → q (s.stn n) → AsksPart id b n s (part id n s)) {l : List Nat} (hl : l.Nodup)
    (hq : ∀ m ∈ l, isRole s m "STEP" = false ∧ q (s.stn m)) : DoorsAsked id b l s (forEach l (part id) s) := by
  induction l generalizing s with
  | nil => exact ⟨KeptBut.refl _ s, fun k hk => by simp at hk, fun _ _ => rfl⟩
  | cons m l ih =>
    obtain ⟨hm, hl⟩ := List.nodup_cons.1 hl
    obtain ⟨hrole, hqm⟩ := hq m (by simp)
    have h1 := (hpart m s hrole hqm).asked
    have hsame : ∀ k, k ≠ m → (part id m s).stn k = s.stn k := fun k hk => h1.others k (by simpa using hk)
    have h2 := ih hl (s := part id m s) fun k hk => by
      obtain ⟨hr, hqk⟩ := hq k (by simp [hk])
      exact ⟨(isRole_congr (siteView_congr h1.kept) k _).trans hr, by rwa [hsame k fun h => hm (h ▸ hk)]⟩
    rw [forEach_cons]
    refine ⟨h1.kept.trans h2.kept, fun k hk => ?_, fun k hk => ?_⟩
    · rcases List.mem_cons.1 hk with rfl | hk
      · obtain ⟨c, hc⟩ := h1.asked k (by simp)
        exact ⟨c, (h2.others k hm).trans hc⟩
      · obtain ⟨c, hc⟩ := h2.asked k hk
        refine ⟨c, ?_⟩
        rw [hc, hsame k fun h => hm (h ▸ hk), asksFor, asksFor, h1.kept.now (by simp)]
    · obtain ⟨hkm, hkl⟩ := not_or.1 (mt List.mem_cons.2 hk)
      exact (h2.others k hkl).trans (hsame k hkm)

/-! ## The command's entry and its operation (R50, R58) -/

section
variable {i : Nat} {l : Line} {v : Verb} {p : Prog} {kept : List Nat}

theorem Started.asksPart (h : Started i l v p s w) (ha : AsksPart id b n w u) : Started i l v p s u := by
  obtain ⟨y, c, hk, -, rfl⟩ := ha
  exact (((h.of_kept hk (by simp) (by simp)).of_kept (modStn_kept y n _) (by simp) (by simp)).of_kept (modStn_kept _ n _) (by simp) (by simp)).markOps n
theorem Started.asksPart_waiting (h : Started i l v (.door kept [] []) s w) (hid : idsFresh s) (hn : n ∈ kept) (ha : AsksPart id b n w u) :
    begunWaiting i l s u v (.door kept [] []) := by
  obtain ⟨y, c, hk, -, rfl⟩ := ha
  exact ((h.of_kept hk (by simp) (by simp)).of_kept (modStn_kept y n _) (by simp) (by simp)).beginWait hid (fun _ => hn) _ _ _
theorem Started.forEach_asks {part : Nat → Nat → State → State} {q : Station → Prop}
    (hpart : ∀ n s, isRole s n "STEP" = false → q (s.stn n) → AsksPart id b n s (part id n s)) {ks : List Nat} (hks : ks.Nodup) (hsub : ks ⊆ kept)
    (hq : ∀ m ∈ ks, isRole w m "STEP" = false ∧ q (w.stn m)) (h : Started i l v (.door kept [] []) s w) (hid : idsFresh s) :
    Started i l v (.door kept [] []) s (forEach ks (part id) w)
      ∧ (ks ≠ [] → begunWaiting i l s (forEach ks (part id) w) v (.door kept [] [])) := by
  induction ks generalizing w with
  | nil => exact ⟨h, fun hne => absurd rfl hne⟩
  | cons m ks ih =>
    obtain ⟨hm, hnd⟩ := List.nodup_cons.1 hks
    obtain ⟨hrole, hqm⟩ := hq m (by simp)
    have ha := hpart m w hrole hqm
    have hasked := ha.asked
    obtain ⟨hlast, hwait⟩ := ih hnd (fun k hk => hsub (by simp [hk])) (w := part id m w) (fun k hk => by
      obtain ⟨hr, hqk⟩ := hq k (by simp [hk])
      refine ⟨(isRole_congr (siteView_congr hasked.kept) k _).trans hr, ?_⟩
      rwa [hasked.others k (by simpa using fun h : k = m => hm (h ▸ hk))]) (h.asksPart ha)
    rw [forEach_cons]
    refine ⟨hlast, fun _ => ?_⟩
    cases ks with
    | nil => exact h.asksPart_waiting hid (hsub (by simp)) ha
    | cons k ks => exact hwait (by simp)
/-- A door command whose stations have yet to end goes on. -/
theorem Started.finishDoor_goes (h : Started i l v (.door kept [] []) s w) (hid : idsFresh s) (hne : kept ≠ []) : finishDoor s.nextOp w = w := by
  obtain ⟨segs, ho⟩ := h.found hid
  obtain ⟨k, ks, rfl⟩ := List.exists_cons_of_ne_nil hne
  unfold finishDoor
  rw [ho]
  rfl
/-- The word of a door command's final reply (R171). -/
def doorWord : Verb → String
  | .cls .. => "close"
  | _ => "open"
/-- A door command that keeps no station ends at once. -/
theorem Started.finishDoor_none (h : Started i l v (.door [] [] []) s w) (hid : idsFresh s) :
    finishDoor s.nextOp w = finOp s.nextOp (eqR (doorWord v) [.n 0]) w := by
  obtain ⟨segs, ho⟩ := h.found hid
  unfold finishDoor doorWord
  rw [ho]
  rfl
end

/-! ## The whole command -/

/-- A door command whose kept stations each ask for admission (R171, R175, R300). -/
theorem runDoor_asks {part : Nat → Nat → State → State} {q : Station → Prop} {l : Line} {v : Verb} {named kept : List Nat} {g : State}
    (hpart : ∀ n s, isRole s n "STEP" = false → q (s.stn n) → AsksPart (State.nextOp g) b n s (part g.nextOp n s)) (hnd : kept.Nodup)
    (hq : ∀ m ∈ kept, isRole s m "STEP" = false ∧ q (s.stn m)) (hin : LineReady n l s g) (hk : KeptBut heardParts s g)
    (hu : u = runDoor v named kept part (lineCtx l s) g) :
    (∀ m ∈ kept, (u.stn m).wait = asksFor s (if b then 2 else 1) b ∧ (u.stn m).doorOp = some s.nextOp ∧ (u.stn m).attempts = 0
        ∧ (u.stn m).leaf = (s.stn m).leaf)
      ∧ (∀ k, k ∉ kept → u.stn k = s.stn k) ∧ KeptBut (.st :: .pool :: .ops :: .camp :: .sup :: heardParts) s u
      ∧ (idsFresh s → kept ≠ [] → begunWaiting n l s u v (.door kept [] []) ∧ answeredAll n l s u (doorReplies named kept))
      ∧ (idsFresh s → kept = [] → u.ops = s.ops ∧ answeredAll n l s u (doorReplies named [] ++ [eqR (doorWord v) [.n 0]])) := by
  obtain ⟨hstarted, hheard, hw⟩ := hin.doorSaid hk v named kept
  rw [runDoor_eq] at hu
  generalize doorSaid v named kept (lineCtx l s) g = w at hstarted hheard hw hu
  have hstn := hw.stn (by decide)
  have hq' : ∀ m ∈ kept, isRole w m "STEP" = false ∧ q (w.stn m) := fun m hm => by
    obtain ⟨hr, hqm⟩ := hq m hm
    exact ⟨(isRole_congr (siteView_congr hw) m _).trans hr, by rwa [hstn]⟩
  have hasked := forEach_asks hpart hnd hq'
  have hall : KeptBut (.st :: .pool :: .ops :: .camp :: .sup :: heardParts) s (forEach kept (part g.nextOp) w) :=
    (hw.mono (by decide)).trans (hasked.kept.mono (by decide))
  have hend := finishDoor_kept g.nextOp (forEach kept (part g.nextOp) w)
  have hust : ∀ k, u.stn k = (forEach kept (part g.nextOp) w).stn k := fun k => by rw [hu]; exact hend.stn (by simp) k
  refine ⟨fun m hm => ?_, fun k hm => ?_, ?_, fun hid hne => ?_, fun hid hnil => ?_⟩
  · obtain ⟨c, hc⟩ := hasked.asked m hm
    rw [hust, hc, hstn, asksFor, asksFor, hw.now (by decide)]
    exact ⟨rfl, congrArg some hin.next, rfl, rfl⟩
  · rw [hust, hasked.others k hm, hstn]
  · rw [hu]
    exact hall.trans (hend.mono (by decide))
  · obtain ⟨hlast, hwait⟩ := hstarted.forEach_asks hpart hnd (fun _ hm => hm) hq' hid
    rw [hin.next] at *
    rw [hlast.finishDoor_goes hid hne] at hu
    rw [hu]
    exact ⟨hwait hne, (hheard.of_kept hasked.kept (by simp)).out⟩
  · subst hnil
    rw [hin.next, forEach_nil, hstarted.finishDoor_none hid] at hu
    obtain ⟨hover, hops, -⟩ := hstarted.over hin hid hheard (r := eqR (doorWord v) [.n 0]) (by simp [eqR])
    rw [hu]
    exact ⟨hops, by rw [answeredAll, hover.out, List.map_append]; rfl⟩

/-- Settles O23: each part asks for admission (`openPart_asks`, `closePart_asks`), part by part in address order (`runDoor_asks`). -/
theorem doorsAskAdmission : Obligations.DoorsAskAdmission := by
  refine ⟨fun l sts side auto n s h hq => does_of_taken h rfl ?_, fun l sts side n s h hq => does_of_taken h rfl ?_⟩
  · have hin := lineReady_of_taken h
    have hk := lineGo_kept_plain n l (openSpec sts side auto) s hin.port rfl
    generalize lineGo n l (openSpec sts side auto) s = g at hin hk ⊢
    refine runDoor_asks (b := true) (part := openPart)
      (q := fun t => Idle t ∧ t.stepRefs = false ∧ (t.leaf = .closedLocked ∨ t.leaf = .held)) (g := g) ?_ (openKept_nodup s sts side auto) ?_ hin hk ?_
    · exact fun n s hr ⟨hidle, href, hl⟩ => openPart_asks hr hidle href hl
    · intro m hm
      obtain ⟨hr, hop, hw, hlearn, href, hl⟩ := hq m hm
      exact ⟨hr, ⟨hop, hw, hlearn⟩, href, hl⟩
    · dsimp only [openSpec]
      rw [openKept_congr (doorView_congr hk), doorNamed_congr (doorView_congr hk)]
  · have hin := lineReady_of_taken h
    have hk := lineGo_kept_plain n l (closeSpec sts side) s hin.port rfl
    generalize lineGo n l (closeSpec sts side) s = g at hin hk ⊢
    refine runDoor_asks (b := false) (part := closePart) (q := fun t => Idle t ∧ (t.leaf = .opn ∨ t.leaf = .held)) (g := g) ?_
      (closeKept_nodup s sts side) ?_ hin hk ?_
    · exact fun n s hr ⟨hidle, hl⟩ => closePart_asks hr hidle hl
    · intro m hm
      obtain ⟨hr, hop, hw, hlearn, hl⟩ := hq m hm
      exact ⟨hr, ⟨hop, hw, hlearn⟩, hl⟩
    · dsimp only [closeSpec]
      rw [closeKept_congr (doorView_congr hk), doorNamed_congr (doorView_congr hk)]

end Sys2Proof.Machine
end

section
-- One declaration at a time: the whole text elaborated side by side outgrows the memory a check may take.
set_option Elab.async false
/-! SUPPORT. What decides how a session's buffer takes a line stays, through the replies and reports that ISOLATE brings about (R98, R103, R107). -/

namespace Sys2Proof.Machine

open Sys2Proof

/-- What decides how a session's buffer takes a line: whether it is open, what it holds back, and its form (R98, R103). -/
def linePart (x : Session) : Session := { st := x.st, heldBack := x.heldBack, rcheck := x.rcheck, mode := x.mode }
theorem linePart_congr {x y : Session} (h : linePart x = linePart y) :
    x.st = y.st ∧ x.heldBack = y.heldBack ∧ x.rcheck = y.rcheck ∧ x.mode = y.mode := by
  simpa [linePart, and_left_comm, and_assoc, and_comm] using h
/-- A session that holds nothing back takes lines as it did. -/
def Listens (n : Nat) (s u : State) : Prop := (s.ses n).heldBack = [] → linePart (u.ses n) = linePart (s.ses n)

namespace Listens

variable {n m : Nat} {s u v : State}

theorem refl (n : Nat) (s : State) : Listens n s s := fun _ => rfl
theorem free (h : Listens n s u) (hb : (s.ses n).heldBack = []) : (u.ses n).heldBack = [] :=
  (linePart_congr (h hb)).2.1.trans hb
theorem trans (h : Listens n s u) (g : Listens n u v) : Listens n s v := fun hb => (g (h.free hb)).trans (h hb)
theorem of_kept {l : List Part} (h : Listens n s u) (hk : KeptBut l u v) (hl : .sess ∉ l := by decide) : Listens n s v :=
  h.trans fun _ => by rw [hk.ses hl]
theorem ite {c : Prop} {_ : Decidable c} (hu : Listens n s u) (hv : Listens n s v) : Listens n s (if c then u else v) := by split <;> assumption
theorem forEach {α : Type} {l : List α} {f : α → State → State} (h : Listens n s u) (hf : ∀ a v, Listens n v (f a v)) :
    Listens n s (forEach l f u) := by
  induction l generalizing u with
  | nil => exact h
  | cons a l ih => exact ih (h.trans (hf a u))

/-! ## Lines sent (R101, R107, R117) -/

theorem modSes {f : Session → Session} (h : Listens n s u) (k : Nat) (hf : ∀ x, x.heldBack = [] → linePart (f x) = linePart x) :
    Listens n s (u.modSes k f) :=
  h.trans fun hb => by
    rw [ses_modSes]
    split
    · next hk => rw [hk] at hb ⊢; exact hf _ hb
    · rfl
theorem put_linePart {x : Session} (r : Reply) (hb : x.heldBack = []) : linePart (x.put r) = linePart x := by
  simp only [Session.put, Session.putFor, hb, List.not_mem_nil, and_false, if_false]
  split <;> simp [linePart, hb]
theorem send {p : Port} {r : Reply} (h : Listens n s u) : Listens n s (send p r u) := by
  cases p with
  | session k => exact ite h (h.modSes k fun _ hb => put_linePart r hb)
  | supervisor => exact ite h (h.of_kept (modSup_kept u _))
theorem remember {p : Port} {t : Option Nat} {r : Reply} (h : Listens n s u) : Listens n s (remember p t r u) := by
  cases t with
  | none => exact h
  | some t => cases p with
    | session k => exact h.modSes k fun _ _ => rfl
    | supervisor => exact h.of_kept (modSup_kept u _)
theorem sayIn {k : Nat} {c : Ctx} {r : Reply} (h : Listens n s u) : Listens n s (sayIn k c r u) := by
  induction k generalizing c r with
  | zero => exact h
  | succ k ih =>
    unfold Machine.sayIn
    split
    · exact h.send
    split
    · exact h.send
    split
    · exact h.send
    · exact ite h ih
theorem sayOp {id : Nat} {r : Reply} (h : Listens n s u) : Listens n s (sayOp id r u) := by
  unfold Machine.sayOp
  split
  · exact h
  · exact h.sayIn
theorem dropOp {o : Op} (h : Listens n s u) : Listens n s (dropOp o u) := h.of_kept (dropOp_kept o u)
theorem modOp {k : Nat} {f : Op → Op} (h : Listens n s u) : Listens n s (u.modOp k f) := h.of_kept (modOp_kept u k f)
theorem suspects {b : Bool} {k : Nat} (h : Listens n s u) : Listens n s (u.modSes k fun x => { x with suspect := b }) := h.modSes k fun _ _ => rfl
theorem finIn {k : Nat} {c : Ctx} {r : Reply} (h : Listens n s u) : Listens n s (finIn k c r u) := by
  induction k generalizing c r u with
  | zero => exact h
  | succ k ih =>
    unfold Machine.finIn
    split
    · exact h.send.remember
    split
    · exact h
    dsimp only
    split
    · split
      · refine ih ?_
        split
        · exact h.send.modOp.dropOp.suspects
        · exact h.send.modOp.dropOp
      · exact ite (ih h.send.modOp.dropOp.suspects) h.send.modOp
    · split
      · exact h
      · exact ite (ite (ih h.modOp.sayIn.dropOp) h.modOp.sayIn) (ih h.dropOp)
    · exact h
theorem finOp {id : Nat} {r : Reply} (h : Listens n s u) : Listens n s (finOp id r u) := by
  unfold Machine.finOp
  split
  · exact h
  · exact h.dropOp.finIn
theorem failOp {id : Nat} {e : Err} (h : Listens n s u) : Listens n s (failOp id e u) := h.finOp
theorem cycleSays {r : Reply} (h : Listens n s u) : Listens n s (cycleSays m r u) := by
  unfold Machine.cycleSays
  split
  · exact h
  · exact h.sayOp
theorem motionSays {r : Reply} (h : Listens n s u) : Listens n s (motionSays m r u) := by
  unfold Machine.motionSays
  split
  · exact h
  split
  · exact h
  · exact h.sayOp
theorem stopDone (h : Listens n s u) : Listens n s (stopDone m u) := h.forEach fun o v => by
  dsimp only
  split
  · exact ite (refl n v).finOp (refl n v).modOp
  · exact refl n v
theorem resumeDone (h : Listens n s u) : Listens n s (resumeDone m u) := h.forEach fun o v => by
  dsimp only
  split
  · exact ite (refl n v).finOp (refl n v).modOp
  · exact refl n v
theorem resumeFails {e : Err} (h : Listens n s u) : Listens n s (resumeFails m e u) := h.forEach fun _ v => (refl n v).failOp

/-! ## Stations, slots and records -/

theorem modStn {f : Station → Station} (h : Listens n s u) : Listens n s (u.modStn m f) := h.of_kept (modStn_kept u m f)
theorem modAx {f : Axis → Axis} (h : Listens n s u) : Listens n s (u.modAx m f) := h.modStn
theorem modEnt {k : Nat} {f : PoolEntry → PoolEntry} (h : Listens n s u) : Listens n s (u.modEnt k f) := h.of_kept (modEnt_kept u k f)
theorem sysDrop {k : Nat} (h : Listens n s u) : Listens n s (sysDrop m k u) := h.of_kept (sysDrop_kept m k u)
theorem dropCharge (h : Listens n s u) : Listens n s (dropCharge m u) := h.of_kept (dropCharge_kept m u)
theorem endWait (h : Listens n s u) : Listens n s (endWait m u) := h.of_kept (endWait_kept m u)

/-! ## The train, and standstill (R142, R143, R152) -/

theorem refill (h : Listens n s u) : Listens n s (refill m u) := h.modAx.of_kept (worked_kept _ _ _)
theorem loadNext (h : Listens n s u) : Listens n s (loadNext m u) := by
  have hd : Listens n s (if overloaded u = true then u.draw else (0, u)).2 := by
    split
    · exact h.of_kept (draw_kept u)
    · exact h
  unfold Machine.loadNext
  dsimp only
  split
  · exact h
  split
  · exact h
  split
  · exact h
  · exact (hd.modAx.of_kept (releaseStarted_kept _ _ _)).refill
theorem setCourse {l : List Seg} {f : Motion → Motion} (h : Listens n s u) : Listens n s (setCourse m l f u) :=
  (ite (h.modAx.of_kept (leafSegs_kept _ _ _)) h.modAx).refill.loadNext
theorem rampStop {d : Nat} {e : Ending} (h : Listens n s u) : Listens n s (rampStop m d e u) := by
  unfold Machine.rampStop
  dsimp only
  split
  · exact h
  · exact ite h.modAx (ite h.modAx h.setCourse)
theorem motionReply {r : Reply} (h : Listens n s u) : Listens n s (motionReply m r u) := by
  unfold Machine.motionReply
  split
  · exact h
  split
  · exact h
  · exact h.modAx.finOp
theorem axisStops (h : Listens n s u) : Listens n s (axisStops m u) := by
  have hw : Listens n s (Machine.dropCharge m (Machine.endWait m (u.modAx m fun a => { a with moving := false, ahead := [] }))) :=
    h.modAx.endWait.dropCharge
  have hend : ∀ {w}, Listens n s w → Listens n s (Machine.resumeDone m (Machine.stopDone m (if isLeaf w m then leafSegs m [] w else w))) :=
    fun hw => (ite (hw.of_kept (leafSegs_kept _ _ _)) hw).stopDone.resumeDone
  unfold Machine.axisStops
  dsimp only
  refine hend ?_
  split
  · exact hw
  split
  · split
    · exact (hw.of_kept (heldRem_kept _ _ _)).modAx.cycleSays.of_kept (markOps_kept _ _)
    · exact (hw.of_kept (heldRem_kept _ _ _)).modAx.motionSays.of_kept (markOps_kept _ _)
  · exact hw.motionReply.modAx
  · exact hw.modAx
theorem leafHeld (h : Listens n s u) : Listens n s (leafHeld m u) := ite (h.of_kept (leafRem_kept _ _)).cycleSays h
/-- A leaf that is to make no turn and does not reverse only comes to standstill. -/
theorem settleAxis (h : Listens n s u) (ht : turnOf (u.ax m) = none) (hr : (u.stn m).leaf ≠ .reversing) : Listens n s (settleAxis m u) := by
  have hheld : Listens n s (if ((u.ax m).motion.any doorKind) then Machine.leafHeld m (Machine.axisStops m u) else Machine.axisStops m u) :=
    ite h.axisStops.leafHeld h.axisStops
  have hwork : LeafWork m { u.stn m with wait := none } u
      (if ((u.ax m).motion.any doorKind) then Machine.leafHeld m (Machine.axisStops m u) else Machine.axisStops m u) := (LeafWork.refl m u).stopsHeld _
  refine ite ?_ h
  unfold standstill
  dsimp only
  rw [show (u.ax m).motion.bind (·.turn) = none from ht]
  split
  · unfold doorStands
    dsimp only
    rw [if_pos (.inl (by rw [hwork.field Station.leaf]; exact hr))]
    exact hheld
  · exact h.axisStops

/-! ## The leaf's states (R169, R174, R175, R181) -/

theorem clearTimers (h : Listens n s u) : Listens n s (clearTimers m u) := h.modStn.sysDrop.sysDrop.sysDrop
theorem disarm (h : Listens n s u) : Listens n s (disarm m u) := h.modStn.sysDrop.sysDrop
theorem ask {w : Sw} {c : LoadCmd} (h : Listens n s u) : Listens n s (ask m w c u) := h.modStn
theorem askOn {w : Sw} (h : Listens n s u) : Listens n s (askOn m w u) := h.ask.modStn
theorem unlockOut {b : Bool} (h : Listens n s u) : Listens n s (unlockOut m b u) := h.modStn
theorem leafLamp (h : Listens n s u) : Listens n s (leafLamp m u) := by
  unfold Machine.leafLamp
  split
  · exact h
  · exact h.ask
theorem doorFeed {b : Bool} (h : Listens n s u) : Listens n s (doorFeed m b u) := by
  unfold Machine.doorFeed
  dsimp only
  split
  · exact ite h.askOn h.ask
  · exact ite (ite (ite h.askOn h.ask).askOn (ite h.askOn h.ask).ask) (ite h.askOn h.ask)
theorem setLeaf {x : Leaf} (h : Listens n s u) : Listens n s (setLeaf m x u) := by
  unfold Machine.setLeaf
  dsimp only
  refine doorFeed (leafLamp (ite (modStn ?_) ?_))
  all_goals
    refine ite (modStn (sysDrop (clearTimers (disarm ?_)))) (modEnt ?_)
    all_goals exact ite ((ite h.modStn.modStn h.modStn).of_kept (record_kept _ _ _ _)).modStn (ite h.modStn.modStn h.modStn)
theorem endSearch (h : Listens n s u) : Listens n s (endSearch m u) := by
  unfold Machine.endSearch
  dsimp only
  split
  · exact h
  split
  · exact h.modStn.dropCharge
  · exact ite h.modStn.dropCharge.rampStop h.modStn.dropCharge
theorem uncoupleStep (h : Listens n s u) : Listens n s (uncoupleStep m u) := by
  unfold Machine.uncoupleStep
  dsimp only
  split
  · exact h.endSearch.sysDrop
  split
  · exact ite h.endSearch.sysDrop.rampStop h.endSearch.sysDrop
  · exact h.endSearch.sysDrop
theorem finishDoor {id : Nat} (h : Listens n s u) : Listens n s (finishDoor id u) := by
  unfold Machine.finishDoor
  split
  · exact h
  split
  · split
    · exact h.finOp
    · split
      · exact h.failOp
      · exact h.failOp
  · exact h
theorem doorFailed {e : Err} {c : String} (h : Listens n s u) : Listens n s (doorFailed m e c u) := by
  unfold Machine.doorFailed
  split
  · exact h
  · exact h.modStn.sayOp.modOp.finishDoor

/-! ## A reference set (R71, R75) -/

theorem judge {k : Nat} {tb : TB} (h : Listens n s u) : Listens n s (judge k tb u) := by
  have hreport : ∀ {w}, Listens n s w → Listens n s (match opAt w k with
      | none => w
      | some o => Machine.say o.ctx (colR "armed" [.tb tb]) w) := fun hw => by
    split
    · exact hw
    · exact hw.sayIn
  unfold Machine.judge
  dsimp only
  split
  · exact h.modEnt
  split
  · split
    · exact h.modEnt.of_kept (joinRow_kept _ _)
    · exact hreport h.modEnt
    · split
      · exact h.modEnt
      · exact h.finOp
  · exact hreport h.modEnt
theorem referenceSet {p : Int} {i : Option Int} (h : Listens n s u) : Listens n s (referenceSet m p i u) :=
  h.modAx.forEach fun _ v => (refl n v).judge

end Listens

/-- A final reply of a session's own line stands last in its buffer, where nothing was held back. -/
theorem fin_last {n : Nat} {l : Line} {s g w : State} {r : Reply} (hin : LineReady n l s g) (h : Listens n g w) (hr : r.pre ≠ .tilde) :
    lastAnswer n l s (fin (lineCtx l s) r w) r := by
  obtain ⟨_, -, t, hown⟩ := fin_line (lineCtx l s) n r w hin.port rfl
  obtain ⟨y, hy⟩ := hin.heard.own
  have hpart : linePart (w.ses n) = linePart (s.ses n) := (h (by rw [hy]; exact hin.free)).trans (by rw [hy]; rfl)
  obtain ⟨hst, hb, hcheck, hmode⟩ := linePart_congr hpart
  unfold lastAnswer
  rw [hown, if_neg (by simp [hst, hin.opn]), Session.put, putFor_unheld (hb.trans hin.free) (by exact hr)]
  simp [shown, hcheck, hmode, lineCtx]

end Sys2Proof.Machine
end

section
-- One declaration at a time: the whole text elaborated side by side outgrows the memory a check may take.
set_option Elab.async false
/-! PROOF. ISOLATE (R203): a leaf leaves the evaluation set, and returns to it. -/

namespace Sys2Proof.Machine

open Sys2Proof

variable {k n m : Nat} {c : Ctx} {s u v : State}

/-! ## ISOLATE ON -/

/-- A leaf is ISOLATED and its drive stops HARD; what waited for it, and its motion's command, end (R203). -/
def standsIsolated (n : Nat) (s : State) : State :=
  hardStop n .done (setLeaf n .isolated (motionReply n (errR { code := 70 }) (uncoupleStep n (resumeFails n { code := 70 } (dropCharge n (endWait n s))))))
/-- A station whose motion is to make no turn. -/
def turnless (a : Axis) : Axis := { a with motion := a.motion.map fun x => { x with turn := none } }
theorem turnless_turn (s : State) (n : Nat) : turnOf ((s.modAx n turnless).ax n) = none := by
  rw [ax_modAx, if_pos rfl]
  unfold turnOf turnless
  cases (s.ax n).motion <;> rfl
theorem LeafWork.turnless (n : Nat) (s : State) : LeafWork n (s.stn n) s (s.modAx n turnless) :=
  (LeafWork.refl n s).modAx (.inl rfl) ⟨rfl, rfl⟩ fun _ _ => by
    unfold turnOf Machine.turnless
    cases (s.ax n).motion <;> rfl
theorem standsIsolated_works (n : Nat) (s : State) : ∃ t, t.leaf = .isolated ∧ LeafWork n t s (standsIsolated n s) := by
  have h : LeafWork n { s.stn n with wait := none } s (resumeFails n { code := 70 } (dropCharge n (endWait n s))) :=
    ((LeafWork.refl n s).endWait.books (Books.refl _).dropCharge).books (Books.refl _).resumeFails
  exact ⟨_, by simp, (h.uncoupleStep.motionReply.setLeaf .isolated).hardStop⟩
theorem masks_kept (s : State) : KeptBut [.camp] s (setMasks .b (setMasks .a s)) :=
  (setMasks_commands .a s).1.trans (setMasks_commands .b _).1
/-- A leaf that is isolated is ISOLATED, and no other leaf changes its state. -/
theorem isolateLeaf_leaf (c : Ctx) (n m : Nat) (s : State) : ((isolateLeaf c n s).stn m).leaf = if m = n then .isolated else (s.stn m).leaf := by
  by_cases hn : (s.stn n).leaf = .isolated
  · rw [isolateLeaf, if_pos hn]
    split
    · next h => rw [h, hn]
    · rfl
  · obtain ⟨t, ht, h1⟩ := standsIsolated_works n (s.modAx n turnless)
    obtain ⟨w, _, h2⟩ := h1.settleAxis_stays (turnless_turn s n) (by simp [ht])
    have hend : ∀ y, LeafWork n { t with wait := w } (s.modAx n turnless) y → ((doorFailed n { code := 70 } "isolated" (y.modStn n fun t =>
        { t with kept := none, atZone := false, reopened := false, learning := none })).stn m).leaf = if m = n then .isolated else (s.stn m).leaf := by
      intro y hy
      have h3 := ((LeafWork.turnless n s).trans (hy.modStn (f := fun t =>
        { t with kept := none, atZone := false, reopened := false, learning := none }))).doorFailed (e := { code := 70 }) (c := "isolated")
      have hp := congrArg Station.leaf (h3.parts m)
      refine Eq.trans hp ?_
      split
      · exact ht
      · rfl
    unfold isolateLeaf
    rw [if_neg hn]
    dsimp only
    rw [(record_kept _ _ _ _).stn (by simp), (masks_kept _).stn (by simp)]
    split
    · exact hend _ h2.unlockOut
    · exact hend _ (h2.unlockOut.books (Books.refl _).failOp)
theorem isolateLeaf_listens (c : Ctx) (n : Nat) (s : State) : Listens k s (isolateLeaf c n s) := by
  by_cases hn : (s.stn n).leaf = .isolated
  · rw [isolateLeaf, if_pos hn]
    exact Listens.refl k s
  · obtain ⟨t, ht, h1⟩ := standsIsolated_works n (s.modAx n turnless)
    have hstop : Listens k s (standsIsolated n (s.modAx n turnless)) := by
      unfold standsIsolated hardStop
      exact (Listens.refl k s).modAx.endWait.dropCharge.resumeFails.uncoupleStep.motionReply.setLeaf.modAx
    have hsettled := hstop.settleAxis (m := n) (h1.turn (turnless_turn s n)) (by rw [h1.field Station.leaf, ht]; decide)
    have hend : ∀ y, Listens k s y → Listens k s (setMasks .b (setMasks .a (doorFailed n { code := 70 } "isolated" (y.modStn n fun t =>
        { t with kept := none, atZone := false, reopened := false, learning := none })))) := fun y hy => hy.modStn.doorFailed.of_kept (masks_kept _)
    unfold isolateLeaf
    rw [if_neg hn]
    dsimp only
    refine Listens.of_kept ?_ (record_kept _ _ _ _)
    split
    · exact hend _ hsettled.unlockOut
    · exact hend _ hsettled.unlockOut.failOp

/-! ## ISOLATE OFF -/

/-- A station whose leaf returns to the evaluation set, with its switches both made or not (R203). -/
def landed (made : Bool) (t : Station) : Station :=
  if t.leaf ≠ .isolated then t
  else if made then
    let t := entered .closedLocked { t with attempts := 0, cause := "" }
    { t with axis := { t.axis with pos := 0, referenced := true } }
  else entered .fault { t with cause := "isolated" }
theorem unisolateLeaf_works (n : Nat) (s : State) : LeafWork n (landed (bothMade s n) (s.stn n)) s (unisolateLeaf n s) := by
  have h := LeafWork.refl n s
  unfold unisolateLeaf landed
  refine h.choose (LeafWork.choose ?_ ?_)
  · exact ((h.modStn (f := fun t => { t with attempts := 0, cause := "" })).setLeaf .closedLocked).referenceSet
  · exact (h.modStn (f := fun t => { t with cause := "isolated" })).setLeaf .fault
theorem unisolateLeaf_listens (n : Nat) (s : State) : Listens k s (unisolateLeaf n s) :=
  (Listens.refl k s).ite (((Listens.refl k s).modStn.setLeaf.referenceSet).ite (Listens.refl k s).modStn.setLeaf)

/-- What ISOLATE OFF says of a leaf: its state, its cause, its attempts and its reference (R203). -/
def landPart (t : Station) : Leaf × String × Nat × Int × Bool := (t.leaf, t.cause, t.attempts, t.axis.pos, t.axis.referenced)
theorem landPart_doorPart {t t' : Station} (h : doorPart t = doorPart t') : landPart t = landPart t' := by
  have hland : landPart (doorPart t) = landPart (doorPart t') := by rw [h]
  exact hland
theorem landed_landPart (b : Bool) {t t' : Station} (h : landPart t = landPart t') : landPart (landed b t) = landPart (landed b t') := by
  simp only [landPart, Prod.mk.injEq] at h
  obtain ⟨hl, hc, ha, hp, hr⟩ := h
  cases b <;> simp only [landed, hl] <;> split <;> simp [landPart, *]
theorem landed_inputs (b : Bool) (t : Station) : (landed b t).inputs = t.inputs := by
  cases b <;> simp only [landed] <;> split <;> simp
theorem landed_leaf (b : Bool) (t : Station) : (landed b t).leaf ≠ .isolated := by
  cases b <;> simp only [landed] <;> split <;> simp_all
theorem landed_of_leaf {b : Bool} {t : Station} (h : t.leaf ≠ .isolated) : landed b t = t := if_pos h
/-- Leaves return one by one: each that is named lands by its own switches, and no other changes. -/
theorem forEach_unisolate (l : List Nat) (s : State) (m : Nat) :
    landPart ((forEach l unisolateLeaf s).stn m) = landPart (if m ∈ l then landed (bothMade s m) (s.stn m) else s.stn m) := by
  induction l generalizing s with
  | nil => rfl
  | cons n l ih =>
    have h := unisolateLeaf_works n s
    have hboth : bothMade (unisolateLeaf n s) m = bothMade s m := h.bothMade (landed_inputs _ _) m
    have hpart := landPart_doorPart (h.parts m)
    rw [forEach_cons, ih, hboth]
    by_cases hn : m = n
    · rw [if_pos hn] at hpart
      subst hn
      have hgone : ((unisolateLeaf m s).stn m).leaf ≠ .isolated := by
        rw [h.field Station.leaf]
        exact landed_leaf _ _
      rw [landed_of_leaf hgone, ite_self, hpart, if_pos (by simp)]
    · rw [if_neg hn] at hpart
      simp only [List.mem_cons, hn, false_or]
      split
      · exact landed_landPart _ hpart
      · exact hpart

/-! ## The line -/

theorem isoNamed_congr (h : axisView u = axisView s) (sts : StSel) : isoNamed u sts = isoNamed s sts := axis_congr h (f := (isoNamed · sts)) fun _ => rfl
theorem isolateSpec_on (sts : StSel) (c : Ctx) (s : State) : (isolateSpec sts true).run c s =
    fin c (eqR "isolate" [.n (isoNamed s sts).length]) (forEach (isoNamed s sts) (isolateLeaf c) s) := rfl
theorem isolateSpec_off (sts : StSel) (c : Ctx) (s : State) : (isolateSpec sts false).run c s =
    fin c (eqR "isolate" [.n (isoNamed s sts).length]) (forEach (isoNamed s sts) unisolateLeaf s) := rfl
/-- Every leaf that is named is ISOLATED. -/
theorem forEach_isolate (c : Ctx) {l : List Nat} (s : State) (h : m ∈ l ∨ (s.stn m).leaf = .isolated) :
    ((forEach l (isolateLeaf c) s).stn m).leaf = .isolated := by
  induction l generalizing s with
  | nil => exact h.resolve_left (by simp)
  | cons n l ih =>
    rw [forEach_cons]
    refine ih _ ?_
    rw [isolateLeaf_leaf]
    split
    · exact .inr rfl
    · next hn => simpa [hn] using h

/-- Settles O26: a leaf isolated is ISOLATED and no other leaf changes (`isolateLeaf_leaf`), one that returns lands by its switches
(`forEach_unisolate`), and what is said on the way leaves the session listening (`fin_last`). -/
theorem isolateLeaves : Obligations.IsolateLeaves := by
  refine ⟨fun l sts n s h => does_of_taken h rfl ?_, fun l sts n s h => does_of_taken h rfl ?_⟩
  · have hin := lineReady_of_taken h
    have hk := lineGo_kept n l (isolateSpec sts true) s hin.port
    generalize lineGo n l (isolateSpec sts true) s = g at hin hk ⊢
    rw [isolateSpec_on, isoNamed_congr (axisView_congr hk)]
    obtain ⟨hfin, -, -⟩ := fin_line (lineCtx l s) n (eqR "isolate" [.n (isoNamed s sts).length]) (forEach (isoNamed s sts) (isolateLeaf (lineCtx l s)) g)
      hin.port rfl
    refine ⟨fun m hm => ?_, fin_last hin ((Listens.refl n g).forEach fun k v => isolateLeaf_listens _ k v) (by simp [eqR])⟩
    rw [hfin.stn (by simp)]
    exact forEach_isolate _ g (.inl hm)
  · have hin := lineReady_of_taken h
    have hk := lineGo_kept n l (isolateSpec sts false) s hin.port
    generalize lineGo n l (isolateSpec sts false) s = g at hin hk ⊢
    rw [isolateSpec_off, isoNamed_congr (axisView_congr hk)]
    obtain ⟨hfin, -, -⟩ := fin_line (lineCtx l s) n (eqR "isolate" [.n (isoNamed s sts).length]) (forEach (isoNamed s sts) unisolateLeaf g) hin.port rfl
    have hland : ∀ m ∈ isoNamed s sts, landPart ((fin (lineCtx l s) (eqR "isolate" [.n (isoNamed s sts).length])
        (forEach (isoNamed s sts) unisolateLeaf g)).stn m) = landPart (landed (bothMade s m) (s.stn m)) := fun m hm => by
      have hsw : ∀ x, inOn g m x = inOn s m x := inOn_congr (siteView_congr hk) (by rw [hk.stn (by decide)])
      have hboth : bothMade g m = bothMade s m := by rw [bothMade, bothMade, hsw, hsw]
      rw [hfin.stn (by simp), forEach_unisolate, if_pos hm, hboth, hk.stn (by decide)]
    refine ⟨fun m hm hl hmade => ?_, fun m hm hl hmade => ?_,
      fin_last hin ((Listens.refl n g).forEach fun k v => unisolateLeaf_listens k v) (by simp [eqR])⟩
    · have hpart := hland m hm
      simp only [landPart, landed, hl, hmade, Prod.mk.injEq] at hpart
      obtain ⟨hleaf, -, hatt, hpos, href⟩ := hpart
      exact ⟨by simpa using hleaf, by simpa [State.ax] using href, by simpa [State.ax] using hpos, by simpa using hatt⟩
    · have hpart := hland m hm
      simp only [landPart, landed, hl, hmade, Prod.mk.injEq] at hpart
      obtain ⟨hleaf, hcause, -⟩ := hpart
      exact ⟨by simpa using hleaf, by simpa using hcause⟩

end Sys2Proof.Machine
end
